-- ==== Sys2Proof/Word.lean ====
section
/-! DEFINITION. The word types of the SA4096 and the sorted association list used for every sparse store. -/

namespace Sys2Proof

/-- A byte of memory (R1). -/
abbrev Byte := BitVec 8

/-- One instruction word, or one lane register (R51, Table 3.6). -/
abbrev Word := BitVec 32

/-- One lead register, counter or completion value (Table 3.6). -/
abbrev DWord := BitVec 64

/-- A sparse store: keys strictly rising, so equal stores are equal lists. -/
abbrev SMap (α : Type) := List (Nat × α)

end Sys2Proof
end

