-- ==== Sys2Proof/Syntax.lean ====
section
/-! DEFINITION. The syntax of the machine: the fields of an instruction, the arguments of operations and events,
and `Instr`, one constructor per row of the table of operations. -/

namespace Sys2Proof

/-- The length code LEN (Table 3.1). -/
inductive Form where
  | w32 | w64 | w96 | w160
  deriving DecidableEq, Repr

/-- The fields of an instruction word (Tables 3.2, 3.3, 3.4, R55), at one fixed place for every engine. The high
parts of D, A and B stand with their low parts. An absent field holds its default (R56). -/
structure Fields where
  form : Form
  /-- The liveness word when SP is 1 (Table 3.8). -/
  live : Option Word
  t : Bool
  tb : Bool
  tc : Bool
  d : BitVec 11
  a : BitVec 11
  b : BitVec 11
  c : BitVec 11
  mod : BitVec 4
  fn : BitVec 8
  pn : Bool
  pm : BitVec 4
  imm : BitVec 19
  lit : BitVec 64
  deriving DecidableEq, Repr

/-- A thread that executes instructions: a warp slot of a core, or a lead-thread slot of a core (R141, R163). -/
inductive Thread where
  | warp (core slot : Nat)
  | lead (core slot : Nat)
  deriving DecidableEq, Repr

/-- The unit of pre-emption: a gang, or a continuation warp by its core and slot (R47). -/
inductive UnitId where
  | gang (uid : Nat)
  | loose (core slot : Nat)
  deriving DecidableEq, Repr

/-- What a boot stage reports: the failures it found, as (FAILCODE, unit, channel) (Table 1.8, R424). -/
structure BootResult where
  fails : List (Nat × Nat × Nat)
  deriving DecidableEq, Repr

/-- What the part learns of a firmware image when it verifies it (R20, R403, R424). -/
structure FwImage where
  version : Nat
  verifies : Bool
  /-- The range of state-table versions it can import covers the running one (R402). -/
  imports : Bool
  deriving DecidableEq, Repr

/-- The group of continuation records that may share a warp: context, task, CODE handle, ENTRY (R367). -/
structure GroupKey where
  ctx : Nat
  task : Nat
  code : Nat
  entry : Word
  deriving DecidableEq, Repr

/-- A Page Request Group Response (R419). -/
inductive PrgResponse where
  | success | invalid | failure
  deriving DecidableEq, Repr

/-- The status of a received PCIe completion (R449). -/
inductive CplStatus where
  | ok | poisoned | unsupported | abort
  deriving DecidableEq, Repr

/-- A fabric response: done, or an error response and its cause (R226, R450, R452, R454). -/
inductive PeerStatus where
  | ok | perm | unreachable | data
  deriving DecidableEq, Repr

/-- What a peer asks of this package (R452). -/
inductive PeerOp where
  | read (bytes : Nat)
  | write (data : List Byte)
  /-- An atomic, by its OP, MOD and FN, with its operand words (R239). -/
  | atomic (op mod fn : Nat) (operands : List Word)
  /-- A guard request, by its OP (Table 11.2) and mode (R139, R270). -/
  | guard (op : Nat) (shared : Bool)
  deriving DecidableEq, Repr

/-- An inbound fabric request (R452). -/
structure PeerRequest where
  endpoint : Nat
  peerId : Nat
  peerEp : Nat
  offset : Nat
  op : PeerOp
  deriving DecidableEq, Repr

/-- The registers whose write sets fields and does nothing else (R5; Tables 16.1, 18.1, 18.9). -/
inductive PlainReg where
  | evctl (qi : Nat)
  | alarmCfg
  | mbarg (n : Nat)
  | fpsel (vd : Nat)
  | fpthr (vd : Nat)
  deriving DecidableEq, Repr

/-- One constructor per row of the table of operations: the 190 instructions, each with its fields, and the 129
operations and events, each with what it names. -/
inductive Instr where
  /-- COLD_RESET (R20). -/
  | coldReset
  /-- BOOT_STAGE_COMPLETE (R21). -/
  | bootStageComplete (r : BootResult)
  /-- SADD (R146). -/
  | sadd (f : Fields)
  /-- SSUB (R146). -/
  | ssub (f : Fields)
  /-- SMUL (R146). -/
  | smul (f : Fields)
  /-- SMULH (R146). -/
  | smulh (f : Fields)
  /-- SDIV (R146). -/
  | sdiv (f : Fields)
  /-- SREM (R146). -/
  | srem (f : Fields)
  /-- SAND (R146). -/
  | sand (f : Fields)
  /-- SOR (R146). -/
  | sor (f : Fields)
  /-- SXOR (R146). -/
  | sxor (f : Fields)
  /-- SSHL (R146). -/
  | sshl (f : Fields)
  /-- SSHR (R146). -/
  | sshr (f : Fields)
  /-- SSRA (R146). -/
  | ssra (f : Fields)
  /-- SMIN (R146). -/
  | smin (f : Fields)
  /-- SMAX (R146). -/
  | smax (f : Fields)
  /-- SCMP (R147). -/
  | scmp (f : Fields)
  /-- SSEL (R148). -/
  | ssel (f : Fields)
  /-- SLI (R148). -/
  | sli (f : Fields)
  /-- SBITS (R149). -/
  | sbits (f : Fields)
  /-- SLD (R150). -/
  | sld (f : Fields)
  /-- SST (R150). -/
  | sst (f : Fields)
  /-- SBR (R153). -/
  | sbr (f : Fields)
  /-- SBC (R153). -/
  | sbc (f : Fields)
  /-- SCALL (R153). -/
  | scall (f : Fields)
  /-- SRET (R153). -/
  | sret (f : Fields)
  /-- SJMP (R153). -/
  | sjmp (f : Fields)
  /-- DQPUSH (R154). -/
  | dqpush (f : Fields)
  /-- SRDX (R155). -/
  | srdx (f : Fields)
  /-- SWRX (R155). -/
  | swrx (f : Fields)
  /-- SWAITQ (R156). -/
  | swaitq (f : Fields)
  /-- LBR (R168). -/
  | lbr (f : Fields)
  /-- LBRC (R168). -/
  | lbrc (f : Fields)
  /-- LCALL (R168). -/
  | lcall (f : Fields)
  /-- LRET (R168). -/
  | lret (f : Fields)
  /-- LJMP (R168). -/
  | ljmp (f : Fields)
  /-- UBR (R170). -/
  | ubr (f : Fields)
  /-- DQPOP (R170). -/
  | dqpop (f : Fields)
  /-- JOIN (R171). -/
  | join (f : Fields)
  /-- LEAVE (R171). -/
  | leave (f : Fields)
  /-- WAITJ (R172). -/
  | waitj (f : Fields)
  /-- JSET (R171). -/
  | jset (f : Fields)
  /-- JGET (R171). -/
  | jget (f : Fields)
  /-- BAR (R173). -/
  | bar (f : Fields)
  /-- GBAR (R173). -/
  | gbar (f : Fields)
  /-- EXIT (R175). -/
  | exit (f : Fields)
  /-- PARTSET (R177). -/
  | partset (f : Fields)
  /-- ELECT (R179). -/
  | elect (f : Fields)
  /-- TRAP (R185). -/
  | trap (f : Fields)
  /-- RTE (R182). -/
  | rte (f : Fields)
  /-- LPCRD (R186). -/
  | lpcrd (f : Fields)
  /-- IADD (R190). -/
  | iadd (f : Fields)
  /-- ISUB (R190). -/
  | isub (f : Fields)
  /-- IMUL (R190). -/
  | imul (f : Fields)
  /-- IMULH (R190). -/
  | imulh (f : Fields)
  /-- IMAD (R191). -/
  | imad (f : Fields)
  /-- IMADW (R191). -/
  | imadw (f : Fields)
  /-- IAND (R190). -/
  | iand (f : Fields)
  /-- IOR (R190). -/
  | ior (f : Fields)
  /-- IXOR (R190). -/
  | ixor (f : Fields)
  /-- ISHL (R190). -/
  | ishl (f : Fields)
  /-- ISHR (R190). -/
  | ishr (f : Fields)
  /-- ISRA (R190). -/
  | isra (f : Fields)
  /-- IMIN (R190). -/
  | imin (f : Fields)
  /-- IMAX (R190). -/
  | imax (f : Fields)
  /-- IABS (R190). -/
  | iabs (f : Fields)
  /-- ICMP (R192). -/
  | icmp (f : Fields)
  /-- ISEL (R192). -/
  | isel (f : Fields)
  /-- IPOP (R193). -/
  | ipop (f : Fields)
  /-- ICLZ (R193). -/
  | iclz (f : Fields)
  /-- IBREV (R193). -/
  | ibrev (f : Fields)
  /-- IPERM (R193). -/
  | iperm (f : Fields)
  /-- IBFE (R193). -/
  | ibfe (f : Fields)
  /-- IBFI (R193). -/
  | ibfi (f : Fields)
  /-- IADDS (R190). -/
  | iadds (f : Fields)
  /-- ISUBS (R190). -/
  | isubs (f : Fields)
  /-- IDP4 (R191). -/
  | idp4 (f : Fields)
  /-- IDP2 (R191). -/
  | idp2 (f : Fields)
  /-- IMOV (R193). -/
  | imov (f : Fields)
  /-- SHFL (R195). -/
  | shfl (f : Fields)
  /-- VOTE (R196). -/
  | vote (f : Fields)
  /-- REDI (R197). -/
  | redi (f : Fields)
  /-- SCANI (R197). -/
  | scani (f : Fields)
  /-- MLOG (R198). -/
  | mlog (f : Fields)
  /-- MMOV (R198). -/
  | mmov (f : Fields)
  /-- FADD (R200). -/
  | fadd (f : Fields)
  /-- FSUB (R200). -/
  | fsub (f : Fields)
  /-- FMUL (R200). -/
  | fmul (f : Fields)
  /-- FFMA (R200). -/
  | ffma (f : Fields)
  /-- FMIN (R201). -/
  | fmin (f : Fields)
  /-- FMAX (R201). -/
  | fmax (f : Fields)
  /-- FCMP (R202). -/
  | fcmp (f : Fields)
  /-- FSGN (R203). -/
  | fsgn (f : Fields)
  /-- FCVT (R204). -/
  | fcvt (f : Fields)
  /-- FCLASS (R203). -/
  | fclass (f : Fields)
  /-- FSCALE (R200). -/
  | fscale (f : Fields)
  /-- HADD2 (R200). -/
  | hadd2 (f : Fields)
  /-- HMUL2 (R200). -/
  | hmul2 (f : Fields)
  /-- HFMA2 (R200). -/
  | hfma2 (f : Fields)
  /-- BADD2 (R200). -/
  | badd2 (f : Fields)
  /-- BMUL2 (R200). -/
  | bmul2 (f : Fields)
  /-- BFMA2 (R200). -/
  | bfma2 (f : Fields)
  /-- REDF (R206). -/
  | redf (f : Fields)
  /-- FDOT2 (R205). -/
  | fdot2 (f : Fields)
  /-- RCP (R208). -/
  | rcp (f : Fields)
  /-- RSQ (R208). -/
  | rsq (f : Fields)
  /-- SQRT (R208). -/
  | sqrt (f : Fields)
  /-- EXP2 (R208). -/
  | exp2 (f : Fields)
  /-- LOG2 (R208). -/
  | log2 (f : Fields)
  /-- SINPI (R208). -/
  | sinpi (f : Fields)
  /-- COSPI (R208). -/
  | cospi (f : Fields)
  /-- TANH (R208). -/
  | tanh (f : Fields)
  /-- SIGM (R208). -/
  | sigm (f : Fields)
  /-- FDIV (R208). -/
  | fdiv (f : Fields)
  /-- IDIV (R208). -/
  | idiv (f : Fields)
  /-- IREM (R208). -/
  | irem (f : Fields)
  /-- LD (R225). -/
  | ld (f : Fields)
  /-- ST (R225). -/
  | st (f : Fields)
  /-- LDT (R230). -/
  | ldt (f : Fields)
  /-- STT (R230). -/
  | stt (f : Fields)
  /-- TALLOC (R231). -/
  | talloc (f : Fields)
  /-- TFREE (R232). -/
  | tfree (f : Fields)
  /-- TQUERY (R233). -/
  | tquery (f : Fields)
  /-- HQUERY (R234). -/
  | hquery (f : Fields)
  /-- WAITA (R235). -/
  | waita (f : Fields)
  /-- PREF (R236). -/
  | pref (f : Fields)
  /-- FENCE (R237). -/
  | fence (f : Fields)
  /-- AADD (R247). -/
  | aadd (f : Fields)
  /-- AAND (R247). -/
  | aand (f : Fields)
  /-- AOR (R247). -/
  | aor (f : Fields)
  /-- AXOR (R247). -/
  | axor (f : Fields)
  /-- AMIN (R247). -/
  | amin (f : Fields)
  /-- AMAX (R247). -/
  | amax (f : Fields)
  /-- AXCHG (R247). -/
  | axchg (f : Fields)
  /-- ACAS (R247). -/
  | acas (f : Fields)
  /-- AINC (R247). -/
  | ainc (f : Fields)
  /-- ADEC (R247). -/
  | adec (f : Fields)
  /-- AFADD (R247). -/
  | afadd (f : Fields)
  /-- RED (R248). -/
  | red (f : Fields)
  /-- BINIT (R252). -/
  | binit (f : Fields)
  /-- ARRIVE (R252). -/
  | arrive (f : Fields)
  /-- BWAIT (R253). -/
  | bwait (f : Fields)
  /-- MOVE (R268). -/
  | move (f : Fields)
  /-- OWNQ (R269). -/
  | ownq (f : Fields)
  /-- GACQ (R271). -/
  | gacq (f : Fields)
  /-- GTRY (R271). -/
  | gtry (f : Fields)
  /-- GREL (R272). -/
  | grel (f : Fields)
  /-- LEASE (R285). -/
  | lease (f : Fields)
  /-- UNLEASE (R287). -/
  | unlease (f : Fields)
  /-- PUBLISH (R278). -/
  | publish (f : Fields)
  /-- DISCARD (R279). -/
  | discard (f : Fields)
  /-- LBIND (R298). -/
  | lbind (f : Fields)
  /-- LUNBIND (R299). -/
  | lunbind (f : Fields)
  /-- LADD (R301). -/
  | ladd (f : Fields)
  /-- LSUB (R301). -/
  | lsub (f : Fields)
  /-- LNEG (R301). -/
  | lneg (f : Fields)
  /-- LSHL (R301). -/
  | lshl (f : Fields)
  /-- LSHR (R301). -/
  | lshr (f : Fields)
  /-- LSRA (R301). -/
  | lsra (f : Fields)
  /-- LCMP (R301). -/
  | lcmp (f : Fields)
  /-- LMULW (R301). -/
  | lmulw (f : Fields)
  /-- LMONT (R301). -/
  | lmont (f : Fields)
  /-- LCARRY (R303). -/
  | lcarry (f : Fields)
  /-- LSTAT (R303). -/
  | lstat (f : Fields)
  /-- WLOAD (R325). -/
  | wload (f : Fields)
  /-- WDROP (R326). -/
  | wdrop (f : Fields)
  /-- WCHECK (R327). -/
  | wcheck (f : Fields)
  /-- MXFENCE (R319). -/
  | mxfence (f : Fields)
  /-- MXISSUE (R322). -/
  | mxissue (f : Fields)
  /-- MXWAIT (R320). -/
  | mxwait (f : Fields)
  /-- ACCZERO (R328). -/
  | acczero (f : Fields)
  /-- ACCRD (R329). -/
  | accrd (f : Fields)
  /-- ACCWR (R329). -/
  | accwr (f : Fields)
  /-- ACCDRAIN (R331). -/
  | accdrain (f : Fields)
  /-- MXSTAT (R332). -/
  | mxstat (f : Fields)
  /-- CPY (R343). -/
  | cpy (f : Fields)
  /-- CPYG (R346). -/
  | cpyg (f : Fields)
  /-- CPYS (R346). -/
  | cpys (f : Fields)
  /-- CPYF (R345). -/
  | cpyf (f : Fields)
  /-- CKPT (R355). -/
  | ckpt (f : Fields)
  /-- CKLOAD (R356). -/
  | ckload (f : Fields)
  /-- CPYQ (R352). -/
  | cpyq (f : Fields)
  /-- CPYCAN (R352). -/
  | cpycan (f : Fields)
  /-- CONT (R365). -/
  | cont (f : Fields)
  /-- CWAIT (R370). -/
  | cwait (f : Fields)
  /-- YIELD (R372). -/
  | yield (f : Fields)
  /-- GETID (R363). -/
  | getid (f : Fields)
  /-- NOP (R185). -/
  | nop (f : Fields)
  /-- CTRRD (R210). -/
  | ctrrd (f : Fields)
  /-- BRK (R185). -/
  | brk (f : Fields)
  /-- MEASURE (R398). -/
  | measure (f : Fields)
  /-- FPEVRD (R212). -/
  | fpevrd (f : Fields)
  /-- PRODUCER_WRITEBACK (R68). -/
  | producerWriteback (th : Thread) (n : Nat)
  /-- HOME_DIRECTORY_REQUEST (R282). -/
  | homeDirectoryRequest (core line : Nat)
  /-- ATOMIC_REQUEST_PERFORM (R247). -/
  | atomicRequestPerform (id : Nat)
  /-- BWAIT_RETRY (R254). -/
  | bwaitRetry (id : Nat)
  /-- BADGER_CREDIT_RELEASE (R256). -/
  | badgerCreditRelease (id : Nat)
  /-- REPLY_ARRIVAL (R258). -/
  | replyArrival (id : Nat)
  /-- GUARD_REQUEST_RETRY (R273). -/
  | guardRequestRetry (id : Nat)
  /-- RELEASE_WRITEBACK_COMPLETE (R280). -/
  | releaseWritebackComplete (id : Nat)
  /-- FORCED_PUBLISH (R277). -/
  | forcedPublish (objAddr : Nat)
  /-- LEASE_GRANT (R285). -/
  | leaseGrant (core slot : Nat)
  /-- MATRIX_COMMAND_START (R317). -/
  | matrixCommandStart (core slot : Nat)
  /-- MATRIX_COMMAND_COMPLETE (R318). -/
  | matrixCommandComplete (core slot : Nat)
  /-- COPY_START (R337). -/
  | copyStart (core slot : Nat)
  /-- COPY_COMPLETE (R349). -/
  | copyComplete (core slot ticket : Nat)
  /-- GANG_PLACEMENT (R358). -/
  | gangPlacement (task cluster : Nat)
  /-- CONTINUATION_GATHER_TIMEOUT (R367). -/
  | continuationGatherTimeout (cluster : Nat) (key : GroupKey)
  /-- CONTINUATION_PLACEMENT (R368). -/
  | continuationPlacement (id core : Nat)
  /-- CONTINUATION_REMOTE_PLACEMENT (R367). -/
  | continuationRemotePlacement (id core : Nat)
  /-- OVERFLOW_RECORD_RETURN (R369). -/
  | overflowRecordReturn (ctx : Nat)
  /-- PARKED_UNIT_SAVE (R371). -/
  | parkedUnitSave (u : UnitId)
  /-- PARKED_UNIT_RESTORE (R371). -/
  | parkedUnitRestore (img cluster : Nat)
  /-- GANG_SAVE_COMPLETE (R376). -/
  | gangSaveComplete (u : UnitId)
  /-- GANG_RESTORE (R376). -/
  | gangRestore (img cluster : Nat)
  /-- KICK_LAUNCH (R386). -/
  | kickLaunch (qi : Nat)
  /-- NOP_PACKET (R382). -/
  | nopPacket (qi : Nat)
  /-- LAUNCH (R387). -/
  | launch (qi : Nat)
  /-- IB_CALL (R384). -/
  | ibCall (qi : Nat)
  /-- SET_HANDLE (R216). -/
  | setHandle (qi : Nat)
  /-- WRITE_DATA (R382). -/
  | writeData (qi : Nat)
  /-- WAIT_VALUE (R382). -/
  | waitValue (qi : Nat)
  /-- WAIT_VALUE_SATISFIED (R383). -/
  | waitValueSatisfied (qi : Nat)
  /-- SIGNAL (R382). -/
  | signal (qi : Nat)
  /-- GRAPH_REG (R388). -/
  | graphReg (qi : Nat)
  /-- GRAPH_DROP (R389). -/
  | graphDrop (qi : Nat)
  /-- FREQ_HINT (R391). -/
  | freqHint (qi : Nat)
  /-- MEASURE_PACKET (R397). -/
  | measurePacket (qi : Nat)
  /-- RECEIPT (R399). -/
  | receipt (qi : Nat)
  /-- FENCE_PACKET (R382). -/
  | fencePacket (qi : Nat)
  /-- INVALID_PACKET (R382). -/
  | invalidPacket (qi : Nat)
  /-- TASK_DEPENDENCE_RELEASE (R390). -/
  | taskDependenceRelease (task : Nat)
  /-- MEASURE_HASHING (R397). -/
  | measureHashing (task : Nat)
  /-- TASK_COMPLETION_POINT (R32). -/
  | taskCompletionPoint (task : Nat)
  /-- PAGE_WALK_COMPLETE (R409). -/
  | pageWalkComplete (id : Nat)
  /-- INVALIDATION_COMPLETE (R413). -/
  | invalidationComplete (vd : Nat)
  /-- FAULT_RECORD_DEFERRED_WRITE (R414). -/
  | faultRecordDeferredWrite (vd : Nat)
  /-- ENGINE_DRAIN_DONE (R440). -/
  | engineDrainDone (ctx engine : Nat)
  /-- RECEIPT_SIGNATURE_COMPLETE (R401). -/
  | receiptSignatureComplete (qi : Nat)
  /-- THROTTLE_THRESHOLD_CROSSED (R12). -/
  | throttleThresholdCrossed (die temp : Nat)
  /-- THROTTLE_RECOVERY (R12). -/
  | throttleRecovery (die temp : Nat)
  /-- TRIP_THRESHOLD_CROSSED (R12). -/
  | tripThresholdCrossed (die temp : Nat)
  /-- FLR (R25). -/
  | flr
  /-- CLOCK_CLASS_CHANGE_DONE (R18). -/
  | clockClassChangeDone
  /-- LEASE_EXPIRY (R288). -/
  | leaseExpiry (core line : Nat)
  /-- DIE_ISOLATION (R291). -/
  | dieIsolation (die : Nat)
  /-- MATRIX_ENGINE_HANG (R335). -/
  | matrixEngineHang (core slot : Nat)
  /-- MACRO_CRC_SCRUB (R455). -/
  | macroCrcScrub (core : Nat) (bad : List (Nat × Nat))
  /-- GANG_RESERVATION (R357). -/
  | gangReservation (task cluster : Nat)
  /-- PREEMPTION_DECISION (R373). -/
  | preemptionDecision (u : UnitId)
  /-- FULL_SAVE_TIMEOUT (R49). -/
  | fullSaveTimeout (u : UnitId)
  /-- DRAIN_DEADLINE_EXPIRY (R373). -/
  | drainDeadlineExpiry (u : UnitId)
  /-- OWL_SCAN (R377). -/
  | owlScan (u : UnitId)
  /-- MAXRUN_OVERRUN (R433). -/
  | maxrunOverrun (u : UnitId)
  /-- KICK (R385). -/
  | kick (qi : Nat) (word : Word)
  /-- PWPTR_WRITE (R380). -/
  | pwptrWrite (qi : Nat) (v : Word)
  /-- EVRPTR_WRITE (R393). -/
  | evrptrWrite (qi : Nat) (v : Word)
  /-- QSTAT_CLEAR (R379). -/
  | qstatClear (qi : Nat) (v : Word)
  /-- EVENT_INTERRUPT_TIMER (R395). -/
  | eventInterruptTimer (qi : Nat)
  /-- LIVE_UPDATE_TAKEOVER (R403). -/
  | liveUpdateTakeover
  /-- LIVE_UPDATE_ROLLBACK (R403). -/
  | liveUpdateRollback
  /-- ACTIVE_COMPLEX_FAILURE (R404). -/
  | activeComplexFailure
  /-- MGMT_RING (R423). -/
  | mgmtRing (tag : Byte)
  /-- INFO_READ (R424). -/
  | infoRead (tag : Byte)
  /-- PKG_RESET (R424). -/
  | pkgReset (tag : Byte)
  /-- VD_CREATE (R426). -/
  | vdCreate (tag : Byte)
  /-- VD_ADMIT (R431). -/
  | vdAdmit (tag : Byte)
  /-- VD_RESIZE (R434). -/
  | vdResize (tag : Byte)
  /-- VD_EVICT (R423). -/
  | vdEvict (tag : Byte)
  /-- VD_RESET (R423). -/
  | vdReset (tag : Byte)
  /-- VD_DESTROY (R444). -/
  | vdDestroy (tag : Byte)
  /-- CTX_CREATE (R423). -/
  | ctxCreate (tag : Byte)
  /-- CTX_KILL (R440). -/
  | ctxKill (tag : Byte)
  /-- CTX_DESTROY (R423). -/
  | ctxDestroy (tag : Byte)
  /-- CTX_SETROOT (R423). -/
  | ctxSetroot (tag : Byte)
  /-- QI_BIND (R435). -/
  | qiBind (tag : Byte)
  /-- QI_UNBIND (R423). -/
  | qiUnbind (tag : Byte)
  /-- QI_RESTART (R423). -/
  | qiRestart (tag : Byte)
  /-- ALARM_CLEAR (R439). -/
  | alarmClear (tag : Byte)
  /-- FW_IMAGE (R403). -/
  | fwImage (tag : Byte) (img : FwImage)
  /-- FW_RECOVER (R424). -/
  | fwRecover (tag : Byte) (img : FwImage)
  /-- EP_SET (R451). -/
  | epSet (tag : Byte)
  /-- DIE_RESET (R457). -/
  | dieReset (tag : Byte)
  /-- RCPT_KEY (R424). -/
  | rcptKey (tag : Byte)
  /-- MAILBOX_BAD_OPCODE (R423). -/
  | mailboxBadOpcode (word : Word)
  /-- MGRPTR_WRITE (R421). -/
  | mgrptrWrite (v : Word)
  /-- MGDROP_CLEAR (R421). -/
  | mgdropClear (v : Word)
  /-- INVSUB (R437). -/
  | invsub (vd : Nat) (v : DWord)
  /-- FRESP (R415). -/
  | fresp (vd : Nat) (v : Word)
  /-- FQRPTR_WRITE (R414). -/
  | fqrptrWrite (vd : Nat) (v : Word)
  /-- QRESTART (R437). -/
  | qrestart (vd : Nat) (v : Word)
  /-- PLAIN_REGISTER_WRITE (R5). -/
  | plainRegisterWrite (r : PlainReg) (v : DWord)
  /-- HB_PAGE_SERVICE_COMPLETE (R418). -/
  | hbPageServiceComplete (id : Nat) (victims : List Nat) (region : Option Nat) (data : List Byte)
  /-- ATS_TRANSLATION_COMPLETION (R419). -/
  | atsTranslationCompletion (id : Nat) (t : Option (Nat × Nat))
  /-- PAGE_REQUEST_GROUP_RESPONSE (R419). -/
  | pageRequestGroupResponse (id : Nat) (r : PrgResponse)
  /-- ATS_INVALIDATION_REQUEST (R420). -/
  | atsInvalidationRequest (hub pasid page pages : Nat)
  /-- ATS_INVALIDATION_COMPLETION (R420). -/
  | atsInvalidationCompletion (hub : Nat)
  /-- PCIE_COMPLETION (R449). -/
  | pcieCompletion (id : Nat) (r : CplStatus) (data : List Byte)
  /-- PCIE_COMPLETION_TIMEOUT (R449). -/
  | pcieCompletionTimeout (id : Nat)
  /-- INBOUND_POISONED_REQUEST (R449). -/
  | inboundPoisonedRequest (hub : Nat)
  /-- CIHAM_INBOUND_REQUEST (R452). -/
  | cihamInboundRequest (r : PeerRequest)
  /-- CIHAM_RESPONSE (R450). -/
  | cihamResponse (id : Nat) (r : PeerStatus) (data : List Byte)
  /-- CIHAM_REQUEST_TIMEOUT (R450). -/
  | cihamRequestTimeout (id : Nat)
  /-- FLIT_CRC_ERROR (R446). -/
  | flitCrcError (link : Nat)
  /-- LINK_MODULE_FAILURE (R446). -/
  | linkModuleFailure (link : Nat)
  /-- LINK_RETRAIN_COMPLETE (R446). -/
  | linkRetrainComplete (link : Nat)
  /-- CLOCK_SUPPLY_GLITCH (R439). -/
  | clockSupplyGlitch (hub : Nat)
  /-- KILL_DRAIN_TIMEOUT (R442). -/
  | killDrainTimeout (ctx engine : Nat)
  /-- DIE_UNITS_SAVED (R458). -/
  | dieUnitsSaved (die : Nat)
  /-- DIE_QUIESCED (R458). -/
  | dieQuiesced (die : Nat)
  /-- DIE_WRITEBACK_DONE (R458). -/
  | dieWritebackDone (die : Nat)
  /-- DIE_SELFTEST_DONE (R458). -/
  | dieSelftestDone (die : Nat) (ok : Bool)
  /-- DIE_LINK_RETRAINED (R458). -/
  | dieLinkRetrained (die : Nat) (ok : Bool)
  /-- STANDBY_IMPORT_COMPLETE (R403). -/
  | standbyImportComplete (ok : Bool)
  /-- VD_SCRUB_COMPLETE (R444). -/
  | vdScrubComplete (vd : Nat)
  /-- PRI_REENABLE (R419). -/
  | priReenable (hub : Nat)
  /-- METERING_WINDOW_END (R432). -/
  | meteringWindowEnd
  /-- DIE_SAVE_DEADLINE_EXPIRY (R458). -/
  | dieSaveDeadlineExpiry (die : Nat) (u : UnitId)
  /-- HBM_CHANNEL_LEAVE_OR_REJOIN (R428). -/
  | hbmChannelLeaveOrRejoin (chan : Nat) (present : Bool)
  deriving DecidableEq, Repr

end Sys2Proof
end

