-- ==== Sys2Proof/Machine/Encoding.lean ====
section
/-! DEFINITION. The opcode map, and for every instruction the role of each of its fields: which register
namespace a field names, which MOD and FN values it takes, whether it takes an immediate, in which forms and
streams it stands (the encoding tables 6.3, 7.1, 8.1 to 8.3, 9.4, 10.2, 11.2, 12.2, 13.4, 14.1, 15.1). -/

namespace Sys2Proof

/-- The two instruction streams (R33). -/
inductive Stream where
  | lead | lane
  deriving DecidableEq, Repr

/-- What a register field names (Table 3.6). `sel` is a selector or an id, a number that is no register. -/
inductive Role where
  | unused
  /-- One vector register of each lane. -/
  | v
  /-- A pair of vector registers (R66). -/
  | vpair
  /-- Four vector registers from a multiple of 4 (R223). -/
  | vquad
  /-- Sixteen vector registers from a multiple of 4 (R364). -/
  | vrec
  | k | m | j | q | f
  | sel
  deriving DecidableEq, Repr

/-- What B = 2047 means (R60). -/
inductive ImmB where
  /-- ILLEGAL in any form. -/
  | never
  /-- IMM19 in the 96-bit form, LIT in the 160-bit form. -/
  | imm
  /-- IMM19 has a use of its own or none: LIT in the 160-bit form only. -/
  | litOnly
  /-- A branch target: B = 0 with a displacement, or B = 2047 with LIT (R153, R167). -/
  | target
  deriving DecidableEq, Repr

/-- How an instruction uses its fields. -/
structure Shape where
  d : Role := .unused
  a : Role := .unused
  b : Role := .unused
  c : Role := .unused
  immB : ImmB := .never
  /-- IMM19 has a use of its own (displacement, count, code). -/
  ownImm : Bool := false
  /-- MOD, FN, the form and the selectors are ones the instruction defines. -/
  ok : Bool := true
  /-- The lane stream may predicate it (R63). -/
  pred : Bool := true
  lead : Bool := false
  lane : Bool := true
  /-- It may run in a continuation warp (R39). -/
  loose : Bool := true
  deriving DecidableEq, Repr

/-- ENG and OP of an instruction, and its fields (Table 3.10); none for an operation or event. -/
def isaOf : Instr → Option (Nat × Nat × Fields)
  | .sadd f => some (0, 0, f)
  | .ssub f => some (0, 1, f)
  | .smul f => some (0, 2, f)
  | .smulh f => some (0, 3, f)
  | .sdiv f => some (0, 4, f)
  | .srem f => some (0, 5, f)
  | .sand f => some (0, 6, f)
  | .sor f => some (0, 7, f)
  | .sxor f => some (0, 8, f)
  | .sshl f => some (0, 9, f)
  | .sshr f => some (0, 10, f)
  | .ssra f => some (0, 11, f)
  | .smin f => some (0, 12, f)
  | .smax f => some (0, 13, f)
  | .scmp f => some (0, 14, f)
  | .ssel f => some (0, 15, f)
  | .sli f => some (0, 16, f)
  | .sbits f => some (0, 17, f)
  | .sld f => some (0, 18, f)
  | .sst f => some (0, 19, f)
  | .sbr f => some (0, 20, f)
  | .sbc f => some (0, 21, f)
  | .scall f => some (0, 22, f)
  | .sret f => some (0, 23, f)
  | .sjmp f => some (0, 24, f)
  | .dqpush f => some (0, 25, f)
  | .srdx f => some (0, 26, f)
  | .swrx f => some (0, 27, f)
  | .swaitq f => some (0, 28, f)
  | .lbr f => some (1, 0, f)
  | .lbrc f => some (1, 1, f)
  | .lcall f => some (1, 2, f)
  | .lret f => some (1, 3, f)
  | .ljmp f => some (1, 4, f)
  | .ubr f => some (1, 5, f)
  | .dqpop f => some (1, 6, f)
  | .join f => some (1, 7, f)
  | .leave f => some (1, 8, f)
  | .waitj f => some (1, 9, f)
  | .jset f => some (1, 10, f)
  | .jget f => some (1, 11, f)
  | .bar f => some (1, 12, f)
  | .gbar f => some (1, 13, f)
  | .exit f => some (1, 14, f)
  | .partset f => some (1, 15, f)
  | .elect f => some (1, 16, f)
  | .trap f => some (1, 17, f)
  | .rte f => some (1, 18, f)
  | .lpcrd f => some (1, 19, f)
  | .iadd f => some (2, 0, f)
  | .isub f => some (2, 1, f)
  | .imul f => some (2, 2, f)
  | .imulh f => some (2, 3, f)
  | .imad f => some (2, 4, f)
  | .imadw f => some (2, 5, f)
  | .iand f => some (2, 6, f)
  | .ior f => some (2, 7, f)
  | .ixor f => some (2, 8, f)
  | .ishl f => some (2, 9, f)
  | .ishr f => some (2, 10, f)
  | .isra f => some (2, 11, f)
  | .imin f => some (2, 12, f)
  | .imax f => some (2, 13, f)
  | .iabs f => some (2, 14, f)
  | .icmp f => some (2, 15, f)
  | .isel f => some (2, 16, f)
  | .ipop f => some (2, 17, f)
  | .iclz f => some (2, 18, f)
  | .ibrev f => some (2, 19, f)
  | .iperm f => some (2, 20, f)
  | .ibfe f => some (2, 21, f)
  | .ibfi f => some (2, 22, f)
  | .iadds f => some (2, 23, f)
  | .isubs f => some (2, 24, f)
  | .idp4 f => some (2, 25, f)
  | .idp2 f => some (2, 26, f)
  | .imov f => some (2, 27, f)
  | .shfl f => some (2, 28, f)
  | .vote f => some (2, 29, f)
  | .redi f => some (2, 30, f)
  | .scani f => some (2, 31, f)
  | .mlog f => some (2, 32, f)
  | .mmov f => some (2, 33, f)
  | .fadd f => some (3, 0, f)
  | .fsub f => some (3, 1, f)
  | .fmul f => some (3, 2, f)
  | .ffma f => some (3, 3, f)
  | .fmin f => some (3, 4, f)
  | .fmax f => some (3, 5, f)
  | .fcmp f => some (3, 6, f)
  | .fsgn f => some (3, 7, f)
  | .fcvt f => some (3, 8, f)
  | .fclass f => some (3, 9, f)
  | .fscale f => some (3, 10, f)
  | .hadd2 f => some (3, 11, f)
  | .hmul2 f => some (3, 12, f)
  | .hfma2 f => some (3, 13, f)
  | .badd2 f => some (3, 14, f)
  | .bmul2 f => some (3, 15, f)
  | .bfma2 f => some (3, 16, f)
  | .redf f => some (3, 17, f)
  | .fdot2 f => some (3, 18, f)
  | .rcp f => some (4, 0, f)
  | .rsq f => some (4, 1, f)
  | .sqrt f => some (4, 2, f)
  | .exp2 f => some (4, 3, f)
  | .log2 f => some (4, 4, f)
  | .sinpi f => some (4, 5, f)
  | .cospi f => some (4, 6, f)
  | .tanh f => some (4, 7, f)
  | .sigm f => some (4, 8, f)
  | .fdiv f => some (4, 9, f)
  | .idiv f => some (4, 10, f)
  | .irem f => some (4, 11, f)
  | .ld f => some (5, 0, f)
  | .st f => some (5, 1, f)
  | .ldt f => some (5, 2, f)
  | .stt f => some (5, 3, f)
  | .talloc f => some (5, 4, f)
  | .tfree f => some (5, 5, f)
  | .tquery f => some (5, 6, f)
  | .hquery f => some (5, 7, f)
  | .waita f => some (5, 8, f)
  | .pref f => some (5, 9, f)
  | .fence f => some (5, 10, f)
  | .aadd f => some (6, 0, f)
  | .aand f => some (6, 1, f)
  | .aor f => some (6, 2, f)
  | .axor f => some (6, 3, f)
  | .amin f => some (6, 4, f)
  | .amax f => some (6, 5, f)
  | .axchg f => some (6, 6, f)
  | .acas f => some (6, 7, f)
  | .ainc f => some (6, 8, f)
  | .adec f => some (6, 9, f)
  | .afadd f => some (6, 10, f)
  | .red f => some (6, 11, f)
  | .binit f => some (6, 12, f)
  | .arrive f => some (6, 13, f)
  | .bwait f => some (6, 14, f)
  | .move f => some (7, 0, f)
  | .ownq f => some (7, 1, f)
  | .gacq f => some (7, 2, f)
  | .gtry f => some (7, 3, f)
  | .grel f => some (7, 4, f)
  | .lease f => some (7, 5, f)
  | .unlease f => some (7, 6, f)
  | .publish f => some (7, 7, f)
  | .discard f => some (7, 8, f)
  | .lbind f => some (8, 0, f)
  | .lunbind f => some (8, 1, f)
  | .ladd f => some (8, 2, f)
  | .lsub f => some (8, 3, f)
  | .lneg f => some (8, 4, f)
  | .lshl f => some (8, 5, f)
  | .lshr f => some (8, 6, f)
  | .lsra f => some (8, 7, f)
  | .lcmp f => some (8, 8, f)
  | .lmulw f => some (8, 9, f)
  | .lmont f => some (8, 10, f)
  | .lcarry f => some (8, 11, f)
  | .lstat f => some (8, 12, f)
  | .wload f => some (9, 0, f)
  | .wdrop f => some (9, 1, f)
  | .wcheck f => some (9, 2, f)
  | .mxfence f => some (9, 3, f)
  | .mxissue f => some (9, 4, f)
  | .mxwait f => some (9, 5, f)
  | .acczero f => some (9, 6, f)
  | .accrd f => some (9, 7, f)
  | .accwr f => some (9, 8, f)
  | .accdrain f => some (9, 9, f)
  | .mxstat f => some (9, 10, f)
  | .cpy f => some (10, 0, f)
  | .cpyg f => some (10, 1, f)
  | .cpys f => some (10, 2, f)
  | .cpyf f => some (10, 3, f)
  | .ckpt f => some (10, 4, f)
  | .ckload f => some (10, 5, f)
  | .cpyq f => some (10, 6, f)
  | .cpycan f => some (10, 7, f)
  | .cont f => some (11, 0, f)
  | .cwait f => some (11, 1, f)
  | .yield f => some (11, 2, f)
  | .getid f => some (11, 3, f)
  | .nop f => some (12, 0, f)
  | .ctrrd f => some (12, 1, f)
  | .brk f => some (12, 2, f)
  | .measure f => some (12, 3, f)
  | .fpevrd f => some (12, 4, f)
  | .coldReset => none
  | .bootStageComplete _ => none
  | .throttleThresholdCrossed _ _ => none
  | .throttleRecovery _ _ => none
  | .tripThresholdCrossed _ _ => none
  | .flr => none
  | .clockClassChangeDone => none
  | .atomicRequestPerform _ => none
  | .bwaitRetry _ => none
  | .badgerCreditRelease _ => none
  | .replyArrival _ => none
  | .producerWriteback _ _ => none
  | .guardRequestRetry _ => none
  | .releaseWritebackComplete _ => none
  | .forcedPublish _ => none
  | .leaseGrant _ _ => none
  | .leaseExpiry _ _ => none
  | .dieIsolation _ => none
  | .matrixCommandStart _ _ => none
  | .matrixCommandComplete _ _ => none
  | .matrixEngineHang _ _ => none
  | .macroCrcScrub _ _ => none
  | .copyStart _ _ => none
  | .copyComplete _ _ _ => none
  | .gangPlacement _ _ => none
  | .gangReservation _ _ => none
  | .continuationGatherTimeout _ _ => none
  | .continuationPlacement _ _ => none
  | .continuationRemotePlacement _ _ => none
  | .overflowRecordReturn _ => none
  | .parkedUnitSave _ => none
  | .parkedUnitRestore _ _ => none
  | .preemptionDecision _ => none
  | .fullSaveTimeout _ => none
  | .drainDeadlineExpiry _ => none
  | .gangSaveComplete _ => none
  | .gangRestore _ _ => none
  | .owlScan _ => none
  | .maxrunOverrun _ => none
  | .kick _ _ => none
  | .kickLaunch _ => none
  | .pwptrWrite _ _ => none
  | .evrptrWrite _ _ => none
  | .qstatClear _ _ => none
  | .nopPacket _ => none
  | .launch _ => none
  | .ibCall _ => none
  | .setHandle _ => none
  | .writeData _ => none
  | .waitValue _ => none
  | .waitValueSatisfied _ => none
  | .signal _ => none
  | .graphReg _ => none
  | .graphDrop _ => none
  | .freqHint _ => none
  | .measurePacket _ => none
  | .receipt _ => none
  | .fencePacket _ => none
  | .invalidPacket _ => none
  | .taskDependenceRelease _ => none
  | .measureHashing _ => none
  | .taskCompletionPoint _ => none
  | .eventInterruptTimer _ => none
  | .liveUpdateTakeover => none
  | .liveUpdateRollback => none
  | .activeComplexFailure => none
  | .mgmtRing _ => none
  | .infoRead _ => none
  | .pkgReset _ => none
  | .vdCreate _ => none
  | .vdAdmit _ => none
  | .vdResize _ => none
  | .vdEvict _ => none
  | .vdReset _ => none
  | .vdDestroy _ => none
  | .ctxCreate _ => none
  | .ctxKill _ => none
  | .ctxDestroy _ => none
  | .ctxSetroot _ => none
  | .qiBind _ => none
  | .qiUnbind _ => none
  | .qiRestart _ => none
  | .alarmClear _ => none
  | .fwImage _ _ => none
  | .fwRecover _ _ => none
  | .epSet _ => none
  | .dieReset _ => none
  | .rcptKey _ => none
  | .mailboxBadOpcode _ => none
  | .mgrptrWrite _ => none
  | .mgdropClear _ => none
  | .invsub _ _ => none
  | .invalidationComplete _ => none
  | .fresp _ _ => none
  | .fqrptrWrite _ _ => none
  | .qrestart _ _ => none
  | .plainRegisterWrite _ _ => none
  | .pageWalkComplete _ => none
  | .faultRecordDeferredWrite _ => none
  | .hbPageServiceComplete _ _ _ _ => none
  | .atsTranslationCompletion _ _ => none
  | .pageRequestGroupResponse _ _ => none
  | .atsInvalidationRequest _ _ _ _ => none
  | .atsInvalidationCompletion _ => none
  | .pcieCompletion _ _ _ => none
  | .pcieCompletionTimeout _ => none
  | .inboundPoisonedRequest _ => none
  | .cihamInboundRequest _ => none
  | .cihamResponse _ _ _ => none
  | .cihamRequestTimeout _ => none
  | .flitCrcError _ => none
  | .linkModuleFailure _ => none
  | .linkRetrainComplete _ => none
  | .clockSupplyGlitch _ => none
  | .engineDrainDone _ _ => none
  | .killDrainTimeout _ _ => none
  | .dieUnitsSaved _ => none
  | .dieQuiesced _ => none
  | .dieWritebackDone _ => none
  | .dieSelftestDone _ _ => none
  | .dieLinkRetrained _ _ => none
  | .standbyImportComplete _ => none
  | .receiptSignatureComplete _ => none
  | .vdScrubComplete _ => none
  | .priReenable _ => none
  | .meteringWindowEnd => none
  | .dieSaveDeadlineExpiry _ _ => none
  | .homeDirectoryRequest _ _ => none
  | .hbmChannelLeaveOrRejoin _ _ => none

/-- The instruction that OP names in engine 0 (Table 3.10). -/
def ofOp0 (op : Nat) (f : Fields) : Option Instr :=
  match op with
  | 0 => some (.sadd f)
  | 1 => some (.ssub f)
  | 2 => some (.smul f)
  | 3 => some (.smulh f)
  | 4 => some (.sdiv f)
  | 5 => some (.srem f)
  | 6 => some (.sand f)
  | 7 => some (.sor f)
  | 8 => some (.sxor f)
  | 9 => some (.sshl f)
  | 10 => some (.sshr f)
  | 11 => some (.ssra f)
  | 12 => some (.smin f)
  | 13 => some (.smax f)
  | 14 => some (.scmp f)
  | 15 => some (.ssel f)
  | 16 => some (.sli f)
  | 17 => some (.sbits f)
  | 18 => some (.sld f)
  | 19 => some (.sst f)
  | 20 => some (.sbr f)
  | 21 => some (.sbc f)
  | 22 => some (.scall f)
  | 23 => some (.sret f)
  | 24 => some (.sjmp f)
  | 25 => some (.dqpush f)
  | 26 => some (.srdx f)
  | 27 => some (.swrx f)
  | 28 => some (.swaitq f)
  | _ => none

/-- The instruction that OP names in engine 1 (Table 3.10). -/
def ofOp1 (op : Nat) (f : Fields) : Option Instr :=
  match op with
  | 0 => some (.lbr f)
  | 1 => some (.lbrc f)
  | 2 => some (.lcall f)
  | 3 => some (.lret f)
  | 4 => some (.ljmp f)
  | 5 => some (.ubr f)
  | 6 => some (.dqpop f)
  | 7 => some (.join f)
  | 8 => some (.leave f)
  | 9 => some (.waitj f)
  | 10 => some (.jset f)
  | 11 => some (.jget f)
  | 12 => some (.bar f)
  | 13 => some (.gbar f)
  | 14 => some (.exit f)
  | 15 => some (.partset f)
  | 16 => some (.elect f)
  | 17 => some (.trap f)
  | 18 => some (.rte f)
  | 19 => some (.lpcrd f)
  | _ => none

/-- The instruction that OP names in engine 2 (Table 3.10). -/
def ofOp2 (op : Nat) (f : Fields) : Option Instr :=
  match op with
  | 0 => some (.iadd f)
  | 1 => some (.isub f)
  | 2 => some (.imul f)
  | 3 => some (.imulh f)
  | 4 => some (.imad f)
  | 5 => some (.imadw f)
  | 6 => some (.iand f)
  | 7 => some (.ior f)
  | 8 => some (.ixor f)
  | 9 => some (.ishl f)
  | 10 => some (.ishr f)
  | 11 => some (.isra f)
  | 12 => some (.imin f)
  | 13 => some (.imax f)
  | 14 => some (.iabs f)
  | 15 => some (.icmp f)
  | 16 => some (.isel f)
  | 17 => some (.ipop f)
  | 18 => some (.iclz f)
  | 19 => some (.ibrev f)
  | 20 => some (.iperm f)
  | 21 => some (.ibfe f)
  | 22 => some (.ibfi f)
  | 23 => some (.iadds f)
  | 24 => some (.isubs f)
  | 25 => some (.idp4 f)
  | 26 => some (.idp2 f)
  | 27 => some (.imov f)
  | 28 => some (.shfl f)
  | 29 => some (.vote f)
  | 30 => some (.redi f)
  | 31 => some (.scani f)
  | 32 => some (.mlog f)
  | 33 => some (.mmov f)
  | _ => none

/-- The instruction that OP names in engine 3 (Table 3.10). -/
def ofOp3 (op : Nat) (f : Fields) : Option Instr :=
  match op with
  | 0 => some (.fadd f)
  | 1 => some (.fsub f)
  | 2 => some (.fmul f)
  | 3 => some (.ffma f)
  | 4 => some (.fmin f)
  | 5 => some (.fmax f)
  | 6 => some (.fcmp f)
  | 7 => some (.fsgn f)
  | 8 => some (.fcvt f)
  | 9 => some (.fclass f)
  | 10 => some (.fscale f)
  | 11 => some (.hadd2 f)
  | 12 => some (.hmul2 f)
  | 13 => some (.hfma2 f)
  | 14 => some (.badd2 f)
  | 15 => some (.bmul2 f)
  | 16 => some (.bfma2 f)
  | 17 => some (.redf f)
  | 18 => some (.fdot2 f)
  | _ => none

/-- The instruction that OP names in engine 4 (Table 3.10). -/
def ofOp4 (op : Nat) (f : Fields) : Option Instr :=
  match op with
  | 0 => some (.rcp f)
  | 1 => some (.rsq f)
  | 2 => some (.sqrt f)
  | 3 => some (.exp2 f)
  | 4 => some (.log2 f)
  | 5 => some (.sinpi f)
  | 6 => some (.cospi f)
  | 7 => some (.tanh f)
  | 8 => some (.sigm f)
  | 9 => some (.fdiv f)
  | 10 => some (.idiv f)
  | 11 => some (.irem f)
  | _ => none

/-- The instruction that OP names in engine 5 (Table 3.10). -/
def ofOp5 (op : Nat) (f : Fields) : Option Instr :=
  match op with
  | 0 => some (.ld f)
  | 1 => some (.st f)
  | 2 => some (.ldt f)
  | 3 => some (.stt f)
  | 4 => some (.talloc f)
  | 5 => some (.tfree f)
  | 6 => some (.tquery f)
  | 7 => some (.hquery f)
  | 8 => some (.waita f)
  | 9 => some (.pref f)
  | 10 => some (.fence f)
  | _ => none

/-- The instruction that OP names in engine 6 (Table 3.10). -/
def ofOp6 (op : Nat) (f : Fields) : Option Instr :=
  match op with
  | 0 => some (.aadd f)
  | 1 => some (.aand f)
  | 2 => some (.aor f)
  | 3 => some (.axor f)
  | 4 => some (.amin f)
  | 5 => some (.amax f)
  | 6 => some (.axchg f)
  | 7 => some (.acas f)
  | 8 => some (.ainc f)
  | 9 => some (.adec f)
  | 10 => some (.afadd f)
  | 11 => some (.red f)
  | 12 => some (.binit f)
  | 13 => some (.arrive f)
  | 14 => some (.bwait f)
  | _ => none

/-- The instruction that OP names in engine 7 (Table 3.10). -/
def ofOp7 (op : Nat) (f : Fields) : Option Instr :=
  match op with
  | 0 => some (.move f)
  | 1 => some (.ownq f)
  | 2 => some (.gacq f)
  | 3 => some (.gtry f)
  | 4 => some (.grel f)
  | 5 => some (.lease f)
  | 6 => some (.unlease f)
  | 7 => some (.publish f)
  | 8 => some (.discard f)
  | _ => none

/-- The instruction that OP names in engine 8 (Table 3.10). -/
def ofOp8 (op : Nat) (f : Fields) : Option Instr :=
  match op with
  | 0 => some (.lbind f)
  | 1 => some (.lunbind f)
  | 2 => some (.ladd f)
  | 3 => some (.lsub f)
  | 4 => some (.lneg f)
  | 5 => some (.lshl f)
  | 6 => some (.lshr f)
  | 7 => some (.lsra f)
  | 8 => some (.lcmp f)
  | 9 => some (.lmulw f)
  | 10 => some (.lmont f)
  | 11 => some (.lcarry f)
  | 12 => some (.lstat f)
  | _ => none

/-- The instruction that OP names in engine 9 (Table 3.10). -/
def ofOp9 (op : Nat) (f : Fields) : Option Instr :=
  match op with
  | 0 => some (.wload f)
  | 1 => some (.wdrop f)
  | 2 => some (.wcheck f)
  | 3 => some (.mxfence f)
  | 4 => some (.mxissue f)
  | 5 => some (.mxwait f)
  | 6 => some (.acczero f)
  | 7 => some (.accrd f)
  | 8 => some (.accwr f)
  | 9 => some (.accdrain f)
  | 10 => some (.mxstat f)
  | _ => none

/-- The instruction that OP names in engine 10 (Table 3.10). -/
def ofOp10 (op : Nat) (f : Fields) : Option Instr :=
  match op with
  | 0 => some (.cpy f)
  | 1 => some (.cpyg f)
  | 2 => some (.cpys f)
  | 3 => some (.cpyf f)
  | 4 => some (.ckpt f)
  | 5 => some (.ckload f)
  | 6 => some (.cpyq f)
  | 7 => some (.cpycan f)
  | _ => none

/-- The instruction that OP names in engine 11 (Table 3.10). -/
def ofOp11 (op : Nat) (f : Fields) : Option Instr :=
  match op with
  | 0 => some (.cont f)
  | 1 => some (.cwait f)
  | 2 => some (.yield f)
  | 3 => some (.getid f)
  | _ => none

/-- The instruction that OP names in engine 12 (Table 3.10). -/
def ofOp12 (op : Nat) (f : Fields) : Option Instr :=
  match op with
  | 0 => some (.nop f)
  | 1 => some (.ctrrd f)
  | 2 => some (.brk f)
  | 3 => some (.measure f)
  | 4 => some (.fpevrd f)
  | _ => none

/-- The instruction that ENG and OP name; none when ENG is reserved or OP unallocated (Table 3.10). -/
def ofOp (eng op : Nat) (f : Fields) : Option Instr :=
  match eng with
  | 0 => ofOp0 op f
  | 1 => ofOp1 op f
  | 2 => ofOp2 op f
  | 3 => ofOp3 op f
  | 4 => ofOp4 op f
  | 5 => ofOp5 op f
  | 6 => ofOp6 op f
  | 7 => ofOp7 op f
  | 8 => ofOp8 op f
  | 9 => ofOp9 op f
  | 10 => ofOp10 op f
  | 11 => ofOp11 op f
  | 12 => ofOp12 op f
  | _ => none

/-- The form has W1 (LEN of at least 0b01). -/
def Form.atLeast64 : Form → Bool
  | .w32 => false
  | _ => true

/-- The form has W2 (LEN of at least 0b10). -/
def Form.atLeast96 : Form → Bool
  | .w96 => true
  | .w160 => true
  | _ => false

/-- Bits `hi..lo` of a number. -/
def bits (x hi lo : Nat) : Nat := x / 2 ^ lo % 2 ^ (hi + 1 - lo)

/-- IMM19 as a signed number (R54). -/
def Fields.simm (f : Fields) : Int := f.imm.toInt

/-- The length of the instruction in words (Table 3.1). -/
def Fields.words (f : Fields) : Nat :=
  (match f.form with | .w32 => 1 | .w64 => 2 | .w96 => 3 | .w160 => 5) + (if f.live.isSome then 1 else 0)

/-- The length of the instruction in bytes (Table 3.1). -/
def Fields.len (f : Fields) : Nat := 4 * f.words

/-- The register role of a lane operand whose width MOD gives: a pair for s64 and n64 (R189). -/
def wideRole (f : Fields) : Role :=
  if f.mod.toNat = 6 ∨ f.mod.toNat = 7 then .vpair else .v

/-- The register role of a general operand of a form that both streams have. -/
def genRole (st : Stream) : Role :=
  match st with | .lead => .k | .lane => .v

/-- FN of SLD and SST (R150) and of LD and ST without OFF64 (Table 9.6). -/
def ordFnOk (fn : Nat) : Bool :=
  if bits fn 2 2 = 1 then decide (bits fn 5 3 ≤ 5) else decide (bits fn 5 3 = 0)

/-- FN of GACQ, GTRY, GREL and PUBLISH (Table 11.3). -/
def guardFnOk (fn : Nat) : Bool :=
  decide (bits fn 7 6 = 0) && decide (bits fn 1 0 = 0) && ordFnOk fn

/-- Shapes of the lead instructions (Table 6.3). -/
def shapeLead (op : Nat) (f : Fields) : Shape :=
  let mo := f.mod.toNat
  let fn := f.fn.toNat
  let z := decide (fn = 0)
  let s : Shape := { lead := true, lane := false, pred := false }
  if op ≤ 0x0D then
    let sgn := op = 3 ∨ op = 4 ∨ op = 5 ∨ op = 0x0C ∨ op = 0x0D
    { s with d := .k, a := .k, b := .k, immB := .imm, ok := z && decide (mo = 0 ∨ (sgn ∧ mo = 1)) }
  else match op with
  | 0x0E => { s with d := .k, a := .k, b := .k, immB := .imm, ok := z && decide (mo ≤ 9) }
  | 0x0F => { s with d := .k, a := .k, b := .k, c := .k, immB := .imm, ok := z && decide (mo = 0) }
  | 0x10 => { s with d := .k, b := .k, immB := .imm, ok := z && decide (mo = 0) }
  | 0x11 =>
    if mo ≤ 3 then { s with d := .k, a := .k, ok := z }
    else if mo ≤ 5 then { s with d := .k, a := .k, b := .k, immB := .imm, ok := z }
    else { s with d := .k, a := .k, b := .k, c := .k, immB := .imm, ok := z && decide (mo = 6) }
  | 0x12 => { s with d := .k, a := .k, b := .k, immB := .litOnly, ownImm := true,
                     ok := decide (mo ≤ 7) && decide (bits fn 7 6 = 0) && ordFnOk fn && decide (bits fn 1 0 ≠ 3) }
  | 0x13 => { s with a := .k, b := .k, c := .k, immB := .litOnly, ownImm := true,
                     ok := decide (mo ≤ 7) && decide (bits fn 7 6 = 0) && ordFnOk fn && decide (bits fn 1 0 ≠ 3) }
  | 0x14 => { s with immB := .target, ok := z && decide (mo = 0) && f.form.atLeast96 }
  | 0x15 => { s with a := .k, immB := .target, ok := z && decide (mo ≤ 3) && f.form.atLeast96 }
  | 0x16 => { s with immB := .target, ok := z && decide (mo = 0) && f.form.atLeast96 }
  | 0x17 => { s with ok := z && decide (mo = 0) }
  | 0x18 => { s with a := .k, ok := z && decide (mo ≤ 1) }
  | 0x19 => { s with b := .k, immB := .imm, ok := z && decide (mo ≤ 1) }
  | 0x1A => { s with d := .k, a := .sel, ok := z && decide (mo = 0) &&
                     (let x := f.a.toNat; decide ((2 ≤ x ∧ x ≤ 0x0D) ∨ (0x10 ≤ x ∧ x ≤ 0x12) ∨ (0x20 ≤ x ∧ x ≤ 0x2A))) }
  | 0x1B => { s with a := .sel, b := .k, immB := .imm, ok := z && decide (mo = 0) &&
                     decide (0x20 ≤ f.a.toNat ∧ f.a.toNat ≤ 0x27) }
  | 0x1C => { s with a := .q, b := .k, immB := .imm, ok := z && decide (mo = 0) }
  | _ => { s with ok := false }

/-- Shapes of the sequencer instructions (Table 7.1). -/
def shapeSeq (op : Nat) (f : Fields) : Shape :=
  let mo := f.mod.toNat
  let z := decide (f.fn.toNat = 0)
  let z0 := z && decide (mo = 0)
  let cnt := mo = 1
  match op with
  | 0x00 => { immB := .target, ok := z0 && f.form.atLeast96 }
  | 0x01 => { a := .v, immB := .target, ok := z && decide (mo ≤ 3) && f.form.atLeast96 }
  | 0x02 => { d := .v, immB := .target, ok := z0 && f.form.atLeast96 }
  | 0x03 => { a := .v, ok := z0 }
  | 0x04 => { d := if mo = 1 then .v else .unused, a := .v, ok := z && decide (mo ≤ 1) }
  | 0x05 => { immB := .target, ok := z0 && f.form.atLeast96, pred := false, loose := false }
  | 0x06 => { d := if mo = 1 then .vpair else .v, ok := z && decide (mo ≤ 1), pred := false, loose := false }
  | 0x07 => { a := .j, ok := z0 }
  | 0x08 => { a := .j, ok := z0 }
  | 0x09 => { a := .j, ok := z0 }
  | 0x0A => { d := .j, a := .m, ok := z0, pred := false }
  | 0x0B => { d := .m, a := .j, ok := z0, pred := false }
  | 0x0C => { a := .sel, ownImm := decide cnt, loose := false,
              ok := z && decide (mo ≤ 1) && decide (f.a.toNat ≤ 15) && (f.form.atLeast96 || !decide cnt) }
  | 0x0D => { a := .sel, ownImm := decide cnt, loose := false,
              ok := z && decide (mo ≤ 1) && decide (f.a.toNat ≤ 3) && (f.form.atLeast96 || !decide cnt) }
  | 0x0E => { ok := z0 }
  | 0x0F => { ok := z && decide (1 ≤ mo ∧ mo ≤ 5), pred := false }
  | 0x10 => { d := .m, ok := z0 }
  | 0x11 => { ownImm := true, ok := z0 }
  | 0x12 => { a := if mo = 2 then .v else .unused, ok := z && decide (mo ≤ 2) }
  | 0x13 => { d := .v, a := .v, ok := z0 }
  | _ => { ok := false }

/-- Shapes of the lane integer instructions (Table 8.1). -/
def shapeInt (op : Nat) (f : Fields) : Shape :=
  let mo := f.mod.toNat
  let fn := f.fn.toNat
  let z := decide (fn = 0)
  let w := wideRole f
  let t8 := decide (mo ≤ 7)
  let t4 := decide (mo = 0 ∨ mo = 1 ∨ mo = 6 ∨ mo = 7)
  let t2 := decide (mo = 0 ∨ mo = 6)
  let g64 := f.form.atLeast64
  match op with
  | 0x00 | 0x01 | 0x02 | 0x0C | 0x0D | 0x17 | 0x18 => { d := w, a := w, b := w, immB := .imm, ok := z && t8 }
  | 0x03 => { d := w, a := w, b := w, immB := .imm, ok := z && t4 }
  | 0x04 => { d := w, a := w, b := w, c := w, immB := .imm, ok := z && t4 && g64 }
  | 0x05 => { d := .vpair, a := .v, b := .v, c := .vpair, immB := .imm, ok := z && decide (mo ≤ 1) && g64 }
  | 0x06 | 0x07 | 0x08 => { d := w, a := w, b := w, immB := .imm, ok := z && t2 }
  | 0x09 | 0x0A | 0x0B => { d := w, a := w, b := .v, immB := .imm, ok := z && t8 }
  | 0x0E => { d := w, a := w, ok := decide (fn ≤ 1) && decide (mo = 0 ∨ mo = 2 ∨ mo = 4 ∨ mo = 6) }
  | 0x0F => { d := if bits fn 3 3 = 1 then .v else .m, a := w, b := w, immB := .imm,
              ok := t8 && decide (bits fn 2 0 ≤ 5 ∧ fn < 16) }
  | 0x10 => { d := w, a := w, b := w, c := .m, immB := .imm, ok := z && t2 && g64 }
  | 0x11 | 0x12 => { d := .v, a := w, ok := z && t2 }
  | 0x13 => { d := w, a := w, ok := z && t2 }
  | 0x14 => { d := .v, a := .v, b := .v, c := .v, immB := .imm, ok := z && decide (mo = 0) && g64 }
  | 0x15 => { d := .v, a := .v, b := .v, immB := .imm, ok := z && decide (mo ≤ 1) }
  | 0x16 => { d := .v, a := .v, b := .v, c := .v, immB := .imm, ok := z && decide (mo = 0) && g64 }
  | 0x19 => { d := .v, a := .v, b := .v, c := .v, immB := .imm,
              ok := decide (fn ≤ 1) && decide (mo = 4 ∨ mo = 5 ∨ mo = 8) && g64 }
  | 0x1A => { d := .v, a := .v, b := .v, c := .v, immB := .imm,
              ok := decide (fn ≤ 1) && decide (mo = 2 ∨ mo = 3 ∨ mo = 8) && g64 }
  | 0x1B => { d := w, b := w, immB := .imm, ok := z && t2 }
  | 0x1C => { d := w, a := w, b := .v, immB := .imm, ok := decide (fn ≤ 3) && t2 }
  | 0x1D => { d := .v, a := .v, ok := decide (fn ≤ 3) && decide (mo = 0) }
  | 0x1E => { d := w, a := w, ok := t4 && decide (bits fn 2 0 ≤ 5 ∧ fn < 16) && decide (bits fn 3 3 = 1 → bits fn 2 0 = 0) }
  | 0x1F => { d := w, a := w, ok := t4 && decide (bits fn 2 0 ≤ 5 ∧ fn < 32) && decide (bits fn 3 3 = 1 → bits fn 2 0 = 0) }
  | 0x20 => { d := .m, a := .m, b := .m, ok := decide (mo = 0 ∧ fn < 16) && f.form.atLeast96, pred := false }
  | 0x21 =>
    match mo with
    | 0 => { d := .m, a := .m, ok := z, pred := false }
    | 1 => { d := .m, a := .v, ok := z }
    | 2 => { d := .v, a := .m, ok := z }
    | 3 => { d := .m, b := .v, immB := .imm, ok := z && decide (f.b.toNat = 2047), pred := false }
    | _ => { ok := false }
  | _ => { ok := false }

/-- The number of slots of a register that hold elements of FMT, for FCVT; 0 for a format FCVT does not take (R204). -/
def fcvtSlots (fmt : Nat) : Nat :=
  match fmt with
  | 0x00 | 0x0E | 0x0F => 1
  | 0x01 | 0x02 | 0x0C | 0x0D => 2
  | 0x03 | 0x04 | 0x05 | 0x06 | 0x08 | 0x09 => 4
  | 0x07 | 0x0A | 0x0B => 8
  | _ => 0

/-- The IMM19 and FN of FCVT are ones that R204 admits. -/
def fcvtOk (f : Fields) : Bool :=
  let i := f.imm.toNat
  let sf := bits i 4 0
  let df := bits f.fn.toNat 7 3
  let dw := bits i 15 15 = 1
  let sw := bits i 14 14 = 1
  decide (bits i 18 16 = 0 ∧ bits i 6 5 = 0 ∧ bits f.fn.toNat 2 0 ≤ 3) &&
  decide (bits i 13 11 < fcvtSlots df ∧ bits i 10 8 < fcvtSlots sf) &&
  decide (dw → df = 0x0E ∨ df = 0x0F) && decide (sw → sf = 0x0E ∨ sf = 0x0F) &&
  decide (bits i 7 7 = 1 → df = 0x03)

/-- Shapes of the lane float instructions (Table 8.2). B = 2047 in the 96-bit form with MOD 1 or 2 is ILLEGAL where B is a
scalar f16 or bf16 operand; FSCALE, whose B is an integer, and FDOT2, whose B is a pair, take IMM19 there (DESIGN CHOICE,
log 75). -/
def shapeFloat (op : Nat) (f : Fields) : Shape :=
  let mo := f.mod.toNat
  let fn := f.fn.toNat
  let z := decide (fn = 0)
  let r := decide (fn ≤ 3)
  let t3 := decide (mo ≤ 2)
  let g64 := f.form.atLeast64
  -- a scalar f16 or bf16 immediate is LIT only (R199)
  let si : ImmB := if mo = 0 then .imm else .litOnly
  match op with
  | 0x00 | 0x01 | 0x02 => { d := .v, a := .v, b := .v, immB := si, ok := r && t3 }
  | 0x03 => { d := .v, a := .v, b := .v, c := .v, immB := si, ok := r && t3 && g64 }
  | 0x04 | 0x05 => { d := .v, a := .v, b := .v, immB := si, ok := z && t3 }
  | 0x06 => { d := if bits fn 3 3 = 1 then .v else .m, a := .v, b := .v, immB := si, ok := decide (fn < 16) && t3 }
  | 0x07 => { d := .v, a := .v, b := .v, immB := si, ok := decide (fn ≤ 2) && t3 }
  | 0x08 => { d := if bits f.imm.toNat 15 15 = 1 then .vpair else .v,
              a := if bits f.imm.toNat 14 14 = 1 then .vpair else .v, ownImm := true,
              ok := decide (mo = 0) && f.form.atLeast96 && fcvtOk f }
  | 0x09 => { d := .v, a := .v, ok := z && decide (mo ≤ 7) }
  | 0x0A => { d := .v, a := .v, b := .v, immB := .imm, ok := r && t3 }
  | 0x0B | 0x0C | 0x0E | 0x0F => { d := .v, a := .v, b := .v, immB := .imm, ok := r && decide (mo = 0) }
  | 0x0D | 0x10 => { d := .v, a := .v, b := .v, c := .v, immB := .imm, ok := r && decide (mo = 0) && g64 }
  | 0x11 => { d := .v, a := .v, ok := t3 && decide (bits fn 2 0 ≤ 3 ∧ bits fn 4 3 ≤ 2 ∧ fn < 32) }
  | 0x12 => { d := .v, a := .v, b := .v, c := .v, immB := .imm, ok := r && decide (mo = 1 ∨ mo = 2) && g64 }
  | _ => { ok := false }

/-- Shapes of the function-pipe instructions (Table 8.3). -/
def shapeFunc (op : Nat) (f : Fields) : Shape :=
  let mo := f.mod.toNat
  let fn := f.fn.toNat
  let w := wideRole f
  if op = 2 then { d := .v, a := .v, ok := decide (mo = 0 ∧ fn ≤ 3) }
  else if op ≤ 8 then { d := .v, a := .v, ok := decide (mo = 0 ∧ fn = 0) }
  else if op = 9 then { d := .v, a := .v, b := .v, immB := .imm, ok := decide (mo = 0 ∧ fn ≤ 3) }
  else { d := w, a := w, b := w, immB := .imm,
         ok := decide (op ≤ 0x0B ∧ fn = 0 ∧ (mo = 0 ∨ mo = 1 ∨ mo = 6 ∨ mo = 7)) }

/-- The register role of a memory operand of the width in MOD (Table 9.5). -/
def accessRole (f : Fields) : Role :=
  if f.mod.toNat = 8 then .vquad else wideRole f

/-- Shapes of the access instructions (Table 9.4). -/
def shapeAccess (op : Nat) (f : Fields) : Shape :=
  let mo := f.mod.toNat
  let fn := f.fn.toNat
  let z := decide (fn = 0)
  let off : Role := if bits fn 7 7 = 1 then .vpair else .v
  let memFn := ordFnOk fn && decide (bits fn 6 6 = 0 ∧ bits fn 1 0 ≠ 3)
  let tileFn := ordFnOk fn && decide (bits fn 7 7 = 0 ∧ bits fn 1 0 = 0)
  match op with
  | 0x00 => { d := accessRole f, a := .v, b := off, immB := .litOnly, ownImm := true, ok := decide (mo ≤ 8) && memFn }
  | 0x01 => { a := .v, b := off, c := accessRole f, immB := .litOnly, ownImm := true,
              ok := decide (mo ≤ 8) && memFn && f.form.atLeast64 }
  | 0x02 => { d := accessRole f, a := .v, b := .v, immB := .litOnly, ownImm := true, loose := false,
              ok := decide (mo ≤ 8) && tileFn }
  | 0x03 => { a := .v, b := .v, c := accessRole f, immB := .litOnly, ownImm := true, loose := false,
              ok := decide (mo ≤ 8) && tileFn && f.form.atLeast64 }
  | 0x04 => { d := .v, b := .v, immB := .litOnly, loose := false,
              ok := decide (mo ≤ 2 ∧ fn ≤ 0x18 ∧ (mo = 1 → fn = 0 ∨ fn = 0x0E)) && f.form.atLeast96 }
  | 0x05 => { a := .v, loose := false, ok := z && decide (mo = 0) }
  | 0x06 => { d := .vpair, a := .v, loose := false, ok := z && decide (mo = 0) }
  | 0x07 => { d := .vpair, a := .v, ok := z && decide (mo ≤ 3) }
  | 0x08 => { a := .v, b := .v, c := .v, immB := .litOnly, ownImm := true, loose := false,
              ok := z && decide (mo ≤ 3) && f.form.atLeast64 }
  | 0x09 => { a := .v, b := off, immB := .litOnly, ownImm := true, ok := decide (mo ≤ 2 ∧ bits fn 6 0 = 0) }
  | 0x0A => { ok := decide (mo ≤ 3 ∧ bits fn 7 6 = 0 ∧ bits fn 2 0 = 0 ∧ bits fn 5 3 ≤ 5) }
  | _ => { ok := false }

/-- Shapes of the atomic instructions (Tables 10.2 and 10.3). -/
def shapeAtomic (op : Nat) (f : Fields) : Shape :=
  let mo := f.mod.toNat
  let fn := f.fn.toNat
  let w := wideRole f
  let tile := bits fn 6 6 = 1
  let sel := bits fn 5 3
  let off : Role := if bits fn 7 7 = 1 then .vpair else .v
  let base := f.form.atLeast64 && decide (tile → bits fn 7 7 = 0)
  let plain := base && decide (bits fn 5 0 = 0)
  let t4 := decide (mo = 0 ∨ mo = 1 ∨ mo = 6 ∨ mo = 7)
  let t2 := decide (mo = 0 ∨ mo = 6)
  let s : Shape := { d := w, a := .v, b := off, c := w, immB := .litOnly, ownImm := true, loose := !decide tile }
  match op with
  | 0x00 | 0x04 | 0x05 => { s with ok := plain && t4 }
  | 0x01 | 0x02 | 0x03 | 0x06 => { s with ok := plain && t2 }
  | 0x07 => { s with c := if mo = 6 then .vquad else .vpair, ok := plain && t2 }
  | 0x08 | 0x09 => { s with ok := plain && decide (mo = 1 ∨ mo = 7) }
  | 0x0A => { s with ok := base && decide (mo ≤ 2 ∧ sel = 0 ∧ bits fn 2 0 ≤ 3) }
  | 0x0B =>
    { s with d := .unused, ok := base &&
        (match sel with
         | 0 | 4 | 5 => t4 && decide (bits fn 2 0 = 0)
         | 1 | 2 | 3 => t2 && decide (bits fn 2 0 = 0)
         | 6 => decide (mo ≤ 2 ∧ bits fn 2 0 ≤ 3)
         | _ => false) }
  | 0x0C => { s with d := .unused, c := .vpair, ok := plain && decide (mo = 0) }
  | 0x0D => { s with d := .vpair, c := .v,
                     ok := base && decide (mo ≤ 1 ∧ bits fn 1 0 = 0) && ordFnOk fn }
  | 0x0E => { s with d := .v, c := .v, ok := plain && decide (mo = 0) }
  | _ => { ok := false }

/-- Shapes of the home instructions (Tables 11.2 and 11.3). -/
def shapeHome (st : Stream) (op : Nat) (f : Fields) : Shape :=
  let mo := f.mod.toNat
  let fn := f.fn.toNat
  let z := decide (fn = 0)
  let g := genRole st
  match op with
  | 0x00 => { a := .v, b := .v, c := .v, immB := .litOnly, ownImm := true,
              ok := z && decide (mo = 0 ∧ -1 ≤ f.simm ∧ f.simm ≤ 15) && f.form.atLeast96 }
  | 0x01 => { d := .vpair, a := .v, b := .v, immB := .litOnly, ownImm := true, ok := z && decide (mo = 0) }
  | 0x02 | 0x03 => { d := g, a := g, b := g, immB := .litOnly, ownImm := true, lead := true,
                     ok := decide (mo ≤ 1) && guardFnOk fn }
  | 0x04 => { a := g, b := g, immB := .litOnly, ownImm := true, lead := true, ok := decide (mo ≤ 1) && guardFnOk fn }
  | 0x05 => { a := .v, b := .v, immB := .litOnly, ownImm := true,
              ok := z && decide (mo = 0 ∧ 1 ≤ f.simm ∧ f.simm ≤ 512) && f.form.atLeast96 }
  | 0x06 => { d := .v, ok := z && decide (mo = 0) }
  | 0x07 => { a := g, b := g, c := g, immB := .litOnly, ownImm := true, lead := true,
              ok := decide (mo = 0) && guardFnOk fn && f.form.atLeast64 }
  | 0x08 => { a := g, b := g, c := g, immB := .litOnly, ownImm := true, lead := true,
              ok := decide (mo = 0) && z && f.form.atLeast64 }
  | _ => { ok := false }

/-- Shapes of the chain instructions (Table 12.2). -/
def shapeChain (op : Nat) (f : Fields) : Shape :=
  let mo := f.mod.toNat
  let fn := f.fn.toNat
  let z := decide (fn = 0)
  let w64 := bits mo 0 0 = 1
  let i : Role := if w64 then .vpair else .v
  let m1 := decide (mo ≤ 1)
  match op with
  | 0x00 => { ok := z && m1 }
  | 0x01 => { ok := z && decide (mo = 0) }
  | 0x02 | 0x03 => { d := i, a := i, b := i, immB := .imm, ok := m1 && decide (fn ≤ 2) }
  | 0x04 => { d := i, a := i, ok := m1 && z }
  | 0x05 | 0x06 | 0x07 => { d := i, a := i, b := .v, immB := .imm, ok := m1 && z }
  | 0x08 => { d := .v, a := i, b := i, immB := .imm, ok := decide (mo ≤ 3) && z }
  | 0x09 =>
    -- a carry-out register that equals D or overlaps its pair is ILLEGAL
    let co := bits fn 7 7 = 1
    let r := bits fn 6 0
    let clash := r = f.d.toNat ∨ (w64 ∧ (r = f.d.toNat + 1 ∨ r + 1 = f.d.toNat))
    { d := i, a := i, b := i, c := i, immB := .imm,
      ok := m1 && f.form.atLeast64 && decide (¬ co → fn = 0) && decide (co → ¬ clash) }
  | 0x0A => { d := i, a := i, b := i, c := i, ok := m1 && decide (fn ≤ 1) && f.form.atLeast64 }
  | 0x0B => { d := .m, ok := decide (mo = 0 ∧ fn ≤ 1) }
  | 0x0C => { d := .v, ok := z && decide (mo = 0 ∨ mo = 2) }
  | _ => { ok := false }

/-- Shapes of the matrix instructions (Table 13.4). -/
def shapeMatrix (st : Stream) (op : Nat) (f : Fields) : Shape :=
  let mo := f.mod.toNat
  let z := decide (f.fn.toNat = 0)
  let z0 := z && decide (mo = 0)
  let g := genRole st
  let x4 : Role := if mo = 1 then .vquad else .v
  match op with
  | 0x00 => { d := .f, a := .k, b := .q, ok := z0, lead := true, lane := false }
  | 0x01 => { a := .f, ok := z0, lead := true, lane := false }
  | 0x02 => { d := .k, a := .f, ok := z0, lead := true, lane := false }
  | 0x03 => { ok := z0, loose := false }
  | 0x04 => { a := g, b := g, immB := .imm, ok := z0, lead := true, loose := false }
  | 0x05 => { a := .q, b := g, immB := .imm, ok := z0, lead := true, loose := false, pred := false }
  | 0x06 => { a := .k, b := .q, ok := z0, lead := true, lane := false }
  | 0x07 => { d := x4, a := .v, b := .v, immB := .litOnly, ownImm := true, ok := z && decide (mo ≤ 1), loose := false }
  | 0x08 => { a := .v, b := .v, c := x4, immB := .litOnly, ownImm := true, loose := false,
              ok := z && decide (mo ≤ 1) && f.form.atLeast64 }
  | 0x09 => { a := .k, b := .k, immB := .imm, ok := z0, lead := true, lane := false }
  | 0x0A => { d := .k, ok := z0, lead := true, lane := false }
  | _ => { ok := false }

/-- Shapes of the copy instructions (Table 14.1). -/
def shapeCopy (st : Stream) (op : Nat) (f : Fields) : Shape :=
  let z0 := decide (f.fn.toNat = 0 ∧ f.mod.toNat = 0)
  let g := genRole st
  if op ≤ 5 then { d := g, a := g, b := g, c := g, immB := .imm, ok := z0 && f.form.atLeast64, lead := true, loose := false }
  else { d := g, a := g, ok := z0 && decide (op ≤ 7), lead := true, loose := false }

/-- Shapes of the dispatch instructions (Table 15.1, R363). -/
def shapeDispatch (st : Stream) (op : Nat) (f : Fields) : Shape :=
  let z0 := decide (f.fn.toNat = 0 ∧ f.mod.toNat = 0)
  match op with
  | 0x00 => { d := .v, a := .vrec, ok := z0 }
  | 0x01 => { a := .v, b := .v, immB := .litOnly, ownImm := true, ok := z0 }
  | 0x02 => { ok := z0, lead := true, pred := false }
  | 0x03 => { d := genRole st, a := .sel, lead := true,
              ok := z0 && (match st with
                | .lane => decide (f.a.toNat ≤ 0x0F)
                | .lead => decide (2 ≤ f.a.toNat ∧ f.a.toNat ≤ 0x0D)) }
  | _ => { ok := false }

/-- Shapes of the system instructions (R185, R210, R212, R398). -/
def shapeSystem (st : Stream) (op : Nat) (f : Fields) : Shape :=
  let z0 := decide (f.fn.toNat = 0 ∧ f.mod.toNat = 0)
  let g := genRole st
  let x := f.a.toNat
  match op with
  | 0x00 => { ok := z0, pred := false, lead := true }
  | 0x01 => { d := match st with
                | .lead => .k
                | .lane => if (0x10 ≤ x ∧ x ≤ 0x12) ∨ x = 0x1B ∨ x = 0x1C then .vpair else .v,
              a := .sel, lead := true,
              ok := z0 && decide ((0x10 ≤ x ∧ x ≤ 0x12) ∨ (st = .lane ∧ 0x18 ≤ x ∧ x ≤ 0x1C)) }
  | 0x02 => { ownImm := true, ok := z0, pred := false, lead := true }
  | 0x03 => { a := g, b := g, c := g, immB := .litOnly, ok := z0 && f.form.atLeast64, lead := true }
  | 0x04 => { d := match st with | .lead => .k | .lane => .vpair, a := .sel, ok := z0 && decide (x ≤ 23), lead := true }
  | _ => { ok := false }

/-- How the instruction that ENG and OP name uses its fields, in a stream. -/
def shapeOf (st : Stream) (eng op : Nat) (f : Fields) : Shape :=
  match eng with
  | 0 => shapeLead op f
  | 1 => shapeSeq op f
  | 2 => shapeInt op f
  | 3 => shapeFloat op f
  | 4 => shapeFunc op f
  | 5 => shapeAccess op f
  | 6 => shapeAtomic op f
  | 7 => shapeHome st op f
  | 8 => shapeChain op f
  | 9 => shapeMatrix st op f
  | 10 => shapeCopy st op f
  | 11 => shapeDispatch st op f
  | 12 => shapeSystem st op f
  | _ => { ok := false, lane := false }

/-- The field is a register the instruction reads, so its reader policy counts (R69). -/
def Role.isReg : Role → Bool
  | .unused => false
  | .sel => false
  | _ => true

/-- Why an encoding is not an instruction (Table 3.12). -/
inductive IllegalWhy where
  | engine       -- ENG 0xD to 0xF
  | operation    -- OP unallocated
  | modFn        -- MOD, FN, form, selector or own immediate not defined
  | stream       -- the form does not run in the stream
  | loose        -- not in a continuation warp (R39)
  | unusedReg    -- an unused register field is not 0
  | policy       -- a policy bit of a source not read, or of an immediate
  | immediate    -- B = 2047 where it is forbidden, or an unused IMM19 or LIT not 0
  | predicate    -- PN with m0, or a predicate where none may stand
  | maskZero     -- destination m0
  | liveness     -- a reserved bit of the liveness word
  deriving DecidableEq, Repr

/-- A branch whose B, IMM19 and LIT are not as R153 and R167 ask. -/
def targetBad (f : Fields) : Bool :=
  match f.form with
  | .w96 => decide (f.b.toNat ≠ 0)
  | .w160 => decide (f.b.toNat ≠ 2047 ∨ f.imm.toNat ≠ 0 ∨ f.lit.toNat ≥ 2 ^ 32)
  | _ => true

/-- An immediate that breaks R57 or R60: B = 2047 where it may not stand, or an IMM19 or LIT that nothing reads. -/
def immBad (sh : Shape) (f : Fields) : Bool :=
  let bImm := f.b.toNat = 2047
  let bad2047 := match sh.immB with
    | .never => decide (bImm ∧ sh.b ≠ .sel)
    | .imm => decide (bImm) && !f.form.atLeast96
    | .litOnly => decide bImm && decide (f.form ≠ .w160)
    | .target => targetBad f
  let usesImm := sh.ownImm || sh.immB == .target || (sh.immB == .imm && decide (bImm ∧ f.form = .w96))
  let usesLit := sh.immB == .target || (decide (sh.immB ≠ .never ∧ bImm ∧ f.form = .w160))
  bad2047 || (!usesImm && decide (f.imm.toNat ≠ 0)) || (!usesLit && decide (f.lit.toNat ≠ 0))

/-- A reader policy bit of a source that the instruction does not read (R69). In the 32-bit form T covers A and B. A bit of a
source that names an m, j, q or f register, which has no full or empty state, may stand and has no effect (DESIGN CHOICE,
log 65). -/
def policyBad (sh : Shape) (f : Fields) : Bool :=
  let bReg := sh.b.isReg && decide (f.b.toNat ≠ 2047)
  match f.form with
  | .w32 => f.t && !(sh.a.isReg || sh.b.isReg)
  | _ => (f.t && !sh.a.isReg) || (f.tb && !bReg) || (f.tc && !sh.c.isReg)

/-- An unused register field that is not 0 (R57). A branch's B is judged by `targetBad`, and B = 2047 by `immBad`. -/
def unusedBad (sh : Shape) (f : Fields) : Bool :=
  decide (sh.d = .unused ∧ f.d.toNat ≠ 0) || decide (sh.a = .unused ∧ f.a.toNat ≠ 0) ||
  decide (sh.b = .unused ∧ sh.immB ≠ .target ∧ f.b.toNat ≠ 0) || decide (sh.c = .unused ∧ f.c.toNat ≠ 0)

/-- A predicate that R63 forbids. -/
def predBad (st : Stream) (sh : Shape) (f : Fields) : Bool :=
  (f.pn && decide (f.pm.toNat = 0)) ||
  (decide (st = .lead ∨ sh.pred = false) && (f.pn || decide (f.pm.toNat ≠ 0)))

/-- A reserved bit of the liveness word (R72, R74, R76). -/
def liveBad (st : Stream) (f : Fields) : Bool :=
  match f.live with
  | none => false
  | some w =>
    decide (bits w.toNat 31 31 ≠ 0) ||
    (decide (st = .lead) && decide (bits w.toNat 26 24 ≠ 0 ∨ bits w.toNat 23 16 ≠ 0))

/-- The first reason for which the encoding is not an instruction of the stream; none when it is one. -/
def illegal? (st : Stream) (loose : Bool) (eng op : Nat) (f : Fields) : Option IllegalWhy :=
  let sh := shapeOf st eng op f
  let runs : Bool := match st with | .lead => sh.lead | .lane => sh.lane
  if !runs then some .stream
  else if loose && !sh.loose then some .loose
  else if !sh.ok then some .modFn
  else if unusedBad sh f then some .unusedReg
  else if policyBad sh f then some .policy
  else if immBad sh f then some .immediate
  else if predBad st sh f then some .predicate
  else if sh.d = .m ∧ f.d.toNat = 0 then some .maskZero
  else if liveBad st f then some .liveness
  else none

end Sys2Proof
end

