-- ==== Sys2Proof/WellFormed.lean ====
section
/-! DEFINITION. Which instructions are instructions of a stream: the fields present in the form, and the checks of
Table 3.12 that give ILLEGAL. -/

namespace Sys2Proof

/-- An absent field holds its default (R56). -/
def Fields.formOk (f : Fields) : Bool :=
  match f.form with
  | .w32 => decide (f.d.toNat < 64 ∧ f.a.toNat < 64 ∧ f.b.toNat < 64 ∧ f.tb = f.t ∧ f.tc = f.t ∧ f.c = 0 ∧
      f.mod = 0 ∧ f.fn = 0 ∧ f.pn = false ∧ f.pm = 0 ∧ f.imm = 0 ∧ f.lit = 0)
  | .w64 => decide (f.fn = 0 ∧ f.pn = false ∧ f.pm = 0 ∧ f.imm = 0 ∧ f.lit = 0)
  | .w96 => decide (f.lit = 0)
  | .w160 => true

/-- The instruction stands in a stream (and, when `loose`, in a continuation warp) under every rule whose breach is
ILLEGAL. -/
def wellFormed (st : Stream) (loose : Bool) (i : Instr) : Bool :=
  match isaOf i with
  | none => false
  | some (eng, op, f) => f.formOk && (illegal? st loose eng op f).isNone

end Sys2Proof
end

