-- ==== Sys2Proof/Decode.lean ====
section
/-! DEFINITION. The decoder, total on any bytes, and after it the encoder, both from Tables 3.1 to 3.4 and 3.8. -/

namespace Sys2Proof

/-- Why bytes are not an instruction. -/
inductive DecodeError where
  /-- Fewer bytes than the length of Table 3.1. -/
  | short
  | illegal (why : IllegalWhy)
  deriving DecidableEq, Repr

/-- A word from four bytes, low byte first (R1). -/
def wordOfBytes (b0 b1 b2 b3 : Byte) : Word := b3 ++ b2 ++ b1 ++ b0

/-- The whole words at the head of a byte string. -/
def wordsOfBytes : List Byte → List Word
  | b0 :: b1 :: b2 :: b3 :: r => wordOfBytes b0 b1 b2 b3 :: wordsOfBytes r
  | _ => []

/-- The four bytes of a word, low byte first (R1). -/
def bytesOfWord (w : Word) : List Byte :=
  [w.extractLsb' 0 8, w.extractLsb' 8 8, w.extractLsb' 16 8, w.extractLsb' 24 8]

/-- The form that LEN names (Table 3.1). -/
def formOfLen (len : BitVec 2) : Form :=
  match len.toNat with
  | 0 => .w32
  | 1 => .w64
  | 2 => .w96
  | _ => .w160

/-- The code of a form in LEN. -/
def lenOfForm : Form → BitVec 2
  | .w32 => 0
  | .w64 => 1
  | .w96 => 2
  | .w160 => 3

/-- Words without the liveness word (Table 3.1). -/
def wordsOfForm : Form → Nat
  | .w32 => 1
  | .w64 => 2
  | .w96 => 3
  | .w160 => 5

/-- The fields in W0 and, for the longer forms, in W1, W2 and LIT (R52 to R56). -/
def fieldsOfWords (form : Form) (live : Option Word) (w0 w1 w2 w3 w4 : Word) : Fields :=
  let t := w0.getLsbD 13
  let d0 : BitVec 6 := w0.extractLsb' 14 6
  let a0 : BitVec 6 := w0.extractLsb' 20 6
  let b0 : BitVec 6 := w0.extractLsb' 26 6
  match form with
  | .w32 => { form, live, t, tb := t, tc := t, d := d0.setWidth 11, a := a0.setWidth 11, b := b0.setWidth 11,
              c := 0, mod := 0, fn := 0, pn := false, pm := 0, imm := 0, lit := 0 }
  | _ =>
    let long := form.atLeast96
    { form, live, t, tb := w1.getLsbD 26, tc := w1.getLsbD 27, d := w1.extractLsb' 0 5 ++ d0,
      a := w1.extractLsb' 5 5 ++ a0, b := w1.extractLsb' 10 5 ++ b0, c := w1.extractLsb' 15 11,
      mod := w1.extractLsb' 28 4, fn := if long then w2.extractLsb' 5 8 else 0,
      pn := long && w2.getLsbD 4, pm := if long then w2.extractLsb' 0 4 else 0,
      imm := if long then w2.extractLsb' 13 19 else 0, lit := if form = .w160 then w4 ++ w3 else 0 }

/-- The engine, operation and fields of the words of one instruction, and nothing when words are missing. -/
def splitWords (ws : List Word) : Option (Nat × Nat × Fields) :=
  match ws with
  | [] => none
  | w0 :: r =>
    let form := formOfLen (w0.extractLsb' 0 2)
    let n := wordsOfForm form - 1
    let sp := w0.getLsbD 2
    if r.length < n + (if sp then 1 else 0) then none
    else
      let live := if sp then some (r.getD n 0) else none
      some ((w0.extractLsb' 3 4).toNat, (w0.extractLsb' 7 6).toNat,
        fieldsOfWords form live w0 (r.getD 0 0) (r.getD 1 0) (r.getD 2 0) (r.getD 3 0))

/-- The instruction that words stand for in a stream (R14, R82). -/
def decodeWords (st : Stream) (loose : Bool) (ws : List Word) : Except DecodeError Instr :=
  match splitWords ws with
  | none => .error .short
  | some (eng, op, f) =>
    match ofOp eng op f with
    | none => .error (.illegal (if eng ≥ 13 then .engine else .operation))
    | some i =>
      match illegal? st loose eng op f with
      | some w => .error (.illegal w)
      | none => .ok i

/-- The instruction at the head of a byte string. -/
def decode (st : Stream) (loose : Bool) (bytes : List Byte) : Except DecodeError Instr :=
  decodeWords st loose (wordsOfBytes bytes)

/-- W0 of an instruction (Table 3.2). -/
def encodeW0 (eng op : Nat) (f : Fields) : Word :=
  f.b.extractLsb' 0 6 ++ f.a.extractLsb' 0 6 ++ f.d.extractLsb' 0 6 ++ BitVec.ofBool f.t ++ BitVec.ofNat 6 op ++
    BitVec.ofNat 4 eng ++ BitVec.ofBool f.live.isSome ++ lenOfForm f.form

/-- W1 of an instruction (Table 3.3). -/
def encodeW1 (f : Fields) : Word :=
  f.mod ++ BitVec.ofBool f.tc ++ BitVec.ofBool f.tb ++ f.c ++ f.b.extractLsb' 6 5 ++ f.a.extractLsb' 6 5 ++
    f.d.extractLsb' 6 5

/-- W2 of an instruction (Table 3.4). -/
def encodeW2 (f : Fields) : Word := f.imm ++ f.fn ++ BitVec.ofBool f.pn ++ f.pm

/-- The words of an instruction; none for an operation or event. -/
def encodeWords (i : Instr) : List Word :=
  match isaOf i with
  | none => []
  | some (eng, op, f) =>
    let body : List Word := match f.form with
      | .w32 => [encodeW0 eng op f]
      | .w64 => [encodeW0 eng op f, encodeW1 f]
      | .w96 => [encodeW0 eng op f, encodeW1 f, encodeW2 f]
      | .w160 => [encodeW0 eng op f, encodeW1 f, encodeW2 f, f.lit.extractLsb' 0 32, f.lit.extractLsb' 32 32]
    body ++ f.live.toList

/-- The bytes of an instruction as they stand in a code section (R51, R90). -/
def encode (i : Instr) : List Byte := (encodeWords i).flatMap bytesOfWord

/-- The bytes of a number as the opcode table lays an instruction out, padded to the longest instruction. -/
def tableBytes (w : Nat) : List Byte := (List.range 24).map fun n => BitVec.ofNat 8 (w / 2 ^ (8 * n))

/-- The stream in which the instruction of a table word runs: the lane stream when it is an instruction there. -/
def tableStream (w : Nat) : Stream :=
  match decode .lane false (tableBytes w) with
  | .ok _ => .lane
  | .error _ => .lead

/-- The instruction the decoder reads from a word numbered as the opcode table numbers it. -/
def decodeTableWord (_nbits w : Nat) : Option Instr :=
  match decode (tableStream w) false (tableBytes w) with
  | .ok i => some i
  | .error _ => none

end Sys2Proof
end

