-- ==== Sys2Proof/Config.lean ====
section
/-! DEFINITION. What one part or its firmware fixes and the spec leaves open, and the free values. None of these has
a body, so nothing can be proved of any of their values. -/

namespace Sys2Proof

/-- Core cycles that pass beyond the first in the step with this stamp (every timing is open; log 1). -/
opaque Config.freeCycles : Nat → Nat

/-- Nanoseconds of TIME that pass in the step with this stamp (log 1). -/
opaque Config.freeTime : Nat → Nat

/-- The value of a vector register at placement: stamp of the placement, register, lane (R358; log 5). -/
opaque Config.freeReg : Nat → Nat → Nat → Word

/-- A free value of an element of a tile that is read or used too early: stamp, place (R136; log 7). -/
opaque Config.freeWord : Nat → Nat → DWord

/-- The same of an operand register of a matrix operation: stamp, time, register, lane (R136; log 7). -/
opaque Config.freeVeil : Nat → Nat → Nat → Nat → Word

/-- A result offered for an approximate function: operation, operand pattern (R208; log 8). -/
opaque Config.freeApprox : Nat → Word → Word

/-- A number proposed by the tenant controller where the spec lets it choose among legal ones (R37, R414; log 9). -/
opaque Config.freeChoice : Nat → Nat

/-- Base of the stage-2 tables of a VD in device memory, placed by the tenant controller (R405; log 6). -/
opaque Config.stage2Root : Nat → Nat

/-- What the tenant controller writes into the stage-2 tables of a VD when it is defined: device addresses and bytes
(R405; log 6). -/
opaque Config.stage2Tables : Nat → List (Nat × List Byte)

/-- Intermediate address of the fault queue of a VD, and its device physical address (R414, R437; log 6). -/
opaque Config.fqIpa : Nat → DWord
opaque Config.fqPa : Nat → Nat

/-- Intermediate and device physical address of the diagnostic ring of a VD (R378, R437; log 6). -/
opaque Config.diagIpa : Nat → DWord
opaque Config.diagPa : Nat → Nat

/-- First slot of the host backing store that holds an intermediate page of a VD, when it has not been fetched from
one yet (R418; log 6). -/
opaque Config.backingSlot : Nat → Nat → Nat

/-- HBM pages granted to a VD: first byte and length (R444; log 6). -/
opaque Config.vdMemory : Nat → List (Nat × Nat)

/-- At draw n, whether a line is still in the caches that held it at the store before (R453; log 55). -/
opaque Config.stillCached : Nat → Bool

/-- Two instructions, each as 64 × ENG + OP, need the same single-ported resource of a core (R164; log 64). -/
opaque Config.samePort : Nat → Nat → Bool

/-- The place, in lines of 64 bytes, that the save area of a VD has for an image, and the contents of a section of it: type and
stamp (R376; log 68). -/
opaque Config.saveArea : Nat → Nat → Nat
opaque Config.imageSection : Nat → Nat → List Byte

/-- Owner entries for which the table of a die has room (R265; log 70). -/
opaque Config.ownerRoom : Nat → Nat

/-- AtomicOp completion is enabled at the host port of a hub (R241; log 10). -/
opaque Config.atomicOps : Nat → Bool

/-- HBM channel of a 4 KiB granule (R9; log 10). -/
opaque Config.channelOf : Nat → Nat

/-- Throttle and trip thresholds of die or hub n, in units of 0.125 °C (R12; log 10). -/
opaque Config.throttleAt : Nat → Nat
opaque Config.tripAt : Nat → Nat

/-- The identifier of a tree of receipt keys, by tree and byte (R400; log 11). -/
opaque Config.lmsId : Nat → Nat → Byte

/-- The secret of a chain of a leaf, by tree, leaf, chain and byte (R400; log 11). -/
opaque Config.lmsSecret : Nat → Nat → Nat → Nat → Byte

/-- The random value a leaf signs with, by tree, leaf and byte (R400; log 11). -/
opaque Config.lmsNonce : Nat → Nat → Nat → Byte

end Sys2Proof
end

