-- ==== Sys2Proof/Machine/Threads.lean ====
section
/-! DEFINITION. The parts of the state that belong to threads: waits, lanes, warps, lead threads, tiles, crews and
gangs. -/

namespace Sys2Proof.Machine

/-! ### Accesses, translation and waiting -/

/-- An agent that accesses memory (Table 5.4). -/
inductive Agent where
  | lane (core slot lane : Nat)
  | lead (core slot : Nat)
  /-- A copy, by its core, crew slot and ticket. -/
  | copy (core slot ticket : Nat)
  /-- The command engine, for a queue interface. -/
  | queue (qi : Nat)
  /-- The command engine, hashing for a task (R397). -/
  | hash (task : Nat)
  /-- The home engine, for a release in write-back (R281). -/
  | release (id : Nat)
  /-- The tenant controller, for an invalidation of a VD (R437). -/
  | control (vd : Nat)
  /-- A peer, for a request that it made (R452). -/
  | inbound (id : Nat)
  /-- The access unit, for an atomic request that has left the part while its lane went on (R248, R255). -/
  | atom (id : Nat)
  /-- The dispatch engine, watching the counters of a parked unit that it has saved (R371). -/
  | saved (image : Nat)
  deriving DecidableEq, Repr

/-- Where a byte lies after translation. -/
inductive Loc where
  /-- Device physical memory (R405). -/
  | dev (pa : Nat)
  /-- A PCIe translated address reached with a PASID (R405). -/
  | host (pasid addr : Nat)
  /-- An offset in the window of a virtual fabric endpoint of a VD (R215). -/
  | peer (vd ep off : Nat)
  deriving DecidableEq, Repr

/-- Why a translation failed (Table 17.3); `page` carries CAUSE, and `hostBacked` is a PAGE that the tenant
controller services (R418) or that the host is asked for (R419). -/
inductive TrFail where
  | pageFatal
  | perm
  | page (cause : Nat)
  | hostBacked
  deriving DecidableEq, Repr

/-- What an agent was told about a page it asked for: context, page number, access (1 read, 2 write, 4 fetch,
8 atomic), whether it is a host page, and the failure. -/
structure Answer where
  ctx : Nat
  page : Nat
  acc : Nat
  host : Bool
  out : TrFail
  deriving DecidableEq, Repr

/-- What a lane or a lead thread waits for (R40). -/
inductive Wait where
  | none
  /-- Its attempt to issue found a register empty, a queue full or an entry not pushed; it is repeated (R70, R34). -/
  | retry
  /-- Translation walks that its instruction asked for (R409). -/
  | walk (ids : List Nat)
  /-- Parked on PAGE: the open fault identifiers, and the host-backed services and page requests, that it waits on
  (R44). -/
  | park (fids hbs : List Nat)
  /-- A PCIe or Ciham request is outstanding (R449, R450). -/
  | ext (id : Nat)
  /-- A reply of a guard, lease, barrier or continuation request (R81, R253, R365). -/
  | reply (id : Nat)
  /-- WAITJ on a join mask (R172). -/
  | join (j : Nat)
  | bar (id : Nat)
  | gbar (id : Nat)
  /-- WAITA: crew and tile, byte offset of the word, condition, value (R235). -/
  | waita (crew tile off cond : Nat) (value : Word)
  /-- CWAIT on a join counter (R370). -/
  | cwait (pa : Nat)
  /-- CWAIT on a counter outside the part, which it reads again (R370). -/
  | poll (at_ : Loc)
  /-- Returned from the handler with its resume PC (R182). -/
  | rte (resume : Word)
  /-- Stopped at a safe point for pre-emption (R47, R73). -/
  | stopped
  deriving DecidableEq, Repr

/-! ### Threads -/

/-- One lane of a warp. -/
structure Lane where
  /-- Its element of LPC (R163). -/
  pc : Word
  wait : Wait
  /-- Its instruction has issued and is replayed: its destinations were marked empty by it (R228). -/
  hold : Bool
  /-- Length in bytes of the instruction it waits at. -/
  adv : Nat
  /-- Vector registers written since placement. -/
  v : SMap Word
  /-- Vector registers whose word holds an uncorrectable error (R455). -/
  bad : List Nat
  /-- Age of its group (R165). -/
  age : Nat
  answers : List Answer
  /-- Data of external reads that its instruction waits for, by location key. -/
  extData : List (Loc × List Byte)
  /-- External accesses answered with an error: location and class. -/
  extErr : List (Loc × Nat)
  /-- TADDR and TDATA (R183). -/
  taddr : DWord
  tdata : DWord
  /-- Liveness word of the last instruction with SP that it executed (R374). -/
  lastSp : Option Word
  /-- Liveness word of the instruction it waits at (R75). -/
  sp : Option Word
  /-- MXFENCE count (R319), and by register the count at its last write (R136). -/
  fences : Nat
  marks : SMap Nat
  /-- Join counter of its continuation record: handle and offset (R366). -/
  joinCtr : Option (Nat × Nat)
  deriving DecidableEq, Repr

/-- An outstanding producer: it writes its values and fills its registers when it completes (R68). -/
structure Producer where
  id : Nat
  /-- Registers it marked empty. -/
  regs : List Nat
  /-- Values to write: lane (0 for the lead), register, value. -/
  vals : List (Nat × Nat × DWord)
  /-- It waits for replies, and completes only through them (R258). -/
  replies : Nat
  /-- Carry of a chain operation to write: tile, C, V (R302). -/
  flags : List (Nat × Bool × Bool)
  /-- Tiles of a chain instruction (R303, R304). -/
  chain : List Nat := []
  deriving DecidableEq, Repr

/-- LIMB and the carry state of a warp (R294, R295). -/
structure Chain where
  /-- Limbs per integer width when bound: 32 or 64 bits per limb. -/
  bound : Option Nat
  /-- C and V of each tile. -/
  c : Word
  o : Word
  deriving DecidableEq, Repr

/-- A lease of a warp (R285, R288). -/
structure Lease where
  id : Nat
  line : Nat
  loc : Loc
  /-- Stage-1 virtual address, by which R285 orders. -/
  va : Nat
  core : Nat
  slot : Nat
  hold : Nat
  granted : Bool
  /-- Ended by expiry, break or probe limit, with its status (R288). -/
  ended : Option Nat
  start : Nat
  deriving DecidableEq, Repr

/-- What a matrix command operates on, whose reads are unpredictable until a wait observes its completion (R136). -/
structure Veil where
  stamp : Nat
  q : Nat
  done : Bool
  /-- First register and number of registers of a warp; or key of a crew and number of its tile. -/
  first : Nat
  count : Nat
  deriving DecidableEq, Repr

/-- A warp in a warp slot of a core (R163). -/
structure Warp where
  ctx : Nat
  task : Nat
  /-- Its crew; none for a continuation warp (R39). -/
  crew : Option Nat
  /-- CODE handle index and the bounds of the code section (R58). -/
  code : Nat
  codeLo : Nat
  codeHi : Nat
  /-- Registers per warp (R59). -/
  regs : Nat
  rank : Nat
  lanes : List Lane
  live : Word
  /-- Empty registers (R68). -/
  empty : List Nat
  /-- Register groups whose value was unspecified at placement, with the stamp of the free value (R358). -/
  vfree : List (Nat × Nat)
  m : List Word
  j : List Word
  /-- Resident cycle and PC at which the waiters of each join mask began (R377). -/
  jtimer : SMap (Nat × Word)
  partLog : Nat
  chain : Chain
  tcause : Word
  tpc : Word
  tlanes : Word
  /-- Lanes in the handler; 0 outside one (R181). -/
  handler : Word
  instr : DWord
  /-- Entries of the decision queue consumed since placement (R34). -/
  dqRead : Nat
  /-- Age of the warp slot (R359). -/
  age : Nat
  prods : List Producer
  leases : List Lease
  /-- Operations that named it, as counted at MXISSUE (R319), and the operand registers of those not yet observed. -/
  named : Nat
  veils : List Veil
  /-- Resident time of a continuation warp: since, elapsed, next scan, MAXRUN passed (R377, R433). -/
  since : Nat
  elapsed : Nat
  scan : Nat
  overrun : Bool
  deriving DecidableEq, Repr

/-- The lead thread of a crew (Table 6.1). -/
structure Lead where
  ended : Bool
  pc : Word
  k : SMap DWord
  /-- Registers that hold an uncorrectable error (R455). -/
  bad : List Nat
  empty : List Nat
  /-- Return stack, innermost first; its length is CDEPTH. -/
  stack : List Word
  wait : Wait
  hold : Bool
  adv : Nat
  answers : List Answer
  extData : List (Loc × List Byte)
  extErr : List (Loc × Nat)
  lastSp : Option Word
  /-- Liveness word of the instruction it waits at (R161), and whether that is SWAITQ (R371). -/
  sp : Option Word
  swaits : Bool
  instr : DWord
  prods : List Producer
  deriving DecidableEq, Repr

/-! ### Crews, gangs, tasks -/

/-- A tile (R219, R220): level 0 SCR, 1 ACC, 2 SCR.GANG; its bytes with planes, by offset, where not 0. -/
structure Tile where
  level : Nat
  fmt : Nat
  rows : Nat
  cols : Nat
  bytes : SMap Byte
  /-- Words with an uncorrectable error, and words with one that a read corrects (R238). -/
  bad : List Nat
  single : List Nat
  deriving DecidableEq, Repr

/-- An entry of the decision queue (R34). -/
structure DqEntry where
  data : Bool
  value : DWord
  deriving DecidableEq, Repr

/-- An open instance of a BAR or GBAR (R173). -/
structure Barrier where
  counted : Bool
  count : Nat
  /-- Arrived lanes by warp key. -/
  arrived : SMap Word
  pc : Word
  /-- Resident cycle of the first arrival (R377). -/
  start : Nat
  deriving DecidableEq, Repr

/-- A frame as its crew's commands see it at issue (R325, R326). -/
structure Frame where
  fmt : Nat
  k : Nat
  n : Nat
  /-- A scrub, a WCHECK or a reset found it lost (R327, R336, R455). -/
  lost : Bool
  deriving DecidableEq, Repr

/-- Macros that hold a frame, as the engine's queue has come to (R307, R308). -/
structure Weights where
  fmt : Nat
  k : Nat
  n : Nat
  /-- Bytes of each column and of its plane, as the tile rows held them. -/
  cols : List (List Byte × List Byte)
  /-- CRC-32C of each macro as loaded (R325). -/
  crc : List Word
  lost : Bool
  deriving DecidableEq, Repr

/-- A command in a crew's matrix queue (R317, R321). -/
structure MxCmd where
  /-- Stamp of its free values. -/
  id : Nat
  op : Nat
  /-- Tile words it names, and the tiles: key of a crew and number. -/
  words : List Word
  tiles : List (Nat × Nat)
  frame : Nat
  /-- Parameter or drain block (R322, R330). -/
  block : List Byte
  q : Option Nat
  /-- Register of a WCHECK. -/
  dest : Nat
  /-- Ranks of the warps that must have fenced, with the count each must reach (R319). -/
  fences : List (Nat × Nat)
  started : Bool
  /-- Operand registers of each live lane at the start, by rank and lane (R324). -/
  regs : List (Nat × Nat × List Word)
  /-- Bytes of its tiles written since its fences: tile, offset, length (R136). -/
  dirty : List ((Nat × Nat) × Nat × Nat)
  /-- Rows done, and the FP events of them, which count at its completion (R333, R315). -/
  row : Nat
  ev : List Nat
  deriving DecidableEq, Repr

/-- A lane's write to a tile after a fence that no MXISSUE has yet taken: rank of the warp, fence count of the lane, bytes
(R136). -/
structure EarlyWrite where
  rank : Nat
  fences : Nat
  tile : Nat × Nat
  off : Nat
  len : Nat
  deriving DecidableEq, Repr

/-- A copy in a crew's copy queue, or running (R337, R338). -/
structure Copy where
  ticket : Nat
  op : Nat
  /-- Its descriptor (R341). -/
  desc : List Byte
  /-- Completion value. -/
  value : Word
  issuer : Agent
  /-- Tiles it names, for TFREE (R353): key of a crew and number. -/
  tiles : List (Nat × Nat)
  started : Bool
  /-- Units of elements read or moved; units of a shard written (R343, R355, R356). -/
  done : Nat
  out : Nat
  /-- Entry of the index list for the run it is in (R346). -/
  ix : Nat
  /-- Shard of the list it is at, bytes of elements and of planes of a shard, and shards taken: origin and extent. -/
  shard : Nat
  buf : List Byte
  plane : List Byte
  taken : List (List Nat × List Nat)
  wait : Wait
  answers : List Answer
  extData : List (Loc × List Byte)
  extErr : List (Loc × Nat)
  /-- Lines with a syndrome of which it has written these bytes (R453). -/
  wrote : SMap DWord
  /-- FP events of its conversions, by unit, which count at its end (R213, R345). -/
  ev : List (Nat × Nat)
  deriving DecidableEq, Repr

/-- A crew in a lead-thread slot of a core (R141). -/
structure Crew where
  ctx : Nat
  task : Nat
  gang : Nat
  rank : Nat
  /-- CODE handle index and the bounds of the code section (R58). -/
  code : Nat
  codeLo : Nat
  codeHi : Nat
  /-- Warp slots by WARPRANK; a completed warp leaves its slot but stays listed. -/
  warps : List Nat
  /-- Ranks of the warps that have completed. -/
  doneWarps : List Nat
  lead : Lead
  q : List DWord
  tiles : SMap Tile
  /-- Scratchpad and accumulator bytes granted, macros granted (R219, R307). -/
  scr : Nat
  acc : Nat
  macros : Nat
  /-- Decision-queue entries not yet consumed by every warp, oldest first, and the number freed before them. -/
  dq : List DqEntry
  dqBase : Nat
  bars : SMap Barrier
  mx : List MxCmd
  copies : List Copy
  /-- Last ticket given, and the status of completed copies among the last 64 (R338). -/
  ticket : Nat
  tickets : SMap Nat
  frames : SMap Frame
  weights : SMap Weights
  /-- RESETS of MXSTAT (R332). -/
  resets : Nat
  /-- Tiles that commands not yet observed write, or drain (R318). -/
  veils : List Veil
  /-- Writes of its lanes to tiles ahead of an MXISSUE (R136). -/
  early : List EarlyWrite
  /-- It has reached its completion point (R32). -/
  done : Bool
  deriving DecidableEq, Repr

/-- A gang placed on a cluster (R28). -/
structure Gang where
  ctx : Nat
  task : Nat
  x : Nat
  y : Nat
  z : Nat
  cluster : Nat
  /-- Crew keys by rank. -/
  crews : List Nat
  gbars : SMap Barrier
  /-- Cycle of its placement or last restore, and resident cycles of earlier runs (R373). -/
  since : Nat
  elapsed : Nat
  /-- Next resident cycle of an Owl scan (R377). -/
  scan : Nat
  overrun : Bool
  deriving DecidableEq, Repr

end Sys2Proof.Machine
end

