-- ==== Sys2Proof/Machine/Units.lean ====
section
/-! DEFINITION. The parts of the state that belong to engines outside the threads: memory traffic, the home engine,
atomics, translation, dispatch, the command engine, the tenant controller and the links. -/

namespace Sys2Proof.Machine

/-! ### Memory traffic -/

/-- Bytes to be written at a location. -/
structure Patch where
  loc : Loc
  bytes : List Byte
  deriving DecidableEq, Repr

/-- A COHERENT store not yet performed: visible to its own thread only (R283). -/
structure Pending where
  core : Nat
  agent : Agent
  ctx : Nat
  pa : Nat
  bytes : List Byte
  deriving DecidableEq, Repr

/-- A GUARDED store not yet performed at its home (R261, R276). `die` marks one pushed to the die's L2. -/
structure WEntry where
  id : Nat
  core : Nat
  agent : Agent
  ctx : Nat
  handle : Nat
  off : Nat
  /-- Stage-1 virtual address, translated again at write-back. -/
  va : Nat
  /-- Sync object: its type, and the space and address its binding resolves to (Table 9.1). -/
  sync : Nat × Nat × Nat
  loc : Loc
  bytes : List Byte
  die : Bool
  /-- A GBAR shows it to the cores of its gang (R137). -/
  gang : Bool
  /-- A release of its core has followed it, so that releases elsewhere may come after it (R124). -/
  passed : Bool
  /-- The guard word whose release left it below DEVICE (R276), and the releasing agent with its PC (R277, R281). -/
  held : Option Nat
  heldBy : Agent × Word
  deriving DecidableEq, Repr

/-- What a release releases (R280). -/
inductive RelKind where
  /-- GREL of a guard word, exclusive or shared (R272). -/
  | grel (pa : Nat) (shared : Bool)
  /-- A publishing ARRIVE, whose requests name the release (R255). -/
  | arrive
  /-- FENCE.rel, or the release half of ST.rel, SST.rel, CONT (R132). -/
  | fence
  /-- A forced publish of what a guard's holder kept below DEVICE (R277). -/
  | forced (pa : Nat)
  deriving DecidableEq, Repr

/-- A withheld release and the entries it must write back (R280). -/
structure Release where
  kind : RelKind
  /-- The releasing lane, the lowest of `group`, or the lead thread. -/
  agent : Agent
  /-- The lanes whose release it is; 0 for a lead thread. -/
  group : Word
  ctx : Nat
  task : Nat
  core : Nat
  scope : Nat
  entries : List Nat
  pc : Word
  /-- Handle and offset of the object. -/
  handle : Nat
  off : Nat
  wait : Wait
  answers : List Answer
  extData : List (Loc × List Byte)
  extErr : List (Loc × Nat)
  /-- A deferred fault: class, handle, offset (R281). -/
  failed : Option (Nat × Nat × Nat)
  deriving DecidableEq, Repr

/-- A guard or barrier object as its home sees it: last release below DEVICE (scope, core), generation (R275, R276). -/
structure SyncObj where
  lastScope : Nat
  lastThread : Option Thread
  gen : Nat
  lost : Bool
  /-- A release left below DEVICE could not be published whole: nobody is granted on it until the guard word is rewritten
  (R129, R270, R274). -/
  stuck : Bool
  deriving DecidableEq, Repr

/-- A guard request (R271). -/
structure GuardReq where
  thread : Thread
  /-- The elected lane and the active lanes of the group. -/
  lane : Nat
  group : Word
  ctx : Nat
  pa : Nat
  shared : Bool
  /-- A GTRY, which does not queue. -/
  once : Bool
  dest : Nat
  /-- It found the store full and is retried (R273). -/
  unqueued : Bool
  /-- Status to deliver, once granted or refused. -/
  reply : Option Nat
  deriving DecidableEq, Repr

/-- Where an atomic acts. -/
inductive AtomAt where
  | mem (loc : Loc)
  | tile (crew tile off : Nat)
  deriving DecidableEq, Repr

/-- An atomic request of one lane (R247). -/
structure AtomReq where
  ctx : Nat
  task : Nat
  core : Nat
  slot : Nat
  lane : Nat
  /-- The producer that awaits its reply; none for RED and BINIT. -/
  prod : Option Nat
  op : Nat
  mod : Nat
  fn : Nat
  place : AtomAt
  operand : List DWord
  dest : Nat
  pc : Word
  off : Nat
  /-- Handle or tile word, for records. -/
  name : Nat
  /-- On an owned grain, executed by the issuing core (Table 10.1). -/
  owned : Bool
  /-- Accepted by its executor, holding an entry (R256). -/
  accepted : Bool
  /-- Its place in the order of acceptance, and the cluster whose Badger accepted it (R240, R256). -/
  order : Nat
  badger : Option Nat
  /-- Set aside behind a lease of its line (R257). -/
  aside : Bool
  /-- The issue cycle of its instruction, which the two of a dual-issued pair share (R249), and the instruction. -/
  beat : Nat
  batch : Nat
  /-- FP events of the instruction's requests performed before it, which it counts with its own (R213, R247). -/
  ev : List Nat
  /-- The release it waits for (R255). -/
  rel : Option Nat
  /-- A registered BWAIT waiter (R253), or one that found the table full (R254). -/
  waiting : Bool
  retry : Bool
  /-- Values of the destination registers. -/
  reply : Option (List Word)
  deriving DecidableEq, Repr

/-- A probe or invalidation in the probe queue of the core that leases its line (R286). -/
structure Probe where
  core : Nat
  line : Nat
  /-- Who asks for the line; none for a guard operation of its home. -/
  agent : Option Agent
  deriving DecidableEq, Repr

/-- What an outstanding external request is for (R449, R450). -/
inductive ExtKind where
  | read (bytes : Nat)
  /-- A Ciham write of an access that waits for its outcome. -/
  | write (data : List Byte)
  /-- An atomic, by OP, MOD, FN and operand words; its answer holds the old value or the registers it writes. -/
  | atomic (op mod fn : Nat) (operands : List Word)
  /-- A guard request at a peer, by OP (Table 11.2) and mode; its answer is the status. -/
  | guard (op : Nat) (shared : Bool)
  deriving DecidableEq, Repr

/-- An outstanding PCIe or Ciham request. -/
structure Ext where
  agent : Agent
  ctx : Nat
  loc : Loc
  kind : ExtKind
  /-- The wait that it belongs to: it ends when every request of the group is answered. -/
  group : Nat
  deriving DecidableEq, Repr

/-- What leaves the part: the model's own record of it. -/
inductive Outbound where
  /-- A posted write to host memory. -/
  | hostWrite (pasid addr : Nat) (data : List Byte)
  | msix (vector : Nat)
  | invalidationCompletion (hub : Nat)
  | pageRequest (id : Nat)
  /-- The answer to an inbound request: 0 done, 1 refused, 2 unreachable, 3 data. -/
  | peerReply (endpoint status : Nat) (data : List Byte)
  /-- An error reported through AER. -/
  | aer (hub : Nat)
  /-- Completer Abort for requests outstanding at a package reset (R26). -/
  | abort (id : Nat)
  | surpriseDown
  deriving DecidableEq, Repr

/-! ### Translation -/

/-- A cached translation of one 4 KiB page (R411); host pages carry no stage of ours. -/
structure TlbEntry where
  ctx : Nat
  page : Nat
  host : Bool
  frame : Nat
  secure : Bool
  /-- Rights granted by both stages: 1 read, 2 write, 4 fetch. -/
  rights : Nat
  deriving DecidableEq, Repr

/-- A walk in flight (R411), an ATS request or page request (R419), or a host-backed service (R418). -/
structure Walk where
  ctx : Nat
  page : Nat
  host : Bool
  acc : Nat
  /-- 0 walking, 1 page request sent, 2 host-backed service under way, 3 page request held back. -/
  phase : Nat
  hub : Nat
  /-- A changed entry was invalidated meanwhile: its result is not cached (R413). -/
  stale : Bool
  deriving DecidableEq, Repr

/-- An open fault identifier (R414, Table 17.5). -/
structure Fid where
  ctx : Nat
  page : Nat
  va : Nat
  access : Nat
  cause : Nat
  eng : Nat
  core : Nat
  merged : Nat
  time : DWord
  /-- Index of its record in the fault queue. -/
  index : Nat
  deriving DecidableEq, Repr

/-- An invalidation in progress for a VD (R412, R413). -/
structure Inval where
  ctx : Nat
  handle : Nat
  off : Nat
  wait : Wait
  answers : List Answer
  extData : List (Loc × List Byte)
  extErr : List (Loc × Nat)
  deriving DecidableEq, Repr

/-! ### Dispatch -/

/-- A continuation record accepted and not yet placed (R364..R369). -/
structure ContRec where
  id : Nat
  key : GroupKey
  cluster : Nat
  joinH : Option (Nat × Nat)
  payload : List Word
  /-- Cycle of its cluster's die at which it entered the gather store. -/
  since : Nat
  deriving DecidableEq, Repr

/-- A group of gathered records launched as a warp and not yet placed (R367). -/
structure ContWarp where
  key : GroupKey
  cluster : Nat
  recs : List ContRec
  /-- Cycle at which it was launched. -/
  since : Nat
  /-- What the read of its code object's header waits for (R368). -/
  wait : Wait
  answers : List Answer
  deriving DecidableEq, Repr

/-- A pre-emption in progress (R373). -/
structure Preempt where
  unit : UnitId
  /-- 0 drain, 1 save. -/
  option : Nat
  start : Nat
  missed : Bool
  /-- Save all allocated state without a safe point (R49). -/
  full : Bool
  /-- The save of a parked unit (R371). -/
  parked : Bool
  /-- For a die reset (R458). -/
  die : Option Nat
  deriving DecidableEq, Repr

/-- What a saved image holds (R376): the unit's own parts, as restored under R48. -/
structure Image where
  vd : Nat
  ctx : Nat
  task : Nat
  gang : Option Gang
  crews : List Crew
  /-- Warps, each with the key of the slot it left; crews stand by rank. -/
  warps : List (Nat × Warp)
  how : Nat
  elapsed : Nat
  /-- Where its bytes lie in the VD's save area, and how many they are (R376). -/
  base : Nat
  len : Nat
  /-- The join counters that its lanes wait on: those of device memory, and those outside the part, which are read until
  they are 0 (R371). -/
  counters : List Nat
  far : List Loc
  /-- Unit it was. -/
  unit : UnitId
  /-- Unpublished GUARDED writes of its threads, releases whose write-back failed, and grains of its crews with their
  ranks (R267). -/
  wbuf : List WEntry
  releases : List Release
  /-- COHERENT stores that a failed FENCE.rel keeps from being performed (R132, R281). -/
  pending : List Pending
  grains : List (Nat × Nat)
  deriving DecidableEq, Repr

/-- Slots of a cluster that a VD occupied for some time (R360). -/
structure Served where
  cluster : Nat
  vd : Nat
  /-- From and to which CYCLE of the die. -/
  since : Nat
  till : Nat
  /-- Warps and lead threads placed (R360). -/
  slots : Nat
  deriving DecidableEq, Repr

/-- A cluster: its world and its reservation (R357, R438). -/
structure Cluster where
  /-- World, when some VD has held it. -/
  secure : Option Bool
  /-- Gang reservations: tasks and the cores reserved (R357). -/
  reserve : List (Nat × List Nat)
  deriving DecidableEq, Repr

/-- A buffer that a task chose with MEASURE: its range, the PC, and the FCLASS qualifiers of the thread (R398). -/
structure Buffer where
  handle : Nat
  off : Nat
  len : Nat
  pc : Word
  qual : Nat
  deriving DecidableEq, Repr

/-- A task accepted and not complete (R387, R392). -/
structure Task where
  ctx : Nat
  qi : Nat
  /-- TASK special register. -/
  number : Nat
  /-- The 64 bytes of the descriptor as 16 words. -/
  desc : List Word
  /-- Its own handle 0 (R214). -/
  args : BitVec 256
  code : Nat
  /-- LAUNCH packet's ring index, or the launch group of a graph launch. -/
  packet : Nat
  launch : Option Nat
  /-- Tasks it still waits for (R390). -/
  deps : List Nat
  released : Bool
  /-- Stamp of its release, by which tasks of a VD are ordered (R360). -/
  order : Nat
  /-- Next gang to place and gangs to place again after a discard. -/
  nextGang : Nat
  again : List Nat
  gangsDone : Nat
  /-- Continuation records and warps not complete. -/
  conts : Nat
  /-- Buffers chosen with MEASURE and not hashed yet (R398). -/
  buffers : List Buffer
  /-- The first buffer that could not be hashed, with its class (R398). -/
  failed : Option (Nat × Buffer)
  /-- FP counters (R211) and counters whose threshold was recorded (R213). -/
  fp : SMap Nat
  fpRecorded : List Nat
  /-- Cycle of each die since which its next gang waits (R357). -/
  waiting : List Nat
  wait : Wait
  answers : List Answer
  extData : List (Loc × List Byte)
  extErr : List (Loc × Nat)
  deriving DecidableEq, Repr

/-- A range of a task in the dependence matcher (R390). -/
structure Range where
  task : Nat
  ctx : Nat
  host : Bool
  lo : Nat
  hi : Nat
  write : Bool
  deriving DecidableEq, Repr

/-! ### Command engine -/

/-- A registered graph (R388). -/
structure Graph where
  ctx : Nat
  /-- Task descriptors, 16 words each. -/
  tasks : List (List Word)
  /-- Region lists by task: handle, mode, length, offset. -/
  regions : List (List (Nat × Nat × Nat × Nat))
  argHandle : Nat
  slotSize : Nat
  deriving DecidableEq, Repr

/-- A graph launch in flight (R386). -/
structure GraphLaunch where
  qi : Nat
  graph : Nat
  word : Word
  left : Nat
  failed : Option Nat
  deriving DecidableEq, Repr

/-- A packet begun and not completed (R383); a kick launch stands as type 256. -/
structure Packet where
  type : Nat
  index : Nat
  event : Bool
  words : List Word
  /-- The task or the graph launch that it waits for. -/
  work : Option Nat
  deriving DecidableEq, Repr

/-- Where the engine reads packets: an indirect buffer (R384). -/
structure IbFrame where
  handle : Nat
  off : Nat
  len : Nat
  pos : Nat
  deriving DecidableEq, Repr

/-- A queue interface (R379, R435). -/
structure Qi where
  vd : Nat
  ctx : Nat
  bound : Bool
  /-- Unbound by QI_UNBIND, with packets begun that still complete (R423). -/
  closing : Bool
  secure : Bool
  ringH : Nat
  ringOff : Nat
  k : Nat
  evH : Nat
  evOff : Nat
  e : Nat
  remap : Word
  pw : Nat
  pr : Nat
  evw : Nat
  evr : Nat
  evctl : Word
  stopped : Bool
  kdrop : Nat
  evdrop : Nat
  kicks : List Word
  ib : List IbFrame
  begun : List Packet
  /-- Acceptance sequence number (R392). -/
  seq : Nat
  /-- Records waiting to be written (R393): their TIME when it is not that of the writing, the 24 bytes after it, and
  whether the KIND interrupts at once. -/
  records : List (Option Nat × List Byte × Bool)
  unsignalled : Nat
  oldest : Nat
  /-- TIME of the hint whose class the next launch waits for (R391). -/
  hold : Option Nat
  wait : Wait
  answers : List Answer
  extData : List (Loc × List Byte)
  extErr : List (Loc × Nat)
  /-- What the writing of its records waits for (R393). -/
  rwait : Wait
  deriving DecidableEq, Repr

/-- A receipt whose signature is being made (R401). -/
structure Signing where
  qi : Nat
  leaf : Nat
  body : List Byte
  handle : Nat
  off : Nat
  /-- It is made, and waits to be written. -/
  made : Bool
  deriving DecidableEq, Repr

/-! ### Tenant controller -/

/-- A grant entry (R427). -/
structure Grant where
  type : Nat
  inst : Nat
  amount : Nat
  floor : Nat
  cap : Nat
  deriving DecidableEq, Repr

/-- The configuration record of a VD (Table 18.5). -/
structure VdConfig where
  secure : Bool
  deadline : Nat
  barLimit : Nat
  fqLog2 : Nat
  hback : Nat
  hbSlots : Nat
  grants : List Grant
  deriving DecidableEq, Repr

/-- A virtual device (R425, R437). -/
structure Vd where
  state : Nat
  config : VdConfig
  /-- Clusters granted: cluster, share, weight (R427). -/
  clusters : List (Nat × Nat × Nat)
  msixBase : Nat
  msixLen : Nat
  fqw : Nat
  fqr : Nat
  fids : SMap Fid
  /-- Faults that found no FID or no room: agent and fault (R414). -/
  waiting : List (Agent × Fid)
  diagw : Nat
  fpsel : Word
  graphs : SMap Graph
  ranges : List Range
  invals : List Inval
  /-- Grants by instance, as admission spread them (R427). -/
  held : List Grant
  /-- First backing slot of each host-backed leaf fetched, by its first intermediate page (R418). -/
  slots : SMap Nat
  /-- The first launch of a newly resident VD waits for 2.4 GHz (R19). -/
  hold : Bool
  /-- Class of the last FREQ_HINT that its queues accepted (R18). -/
  hint : Option Nat
  deriving DecidableEq, Repr

/-- A kill-and-drain in progress (R440). -/
structure Kill where
  /-- STATUS, class and the fields of the KIND 0x03 record. -/
  status : Nat
  cls : Nat
  source : Nat
  qual : Nat
  fpc : Word
  faddr : DWord
  /-- Engines whose SCRUB is done, and engines reset. -/
  done : Nat
  reset : Nat
  start : DWord
  /-- Handle table emptied at DONE (CTX_KILL). -/
  emptyTable : Bool
  deriving DecidableEq, Repr

/-- A context (R37). -/
structure Ctx where
  vd : Nat
  num : Nat
  pasid : Nat
  root : Option Nat
  trapCode : Nat
  trapOff : Word
  /-- Bounds of the trap code section, once taken (R58). -/
  trapBounds : Option (Nat × Nat)
  handles : SMap (BitVec 256)
  chain : BitVec 256
  ext : Nat
  faults : SMap Nat
  fpCum : SMap Nat
  fpThr : SMap Nat
  quota : Nat
  ovCap : Nat
  overflow : List ContRec
  kill : Option Kill
  deriving DecidableEq, Repr

/-- A mailbox command that has not completed (R422): what completes it. -/
inductive MbWait where
  /-- The kills of contexts of a VD, for CTX_KILL, CTX_DESTROY, VD_RESET or VD_DESTROY by its opcode. -/
  | kills (vd : Nat) (ctxs : List Nat) (opcode : Nat)
  /-- The saves of the units of a VD that leave its clusters, for VD_EVICT or VD_RESIZE: the VD as it will be. -/
  | saves (vd : Nat) (next : Vd)
  | scrub (vd : Nat)
  | reset
  | update
  | inval (ctx : Nat)
  deriving DecidableEq, Repr

/-- The management interface (R421, R422, R439). -/
structure Mailbox where
  busy : Bool
  tag : Nat
  result : Nat
  arg : List Word
  wait : Option MbWait
  /-- A command held during a live update (R422): opcode, tag, image. -/
  held : Option (Nat × Nat × Option FwImage)
  alarmCount : Nat
  alarmLevel : Nat
  alarmCfg : Word
  capGen : Nat
  mgBase : Option Nat
  mgLog2 : Nat
  mgw : Nat
  mgr : Nat
  mgDrop : Nat
  /-- Some engine of a kill of the running command was reset (R442). -/
  escalated : Bool
  deriving DecidableEq, Repr

/-! ### Package, dies, hubs -/

/-- A live update in progress (R403): slot written, step, time of the blackout. -/
structure Update where
  image : FwImage
  slot : Nat
  /-- 0 standby importing, 1 packets stopped. -/
  phase : Nat
  /-- TIME at which packets stopped. -/
  since : Nat
  deriving DecidableEq, Repr

/-- Package-wide state (R20..R25, R12, R18, R401, R439). -/
structure Package where
  ready : Bool
  standby : Bool
  activeHub : Nat
  recovery : Bool
  stage : Nat
  failcode : Nat
  clk100 : Nat
  fails : List (Nat × Nat × Nat)
  /-- Flash image slots: version and whether the slot verifies; 0 for an empty slot. -/
  slots : List (Nat × Bool)
  runSlot : Nat
  rollback : Nat
  reserved : Nat
  leafNext : Nat
  leafEnd : Nat
  flashBad : Bool
  keysErased : Bool
  update : Option Update
  tripped : Bool
  /-- A package warm reset held by a live update (R27). -/
  resetHeld : Bool
  cls : Nat
  clsTarget : Option Nat
  /-- A die is above its throttle threshold: no class above 2.4 GHz, and then no launches (R12). -/
  capped : Bool
  throttled : Bool
  temps : List Nat
  kickDrops : Nat
  chanOut : List Nat
  signing : List Signing
  deriving DecidableEq, Repr

/-- A compute die (R8, R17, R291, R457, R458). -/
structure Die where
  up : Bool
  cycle : Nat
  isolated : Bool
  /-- Step of a warm reset in progress (0 none), and its start. -/
  step : Nat
  start : DWord
  deriving DecidableEq, Repr

/-- A hub (R419, R420). -/
structure Hub where
  priOff : Bool
  /-- ATS invalidations received and not completed: PASID, first page, pages. -/
  invals : List (Nat × Nat × Nat)
  deriving DecidableEq, Repr

/-- A virtual fabric endpoint request of a peer that waits on PAGE (R452). -/
structure Inbound where
  req : PeerRequest
  wait : Wait
  answers : List Answer
  extData : List (Loc × List Byte)
  extErr : List (Loc × Nat)
  deriving DecidableEq, Repr

/-- Who moves next (the model's own schedule). -/
inductive Turn where
  /-- A cycle of the sequencer of a core (R359). -/
  | warp (core : Nat)
  /-- A cycle of the lead engine of a core (R142). -/
  | lead (core : Nat)
  /-- An operation or event. -/
  | event (i : Instr)
  deriving DecidableEq, Repr

/-- The thread whose instruction `exec` carries out. -/
inductive Issuer where
  | none
  | lanes (core slot : Nat) (group : Word)
  | lead (core slot : Nat)
  deriving DecidableEq, Repr

end Sys2Proof.Machine
end

