-- ==== Sys2Proof/Machine/State.lean ====
section
/-! DEFINITION. The state of the machine as plain data: every register, table, queue and store the spec names,
with the model's own schedule; the faults and refusals of a step; the state after cold reset. -/

namespace Sys2Proof.Machine

/-- Device physical memory: cells with strictly rising addresses, none of which holds 0. -/
abbrev Memory := List Host.Cell

/-- What a byte of device memory that no cell lists reads as: 0 (R21 after the scrub; DESIGN CHOICE before it,
log 3; unsafe). -/
def unlisted : Byte := 0

/-- The addresses rise strictly and no cell lists the byte an unlisted address reads as. -/
def Memory.wf : Memory → Bool
  | [] => true
  | [c] => c.2 != unlisted
  | c :: d :: r => c.2 != unlisted && decide (c.1 < d.1) && Memory.wf (d :: r)

/-- The whole machine. -/
structure State where
  pkg : Package
  dies : List Die
  hubs : List Hub
  /-- Modules active of links CD0..CD3 to their hubs and of the hub-to-hub link (R446). -/
  links : List Nat
  /-- Links that train again without a failed module (R446). -/
  training : List Nat
  /-- ERRCNT0..ERRCNT5 (R456). -/
  errcnt : List DWord
  mb : Mailbox
  endpoints : SMap (BitVec 128)
  clusters : SMap Cluster
  /-- What the VDs occupied of each cluster in the last 2^20 cycles (R360). -/
  served : List Served
  vds : SMap Vd
  ctxs : SMap Ctx
  qis : SMap Qi
  tasks : SMap Task
  launches : SMap GraphLaunch
  gangs : SMap Gang
  crews : SMap Crew
  warps : SMap Warp
  gather : List ContRec
  contWarps : SMap ContWarp
  /-- Pre-emptions in progress (R373). -/
  preempts : List Preempt
  images : SMap Image
  /-- Device memory, and the syndrome of each line whose check value does not match its bytes (R453). -/
  mem : Memory
  syndrome : SMap Word
  /-- Lines with a syndrome that a core rewrites: the core, and the bytes that its stores have written since the line came
  into its caches (R453). -/
  patched : SMap (Nat × DWord)
  pending : List Pending
  wbuf : List WEntry
  releases : SMap Release
  syncs : SMap SyncObj
  guards : SMap GuardReq
  owners : SMap DWord
  /-- Home directory: dies that hold the line, and, when the copy is in M, the bytes before its die took it
  (R282, R291). -/
  dir : SMap (List Nat × List Byte)
  /-- Die directories, by line × 4 + die: the cores whose L1s hold the line, and whether one holds it in M (R261, R282). -/
  dieDir : SMap (List Nat × Bool)
  /-- Probe queues of the cores' lease buffers (R286). -/
  probes : List Probe
  leaseQ : List Lease
  leaseBuf : List (Nat × Nat × List Byte)
  lost : List Nat
  atoms : SMap AtomReq
  /-- Deficit round robin of each Badger, by cluster: the VD being served and the requests left to it (R256). -/
  drr : SMap (Nat × Nat)
  /-- Clusters whose Badger issued in the last cycle of their core 0 while a tenant warp was ready there (R359). -/
  badgers : List Nat
  exts : SMap Ext
  inbound : SMap Inbound
  tlb : List TlbEntry
  walks : SMap Walk
  time : DWord
  /-- What has left the part, newest first. -/
  out : List Outbound
  /-- Warp slot and lead-thread slot of each core that issued last (R142, R359). -/
  rot : SMap (Nat × Nat)
  /-- The model's own fields: schedule, default turns taken, issuing thread, groups that may take the second slot,
  free-value counter, next identifier. -/
  inbox : List Turn
  turn : Nat
  /-- Issue cycles begun; the second slot belongs to the one before it (R164). -/
  beat : Nat
  cur : Issuer
  second : Option (Nat × Nat × List Word)
  stamp : Nat
  nextId : Nat
  deriving DecidableEq, Repr

/-- Why a step stops with a fault. -/
inductive Fault where
  /-- `exec` was given an instruction while no thread issues one (raised by the issue of every instruction of the two
  streams). Safe: the machine has no such step. -/
  | noThread
  deriving DecidableEq, Repr

/-- Why an instruction has no meaning. -/
inductive Refusal where
  /-- Raised by `exec` for an instruction not modelled yet. Safe. -/
  | notModelled (mnemonic : String)
  deriving DecidableEq, Repr

/-- Compute die after cold reset: out until boot stage 5. -/
def Die.reset : Die := { up := false, cycle := 0, isolated := false, step := 0, start := 0 }

/-- Hub after cold reset. -/
def Hub.reset : Hub := { priOff := false, invals := [] }

/-- Package state after a cold reset that finds the given flash and fuses (R20, R22, R25, R401, R424). -/
def Package.cold (slots : List (Nat × Bool)) (rollback reserved : Nat) : Package :=
  { ready := false, standby := false, activeHub := 0, recovery := false, stage := 0, failcode := 0, clk100 := 0,
    fails := [], slots := slots, runSlot := 0, rollback := rollback, reserved := reserved, leafNext := 0,
    leafEnd := 0, flashBad := false, keysErased := false, update := none, tripped := false, resetHeld := false,
    cls := 2, clsTarget := none, capped := false, throttled := false, temps := [0, 0, 0, 0, 0, 0], kickDrops := 0,
    chanOut := [], signing := [] }

/-- The management interface after cold reset (R421, R422, R439). -/
def Mailbox.reset : Mailbox :=
  { busy := false, tag := 0, result := 0, arg := List.replicate 64 0, wait := none, held := none, alarmCount := 0,
    alarmLevel := 0, alarmCfg := 0x00800020#32, capGen := 0, mgBase := none, mgLog2 := 0, mgw := 0, mgr := 0,
    mgDrop := 0, escalated := false }

/-- The machine after a cold reset that finds the given flash and fuses. -/
def State.cold (slots : List (Nat × Bool)) (rollback reserved : Nat) : State :=
  { pkg := Package.cold slots rollback reserved, dies := List.replicate 4 Die.reset,
    hubs := List.replicate 2 Hub.reset, links := List.replicate 5 24, training := [], errcnt := List.replicate 6 0,
    mb := Mailbox.reset, endpoints := [], clusters := [], served := [], vds := [], ctxs := [], qis := [], tasks := [],
    launches := [], gangs := [], crews := [], warps := [], gather := [], contWarps := [], preempts := [],
    images := [], mem := [], syndrome := [], patched := [], pending := [], wbuf := [], releases := [], syncs := [], guards := [],
    owners := [], dir := [], dieDir := [], probes := [], leaseQ := [], leaseBuf := [], lost := [], atoms := [], drr := [], badgers := [], exts := [], inbound := [],
    tlb := [], walks := [], time := 0, out := [], rot := [], inbox := [], turn := 0, beat := 0, cur := .none, second := none, stamp := 0,
    nextId := 1 }

/-- The machine right after reset: a part whose flash holds one verified image, version 1, and whose counters are at
their first values (DESIGN CHOICE, log 2). -/
def State.reset : State := State.cold [(1, true), (0, false)] 1 0

end Sys2Proof.Machine
end

