-- ==== Sys2Proof/Machine/Basic.lean ====
section
/-! DEFINITION. Helpers of the machine: sparse stores, lane masks, byte strings, and the reading and updating of the
parts of the state. -/

namespace Sys2Proof.Machine

/-! ### Sparse stores -/

/-- The entry at a key. -/
def look {α : Type} : SMap α → Nat → Option α
  | [], _ => none
  | (k, v) :: r, n => if k = n then some v else look r n

/-- The store with an entry set, keys rising. -/
def put {α : Type} : SMap α → Nat → α → SMap α
  | [], n, x => [(n, x)]
  | (k, v) :: r, n, x =>
    if n < k then (n, x) :: (k, v) :: r
    else if n = k then (n, x) :: r
    else (k, v) :: put r n x

/-- The store without a key. -/
def drop {α : Type} (m : SMap α) (n : Nat) : SMap α := m.filter fun e => e.1 != n

/-- The entries that satisfy a test. -/
def keep {α : Type} (m : SMap α) (p : Nat → α → Bool) : SMap α := m.filter fun e => p e.1 e.2

/-- The store with the entry at a key changed, if there is one. -/
def adjust {α : Type} (m : SMap α) (n : Nat) (g : α → α) : SMap α :=
  match look m n with
  | none => m
  | some x => put m n (g x)

/-- Every entry changed. -/
def mapS {α : Type} (m : SMap α) (g : Nat → α → α) : SMap α := m.map fun e => (e.1, g e.1 e.2)

/-- The number at a key, 0 where none is listed. -/
def count (m : SMap Nat) (n : Nat) : Nat := (look m n).getD 0

/-- The least element of a list, if any. -/
def minOf : List Nat → Option Nat
  | [] => none
  | x :: r => match minOf r with | none => some x | some y => some (min x y)

/-- The first number below `n` that satisfies a test. -/
def firstBelow (p : Nat → Bool) (n : Nat) : Option Nat := (List.range n).find? p

/-- Element `n` of a list replaced. -/
def setNth {α : Type} : List α → Nat → α → List α
  | [], _, _ => []
  | _ :: r, 0, x => x :: r
  | y :: r, n + 1, x => y :: setNth r n x

/-- Element `n` of a list changed. -/
def modNth {α : Type} : List α → Nat → (α → α) → List α
  | [], _, _ => []
  | y :: r, 0, g => g y :: r
  | y :: r, n + 1, g => y :: modNth r n g

/-- Elements changed by index. -/
def mapIx {α β : Type} (g : Nat → α → β) : Nat → List α → List β
  | _, [] => []
  | n, x :: r => g n x :: mapIx g (n + 1) r

/-! ### Masks -/

/-- Bit `l` of a mask. -/
def bitOf (m : Word) (l : Nat) : Bool := m.getLsbD l

/-- The mask of the lanes that satisfy a test. -/
def maskOf (p : Nat → Bool) : Word :=
  (List.range 32).foldl (fun acc l => if p l then acc ||| ((1 : Word) <<< l) else acc) 0

/-- The lanes of a mask, in rising order. -/
def lanesOf (m : Word) : List Nat := (List.range 32).filter (bitOf m)

/-- The lowest lane of a mask; 0 when empty. -/
def lowest (m : Word) : Nat := (firstBelow (bitOf m) 32).getD 0

/-- The number of lanes of a mask. -/
def popCount (m : Word) : Nat := (lanesOf m).length

/-! ### Numbers and bytes -/

/-- The bytes of a number, low byte first (R1). -/
def bytesOf (n : Nat) (x : Nat) : List Byte := (List.range n).map fun i => BitVec.ofNat 8 (x / 2 ^ (8 * i))

/-- The number that bytes hold, low byte first (R1). -/
def natOf : List Byte → Nat
  | [] => 0
  | b :: r => b.toNat + 256 * natOf r

/-- A number as a 32-bit word. -/
def w32 (n : Nat) : Word := BitVec.ofNat 32 n

/-- A number as a 64-bit word. -/
def w64 (n : Nat) : DWord := BitVec.ofNat 64 n

/-- An integer modulo 2^64. -/
def i64 (n : Int) : DWord := BitVec.ofInt 64 n

/-- The low and the high half of a 64-bit word. -/
def lo32 (x : DWord) : Word := x.setWidth 32
def hi32 (x : DWord) : Word := x.extractLsb' 32 32

/-- The 64-bit word of two halves. -/
def join64 (hi lo : Word) : DWord := hi ++ lo

/-- Bit field `len` bits wide at `start` of a 256-bit entry. -/
def field256 (e : BitVec 256) (start len : Nat) : Nat := e.toNat / 2 ^ start % 2 ^ len

/-- `n` added to a counter that stops at `top`. -/
def satAdd (top x n : Nat) : Nat := min top (x + n)

/-- The 32-bit words of a byte string. -/
def wordsOf : List Byte → List Word
  | b0 :: b1 :: b2 :: b3 :: r => (b3 ++ b2 ++ b1 ++ b0 : Word) :: wordsOf r
  | _ => []

/-- The bytes of 32-bit words. -/
def bytesOfWords (ws : List Word) : List Byte := ws.flatMap fun w => bytesOf 4 w.toNat

/-! ### Keys -/

/-- Key of a warp slot: core and slot. -/
def warpKey (core slot : Nat) : Nat := core * 16 + slot
/-- Key of a lead-thread slot: core and slot. -/
def crewKey (core slot : Nat) : Nat := core * 4 + slot
/-- Key of a context: VD and number. -/
def ctxKey (vd num : Nat) : Nat := vd * 64 + num
/-- Cluster, die and hub of a core (R10, R8). -/
def clusterOf (core : Nat) : Nat := core / 16
def dieOf (core : Nat) : Nat := core / 1024
def hubOfDie (die : Nat) : Nat := die / 2

/-! ### Reading and updating parts of the state -/

def State.warp? (s : State) (core slot : Nat) : Option Warp := look s.warps (warpKey core slot)
def State.crew? (s : State) (core slot : Nat) : Option Crew := look s.crews (crewKey core slot)
def State.ctx? (s : State) (c : Nat) : Option Ctx := look s.ctxs c
def State.vd? (s : State) (v : Nat) : Option Vd := look s.vds v
def State.qi? (s : State) (q : Nat) : Option Qi := look s.qis q
def State.task? (s : State) (t : Nat) : Option Task := look s.tasks t

def State.setWarp (s : State) (core slot : Nat) (w : Warp) : State :=
  { s with warps := put s.warps (warpKey core slot) w }
def State.onWarpKey (s : State) (k : Nat) (g : Warp → Warp) : State := { s with warps := adjust s.warps k g }
def State.onWarp (s : State) (core slot : Nat) (g : Warp → Warp) : State := s.onWarpKey (warpKey core slot) g
def State.onCrewKey (s : State) (k : Nat) (g : Crew → Crew) : State := { s with crews := adjust s.crews k g }
def State.onCrew (s : State) (core slot : Nat) (g : Crew → Crew) : State := s.onCrewKey (crewKey core slot) g
def State.onLead (s : State) (core slot : Nat) (g : Lead → Lead) : State :=
  s.onCrew core slot fun c => { c with lead := g c.lead }
def State.onGang (s : State) (k : Nat) (g : Gang → Gang) : State := { s with gangs := adjust s.gangs k g }
def State.onCtx (s : State) (k : Nat) (g : Ctx → Ctx) : State := { s with ctxs := adjust s.ctxs k g }
def State.onVd (s : State) (k : Nat) (g : Vd → Vd) : State := { s with vds := adjust s.vds k g }
def State.onQi (s : State) (k : Nat) (g : Qi → Qi) : State := { s with qis := adjust s.qis k g }
def State.onTask (s : State) (k : Nat) (g : Task → Task) : State := { s with tasks := adjust s.tasks k g }
def State.onPkg (s : State) (g : Package → Package) : State := { s with pkg := g s.pkg }
def State.onMb (s : State) (g : Mailbox → Mailbox) : State := { s with mb := g s.mb }
def State.onDie (s : State) (d : Nat) (g : Die → Die) : State := { s with dies := modNth s.dies d g }
def State.onHub (s : State) (h : Nat) (g : Hub → Hub) : State := { s with hubs := modNth s.hubs h g }

/-- Lanes of a warp changed by number. -/
def Warp.onLanes (w : Warp) (g : Nat → Lane → Lane) : Warp := { w with lanes := mapIx g 0 w.lanes }

/-- The lanes of a mask changed. -/
def Warp.onMask (w : Warp) (m : Word) (g : Nat → Lane → Lane) : Warp :=
  w.onLanes fun l x => if bitOf m l then g l x else x

/-- A lane after placement, exited until it is given a PC. -/
def Lane.fresh (pc : Word) : Lane :=
  { pc, wait := .none, hold := false, adv := 0, v := [], bad := [], age := 0, answers := [], extData := [], extErr := [], taddr := 0,
    tdata := 0, lastSp := none, sp := none, fences := 0, marks := [], joinCtr := none }

/-- Lane `l` of a warp. -/
def Warp.lane (w : Warp) (l : Nat) : Lane := w.lanes.getD l (Lane.fresh 0xFFFFFFFF#32)

/-- A fresh identifier. -/
def State.fresh (s : State) : Nat × State := (s.nextId, { s with nextId := s.nextId + 1 })

/-- A fresh stamp for a free value. -/
def State.draw (s : State) : Nat × State := (s.stamp, { s with stamp := s.stamp + 1 })

/-- The VD of a context. -/
def State.vdOf (s : State) (c : Nat) : Nat := match s.ctx? c with | some x => x.vd | none => c / 64

/-- The context exists and is not being killed. -/
def State.runs (s : State) (c : Nat) : Bool :=
  match s.ctx? c with | some x => x.kill.isNone && !s.pkg.tripped | none => false

/-- Core cycles of a core's die (R17). -/
def State.cycleOf (s : State) (core : Nat) : Nat := (s.dies.map (·.cycle)).getD (dieOf core) 0

/-- World of the engines of a cluster: true when secure (R438). -/
def State.worldOf (s : State) (core : Nat) : Bool :=
  match look s.clusters (clusterOf core) with
  | some c => c.secure.getD false
  | none => false

/-- Something leaves the part. -/
def State.emit (s : State) (o : Outbound) : State := { s with out := o :: s.out }

/-- A field of ERRCNT `n`, `width` bits from `lo`, goes up, saturating (R456). -/
def State.errUp (s : State) (n lo width k : Nat) : State :=
  { s with errcnt := modNth s.errcnt n fun e =>
      let old := bits e.toNat (lo + width - 1) lo
      e + w64 ((satAdd (2 ^ width - 1) old k - old) * 2 ^ lo) }

/-- A field of a task descriptor, by byte offset and length (Table 16.6). -/
def descField (d : List Word) (off len : Nat) : Nat :=
  natOf (((bytesOfWords d).drop off).take len)

end Sys2Proof.Machine
end

