-- ==== Sys2Proof/Machine/Mem.lean ====
section
/-! DEFINITION. Device memory and tiles: reading and writing bytes, what a thread sees over memory, the performing of
stores, and the completion of the waits that watch a word. -/

namespace Sys2Proof.Machine

/-! ### Bytes of device memory -/

/-- The byte at an address. -/
def Memory.read : Memory → Nat → Byte
  | [], _ => unlisted
  | (k, b) :: r, a => if k = a then b else Memory.read r a

/-- The memory with one byte written, in its canonical form. -/
def Memory.write : Memory → Nat → Byte → Memory
  | [], a, b => if b = unlisted then [] else [(a, b)]
  | (k, c) :: r, a, b =>
    if a < k then (if b = unlisted then (k, c) :: r else (a, b) :: (k, c) :: r)
    else if a = k then (if b = unlisted then r else (a, b) :: r)
    else (k, c) :: Memory.write r a b

/-- `n` bytes from an address. -/
def Memory.readN (m : Memory) (a n : Nat) : List Byte := (List.range n).map fun i => m.read (a + i)

/-- Bytes written from an address. -/
def Memory.writeN : Memory → Nat → List Byte → Memory
  | m, _, [] => m
  | m, a, b :: r => Memory.writeN (m.write a b) (a + 1) r

/-- The memory with every byte of a range zero (R444). -/
def Memory.zero (m : Memory) (a n : Nat) : Memory := m.filter fun c => !(decide (a ≤ c.1 ∧ c.1 < a + n))

/-! ### Waits that a write completes -/

/-- A waiting lane goes on after its instruction. -/
def Lane.pass (x : Lane) : Lane :=
  { x with pc := x.pc + w32 x.adv, wait := .none, hold := false, answers := [], extData := [], extErr := [] }

/-- The condition of WAITA (R235). -/
def waitaHolds (cond : Nat) (word value : Word) : Bool :=
  match cond with
  | 0 => word == value
  | 1 => word != value
  | 2 => decide (value.toNat ≤ word.toNat)
  | _ => decide (value.toInt ≤ word.toInt)

/-- Lanes at CWAIT whose counter reads 0 go on (R370), those of saved units too. -/
def State.wakeCwait (s : State) : State :=
  let wake (w : Warp) : Warp := w.onLanes fun _ x =>
    match x.wait with
    | .cwait pa => if natOf (s.mem.readN pa 4) = 0 then x.pass else x
    | _ => x
  { s with warps := mapS s.warps fun _ w => wake w,
           images := mapS s.images fun _ x => { x with warps := x.warps.map fun e => (e.1, wake e.2) } }

/-- A matrix command not yet observed hides a tile (R136, R318). -/
def State.veilOn (s : State) (crew tile : Nat) : Option Veil :=
  s.crews.findSome? fun e => e.2.veils.find? fun v => v.first == crew && v.count == tile

/-- Bytes of a hidden tile: unpredictable by element, read and reader (R136). -/
def hiddenBytes (v : Veil) (time reader off n : Nat) : List Byte :=
  (List.range n).map fun i =>
    (Config.freeVeil v.stamp time ((off + i) / 4) reader).extractLsb' (8 * ((off + i) % 4)) 8

/-- The bytes of a tile as any other than a lane's load reads them: unpredictable while a command not yet observed hides it
(R136). -/
def State.tileNow (s : State) (crew tile off n : Nat) : List Byte :=
  match s.veilOn crew tile with
  | some v => hiddenBytes v s.stamp 32 off n
  | none =>
    match (look s.crews crew).bind fun c => look c.tiles tile with
    | some t => (List.range n).map fun i => (look t.bytes (off + i)).getD 0
    | none => List.replicate n 0

/-- A word of a tile. -/
def State.tileWord (s : State) (crew tile off : Nat) : Word := w32 (natOf (s.tileNow crew tile off 4))

/-- A lane waits at WAITA on a word of a tile that holds an uncorrectable error. -/
def Lane.atBadWord (x : Lane) (crew tile : Nat) (t : Tile) : Bool :=
  match x.wait with
  | .waita cr ti off _ _ => cr == crew && ti == tile && t.bad.contains (off / 4)
  | _ => false

/-- Lanes at WAITA whose word meets their condition go on; those whose word holds an uncorrectable error execute the
instruction again, and meet its DATA_CHECK (R235, R238). A lane waits for a crew and a tile number: when the tile is freed it
waits on, and a store to a tile allocated under the same number may complete it (DESIGN CHOICE, log 77). -/
def State.wakeWaita (s : State) (crew tile : Nat) : State :=
  match look s.crews crew with
  | none => s
  | some c =>
    match look c.tiles tile with
    | none => s
    | some t =>
      { s with warps := mapS s.warps fun _ w =>
          let bad := w.lanes.any fun x => x.atBadWord crew tile t
          { w.onLanes fun _ x =>
              if x.atBadWord crew tile t then { x with wait := .none }
              else
                match x.wait with
                | .waita cr ti off cond value =>
                  if cr = crew ∧ ti = tile ∧ waitaHolds cond (s.tileWord crew tile off) value then x.pass else x
                | _ => x
            with instr := if bad then w.instr - 1 else w.instr } }

/-- Two ranges of bytes meet. -/
def meets (a n b m : Nat) : Bool := decide (a < b + m ∧ b < a + n)

/-- The byte at `pa` after a write of `bs` from `base`. -/
def patchByte (base : Nat) (bs : List Byte) (pa : Nat) (old : Byte) : Byte :=
  if base ≤ pa ∧ pa < base + bs.length then bs.getD (pa - base) old else old

/-- A store in a write buffer after a later write of some of its bytes has been performed: it will not undo it, for the
writes of a byte keep one order (R122, R127; log 56). -/
def WEntry.under (e : WEntry) (pa : Nat) (bs : List Byte) : WEntry :=
  match e.loc with
  | .dev base =>
    if meets base e.bytes.length pa bs.length then { e with bytes := mapIx (fun k b => patchByte pa bs (base + k) b) 0 e.bytes }
    else e
  | _ => e

/-- A write of bytes is later than the buffered stores that satisfy a test, in the cores and in saved images. -/
def State.overtake (s : State) (pa : Nat) (bs : List Byte) (older : WEntry → Bool) : State :=
  let under (e : WEntry) : WEntry := if older e then e.under pa bs else e
  { s with wbuf := s.wbuf.map under, images := mapS s.images fun _ x => { x with wbuf := x.wbuf.map under } }

/-- A guard word that a store rewrites may be granted again (R270, R274). -/
def State.unstick (s : State) (pa n : Nat) : State :=
  { s with syncs := mapS s.syncs fun a o => if meets a 8 pa n then { o with stuck := false } else o }

/-- Bytes written to device memory, with the waits they complete. -/
def State.write (s : State) (pa : Nat) (bs : List Byte) : State :=
  ({ s with mem := s.mem.writeN pa bs } : State).wakeCwait

/-- A write performed now, later than every store that is still buffered. -/
def State.store (s : State) (pa : Nat) (bs : List Byte) : State :=
  ((s.overtake pa bs fun _ => true).unstick pa bs.length).write pa bs

/-- Bytes written to device memory that give every line they cover whole a fresh check value (R453). -/
def State.storeFresh (s : State) (pa : Nat) (bs : List Byte) : State :=
  let s' := s.store pa bs
  { s' with syndrome := keep s'.syndrome fun l _ => !(decide (pa ≤ l * 64 ∧ l * 64 + 64 ≤ pa + bs.length)) }

/-! ### Tiles -/

/-- A byte of a tile. -/
def Tile.read (t : Tile) (off : Nat) : Byte := (look t.bytes off).getD 0

/-- The tile with a byte written; a byte 0 is not listed. -/
def Tile.write (t : Tile) (off : Nat) (b : Byte) : Tile :=
  { t with bytes := if b = 0 then drop t.bytes off else put t.bytes off b }

/-- Bytes of a tile from an offset. -/
def Tile.readN (t : Tile) (off n : Nat) : List Byte := (List.range n).map fun i => t.read (off + i)

/-- The tile with bytes written from an offset; a word written whole loses its error (R238). -/
def Tile.writeN (t : Tile) (off : Nat) (bs : List Byte) : Tile :=
  let t' := ((List.range bs.length).foldl (fun t i => t.write (off + i) (bs.getD i 0)) t)
  let part (w : Nat) : Bool := !(decide (off ≤ w * 4 ∧ w * 4 + 4 ≤ off + bs.length))
  { t' with bad := t'.bad.filter part, single := t'.single.filter part }

/-- A tile of a crew. -/
def State.tile? (s : State) (crew tile : Nat) : Option Tile :=
  match look s.crews crew with
  | none => none
  | some c => look c.tiles tile

/-- Bytes written to a tile of a crew by the matrix engine, with the waits they complete. -/
def State.writeTile (s : State) (crew tile off : Nat) (bs : List Byte) : State :=
  (s.onCrewKey crew fun c => { c with tiles := adjust c.tiles tile fun t => t.writeN off bs }).wakeWaita crew tile

/-- A read of bytes of a tile corrects the single-bit errors of their words, and counts them (R238, R455). -/
def State.correct (s : State) (die crew tile off n : Nat) : State :=
  let hit (w : Nat) : Bool := meets (w * 4) 4 off n
  match (s.tile? crew tile).map fun t => t.single.filter hit with
  | none => s
  | some [] => s
  | some ws => (s.errUp die 0 24 ws.length).onCrewKey crew fun c =>
      { c with tiles := adjust c.tiles tile fun t => { t with single := t.single.filter fun w => !hit w } }

/-- Every warp that supplies operands to a matrix command of a crew has fenced; one that has completed has every fence
(R319). -/
def State.fencesMet (s : State) (crew : Nat) (x : MxCmd) : Bool :=
  x.fences.all fun (e : Nat × Nat) => s.warps.all fun (w : Nat × Warp) =>
    w.2.crew != some crew || w.2.rank != e.1 ||
      (List.range 32).all fun l => !w.2.live.getLsbD l || decide (e.2 ≤ (w.2.lane l).fences)

/-- A write of bytes of a tile is among those that a command may or may not see. -/
def MxCmd.soiled (x : MxCmd) (tile : Nat × Nat) (off n : Nat) : MxCmd :=
  if x.tiles.contains tile then { x with dirty := (tile, off, n) :: x.dirty } else x

/-- A matrix command of a crew that has all its fences may or may not see a write to one of its tiles (R136). -/
def State.soil (s : State) (k : Nat) (tile : Nat × Nat) (off n : Nat) (x : MxCmd) : MxCmd :=
  if s.fencesMet k x then x.soiled tile off n else x

/-- Bytes written to a tile by any other than the matrix engine, with the waits they complete. -/
def State.storeTile (s : State) (crew tile off : Nat) (bs : List Byte) : State :=
  let s' := s.writeTile crew tile off bs
  let soil (k : Nat) (c : Crew) : Crew := { c with mx := c.mx.map (s.soil k (crew, tile) off bs.length) }
  { s' with crews := mapS s'.crews soil }

/-- What a lane writes to a tile after its fence for a command, the command may or may not see; ahead of the MXISSUE that
takes the fence, the write is remembered (R136). -/
def State.afterFence (s : State) (core slot lane : Nat) (tile : Nat × Nat) (off n : Nat) : State :=
  match (s.warp? core slot).bind fun w => w.crew.map fun k => (k, w) with
  | none => s
  | some (k, w) =>
    let mine := (w.lane lane).fences
    s.onCrewKey k fun c => { c with
      mx := c.mx.map fun x =>
        if x.fences.any fun e => e.1 == w.rank && decide (e.2 ≤ mine) then x.soiled tile off n else x,
      early := if w.named < mine then { rank := w.rank, fences := mine, tile, off, len := n } :: c.early else c.early }

/-- Bytes that a lane writes to a tile (R136). -/
def State.laneTile (s : State) (core slot lane crew tile off : Nat) (bs : List Byte) : State :=
  (s.storeTile crew tile off bs).afterFence core slot lane (crew, tile) off bs.length

/-- Width in bits of an element FMT (Table 4.1). -/
def fmtBits (fmt : Nat) : Nat :=
  match fmt with
  | 0x00 => 32 | 0x01 => 16 | 0x02 => 16 | 0x03 => 8 | 0x04 => 8 | 0x05 => 6 | 0x06 => 6 | 0x07 => 4
  | 0x08 => 8 | 0x09 => 8 | 0x0A => 4 | 0x0B => 4 | 0x0C => 16 | 0x0D => 16 | 0x0E => 32 | 0x0F => 32
  | 0x10 => 8 | 0x11 => 6 | 0x12 => 4 | 0x13 => 8 | 0x14 => 8 | 0x15 => 6 | 0x16 => 6 | 0x17 => 4 | 0x18 => 8
  | _ => 0

/-! ### Pending stores, write buffers, leases -/

/-- A lease is held: granted, not ended, and within its cycles (R285). -/
def State.holds (s : State) (l : Lease) : Bool :=
  l.granted && l.ended.isNone && decide (s.cycleOf l.core < l.start + l.hold)

/-- The lease under which a warp holds a line. -/
def State.leaseOf (s : State) (core slot line : Nat) : Option Lease :=
  match s.warp? core slot with
  | none => none
  | some w => w.leases.find? fun x => s.holds x && x.line == line

/-- Some warp other than the given one holds a line under a lease (R286, R257). -/
def State.leasedElse (s : State) (core slot line : Nat) : Bool :=
  s.warps.any fun e => e.1 != warpKey core slot && e.2.leases.any fun x => s.holds x && x.line == line

/-- Some warp holds a line under a lease. -/
def State.leased (s : State) (line : Nat) : Bool :=
  s.warps.any fun e => e.2.leases.any fun x => s.holds x && x.line == line

/-- A buffered store is seen on a core: it is its own, or one that its die's L2 or a GBAR shows it (R137, R276). -/
def WEntry.seenOn (e : WEntry) (core : Nat) : Bool :=
  e.core == core || ((e.die || e.gang) && dieOf e.core == dieOf core)

/-- What an agent sees at a byte of device memory: memory, under the write-buffer entries its core or die holds
(R276), its own unperformed stores (R122), and its warp's leased bytes (R286). -/
def State.see (s : State) (core : Nat) (a : Agent) (pa : Nat) : Byte :=
  let b := s.mem.read pa
  let b := s.wbuf.foldl (fun b e =>
    match e.loc with
    | .dev base => if e.seenOn core then patchByte base e.bytes pa b else b
    | _ => b) b
  let b := s.pending.foldl (fun b p => if p.agent = a then patchByte p.pa p.bytes pa b else b) b
  match a with
  | .lane c k _ =>
    match s.warp? c k with
    | none => b
    | some w => s.leaseBuf.foldl (fun b e =>
        if w.leases.any fun x => x.id == e.1 && s.holds x then patchByte e.2.1 e.2.2 pa b else b) b
  | _ => b

/-- Bytes an agent sees. -/
def State.seeN (s : State) (core : Nat) (a : Agent) (pa n : Nat) : List Byte :=
  (List.range n).map fun i => s.see core a (pa + i)

/-- The directory entry of a line after a read from a die (Table 11.6). -/
def State.dirRead (s : State) (line die : Nat) : State :=
  let e := (look s.dir line).getD ([], [])
  { s with dir := put s.dir line (if die ∈ e.1 then e else (e.1 ++ [die], [])) }

/-- The directory entry of a line at a write, atomic or lease from a die, before its bytes change (Table 11.6). -/
def State.dirWrite (s : State) (line die : Nat) : State :=
  match look s.dir line with
  | some ([d], _ :: _) =>
    if d = die then s else { s with dir := put s.dir line ([die], s.mem.readN (line * 64) 64) }
  | _ => { s with dir := put s.dir line ([die], s.mem.readN (line * 64) 64) }

/-- The die directory after a read of a line from a core: no other die holds it in M (R282). -/
def State.dieRead (s : State) (line core : Nat) : State :=
  let k := line * 4 + dieOf core
  let m := mapS s.dieDir fun n e => if n / 4 = line then (e.1, e.2 && e.1.contains core) else e
  let e := (look m k).getD ([], false)
  { s with dieDir := put m k (if e.1.contains core then e else (e.1 ++ [core], false)) }

/-- The line leaves the die directories. -/
def State.dieDrop (s : State) (line : Nat) : State := { s with dieDir := keep s.dieDir fun n _ => n / 4 != line }

/-- The die directory after a write from a core, or from a Badger, which no L1 serves: no other holds the line (R282). -/
def State.dieTake (s : State) (line die : Nat) (cores : List Nat) : State :=
  { s.dieDrop line with dieDir := put (s.dieDrop line).dieDir (line * 4 + die) (cores, true) }

/-- A line fills the L1 of a core from its home (Table 11.6). -/
def State.coreFill (s : State) (line core : Nat) : State := (s.dirRead line (dieOf core)).dieRead line core

/-- A core obtains a line to write it (Table 11.6). -/
def State.coreOwn (s : State) (line core : Nat) : State :=
  (s.dirWrite line (dieOf core)).dieTake line (dieOf core) [core]

/-- Bits of the bytes of a line that a store of `n` bytes at an address writes. -/
def byteBits (pa n : Nat) : DWord := w64 ((2 ^ n - 1) * 2 ^ (pa % 64))

/-- The bytes of a line that a core has written since the line came into its caches, as draw `st` says (R453). -/
def State.keptBits (s : State) (st core l : Nat) : DWord :=
  match look s.patched l with
  | some (c, m) => if c = core ∧ Config.stillCached st then m else 0
  | none => 0

/-- A core has written some bytes of a line; with every byte written the check value is computed afresh (R453). -/
def State.notePatch (s : State) (core l : Nat) (m : DWord) : State :=
  if m = ~~~(0 : DWord) then { s with syndrome := drop s.syndrome l, patched := drop s.patched l }
  else { s with patched := put s.patched l (core, m) }

/-- A store of a core to a line whose check value does not match: once its stores have written every byte within one
residency of the line, the value is computed afresh (R453). -/
def State.patchLine (s : State) (core pa n : Nat) : State :=
  if (look s.syndrome (pa / 64)).isNone then s
  else s.draw.2.notePatch core (pa / 64) (s.keptBits s.draw.1 core (pa / 64) ||| byteBits pa n)

/-- A store of a core is performed in device memory (R283, R453). -/
def State.coreStore (s : State) (core pa : Nat) (bs : List Byte) : State :=
  ((s.coreOwn (pa / 64) core).patchLine core pa bs.length).store pa bs

/-- A COHERENT store is performed (R283). -/
def State.performPending (s : State) (p : Pending) : State := s.coreStore p.core p.pa p.bytes

/-- No die holds the lines of a run of bytes any more (Table 11.6). -/
def State.unhold (s : State) (pa n : Nat) : State :=
  let out (l : Nat) : Bool := !(decide (pa / 64 ≤ l ∧ l * 64 < pa + n))
  { s with dir := keep s.dir fun l _ => out l, dieDir := keep s.dieDir fun k _ => out (k / 4),
           patched := keep s.patched fun l _ => out l }

/-- Bytes written to device memory by an engine of a hub: no die holds the lines any more (Table 11.6). -/
def State.storeHub (s : State) (pa : Nat) (bs : List Byte) : State := (s.store pa bs).unhold pa bs.length

/-- A word that its home itself changes, as it does a guard word (R270). -/
def State.homeWrite (s : State) (pa : Nat) (bs : List Byte) : State := (s.write pa bs).unhold pa bs.length

/-- Every pending store that satisfies a test is performed, oldest first, when no lease holds its line. -/
def State.performWhere (s : State) (p : Pending → Bool) : State :=
  let go := s.pending.filter fun x => p x && !s.leased (x.pa / 64)
  let s' := { s with pending := s.pending.filter fun x => !(p x && !s.leased (x.pa / 64)) }
  go.foldl State.performPending s'

/-- The agent's stores that stand pending. -/
def State.agentPending (s : State) (a : Agent) : Bool := s.pending.any fun p => p.agent == a

/-- The agent has an atomic request not yet performed; one withheld for good behind a failed release does not count. -/
def State.agentAtoms (s : State) (a : Agent) : Bool :=
  s.atoms.any fun e => (Agent.lane e.2.core e.2.slot e.2.lane == a) && e.2.reply.isNone && !e.2.waiting &&
    (match e.2.rel with
     | none => true
     | some r => (look s.releases r).all fun (x : Release) => x.failed.isNone)

end Sys2Proof.Machine
end

