-- ==== Sys2Proof/Machine/Translate.lean ====
section
/-! DEFINITION. The handle table and translation: the walk of both stages, the cached translations, the checks of an
access in the order of Table 9.7, and the fault queue. -/

namespace Sys2Proof.Machine

/-! ### Fault classes (Table 2.3) -/

namespace Cls
def illegal : Nat := 0x01
def regnum : Nat := 0x02
def empty : Nat := 0x03
def bounds : Nat := 0x04
def perm : Nat := 0x05
def misalign : Nat := 0x06
def owner : Nat := 0x07
def grain : Nat := 0x08
def page : Nat := 0x09
def pageFatal : Nat := 0x0A
def world : Nat := 0x0B
def dataCheck : Nat := 0x0C
def diverge : Nat := 0x0D
def lease : Nat := 0x0E
def weightsLost : Nat := 0x0F
def barrierTimeout : Nat := 0x10
def double : Nat := 0x11
def swtrap : Nat := 0x12
def quota : Nat := 0x13
def coherenceLost : Nat := 0x14
def engineReset : Nat := 0x15
def dieLost : Nat := 0x16
def killed : Nat := 0x17
def brk : Nat := 0x18
def dqmismatch : Nat := 0x19
end Cls

/-- The class has a lane handler (Table 2.3). -/
def hasHandler (cls : Nat) : Bool :=
  !(cls == Cls.page || cls == Cls.world || cls == Cls.barrierTimeout || cls == Cls.double || cls == Cls.coherenceLost ||
    cls == Cls.engineReset || cls == Cls.dieLost || cls == Cls.killed)

/-! ### The handle-table entry (Table 9.1) -/

namespace Entry
def valid (e : BitVec 256) : Bool := e.getLsbD 255
def space (e : BitVec 256) : Nat := field256 e 252 3
def kind (e : BitVec 256) : Nat := field256 e 250 2
def secure (e : BitVec 256) : Bool := e.getLsbD 249
def pr (e : BitVec 256) : Bool := e.getLsbD 248
def pw (e : BitVec 256) : Bool := e.getLsbD 247
def pa (e : BitVec 256) : Bool := e.getLsbD 246
def endpt (e : BitVec 256) : Nat := field256 e 224 16
def stype (e : BitVec 256) : Nat := field256 e 190 2
def shandle (e : BitVec 256) : Nat := field256 e 176 12
def soff (e : BitVec 256) : Nat := field256 e 128 48
def length (e : BitVec 256) : Nat := field256 e 64 64
def base (e : BitVec 256) : Nat := field256 e 0 64
/-- Its space and kind are marked in Table 5.1. -/
def combined (e : BitVec 256) : Bool :=
  match space e with
  | 0 => true
  | 1 => kind e != 1
  | 2 => kind e == 0
  | 3 => kind e == 0
  | 4 => kind e == 0 || kind e == 3
  | _ => false
end Entry

/-! ### Table walks (R405 to R409) -/

/-- The rights an access needs (R409): 1 read, 2 write, 4 fetch. -/
def needRights (acc : Nat) : Nat :=
  match acc with
  | 8 => 3
  | a => a

/-- The rights `have` cover `need`. -/
def covers (have_ need : Nat) : Bool := have_ &&& need == need

/-- The outcome of a walk: the 4 KiB frame, the rights of each stage, replayable misses, the world. -/
structure Walked where
  frame : Nat
  rights1 : Nat
  rights2 : Nat
  replay : Bool
  secure : Bool
  deriving DecidableEq, Repr

/-- An 8-byte table entry in device memory. -/
def entryAt (m : Memory) (table ix : Nat) : Nat := natOf (m.readN (table + 8 * ix) 8)

/-- An entry with V = 1 breaks the first row of Table 17.3; `rsv` are its reserved bits. -/
def malformed (e level rsv : Nat) (stage2 : Bool) : Bool :=
  let leaf := bits e 1 1 = 1
  let shift := 39 - 9 * level
  let addr := if stage2 then bits e 51 12 * 4096 else bits e 47 12 * 4096
  decide (e &&& rsv ≠ 0) || decide (leaf ∧ level = 0) || decide (¬ leaf ∧ level = 3) ||
  decide (leaf ∧ addr % 2 ^ shift ≠ 0) || decide (¬ leaf ∧ bits e 6 2 ≠ 0) ||
  decide (bits e 3 3 = 1 ∧ bits e 2 2 = 0)

/-- Stage 2 from a table at the given levels: frame, rights and world of an intermediate address (R408, R409). -/
def walk2 (m : Memory) (hbSlots : Nat) : List Nat → Nat → Nat → Except TrFail Walked
  | [], _, _ => .error .pageFatal
  | level :: r, table, ipa =>
    let shift := 39 - 9 * level
    let e := entryAt m table (ipa / 2 ^ shift % 512)
    let leaf := bits e 1 1 = 1
    if bits e 0 0 = 1 then
      if malformed e level 0x80 true then .error .pageFatal
      else if leaf then
        .ok { frame := (bits e 51 12 * 4096 + ipa % 2 ^ shift) / 4096, rights1 := 7, rights2 := bits e 4 2,
              replay := false, secure := bits e 5 5 = 1 }
      else walk2 m hbSlots r (bits e 51 12 * 4096) ipa
    else if bits e 6 6 = 0 then .error .pageFatal
    else
      let run := 2 ^ shift / 4096
      let slot := bits e 51 12
      if bits e 7 7 = 1 ∨ ¬ leaf ∨ level = 0 ∨ slot % run ≠ 0 ∨ slot + run > hbSlots then .error .pageFatal
      else .error .hostBacked

/-- Stage 1 from a table in intermediate space, each table read through stage 2 (R407, R409). -/
def walk1 (m : Memory) (hbSlots root2 : Nat) : List Nat → Nat → Nat → Except TrFail Walked
  | [], _, _ => .error .pageFatal
  | level :: r, table, va =>
    let shift := 39 - 9 * level
    match walk2 m hbSlots [0, 1, 2, 3] root2 (table + 8 * (va / 2 ^ shift % 512)) with
    | .error f => .error f
    | .ok t =>
      if !covers t.rights2 1 then .error .perm
      else
        let e := entryAt m (t.frame * 4096) ((table + 8 * (va / 2 ^ shift % 512)) % 4096 / 8)
        if bits e 0 0 = 0 then .error (.page 0)
        else if malformed e level 0xF0000000000C0 false then .error .pageFatal
        else if bits e 1 1 = 1 then
          match walk2 m hbSlots [0, 1, 2, 3] root2 (bits e 47 12 * 4096 + va % 2 ^ shift) with
          | .error f => .error f
          | .ok q => .ok { q with rights1 := bits e 4 2, replay := bits e 5 5 = 1 }
        else walk1 m hbSlots root2 r (bits e 47 12 * 4096) va

/-- The walk of a page of a context, whatever the rights of the page. -/
def State.walkRaw (s : State) (c page : Nat) : Except TrFail Walked :=
  match s.ctx? c with
  | none => .error .pageFatal
  | some x =>
    match x.root, s.vd? x.vd with
    | some root, some v => walk1 s.mem v.config.hbSlots (Config.stage2Root x.vd) [0, 1, 2, 3] root (page * 4096)
    | _, _ => .error .pageFatal

/-- The walk of a page of a context for an access (Table 17.3). -/
def State.walkTables (s : State) (c page acc : Nat) : Except TrFail Walked :=
  match s.walkRaw c page with
  | .error f => .error f
  | .ok t =>
    if !covers t.rights1 (needRights acc) then .error (if t.replay then .page 1 else .perm)
    else if !covers t.rights2 (needRights acc) then .error .perm
    else .ok t

/-- A cached translation that grants an access. -/
def State.tlbHit (s : State) (c page acc : Nat) (host : Bool) : Option TlbEntry :=
  s.tlb.find? fun e => e.ctx == c && e.page == page && e.host == host && covers e.rights (needRights acc)

/-- A translation enters the caches in place of an older one of the page (R411). -/
def State.tlbFill (s : State) (e : TlbEntry) : State :=
  { s with tlb := e :: s.tlb.filter fun x => !(x.ctx == e.ctx && x.page == e.page && x.host == e.host) }

/-! ### Accesses -/

/-- Whoever accesses memory, as the checks see it. -/
structure Who where
  agent : Agent
  ctx : Nat
  core : Option Nat
  /-- Crew slot, and whether a continuation warp (R265). -/
  slot : Nat
  loose : Bool
  secure : Bool
  answers : List Answer
  extData : List (Loc × List Byte)
  extErr : List (Loc × Nat)
  /-- Handle 0 of its task (R214). -/
  args : Option (BitVec 256)
  /-- It waits for walks; otherwise the walk is part of the access. -/
  waits : Bool
  deriving DecidableEq, Repr

/-- GUARDED stores of the accessor enter a write buffer (R261). -/
def Who.buffers (who : Who) : Bool := match who.agent with | .lane _ _ _ => true | .lead _ _ => true | _ => false

/-- The core whose unpublished stores the accessor sees; no core's for an engine of a hub. -/
def Who.seat (who : Who) : Nat := who.core.getD 4096

/-- The handle-table entry an agent sees (R214). -/
def State.entry (s : State) (who : Who) (h : Nat) : BitVec 256 :=
  match h, who.args with
  | 0, some e => e
  | _, _ =>
    match s.ctx? who.ctx with
    | none => 0
    | some x => (look x.handles h).getD 0

/-- The outcome of the checks of one access. -/
inductive AccOut where
  /-- It fails at a step of Table 9.7 with a class; `far` is TDATA[63]. -/
  | fail (step cls : Nat) (far : Bool)
  /-- Its translation is not cached: the page asked for. -/
  | miss (page : Nat) (host : Bool)
  /-- It fails step 9 with PAGE: address, cause; or a host-backed page. -/
  | page (va cause : Nat)
  /-- A page that the tenant controller fetches, or a host page that the host is asked for. -/
  | hostBacked (page : Nat × Bool)
  /-- An answer of the host or a peer is needed first. -/
  | ext (loc : Loc)
  | ok (loc : Loc) (secure : Bool)
  deriving DecidableEq, Repr

/-- Translation of a device address for an agent: its cached or walked translation, or the failure. -/
def State.translate (s : State) (who : Who) (va acc : Nat) : AccOut :=
  let page := va / 4096
  let failed (f : TrFail) : AccOut := match f with
    | .pageFatal => .fail 9 Cls.pageFatal false
    | .perm => .fail 9 Cls.perm false
    | .page cause => .page va cause
    | .hostBacked => .hostBacked (page, false)
  match s.tlbHit who.ctx page acc false with
  | some e => .ok (.dev (e.frame * 4096 + va % 4096)) e.secure
  | none =>
    match who.answers.find? fun a => a.ctx == who.ctx && a.page == page && a.acc == acc && !a.host with
    | some a => failed a.out
    | none =>
      if who.waits then .miss page false
      else
        match s.walkTables who.ctx page acc with
        | .ok t => .ok (.dev (t.frame * 4096 + va % 4096)) t.secure
        | .error f => failed f

/-- Translation of a host address for an agent (R419). -/
def State.translateHost (s : State) (who : Who) (va acc : Nat) : AccOut :=
  let page := va / 4096
  match s.tlbHit who.ctx page acc true with
  | some e =>
    .ok (.host ((s.ctx? who.ctx).map (·.pasid) |>.getD 0) (e.frame * 4096 + va % 4096)) false
  | none =>
    match who.answers.find? fun a => a.ctx == who.ctx && a.page == page && a.acc == acc && a.host with
    | some a => if a.out = .hostBacked then .hostBacked (page, true) else .fail 9 Cls.pageFatal false
    | none => .miss page true

/-- The step and class with which an external location failed for the agent, if it did (R226, R449, R450). -/
def extFail (who : Who) (loc : Loc) : Option AccOut :=
  match who.extErr.find? fun e => e.1 == loc with
  | none => none
  | some e =>
    let cls := e.2 % 256
    some (.fail (if cls = Cls.perm then 4 else if cls = Cls.dataCheck then 10 else 9) cls (decide (e.2 ≥ 256)))

/-- Address of the byte at an offset of an entry, as translation takes it, with the translation. -/
def State.locate (s : State) (who : Who) (e : BitVec 256) (o acc : Nat) : AccOut :=
  let va := Entry.base e + o
  match Entry.space e with
  | 1 =>
    let loc := Loc.peer (s.vdOf who.ctx) (Entry.endpt e) va
    match extFail who loc with
    | some f => f
    | none =>
      if who.extData.any (fun d => d.1 == loc) || (acc == 2 && Entry.kind e == 2 && who.buffers) then .ok loc false
      else .ext loc
  | 4 =>
    match s.translateHost who va acc with
    | .ok loc _ =>
      match extFail who loc with
      | some f => f
      | none =>
        if acc = 1 ∨ acc = 8 then (if who.extData.any fun d => d.1 == loc then .ok loc false else .ext loc)
        else .ok loc false
    | out => out
  | _ => s.translate who va acc

/-- The owner entry of a grain (Table 11.5). -/
def State.ownerOf (s : State) (grain : Nat) : DWord := (look s.owners grain).getD 0

namespace Owner
def claimed (e : DWord) : Bool := e.getLsbD 63
def parked (e : DWord) : Bool := e.getLsbD 62
def loose (e : DWord) : Bool := e.getLsbD 61
def core (e : DWord) : Nat := bits e.toNat 59 48
def slot (e : DWord) : Nat := bits e.toNat 47 46
def ctx (e : DWord) : Nat := ctxKey (bits e.toNat 45 36) (bits e.toNat 35 30)
def moves (e : DWord) : Nat := bits e.toNat 23 0
/-- An entry of its parts. -/
def make (claimed parked loose : Bool) (core slot vd ctx moves : Nat) : DWord :=
  w64 ((if claimed then 2 ^ 63 else 0) + (if parked then 2 ^ 62 else 0) + (if loose then 2 ^ 61 else 0) +
    core * 2 ^ 48 + slot * 2 ^ 46 + vd * 2 ^ 36 + ctx * 2 ^ 30 + moves % 2 ^ 24)
end Owner

/-- An agent may access the grain: it is unclaimed, or its core and context own it (R266). -/
def State.mayTouch (s : State) (who : Who) (grain : Nat) : Bool :=
  let e := s.ownerOf grain
  !Owner.claimed e ||
    (!Owner.parked e && who.core == some (Owner.core e) && decide (Owner.ctx e = who.ctx))

/-- The read of a line finds a line check mismatch: its value does not match, or its page is secure and the memory
key is erased (R238, R439). -/
def State.lineBad (s : State) (pa : Nat) (secure : Bool) : Bool :=
  (look s.syndrome (pa / 64)).isSome || (secure && s.pkg.keysErased)

/-- The need of an access at step 4 beyond Table 5.1. -/
def permits (acc : Nat) (e : BitVec 256) : Bool :=
  let writable := Entry.kind e != 0 && Entry.space e != 2 && Entry.space e != 3
  match acc with
  | 1 => Entry.pr e
  | 2 => Entry.pw e && writable
  | _ => Entry.pa e && writable

/-- What an instruction asks of the handle path: width, alignment, access (1 read, 2 write, 8 atomic), the test of
step 4, whether step 7 applies and whether the line check of step 10 does. -/
structure Ask where
  w : Nat
  align : Nat
  acc : Nat
  ok4 : BitVec 256 → Bool
  own : Bool := true
  check : Bool := false

/-- Steps 1 to 6 of Table 9.7: the step that fails, with its class. -/
def State.precheck (s : State) (who : Who) (h : Nat) (o : Int) (q : Ask) : Option (Nat × Nat) :=
  if h ≥ 4096 then some (1, Cls.bounds)
  else
    let e := s.entry who h
    if !Entry.valid e then some (2, Cls.perm)
    else if Entry.secure e != who.secure then some (3, Cls.world)
    else if !Entry.combined e || !q.ok4 e then some (4, Cls.perm)
    else if o % (q.align : Int) ≠ 0 then some (5, Cls.misalign)
    else if o < 0 ∨ o + (q.w : Int) > (Entry.length e : Int) then some (6, Cls.bounds)
    else none

/-- Step 7 of Table 9.7 at a device address: an owned grain that is another's. -/
def State.notOwner (s : State) (who : Who) (e : BitVec 256) (pa : Nat) (q : Ask) : Bool :=
  q.own && Entry.kind e == 1 && !s.mayTouch who (pa / 512)

/-- Steps 7 and 8 of Table 9.7 at a device address. -/
def State.ownedOrWorld (s : State) (who : Who) (e : BitVec 256) (pa : Nat) (sec : Bool) (q : Ask) : Option AccOut :=
  if s.notOwner who e pa q then some (.fail 7 Cls.owner false)
  else if Entry.space e ≤ 3 ∧ sec ≠ Entry.secure e then some (.fail 8 Cls.world false)
  else none

/-- Steps 7 and 8 for a page without a cached translation that grants the access: the grain that the tables map decides
step 7, and step 8 is passed unless the walk yields a translation (R226, R410). -/
def State.unwalked (s : State) (who : Who) (e : BitVec 256) (va : Nat) (q : Ask) : Option AccOut :=
  match s.walkTables who.ctx (va / 4096) q.acc with
  | .ok t => s.ownedOrWorld who e (t.frame * 4096 + va % 4096) t.secure q
  | .error _ =>
    match s.walkRaw who.ctx (va / 4096) with
    | .ok t => if s.notOwner who e (t.frame * 4096 + va % 4096) q then some (.fail 7 Cls.owner false) else none
    | .error _ => none

/-- Steps 7 to 10 of Table 9.7 at an offset of an entry, with R292. -/
def State.place (s : State) (who : Who) (e : BitVec 256) (o : Nat) (q : Ask) : AccOut :=
  match s.locate who e o q.acc with
  | .ok (.dev pa) sec =>
    if let some f := s.ownedOrWorld who e pa sec q then f
    else if pa / 64 ∈ s.lost then .fail 11 Cls.coherenceLost false
    else if q.check && s.lineBad pa sec then .fail 10 Cls.dataCheck false
    else .ok (.dev pa) sec
  | .ok loc sec => .ok loc sec
  | out =>
    if Entry.space e = 1 ∨ Entry.space e = 4 then out else (s.unwalked who e (Entry.base e + o) q).getD out

/-- Steps 1 to 10 of Table 9.7 for one agent, handle and offset. -/
def State.access (s : State) (who : Who) (h : Nat) (o : Int) (q : Ask) : AccOut :=
  match s.precheck who h o q with
  | some (n, cls) => .fail n cls false
  | none => s.place who (s.entry who h) o.toNat q

/-- Steps 1 to 6 for a range: step 5 asks an alignment of offset and length, step 6 a length of 1 to 2^20 (R264). -/
def State.rangeCheck (s : State) (who : Who) (h : Nat) (o : Int) (len align : Nat) (ok4 : BitVec 256 → Bool) :
    Option (Nat × Nat) :=
  match s.precheck who h o { w := 0, align := 1, acc := 2, ok4 } with
  | some (n, cls) => if n ≤ 4 then some (n, cls) else ranged
  | none => ranged
where
  ranged : Option (Nat × Nat) :=
    if o % (align : Int) ≠ 0 ∨ len % align ≠ 0 then some (5, Cls.misalign)
    else if len = 0 ∨ len > 2 ^ 20 ∨ o < 0 ∨ o + (len : Int) > (Entry.length (s.entry who h) : Int) then
      some (6, Cls.bounds)
    else none

/-- The outcome that decides among those of the pages of a range: a page not cached, then the first step that fails. -/
def AccOut.decide (outs : List AccOut) : AccOut :=
  match outs.find? fun o => match o with | .miss _ _ => true | _ => false with
  | some o => o
  | none =>
    match minOf ((outs.map fun o => match o with
      | .fail n _ _ => n | .page _ _ => 9 | .hostBacked _ => 9 | .ext _ => 12 | _ => 0).filter fun n => n ≠ 0) with
    | none => outs.headD (.ok (.dev 0) false)
    | some n => (outs.find? fun o => match o with
      | .fail m _ _ => m == n | .page _ _ => n == 9 | .hostBacked _ => n == 9 | .ext _ => n == 12 | _ => false).getD
        (.ok (.dev 0) false)

/-- Offsets of a range of an entry at which a 4 KiB page begins, with the first offset. -/
def pieces (base o len : Nat) : List Nat :=
  o :: ((List.range ((base + o + len - 1) / 4096 - (base + o) / 4096)).map fun i =>
    ((base + o) / 4096 + i + 1) * 4096 - base)

/-- The outcome over the active lanes of an instruction (R226). -/
inductive GroupOut where
  | ok
  /-- Class, TLANES and the lanes that found the fabric unreachable. -/
  | fault (cls : Nat) (lanes far : Word)
  | walk (pages : List (Nat × Bool))
  /-- PAGE: address and cause by lane, and host-backed pages. -/
  | park (faults : List (Nat × Nat)) (hbs : List (Nat × Bool))
  /-- External answers needed, by lane. -/
  | ext (locs : List (Nat × Loc))
  deriving DecidableEq, Repr

/-- The failing step of an outcome; 0 for none. -/
def AccOut.step : AccOut → Nat
  | .fail n _ _ => n
  | .page _ _ => 9
  | .hostBacked _ => 9
  | _ => 0

/-- The class of a failing outcome. -/
def AccOut.cls : AccOut → Nat
  | .fail _ c _ => c
  | .page _ _ => Cls.page
  | .hostBacked _ => Cls.page
  | _ => 0

/-- The failure at a step: at step 9 a class other than PAGE decides before PAGE (R226). TDATA[63] is set for the lanes
that found the fabric unreachable (Table 9.8). -/
def faultAt (ls : List Nat) (f : Nat → AccOut) (n : Nat) : GroupOut :=
  let at_ := ls.filter fun l => (f l).step = n
  match at_.filter fun l => (f l).cls ≠ Cls.page with
  | [] => .park (at_.filterMap fun l => match f l with | .page va c => some (va, c) | _ => none)
            (at_.filterMap fun l => match f l with | .hostBacked p => some p | _ => none)
  | l0 :: r =>
    let c := (f l0).cls
    .fault c (maskOf fun l => decide (l ∈ l0 :: r) && (f l).cls == c)
      (maskOf fun l => match f l with | .fail _ k far => far && k == Cls.pageFatal && c == k && decide (l ∈ l0 :: r) | _ => false)

/-- The first failing step decides (R226). Translations are asked for when no lane fails before step 9, and external
answers last. -/
def groupOut (act : Word) (f : Nat → AccOut) : GroupOut :=
  let ls := lanesOf act
  let steps := (ls.map fun l => (f l).step).filter fun n => decide (n ≠ 0)
  match minOf (steps.filter fun n => decide (n < 9)) with
  | some n => faultAt ls f n
  | none =>
    match (ls.filterMap fun l => match f l with | .miss p h => some (p, h) | _ => none).dedup with
    | p :: ps => .walk (p :: ps)
    | [] =>
      match minOf steps with
      | some n => faultAt ls f n
      | none =>
        match ls.filterMap fun l => match f l with | .ext loc => some (l, loc) | _ => none with
        | [] => .ok
        | x :: xs => .ext (x :: xs)

/-! ### Asking for translations -/

/-- A walk for a page joins one in flight for the same page and access, or starts (R411). -/
def State.requestWalk (s : State) (c page acc hub : Nat) (host : Bool) : Nat × State :=
  match s.walks.find? fun e => e.2.ctx == c && e.2.page == page && e.2.host == host && e.2.acc == acc with
  | some e => (e.1, s)
  | none =>
    let (id, s) := s.fresh
    (id, { s with walks := put s.walks id { ctx := c, page, host, acc, phase := 0, hub, stale := false } })

/-- The service of a host-backed page by the tenant controller, or the page request of a host page, joined or asked
for (R418, R419). -/
def State.requestService (s : State) (c : Nat) (page : Nat × Bool) (acc hub : Nat) : Nat × State :=
  let (id, s) := s.requestWalk c page.1 acc hub page.2
  (id, if page.2 then s else { s with walks := adjust s.walks id fun w => { w with phase := 2 } })

/-- Services of several pages. -/
def State.requestServices (s : State) (c acc hub : Nat) : List (Nat × Bool) → List Nat × State
  | [] => ([], s)
  | p :: r =>
    let (id, s) := s.requestService c p acc hub
    let (ids, s) := State.requestServices s c acc hub r
    (id :: ids, s)

/-- Walks for several pages. -/
def State.requestWalks (s : State) (c acc hub : Nat) : List (Nat × Bool) → List Nat × State
  | [] => ([], s)
  | (p, h) :: r =>
    let (id, s) := s.requestWalk c p acc hub h
    let (ids, s) := State.requestWalks s c acc hub r
    (id :: ids, s)

/-! ### Fault counters and the fault queue -/

/-- A fault of a class is counted in its context (R45). -/
def State.countFault (s : State) (c cls : Nat) : State :=
  s.onCtx c fun x => { x with faults := put x.faults cls (satAdd 0xFFFF (count x.faults cls) 1) }

/-- The bytes of a fault record (Table 17.5). -/
def faultBytes (s : State) (id : Nat) (f : Fid) : List Byte :=
  let x := s.ctx? f.ctx
  bytesOf 8 f.va ++ bytesOf 4 ((x.map (·.pasid)).getD 0) ++ bytesOf 1 ((x.map (·.num)).getD 0) ++
    bytesOf 1 f.access ++ bytesOf 1 f.cause ++ bytesOf 1 f.eng ++ bytesOf 3 id ++ bytesOf 1 f.merged ++
    bytesOf 2 f.core ++ bytesOf 2 0 ++ bytesOf 8 f.time.toNat

/-- The fault queue of a VD has no room (R414). -/
def Vd.fqFull (v : Vd) : Bool := decide ((v.fqw + 1) % 2 ^ v.config.fqLog2 = v.fqr)

/-- A fault identifier that is not open: the tenant controller's choice (R414). -/
def Vd.pickFid (v : Vd) (stamp : Nat) : Nat :=
  let n := Config.freeChoice stamp
  if n < 2 ^ 24 ∧ (look v.fids n).isNone then n
  else (firstBelow (fun k => (look v.fids k).isNone) 1025).getD 0

/-- A fault takes an identifier and its record is written, when one is free and the ring has room (R414). -/
def State.openFid (s : State) (vd : Nat) (f : Fid) : Option (Nat × State) :=
  match s.vd? vd with
  | none => none
  | some v =>
    if v.fids.length ≥ 1024 ∨ v.fqFull then none
    else
      let (st, s) := s.draw
      let id := v.pickFid st
      let s := s.store (Config.fqPa vd + 32 * v.fqw) (faultBytes s id { f with index := v.fqw })
      some (id, s.onVd vd fun v => { v with
        fids := put v.fids id { f with index := v.fqw },
        fqw := (v.fqw + 1) % 2 ^ v.config.fqLog2 })

/-- A fault identifier as the units parked on it name it: with its VD. -/
def fidKey (vd id : Nat) : Nat := vd * 2 ^ 24 + id

/-- A PAGE of an agent is passed to the fault queue: it merges into the open fault of its page, whose record counts it while
the ring still holds that, or opens one, or waits for room. The answer is the identifier it waits on, if it has one
(R414). -/
def State.postFault (s : State) (a : Agent) (c va acc cause eng core : Nat) : Option Nat × State :=
  let vd := s.vdOf c
  match s.vd? vd with
  | none => (none, s)
  | some v =>
    match v.fids.find? fun e => e.2.ctx == c && e.2.page == va / 4096 with
    | some (id, f) =>
      let f' := { f with merged := satAdd 255 f.merged 1 }
      let s := s.onVd vd fun v => { v with fids := put v.fids id f' }
      let at_ := Config.fqPa vd + 32 * f.index
      (some (fidKey vd id), if natOf (s.mem.readN (at_ + 16) 3) = id then s.store (at_ + 19) (bytesOf 1 f'.merged) else s)
    | none =>
      let f : Fid := { ctx := c, page := va / 4096, va, access := acc, cause, eng, core, merged := 0, time := s.time,
                       index := 0 }
      match s.openFid vd f with
      | some (id, s) => (some (fidKey vd id), s)
      | none => (none, s.onVd vd fun v => { v with waiting := v.waiting ++ [(a, f)] })

/-- Several PAGEs of one agent. -/
def State.postFaults (s : State) (a : Agent) (c acc eng core : Nat) : List (Nat × Nat) → List Nat × State
  | [] => ([], s)
  | (va, cause) :: r =>
    let (id, s) := s.postFault a c va acc cause eng core
    let (ids, s) := State.postFaults s a c acc eng core r
    (id.toList ++ ids, s)

end Sys2Proof.Machine
end

