-- ==== Sys2Proof/Machine/Guard.lean ====
section
/-! DEFINITION. Sync objects at their homes: buffered GUARDED stores as they are published, the scopes of releases, forced
publishes, and the guard words with their queues (R120, R125, R126, R129, R270 to R277). -/

namespace Sys2Proof.Machine

/-! ### Buffered stores -/

/-- An entry leaves the write buffers, performed at its home: later than the stores issued before it, which are still
buffered, and earlier than those issued after it (R127; log 56). -/
def State.publishAt (s : State) (e : WEntry) (pa : Nat) : State :=
  let s : State := { s with wbuf := s.wbuf.filter fun x => x.id != e.id }
  let s := (s.overtake pa e.bytes fun x => decide (x.id < e.id)).unstick pa e.bytes.length
  ((s.coreOwn (pa / 64) e.core).patchLine e.core pa e.bytes.length).write pa e.bytes

/-- The entries of a list that lie in device memory are performed where they were translated at their issue. -/
def State.publishAll (s : State) (es : List WEntry) : State :=
  es.foldl (fun s e => match s.wbuf.find? fun x => x.id == e.id with
    | some x => (match x.loc with | .dev pa => s.publishAt x pa | _ => s)
    | none => s) s

/-- An entry stays below DEVICE: at scope GANG or DIE in the die's L2, at a narrower one in the core; `obj` is the guard
whose release leaves it there, with the releasing agent and its PC (R276). -/
def State.keepBelow (s : State) (e : WEntry) (obj : Option (Nat × Agent × Word)) (die : Bool) (loc : Loc) : State :=
  { s with wbuf := s.wbuf.map fun x =>
      if x.id = e.id then
        { x with held := (obj.map (·.1)).or x.held, heldBy := (obj.map (·.2)).getD x.heldBy, die := x.die || die, loc }
      else x }

/-- A release on a core has come after the stores buffered there (R124). -/
def State.passWrites (s : State) (core : Nat) : State :=
  { s with wbuf := s.wbuf.map fun e => if e.core = core then { e with passed := true } else e }

/-- The device address that the stage-1 address of a sync object in GLOBAL space has in a context (R126). -/
def State.syncPa (s : State) (c : Nat) (k : Nat × Nat × Nat) : Option Nat :=
  if k.2.1 / 2 ^ 16 = 0 then
    match s.walkTables c (k.2.2 / 4096) 1 with
    | .ok t => some (t.frame * 4096 + k.2.2 % 4096)
    | .error _ => none
  else none

/-- Two names, each in a context, are of one sync object (R126): the same name, or the same bytes of device memory. -/
def State.sameSync (s : State) (c : Nat) (k : Nat × Nat × Nat) (c' : Nat) (k' : Nat × Nat × Nat) : Bool :=
  k.1 == k'.1 &&
    ((k == k' && (c == c' || (k.2.1 / 2 ^ 16 == 1 && s.vdOf c == s.vdOf c'))) ||
      match s.syncPa c k, s.syncPa c' k' with
      | some a, some b => a == b
      | _, _ => false)

/-! ### Scopes (R120, R276, R277) -/

/-- The gang of a thread. -/
def State.gangOf (s : State) (t : Thread) : Option Nat :=
  match t with
  | .warp c k => ((s.warp? c k).bind (·.crew)).bind fun k => (look s.crews k).map (·.gang)
  | .lead c k => (s.crew? c k).map (·.gang)

/-- The crew of a thread. -/
def State.crewOf (s : State) (t : Thread) : Option Nat :=
  match t with
  | .warp c k => (s.warp? c k).bind (·.crew)
  | .lead c k => some (crewKey c k)

/-- The core of a thread. -/
def threadCore (t : Thread) : Nat := match t with | .warp c _ => c | .lead c _ => c

/-- Two threads lie in one scope (Table 5.3). -/
def State.inScope (s : State) (scope : Nat) (a b : Thread) : Bool :=
  match scope with
  | 0 => decide (a = b)
  | 1 => decide (a = b) || ((s.crewOf a).isSome && s.crewOf a == s.crewOf b)
  | 2 => decide (a = b) || ((s.gangOf a).isSome && s.gangOf a == s.gangOf b)
  | 3 => decide (dieOf (threadCore a) = dieOf (threadCore b))
  | _ => true

/-- The record of a sync object at its home (R275, R276). -/
def State.syncRec (s : State) (pa : Nat) : SyncObj :=
  (look s.syncs pa).getD { lastScope := 4, lastThread := none, gen := 0, lost := false, stuck := false }

/-- The record of a sync object changed. -/
def State.onSync (s : State) (pa : Nat) (g : SyncObj → SyncObj) : State :=
  { s with syncs := put s.syncs pa (g (s.syncRec pa)) }

/-- The generation of a sync object goes up (R275). -/
def State.bumpGen (s : State) (pa : Nat) : State := s.onSync pa fun o => { o with gen := (o.gen + 1) % 65536 }

/-- Writes that a release of a guard left below DEVICE. -/
def State.heldFor (s : State) (pa : Nat) : List WEntry := s.wbuf.filter fun e => e.held == some pa

/-- An acquire waits until what releases of the guard left below DEVICE is published: it comes from outside the last
release's scope, or from a core that does not see all of it (R125, R277). -/
def State.mustPublish (s : State) (pa : Nat) (t : Thread) : Bool :=
  let o := s.syncRec pa
  let held := s.heldFor pa
  (!held.isEmpty && match o.lastThread with | some u => !s.inScope o.lastScope u t | none => false) ||
    held.any fun e => !e.seenOn (threadCore t)

/-! ### Guard words (R270 to R273) -/

/-- The guard word at a device address. -/
def State.guardWord (s : State) (pa : Nat) : Nat := natOf (s.mem.readN pa 8)

/-- A request can be granted on the word (R271). -/
def grantable (shared : Bool) (v : Nat) : Bool :=
  bits v 63 63 = 0 && if shared then decide (bits v 31 0 < 2 ^ 32 - 1) else decide (bits v 31 0 = 0)

/-- The word with one more hold (R271). -/
def grantedWord (shared : Bool) (v : Nat) : Nat := if shared then v + 1 else v + 2 ^ 63

/-- The reply of a request is sent. -/
def State.replyGuard (s : State) (id status : Nat) : State :=
  { s with guards := adjust s.guards id fun g => { g with reply := some status } }

/-- A request is granted, at the word's home (R270, R271). -/
def State.grantGuard (s : State) (id pa : Nat) (shared : Bool) : State :=
  (s.homeWrite pa (bytesOf 8 (grantedWord shared (s.guardWord pa)))).replyGuard id 0

/-- Requests of one guard in order; `held` when an earlier request still waits, for the guard or for a forced publish
(R271, R277). A release that cannot be published whole is granted to nobody: a GTRY learns so (R129; log 57). -/
def State.serveList (pa : Nat) : List (Nat × GuardReq) → Bool → State → State
  | [], _, s => s
  | (id, r) :: rest, held, s =>
    let v := s.guardWord pa
    if bits v 62 32 ≠ 0 then State.serveList pa rest held (s.replyGuard id 2)
    else if grantable r.shared v && !held && !(s.syncRec pa).stuck then
      if s.mustPublish pa r.thread then State.serveList pa rest true s
      else State.serveList pa rest held (s.grantGuard id pa r.shared)
    else if r.once then State.serveList pa rest held (s.replyGuard id 1)
    else State.serveList pa rest true s

/-- A probe for a line held under a lease joins the probe queue of the leasing core, which takes 64 of the agents; the
others wait at the line's home (R286). -/
def State.probe (s : State) (line : Nat) (agent : Option Agent) : State :=
  match s.warps.findSome? fun (e : Nat × Warp) => e.2.leases.find? fun x => s.holds x && x.line == line with
  | none => s
  | some x =>
    let p : Probe := { core := x.core, line, agent }
    let full := agent.isSome && decide ((s.probes.filter fun q => q.core == x.core && q.agent.isSome).length ≥ 64)
    if s.probes.contains p || full then s else { s with probes := s.probes ++ [p] }

/-- The queue of a guard is served; while its line is held under a lease the operation waits (R271, R286). -/
def State.serveGuard (s : State) (pa : Nat) : State :=
  if s.leased (pa / 64) then s.probe (pa / 64) none
  else State.serveList pa (s.guards.filter fun e => e.2.pa == pa && e.2.reply.isNone && !e.2.unqueued) false s

/-- The queues of several guards are served. -/
def State.serveGuards (s : State) (pas : List Nat) : State := pas.foldl State.serveGuard s

/-- Requests that satisfy a test are withdrawn, and those behind them are served (R273). -/
def State.withdrawGuards (s : State) (gone : GuardReq → Bool) : State :=
  let pas := ((s.guards.filter fun e => gone e.2 && e.2.reply.isNone).map fun e => e.2.pa).dedup
  ({ s with guards := keep s.guards fun _ g => !gone g } : State).serveGuards pas

/-- The hub that owns the HBM stack of a line, on which its home is (R9, R261). -/
def homeHub (pa : Nat) : Nat := Config.channelOf (pa / 4096) % 512 / 256

/-- Requests waiting at the homes of a hub (R273). -/
def State.guardsAt (s : State) (hub : Nat) : Nat :=
  (s.guards.filter fun e => e.2.reply.isNone && !e.2.unqueued && homeHub e.2.pa == hub).length

/-- A guard is held in a mode (R272). -/
def State.heldIn (s : State) (pa : Nat) (shared : Bool) : Bool :=
  if shared then decide (bits (s.guardWord pa) 31 0 ≠ 0) else decide (bits (s.guardWord pa) 63 63 ≠ 0)

/-- A hold of a guard ends: its word, its last release and its generation change, and its queue is served (R271, R272,
R275, R276). -/
def State.dropGuard (s : State) (pa : Nat) (shared : Bool) (scope : Nat) (t : Thread) : State :=
  let v := s.guardWord pa
  let s := s.homeWrite pa (bytesOf 8 (if shared then v - 1 else v - 2 ^ 63))
  ((s.onSync pa fun o => { o with lastScope := scope, lastThread := some t }).bumpGen pa).serveGuard pa

/-- The write-back of what a guard's holder kept below DEVICE begins, in the name of the release that left it there
(R277). -/
def State.publishHeld (s : State) (obj : Nat) : State :=
  match s.heldFor obj with
  | [] => s
  | e :: es =>
    if s.releases.any fun r => r.2.kind == RelKind.forced obj then s
    else
      let (id, s) := s.fresh
      let group : Word := match e.heldBy.1 with | .lane _ _ l => (1 : Word) <<< l | _ => 0
      let r : Release :=
        { kind := .forced obj, agent := e.heldBy.1, group, ctx := e.ctx, task := 0, core := e.core, scope := 4,
          entries := (e :: es).map (·.id), pc := e.heldBy.2, handle := 0, off := 0, wait := .none, answers := [],
          extData := [], extErr := [], failed := none }
      { s with releases := put s.releases id r }

/-! ### Writes left below DEVICE when their context stops (R140) -/

/-- A write that a granted release left below DEVICE is performed when its context stops, or, when it cannot be, its guard
is granted to nobody (R129, R140). -/
def State.settleHeld (s : State) (e : WEntry) : State :=
  match e.held with
  | none => s
  | some obj =>
    match s.walkTables e.ctx (e.va / 4096) 2 with
    | .ok t =>
      if t.secure = s.worldOf e.core then s.publishAt e (t.frame * 4096 + e.va % 4096)
      else s.onSync obj fun o => { o with stuck := true }
    | .error _ => s.onSync obj fun o => { o with stuck := true }

/-- The buffered stores of a context that stops: those that a granted release covers are performed, the others are
discarded (R140). -/
def State.dropWrites (s : State) (c : Nat) : State :=
  let s := (s.wbuf.filter fun e => e.ctx == c).foldl State.settleHeld s
  { s with wbuf := s.wbuf.filter fun e => e.ctx != c }

end Sys2Proof.Machine
end

