-- ==== Sys2Proof/Machine/Record.lean ====
section
/-! DEFINITION. Completion records, event rings, interrupts and the management ring (R46, R393, R395, R423). -/

namespace Sys2Proof.Machine

/-- A completion record (Table 2.4); its TIME is that of its writing unless `time` names another moment. -/
structure Rec where
  time : Option Nat := none
  source : Nat
  kind : Nat
  status : Nat := 0
  faults : Nat := 0
  fclass : Nat := 0
  fpc : Nat := 0
  detail : Nat := 0
  deriving DecidableEq, Repr

/-- The 24 bytes of a record after its TIME (Table 2.4). -/
def Rec.body (r : Rec) : List Byte :=
  bytesOf 4 r.source ++ bytesOf 1 r.kind ++ bytesOf 1 r.status ++ bytesOf 2 r.faults ++ bytesOf 4 r.fclass ++
    bytesOf 4 r.fpc ++ bytesOf 8 r.detail

/-- The 32 bytes of a record written now: TIME is that of its writing, or the moment its KIND's rule names (Table 2.4). -/
def State.stamped (s : State) (time : Option Nat) (body : List Byte) : List Byte :=
  bytesOf 8 (time.getD s.time.toNat) ++ body

/-- The KIND raises an interrupt at once (R395). -/
def urgent (kind : Nat) : Bool := kind == 3 || kind == 4 || kind == 7 || kind == 8

/-- The interrupt of an interface is sent, or dropped when its remap entry is not valid; every record then counts as
signalled (R395, R436). -/
def State.interrupt (s : State) (q : Nat) : State :=
  match s.qi? q with
  | none => s
  | some x =>
    let s := if bitOf x.remap 31 then s.emit (.msix (bits x.remap.toNat 11 0)) else s
    s.onQi q fun x => { x with unsignalled := 0 }

/-- Another record stands unsignalled; the interrupt is raised when it is enabled and due (R395). -/
def State.signalled (s : State) (q : Nat) (now : Bool) : State :=
  let s := s.onQi q fun x =>
    { x with oldest := if x.unsignalled = 0 then s.time.toNat else x.oldest, unsignalled := x.unsignalled + 1 }
  match s.qi? q with
  | none => s
  | some x =>
    if bitOf x.evctl 31 && (now || decide (x.unsignalled ≥ max 1 (bits x.evctl.toNat 15 0))) then s.interrupt q else s

/-- The command engine at a queue interface, as an accessor. -/
def Qi.who (x : Qi) (q : Nat) : Who :=
  { agent := .queue q, ctx := x.ctx, core := none, slot := 0, loose := false, secure := x.secure,
    answers := x.answers, extData := x.extData, extErr := x.extErr, args := none, waits := false }

/-- The hub that serves an interface (R16). -/
def hubOfQi (q : Nat) : Nat := if q < 2048 then 0 else 1

/-- The records of an interface that can be written are written in order: a full ring or a failing access drops the
record and counts it, a PAGE holds it and those behind it (R393). -/
def State.flushN : Nat → State → Nat → State
  | 0, s, _ => s
  | n + 1, s, q =>
    match s.qi? q with
    | none => s
    | some x =>
      match x.records with
      | [] => s
      | (time, body, now) :: rest =>
        let bs := s.stamped time body
        let dropped (s : State) : State :=
          State.flushN n (s.onQi q fun x => { x with records := rest, evdrop := satAdd 0xFFFF x.evdrop 1 }) q
        let written (s : State) : State :=
          State.flushN n ((s.onQi q fun x => { x with records := rest, evw := (x.evw + 1) % 2 ^ x.e }).signalled q now) q
        if (x.evw + 1) % 2 ^ x.e = x.evr then dropped s
        else
          match s.access (x.who q) x.evH ((x.evOff + 32 * x.evw : Nat) : Int)
              { w := 32, align := 32, acc := 2, ok4 := permits 2 } with
          | .ok (.dev pa) _ => if s.leased (pa / 64) then s else written (s.storeHub pa bs)
          | .ok (.host pasid addr) _ => written (s.emit (.hostWrite pasid addr bs))
          | .page va cause =>
            let (ids, s) := s.postFaults (.queue q) x.ctx 2 0x10 0xFFFF [(va, cause)]
            (s.countFault x.ctx Cls.page).onQi q fun x => { x with rwait := .park ids [] }
          | .hostBacked page =>
            let (id, s) := s.requestService x.ctx page 2 (hubOfQi q)
            (s.countFault x.ctx Cls.page).onQi q fun x => { x with rwait := .park [] [id] }
          | .miss page host =>
            let (id, s) := s.requestWalk x.ctx page 2 (hubOfQi q) host
            s.onQi q fun x => { x with rwait := .walk [id] }
          | _ => dropped s

/-- The waiting records of an interface go as far as they can. -/
def State.flush (s : State) (q : Nat) : State :=
  match s.qi? q with
  | none => s
  | some x => if x.rwait = .none ∧ x.bound then s.flushN x.records.length q else s

/-- Records that waited go on. -/
def State.flushAll (s : State) : State := s.qis.foldl (fun s e => s.flush e.1) s

/-- A record goes to the event ring of an interface (R393). -/
def State.post (s : State) (q : Nat) (r : Rec) : State :=
  match s.qi? q with
  | none => s
  | some x =>
    if x.bound then (s.onQi q fun x => { x with records := x.records ++ [(r.time, r.body, urgent r.kind)] }).flush q
    else s

/-- The lowest-numbered interface bound to a VD (R393). -/
def State.firstQi (s : State) (vd : Nat) : Option Nat :=
  (s.qis.find? fun e => e.2.bound && e.2.vd == vd).map (·.1)

/-- A record not tied to a queue goes to the VD's lowest-numbered interface, or is dropped (R393). -/
def State.postVd (s : State) (vd : Nat) (r : Rec) : State :=
  match s.firstQi vd with
  | none => s
  | some q => s.post q r

/-- A record goes to the management ring in host memory, or is dropped and counted (R423). -/
def State.postMgmt (s : State) (r : Rec) : State :=
  match s.mb.mgBase with
  | none => s
  | some base =>
    if (s.mb.mgw + 1) % 2 ^ s.mb.mgLog2 = s.mb.mgr then
      s.onMb fun m => { m with mgDrop := satAdd 0xFFFF m.mgDrop 1 }
    else
      (s.emit (.hostWrite 0 (base + 32 * s.mb.mgw) (s.stamped r.time r.body))).onMb fun m =>
        { m with mgw := (m.mgw + 1) % 2 ^ m.mgLog2 }

/-- A KIND 0x07 record of a VD, with its copy to the management ring (R393, R423, R425). -/
def State.postState (s : State) (vd : Nat) (r : Rec) : State := (s.postVd vd r).postMgmt r

/-- The VDs that are RESIDENT. -/
def State.residents (s : State) : List Nat := (s.vds.filter fun e => e.2.state == 2).map (·.1)

/-- A KIND 0x08 record to every resident VD and the management ring (R461, R423). -/
def State.postDie (s : State) (source status event detail : Nat) : State :=
  let r : Rec := { source, kind := 8, status, fclass := event, fpc := 0xFFFFFFFF, detail }
  (s.residents.foldl (fun s v => s.postVd v r) s).postMgmt r

end Sys2Proof.Machine
end

