-- ==== Sys2Proof/Machine/Kill.lean ====
section
/-! DEFINITION. Kill-and-drain of a context (R440 to R443), the stop of a context by a fault (R43), and the alarm
(R439). -/

namespace Sys2Proof.Machine

/-! ### The parts of a context's work -/

/-- The leases of a warp that are held end with a status, 1 for one whose cycles have passed; requests for lines go on
(R288, R289, R290). -/
def State.endLeases (s : State) (w : Warp) (status : Nat) : Warp :=
  { w with leases := w.leases.map fun l =>
      if l.granted && l.ended.isNone then { l with ended := some (if s.holds l then status else 1) } else l }

/-- Requests of leases that are gone leave the queue, and buffers and probe queues of ended leases are freed; guard
requests and records that waited for a line go on. -/
def State.tidyLeases (s : State) : State :=
  let live := s.warps.flatMap fun e => (e.2.leases.filter fun l => l.ended.isNone).map (·.id)
  let freed := (s.probes.filter fun p => !s.leased p.line).map (·.line)
  let words := ((s.guards.filter fun (e : Nat × GuardReq) => e.2.reply.isNone && freed.contains (e.2.pa / 64)).map
    fun (e : Nat × GuardReq) => e.2.pa).dedup
  (({ s with leaseBuf := s.leaseBuf.filter fun e => decide (e.1 ∈ live), probes := s.probes.filter fun p => s.leased p.line,
             leaseQ := s.leaseQ.filter fun l => decide (l.id ∈ live) } : State).serveGuards words).flushAll

/-- Cores on which a context has threads. -/
def State.coresOf (s : State) (c : Nat) : List Nat :=
  (((s.warps.filter fun (e : Nat × Warp) => e.2.ctx == c).map fun (e : Nat × Warp) => e.1 / 16) ++
    (s.crews.filter fun (e : Nat × Crew) => e.2.ctx == c).map fun (e : Nat × Crew) => e.1 / 4).dedup

/-- A record of an event ring waits for a walk. -/
def State.recordWaits (s : State) (id : Nat) : Bool :=
  s.qis.any fun e => match e.2.rwait with | .walk ids => ids.contains id | _ => false

/-- The KILL step of Table 18.10 in every engine, in the order of R26. -/
def State.killStep (s : State) (c : Nat) : State :=
  let cores := s.coresOf c
  let s := { s with
    qis := mapS s.qis fun _ q => if q.ctx = c ∧ q.bound then { q with kicks := [], wait := .none } else q,
    gather := s.gather.filter fun r => r.key.ctx != c,
    contWarps := keep s.contWarps fun _ r => r.key.ctx != c,
    images := keep s.images fun _ i => i.ctx != c,
    preempts := s.preempts.filter fun p => match p.unit with
      | .gang g => (look s.gangs g).all fun (x : Gang) => x.ctx != c
      | .loose k w => (s.warp? k w).all fun (x : Warp) => x.ctx != c,
    warps := mapS s.warps fun k w => if k / 16 ∈ cores then s.endLeases w 2 else w,
    atoms := keep s.atoms fun _ a => a.ctx != c || a.accepted,
    releases := keep s.releases fun _ r => r.ctx != c || (r.wait == Wait.none && r.failed.isNone),
    walks := keep s.walks fun id w => w.ctx != c || w.phase == 2 || s.recordWaits id }
  let s := s.onVd (s.vdOf c) fun v => { v with
    fids := keep v.fids fun _ f => f.ctx != c, waiting := v.waiting.filter fun e => e.2.ctx != c,
    invals := v.invals.filter fun i => i.ctx != c }
  ((s.onCtx c fun x => { x with overflow := [] }).tidyLeases).withdrawGuards fun g => g.ctx == c

/-- An atomic request of a context has been taken by an executor that has not performed it: a Badger, or an access unit
(Table 10.1). -/
def State.atomLeft (s : State) (c : Nat) (badger : Bool) : Bool :=
  s.atoms.any fun e => e.2.ctx == c && e.2.accepted && e.2.reply.isNone && !e.2.waiting && e.2.badger.isSome == badger

/-- The DRAIN condition of an engine for a context (Table 18.10): producers await the replies of what was accepted, and a
command of the matrix engine stands between rows at every moment; number 10 stands for the records of DONE, none of which
waits for a walk. -/
def State.drained (s : State) (c engine : Nat) : Bool :=
  match engine with
  | 0 => s.pkg.signing.all fun g => (s.qi? g.qi).all fun q => q.ctx != c
  | 2 => !s.atomLeft c true && !s.atomLeft c false
  | 3 => !s.atomLeft c false
  | 4 => !s.atomLeft c true
  | 5 => s.releases.all fun e => e.2.ctx != c
  | 6 => s.exts.all fun e => e.2.ctx != c || match e.2.agent with | .copy _ _ _ => false | _ => true
  | 9 => s.exts.all fun e => e.2.ctx != c
  | 10 => s.qis.all fun e => !e.2.bound || e.2.ctx != c || match e.2.rwait with | .walk _ => false | _ => true
  | _ => true

/-- The SCRUB of an engine for a context (Table 18.10). -/
def State.scrub (s : State) (c engine : Nat) : State :=
  match engine with
  | 0 => { s with qis := mapS s.qis fun _ q =>
      if q.ctx = c ∧ q.bound then { q with stopped := true, ib := [], begun := [], bound := !q.closing } else q }
  | 1 => { s with clusters := mapS s.clusters fun _ k =>
      { k with reserve := k.reserve.filter fun r => (s.task? r.1).all fun t => t.ctx != c } }
  | 2 => { s with warps := keep s.warps fun _ w => w.ctx != c, crews := keep s.crews fun _ x => x.ctx != c,
                  gangs := keep s.gangs fun _ g => g.ctx != c }
  | 3 => ({ s with pending := s.pending.filter fun e => e.ctx != c } : State).dropWrites c
  | 4 => { s with atoms := keep s.atoms fun _ a => a.ctx != c }
  | 5 => { s with releases := keep s.releases fun _ r => r.ctx != c,
                  owners := mapS s.owners fun _ e => if Owner.ctx e = c then e &&& ~~~(w64 (2 ^ 63)) else e }
  | 8 => { s with tlb := s.tlb.filter fun e => e.ctx != c }
  | 9 => { s with exts := keep s.exts fun _ e => e.ctx != c }
  | _ => s

/-- KIND 0x01 and 0x02 records of the tasks that the kill ends (R394). -/
def State.endTasks (s : State) (c : Nat) (k : Kill) : State :=
  let ts := s.tasks.filter fun e => e.2.ctx == c
  let s := ts.foldl (fun s e =>
    match e.2.launch with
    | some _ => s
    | none => s.post e.2.qi {
        source := e.2.number, kind := 1, status := k.status, fclass := if k.status = 2 then 0 else k.cls,
        fpc := if k.status = 2 ∨ k.fpc = 0xFFFFFFFF#32 then 0 else k.fpc.toNat, detail := e.2.packet }) s
  let ls := s.launches.filter fun e => (s.qi? e.2.qi).any fun q => q.ctx == c
  let s := ls.foldl (fun s e => s.post e.2.qi {
    source := e.2.graph + bits e.2.word.toNat 31 24 * 2 ^ 24, kind := 2,
    status := k.status, fclass := if k.status = 2 then 0 else k.cls, detail := e.2.word.toNat }) s
  let s := { s with tasks := keep s.tasks fun _ t => t.ctx != c,
                    launches := keep s.launches fun _ l => (s.qi? l.qi).all fun (q : Qi) => q.ctx != c }
  s.onVd (s.vdOf c) fun v => { v with ranges := v.ranges.filter fun r => r.ctx != c }

/-- The records of DONE: the KIND 0x03 record and those of the tasks (R440, R394). -/
def State.killRecords (s : State) (c : Nat) (k : Kill) : State :=
  let faults := if k.cls = Cls.killed then 0 else (s.ctx? c).elim 0 fun x => count x.faults k.cls
  let s := s.postVd (s.vdOf c) {
    source := k.source, kind := 3, status := k.status, faults := faults,
    fclass := k.cls + k.qual + k.reset * 2 ^ 22, fpc := k.fpc.toNat, detail := k.faddr.toNat }
  s.endTasks c k

/-- DONE of a kill-and-drain: the context is left as R440 says. -/
def State.killDone (s : State) (c : Nat) (k : Kill) : State :=
  s.onCtx c fun x =>
    { x with kill := none, overflow := [], handles := if k.emptyTable then [] else x.handles }

/-- A kill of a context begins, or joins the one in progress (R440). -/
def State.kill (s : State) (c : Nat) (k : Kill) : State :=
  match s.ctx? c with
  | none => s
  | some x =>
    match x.kill with
    | some old => s.onCtx c fun x => { x with kill := some { old with emptyTable := old.emptyTable || k.emptyTable } }
    | none => (s.onCtx c fun x => { x with kill := some k }).killStep c

/-- The kill of a context by command or alarm (R440, Table 2.6). -/
def killOf (time : DWord) (emptyTable : Bool) : Kill :=
  { status := 2, cls := Cls.killed, source := 0xFFFFFFFF, qual := 0, fpc := 0xFFFFFFFF#32, faddr := 0, done := 0,
    reset := 0, start := time, emptyTable }

/-! ### The alarm -/

/-- The VDs that are RESIDENT, those under a command included. -/
def State.tenants (s : State) : List Nat := (s.vds.filter fun e => e.2.state == 2 || e.2.state == 3).map (·.1)

/-- Level 2 of the alarm: every RESIDENT VD becomes STOPPED, and the change is recorded; its contexts are killed, and so
are those of a VD under a command, which is STOPPED at the command's end (R425, R439). -/
def State.alarmStop (s : State) : State :=
  let vs := s.residents
  let held := s.tenants
  let s := vs.foldl (fun s v => s.onVd v fun x => { x with state := 4 }) s
  let s := (s.ctxs.filter fun e => decide (e.2.vd ∈ held)).foldl (fun s e => s.kill e.1 (killOf s.time false)) s
  vs.foldl (fun s v => s.postState v { source := v, kind := 7, fclass := 4 }) s

/-- The alarm goes to a level (R439). -/
def State.alarmTo (s : State) (level : Nat) : State :=
  if level ≤ s.mb.alarmLevel then s
  else
    let old := s.mb.alarmLevel
    let s := s.onMb fun m => { m with alarmLevel := level }
    let s := if old < 2 ∧ level ≥ 2 then s.alarmStop else s
    if level ≥ 3 then
      (s.onPkg fun p => { p with keysErased := true }).onMb fun m => { m with capGen := (m.capGen + 2) % 65536 }
    else s

/-- The level that COUNT reaches (R439); a threshold of 0 disables its level. -/
def alarmLevelOf (count_ : Nat) (cfg : Word) : Nat :=
  let t2 := bits cfg.toNat 15 0
  let t3 := bits cfg.toNat 31 16
  if t3 ≠ 0 ∧ count_ ≥ t3 then 3 else if t2 ≠ 0 ∧ count_ ≥ t2 then 2 else if count_ ≥ 1 then 1 else 0

/-- An alarm event of a die or hub adds to COUNT, is recorded, and raises the level (R439). -/
def State.alarm (s : State) (source n : Nat) : State :=
  let s := s.onMb fun m => { m with alarmCount := satAdd 0xFFFF m.alarmCount n }
  let s := s.postMgmt { source, kind := 8, status := 1, fclass := 6, fpc := 0xFFFFFFFF }
  s.alarmTo (alarmLevelOf s.mb.alarmCount s.mb.alarmCfg)

/-! ### The end of a mailbox command -/

/-- The mailbox command in progress ends with a RESULT (R422). -/
def State.mbDone (s : State) (result : Nat) : State :=
  s.onMb fun m => { m with busy := false, result, wait := none, escalated := false }

/-! ### The clock (R18, R19) -/

/-- The class that the clock is due to have: the single resident VD's last hint, 2.4 GHz otherwise, and none above that
while a die is too hot (R12, R18). -/
def State.classDue (s : State) : Nat :=
  let c := match s.tenants with
    | [v] => ((s.vd? v).bind (·.hint)).getD 2
    | _ => 2
  if s.pkg.capped then min c 2 else c

/-- The change to the class due begins, unless one is under way (R19). -/
def State.reclock (s : State) : State :=
  if s.pkg.clsTarget.isNone ∧ s.pkg.cls ≠ s.classDue ∧ s.pkg.clk100 ≠ 0 then
    s.onPkg fun p => { p with clsTarget := some s.classDue }
  else s

/-! ### The stop of a context -/

/-- A fault stops its context: it is counted, a WORLD fault raises the alarm, and kill-and-drain begins. A context
being killed takes no further record (R43, R45, R438, R443). -/
def State.stop (s : State) (c cls source qual : Nat) (fpc : Word) (faddr : DWord) (unit : Nat) : State :=
  if !s.runs c then s
  else
    let s := s.countFault c cls
    let s := s.kill c { status := if cls = Cls.killed then 2 else 1, cls, source, qual, fpc, faddr, done := 0,
                        reset := 0, start := s.time, emptyTable := false }
    if cls = Cls.world then s.alarm unit 1 else s

end Sys2Proof.Machine
end

