-- ==== Sys2Proof/Machine/Ops.lean ====
section
/-! DEFINITION. The named operations over registers and threads: reading and writing registers, waiting and waking,
taking an exception and returning from one (R43, R44, R159, R181, R182), fetching (R58). -/

namespace Sys2Proof.Machine

/-! ### Registers -/

/-- Register `r` of a lane as it stands: as written, or its free value at placement, or 0 (R358, R368). -/
def Warp.stored (w : Warp) (l r : Nat) : Word :=
  match look (w.lane l).v r with
  | some x => x
  | none =>
    match look w.vfree (r / 64) with
    | some stamp => Config.freeReg stamp r l
    | none => 0

/-- Register `r` of a lane as an instruction reads it: unpredictable while a matrix operation uses it (R136). -/
def Warp.getV (w : Warp) (l r : Nat) : Word :=
  match w.veils.find? fun x => decide (x.first ≤ r ∧ r < x.first + x.count) with
  | some x => Config.freeVeil x.stamp w.instr.toNat r l
  | none => w.stored l r

/-- The pair at an even register (R66). -/
def Warp.getV2 (w : Warp) (l r : Nat) : DWord := join64 (w.getV l (r + 1)) (w.getV l r)

/-- A write of register `r` after a fence is remembered with the number of fences before it (R136). -/
def Lane.mark (x : Lane) (r : Nat) : Lane :=
  { x with marks := if x.fences = 0 then x.marks else put x.marks r x.fences }

/-- Register `r` of a lane takes the value of a producer issued before. -/
def Lane.fillV (x : Lane) (r : Nat) (v : Word) : Lane := { x with v := put x.v r v, bad := x.bad.filter (· != r) }

/-- Register `r` of a lane written. -/
def Lane.setV (x : Lane) (r : Nat) (v : Word) : Lane := (x.fillV r v).mark r

/-- The pair at an even register written. -/
def Lane.setV2 (x : Lane) (r : Nat) (v : DWord) : Lane := (x.setV r (lo32 v)).setV (r + 1) (hi32 v)

/-- Lead register k[r]; k0 reads 0 (Table 3.6). -/
def Lead.getK (x : Lead) (r : Nat) : DWord := if r = 0 then 0 else (look x.k r).getD 0

/-- Lead register k[r] written; a write of k0 has no effect (R65). -/
def Lead.setK (x : Lead) (r : Nat) (v : DWord) : Lead := 
  if r = 0 then x else { x with k := put x.k r v, bad := x.bad.filter (· != r) }

/-- Lanes of a warp that m0 reads: the live lanes, or in a handler the lanes still in it (Table 3.6, R181). -/
def Warp.m0 (w : Warp) : Word :=
  if w.handler = 0 then w.live
  else w.handler &&& maskOf fun l => match (w.lane l).wait with | .rte _ => false | _ => bitOf w.live l

/-- Mask register m[r]. -/
def Warp.getM (w : Warp) (r : Nat) : Word := if r = 0 then w.m0 else w.m.getD r 0

/-- Mask register m[r] written. -/
def Warp.setM (w : Warp) (r : Nat) (v : Word) : Warp := { w with m := setNth w.m r v }

/-! ### Partition tiles and bound tiles -/

/-- The partition-tile size (R177). -/
def Warp.tileSize (w : Warp) : Nat := 2 ^ w.partLog

/-- The lanes of the partition tile of a lane. -/
def Warp.tileOf (w : Warp) (l : Nat) : Word := maskOf fun x => decide (x / w.tileSize = l / w.tileSize)

/-- A mask widened to the live lanes of whole partition tiles. -/
def Warp.widen (w : Warp) (m : Word) : Word :=
  maskOf fun l => bitOf w.live l && (m &&& w.tileOf l) != 0

/-- A mask widened to bound tiles when the warp is bound (R180). -/
def Warp.widenBound (w : Warp) (m : Word) : Word := if w.chain.bound.isSome then m ||| w.widen m else m

/-! ### What a matrix command in flight hides (R136, R318) -/

/-- The latest completed command of a list that a completion counter shows. -/
def latestSeen (q : Nat) (vs : List Veil) : Nat :=
  vs.foldl (fun n (v : Veil) => if v.done && v.q == q then max n (v.stamp + 1) else n) 0

/-- A wait observes a completion counter of a crew: what its completed commands used, and what those before them in the
queue used, reads as it stands again. -/
def State.observe (s : State) (k q : Nat) : State :=
  let n : Nat := s.warps.foldl (fun (n : Nat) (e : Nat × Warp) =>
      if e.2.crew = some k then max n (latestSeen q e.2.veils) else n)
    (latestSeen q (((look s.crews k).map (·.veils)).getD []))
  let lift (vs : List Veil) : List Veil := vs.filter fun v => !(v.done && decide (v.stamp < n))
  let shown := ((look s.crews k).elim [] fun c => c.veils.filter fun v => v.done && decide (v.stamp < n)).map
    fun (v : Veil) => (v.first, v.count)
  let s : State := { s.onCrewKey k fun c => { c with veils := lift c.veils } with
    warps := mapS s.warps fun _ w => if w.crew = some k then { w with veils := lift w.veils } else w }
  shown.foldl (fun s t => s.wakeWaita t.1 t.2) s

/-- The bytes of a tile as a lane of a warp reads them: unpredictable while a command not yet observed writes it. -/
def State.tileBytes (s : State) (w : Warp) (l crew tile off n : Nat) : List Byte :=
  match s.veilOn crew tile with
  | some v => hiddenBytes v w.instr.toNat l off n
  | none =>
    match s.tile? crew tile with
    | some t => t.readN off n
    | none => []

/-! ### Waiting and waking -/

/-- A wait with one walk finished. -/
def Wait.walked (w : Wait) (id : Nat) : Wait :=
  match w with
  | .walk ids => let r := ids.filter (· != id); if r = [] then .none else .walk r
  | x => x

/-- A park that names a fault identifier or a host-backed service ends (R44, R415). -/
def Wait.waits (w : Wait) (fid hb : Option Nat) : Bool :=
  match w with
  | .park fs hs => fs.any (fun f => fid == some f) || hs.any (fun h => hb == some h)
  | _ => false

/-- Waits and answers of the lanes of a warp changed. -/
def Warp.onWaits (w : Warp) (g : Wait → List Answer → Wait × List Answer) : Warp :=
  w.onLanes fun _ x => { x with wait := (g x.wait x.answers).1, answers := (g x.wait x.answers).2 }

/-- Waits and answers of the lead thread and the copies of a crew changed. -/
def Crew.onWaits (c : Crew) (g : Wait → List Answer → Wait × List Answer) : Crew :=
  let onCopy (x : Copy) : Copy := { x with wait := (g x.wait x.answers).1, answers := (g x.wait x.answers).2 }
  { c with lead := { c.lead with wait := (g c.lead.wait c.lead.answers).1,
                                 answers := (g c.lead.wait c.lead.answers).2 },
           copies := c.copies.map onCopy }

/-- Every agent that may wait on translation, with its answers, changed. -/
def State.onWaiters (s : State) (g : Wait → List Answer → Wait × List Answer) : State :=
  { s with
    warps := mapS s.warps fun _ w => w.onWaits g,
    crews := mapS s.crews fun _ c => c.onWaits g,
    images := mapS s.images fun _ x =>
      { x with warps := x.warps.map fun e => (e.1, e.2.onWaits g), crews := x.crews.map fun c => c.onWaits g },
    contWarps := mapS s.contWarps fun _ x =>
      { x with wait := (g x.wait x.answers).1, answers := (g x.wait x.answers).2 },
    tasks := mapS s.tasks fun _ x => { x with wait := (g x.wait x.answers).1, answers := (g x.wait x.answers).2 },
    qis := mapS s.qis fun _ x =>
      { x with wait := (g x.wait x.answers).1, rwait := (g x.rwait x.answers).1,
               answers := if (g x.wait x.answers).2 = x.answers then (g x.rwait x.answers).2
                          else (g x.wait x.answers).2 },
    releases := mapS s.releases fun _ x => { x with wait := (g x.wait x.answers).1, answers := (g x.wait x.answers).2 },
    inbound := mapS s.inbound fun _ x => { x with wait := (g x.wait x.answers).1, answers := (g x.wait x.answers).2 },
    vds := mapS s.vds fun _ v => { v with invals := v.invals.map fun x =>
      { x with wait := (g x.wait x.answers).1, answers := (g x.wait x.answers).2 } } }

/-- A walk has ended: those waiting on it go on, with an answer when it failed (R409). -/
def State.wakeWalk (s : State) (id : Nat) (ans : Option Answer) : State :=
  (s.onWaiters fun w a =>
    match w with
    | .walk ids => (w.walked id, if ids.contains id then ans.toList ++ a else a)
    | _ => (w, a)).flushAll

/-- A fault identifier, a host-backed service or a page request is answered: the units parked on it are replayed, with
PAGE_FATAL when it is unserviceable (R44, R415, R418, R419). -/
def State.wakePark (s : State) (fid hb : Option Nat) (c page : Nat) (host fatal : Bool) : State :=
  (s.onWaiters fun w a =>
    if w.waits fid hb then
      let a' := a.filter fun x => !(x.ctx == c && x.page == page && x.host == host)
      (.none, if fatal then
        [1, 2, 3, 4, 8].map (fun acc => { ctx := c, page, acc, host, out := .pageFatal }) ++ a' else a')
    else (w, a)).flushAll

/-! ### Taking an exception -/

/-- Where a lane-stream fault arose: the PC, and ENG, OP and length in words of the instruction. -/
structure Src where
  pc : Word
  eng : Nat
  op : Nat
  ilen : Nat

/-- A lane-stream fault: class, lanes in which the condition arose, active lanes, detail by lane, and the destination
registers to be full again when the faulting instruction is a replay. -/
structure LaneFlt where
  cls : Nat
  lanes : Word
  active : Word
  addr : Nat → DWord := fun _ => 0
  data : Nat → DWord := fun _ => 0
  refill : List Nat := []

/-- TASK as a number (R392). -/
def State.taskNo (s : State) (t : Nat) : Nat := match s.task? t with | some x => x.number | none => 0

/-- The copy of handle 0 that a task's threads see (R214). -/
def State.argsOf (s : State) (t : Nat) : Option (BitVec 256) := (s.task? t).map (·.args)

/-- FCLASS qualifiers of a lane-stream record (Table 2.7). -/
def Warp.qual (w : Warp) (lane : Nat) : Nat :=
  lane * 2 ^ 16 + (match w.crew with | some k => k % 4 * 2 ^ 9 | none => 2 ^ 12)

/-- A lane of a warp as an accessor. -/
def State.laneWho (s : State) (core slot : Nat) (w : Warp) (l : Nat) : Who :=
  let x := w.lane l
  { agent := .lane core slot l, ctx := w.ctx, core := some core, slot := (w.crew.getD 0) % 4, loose := w.crew.isNone,
    secure := s.worldOf core, answers := x.answers, extData := x.extData, extErr := x.extErr, args := s.argsOf w.task,
    waits := true }

/-- A lead thread as an accessor. -/
def State.leadWho (s : State) (core slot : Nat) (c : Crew) : Who :=
  { agent := .lead core slot, ctx := c.ctx, core := some core, slot, loose := false, secure := s.worldOf core,
    answers := c.lead.answers, extData := c.lead.extData, extErr := c.lead.extErr, args := s.argsOf c.task,
    waits := true }

/-- A code object header (Table 3.15): code section bounds, REGS, entries and declarations. -/
structure Header where
  regs : Nat
  lead : Nat
  lane : Nat
  codeOff : Nat
  codeBytes : Nat
  declOff : Nat
  tiles : Nat
  handles : Nat
  frames : Nat

/-- The header in 64 bytes, when MAGIC and VERSION are those of Table 3.15. -/
def parseHeader (b : List Byte) : Option Header :=
  let f (o n : Nat) : Nat := natOf ((b.drop o).take n)
  if f 0 4 = 0x314F4C48 ∧ f 4 2 = 1 then
    some { regs := f 6 2, lead := f 8 4, lane := f 12 4, codeOff := f 16 4, codeBytes := f 20 4, declOff := f 32 4,
           tiles := f 36 2, handles := f 38 2, frames := f 40 2 }
  else none

/-- An offset is an entry point of a code section. -/
def Header.entryOk (h : Header) (o : Nat) : Bool :=
  decide (h.codeOff ≤ o ∧ o < h.codeOff + h.codeBytes ∧ o % 4 = 0)

/-- The header checks of R93 that need no task. -/
def headerOk (b : List Byte) : Option Header :=
  match parseHeader b with
  | none => none
  | some h =>
    if (b.drop 46).all (· == 0) ∧ h.lane ≠ 0xFFFFFFFF ∧ h.entryOk h.lane ∧
       (h.lead = 0xFFFFFFFF ∨ h.entryOk h.lead) then some h else none

/-- Steps 10 and 11 over every line of a run of device bytes. -/
def State.linesBad (s : State) (pa n : Nat) (sec : Bool) : Option AccOut :=
  let lines := (List.range ((pa + n + 63) / 64 - pa / 64)).map (pa / 64 + ·)
  if lines.any fun l => s.lost.contains l then some (.fail 11 Cls.coherenceLost false)
  else if lines.any fun l => s.lineBad (l * 64) sec then some (.fail 10 Cls.dataCheck false)
  else none

/-- The bytes of a run that lies in one page, as an agent reads them. -/
def State.readPiece (s : State) (who : Who) (e : BitVec 256) (o n : Nat) : Except (AccOut × Nat) (List Byte) :=
  match s.place who e o { w := n, align := 1, acc := 1, ok4 := Entry.pr, own := true } with
  | .ok (.dev pa) sec =>
    match s.linesBad pa n sec with
    | some f => .error (f, n)
    | none => .ok (s.seeN who.seat who.agent pa n)
  | .ok loc _ =>
    match who.extData.find? fun d => d.1 == loc && decide (n ≤ d.2.length) with
    | some d => .ok (d.2.take n)
    | none => .error (.ext loc, n)
  | out => .error (out, n)

/-- Runs of a list of offsets that ends at a given offset, each read in order. -/
def State.readPieces (s : State) (who : Who) (e : BitVec 256) (stop : Nat) : List Nat → Except (AccOut × Nat) (List Byte)
  | [] => .ok []
  | o :: r => do
    let b ← s.readPiece who e o (r.headD stop - o)
    let bs ← State.readPieces s who e stop r
    .ok (b ++ bs)

/-- The bytes of a range of a handle, as an agent that needs PR reads them; or the outcome that prevents it, with the
number of bytes wanted there. -/
def State.readRange (s : State) (who : Who) (h o len : Nat) : Except (AccOut × Nat) (List Byte) :=
  match s.precheck who h (o : Int) { w := len, align := 1, acc := 1, ok4 := Entry.pr } with
  | some (n, cls) => .error (.fail n cls false, len)
  | none =>
    let e := s.entry who h
    if len = 0 then .ok [] else s.readPieces who e (o + len) (pieces (Entry.base e) o len)

/-- What the read of a code object's header gives. -/
inductive HdrOut where
  | ok (h : Header)
  /-- The handle or the header breaks a check; or the read fails with a class. -/
  | bad (cls : Nat)
  | out (o : AccOut)

/-- The header of the code object behind a handle, as an agent reads it (R58, R93). -/
def State.readHeader (s : State) (who : Who) (h : Nat) (strict : Bool) : HdrOut :=
  let e := s.entry who h
  if h ≥ 4096 ∨ !Entry.valid e ∨ Entry.space e ≠ 2 ∨ !Entry.pr e ∨ Entry.length e < 64 then .bad Cls.illegal
  else
    match s.readRange who h 0 64 with
    | .ok b =>
      match if strict then headerOk b else parseHeader b with
      | none => .bad Cls.illegal
      | some x => .ok x
    | .error (.fail _ c _, _) => .bad c
    | .error (o, _) => .out o

/-- The header of a trap code object, whose code section must lie in its handle (R58). -/
def State.trapHeader (s : State) (who : Who) (h : Nat) : HdrOut :=
  match s.readHeader who h true with
  | .ok x => if x.codeOff + x.codeBytes ≤ Entry.length (s.entry who h) then .ok x else .bad Cls.illegal
  | out => out

/-- Lanes of a group wait for walks of pages (R409); nothing else of their instruction takes place. -/
def State.waitWalks (s : State) (core slot : Nat) (grp : Word) (c acc : Nat) (pages : List (Nat × Bool)) : State :=
  let (ids, s) := s.requestWalks c acc (hubOfDie (dieOf core)) pages
  s.onWarp core slot fun w => w.onMask grp fun _ x => { x with wait := .walk ids, age := 0 }

/-- Lanes are parked on PAGE: fault records for absent pages, walks for host-backed ones (R44, R228). -/
def State.parkLanes (s : State) (core slot : Nat) (lanes : Word) (c acc eng : Nat) (faults : List (Nat × Nat))
    (hbs : List (Nat × Bool)) : State :=
  let s := s.countFault c Cls.page
  let (fids, s) := s.postFaults (.lane core slot (lowest lanes)) c acc eng core
    (faults.foldl (fun l f => if l.any fun g => g.1 / 4096 == f.1 / 4096 then l else l ++ [f]) [])
  let (hids, s) := s.requestServices c acc (hubOfDie (dieOf core)) hbs.dedup
  s.onWarp core slot fun w => w.onMask lanes fun _ x => { x with wait := .park fids hids, age := 0, sp := none }

/-- Step 3 to 5 of R181: the trap registers are written, the handler lanes start at the trap entry, the others are parked, which
ends their ages (R165); the warp's leases end (R288), and a higher-PC instruction is held back (R166). TILEWIDE is 1 when the
handler lanes are more than the active ones (Table 7.3), so 0 for a fault in some lanes of a bound tile that is active whole
(DESIGN CHOICE, log 66). -/
def State.enterHandler (s : State) (core slot : Nat) (i : Src) (f : LaneFlt) (entry : Word) : State :=
  let pair := match s.second, s.warp? core slot with
    | some (c, k, gs), some w => decide (c = core ∧ k = slot) &&
        gs.any fun g => (w.lane (lowest g)).wait == Wait.none
    | _, _ => false
  let s := { s with second := none }
  let s := s.onWarp core slot fun w =>
    let hand := w.widenBound f.active
    let wide := hand != f.active
    { s.endLeases ((w.onMask (w.live &&& ~~~hand) fun _ x => { x with age := 0 }).onMask hand fun l x =>
        { x with pc := entry, wait := .none, hold := false, answers := [], extData := [], extErr := [], age := 0,
                 taddr := if bitOf f.lanes l then f.addr l else 0,
                 tdata := if bitOf f.lanes l then f.data l else 0 }) 1 with
      handler := hand, tpc := i.pc, tlanes := f.lanes, empty := w.empty.filter fun r => !(f.refill.contains r),
      tcause := w32 (f.cls + i.ilen * 2 ^ 9 + (if wide then 2 ^ 12 else 0) + (if pair then 2 ^ 13 else 0) +
        i.eng * 2 ^ 16 + i.op * 2 ^ 20) }
  s.tidyLeases

/-- The lanes that stand at a PC and may issue: those of the group that issued there. -/
def Warp.standing (w : Warp) (pc : Word) : Word :=
  w.live &&& maskOf fun l => (w.lane l).pc == pc && (match (w.lane l).wait with | .none => true | .retry => true | _ => false)

/-- A lane-stream instruction raises a fault: its lanes enter the handler, or the context stops (R43, R181, R184).
The first trap of a context reads the header of its trap code object (R58). -/
def State.trap (s : State) (core slot : Nat) (i : Src) (f : LaneFlt) : State :=
  match s.warp? core slot with
  | none => s
  | some w =>
    match s.ctx? w.ctx with
    | none => s
    | some x =>
      let l := lowest f.lanes
      let stopAs (cls : Nat) (faddr : DWord) : State :=
        s.stop w.ctx cls (s.taskNo w.task) (w.qual l) i.pc faddr (dieOf core)
      if w.handler ≠ 0 then stopAs Cls.double (f.addr l)
      else if !hasHandler f.cls || x.trapOff == 0 then stopAs f.cls (f.addr l)
      else
        let counted := s.countFault w.ctx f.cls
        match x.trapBounds with
        | some _ => counted.enterHandler core slot i f x.trapOff
        | none =>
          match s.trapHeader (s.laneWho core slot w l) x.trapCode with
          | .ok h =>
            (counted.onCtx w.ctx fun x => { x with trapBounds := some (h.codeOff, h.codeOff + h.codeBytes) }).enterHandler
              core slot i f x.trapOff
          | .bad c => stopAs Cls.illegal (w64 (f.cls + c * 256))
          | .out (.page va cause) => s.parkLanes core slot f.active w.ctx 1 1 [(va, cause)] []
          | .out (.hostBacked p) => s.parkLanes core slot f.active w.ctx 1 1 [] [p]
          | .out (.miss p h) => s.waitWalks core slot (w.standing i.pc) w.ctx 1 [(p, h)]
          | .out _ => stopAs Cls.illegal (w64 (f.cls + Cls.illegal * 256))

/-- A lead fault stops its context (R43, R159). -/
def State.trapLead (s : State) (core slot : Nat) (cls : Nat) (faddr : DWord) : State :=
  match s.crew? core slot with
  | none => s
  | some c => s.stop c.ctx cls (s.taskNo c.task) (2 ^ 8 + slot * 2 ^ 9) c.lead.pc faddr (dieOf core)

/-! ### Return from an exception -/

/-- The handler ends when every handler lane has returned or exited: returned lanes take their resume PCs (R182). -/
def Warp.endHandler (w : Warp) : Warp :=
  if w.handler = 0 then w
  else if (lanesOf w.handler).all fun l =>
      !bitOf w.live l || (match (w.lane l).wait with | .rte _ => true | _ => false) then
    { (w.onMask (w.handler &&& w.live) fun _ x =>
        match x.wait with
        | .rte resume => { x with pc := resume, wait := .none, age := 0 }
        | _ => x) with handler := 0 }
  else w

/-- Active lanes return from the handler to the given PCs and wait for its end, at an instruction with the given liveness word
(R75, R182). -/
def Warp.rte (w : Warp) (act : Word) (resume : Nat → Word) (sp : Option Word) : Warp :=
  (w.onMask act fun l x => { x with wait := .rte (resume l), sp }).endHandler

/-! ### Fetch (R58) -/

/-- What a fetch gives: the words, or a fault with the offset of the word that failed. -/
inductive Fetched where
  | ok (ws : List Word)
  | fault (cls : Nat) (at_ : Nat) (far : Bool)
  | out (o : AccOut)
  deriving DecidableEq, Repr

/-- One word of an instruction: inside the code section and the handle, and translated for execution. -/
def State.fetchWord (s : State) (who : Who) (h lo hi at_ : Nat) : Fetched :=
  if at_ % 4 ≠ 0 then .fault Cls.misalign at_ false
  else if at_ < lo ∨ at_ + 4 > hi then .fault Cls.bounds at_ false
  else
    match s.access who h at_ { w := 4, align := 4, acc := 4, ok4 := fun e => Entry.space e == 2 && Entry.pr e,
                               own := false, check := true } with
    | .ok (.dev pa) _ => .ok [w32 (natOf (s.seeN who.seat who.agent pa 4))]
    | .fail _ c far => .fault c at_ far
    | o => .out o

/-- Words of an instruction after the first. -/
def State.fetchMore (s : State) (who : Who) (h lo hi : Nat) : Nat → Nat → Fetched
  | 0, _ => .ok []
  | n + 1, at_ =>
    match s.fetchWord who h lo hi at_ with
    | .ok ws =>
      match State.fetchMore s who h lo hi n (at_ + 4) with
      | .ok r => .ok (ws ++ r)
      | x => x
    | x => x

/-- Every word of the instruction at an offset (Table 3.1, R58). -/
def State.fetch (s : State) (who : Who) (h lo hi at_ : Nat) : Fetched :=
  match s.fetchWord who h lo hi at_ with
  | .ok [w] =>
    let n := wordsOfForm (formOfLen (w.extractLsb' 0 2)) - 1 + (if w.getLsbD 2 then 1 else 0)
    match s.fetchMore who h lo hi n (at_ + 4) with
    | .ok r => .ok (w :: r)
    | x => x
  | x => x

end Sys2Proof.Machine
end

