-- ==== Sys2Proof/Machine/Issue.lean ====
section
/-! DEFINITION. The issue of an instruction: the checks made before any effect, in the order of R83, and the ways an
instruction ends (R63, R70, R76, R163). -/

namespace Sys2Proof

/-- The vector registers a field names. -/
def Role.regs (r : Role) (n : Nat) : List Nat :=
  match r with
  | .v => [n]
  | .vpair => [n, n + 1]
  | .vquad => [n, n + 1, n + 2, n + 3]
  | .vrec => (List.range 16).map (n + ·)
  | _ => []

/-- A field that names no register of its namespace, given the warp's allocation (Table 3.5, R66, R223, R364). -/
def Role.bad (r : Role) (alloc n : Nat) : Bool :=
  match r with
  | .v => decide (n ≥ alloc)
  | .vpair => decide (n % 2 = 1 ∨ n + 1 ≥ alloc)
  | .vquad => decide (n % 4 ≠ 0 ∨ n + 3 ≥ alloc)
  | .vrec => decide (n % 4 ≠ 0 ∨ n + 15 ≥ alloc)
  | .k => decide (n ≥ 64)
  | .m => decide (n ≥ 16)
  | .j => decide (n ≥ 12)
  | .q => decide (n ≥ 8)
  | .f => decide (n ≥ 16)
  | _ => false

/-- B is an immediate (R60). -/
def Fields.immB (f : Fields) : Bool := f.form.atLeast96 && decide (f.b.toNat = 2047)

/-- Reader policies of A, B and C (R69). -/
def Fields.policy (f : Fields) : Bool × Bool × Bool :=
  match f.form with
  | .w32 => (f.t, f.t, f.t)
  | _ => (f.t, f.tb, f.tc)

/-- The immediate of B as 64 bits (R61). -/
def Fields.immValue (f : Fields) : DWord := if f.form = .w160 then f.lit else f.imm.signExtend 64

/-- The immediate of a binary32 or packed operand (R61). -/
def Fields.immFloat (f : Fields) : Word := if f.form = .w160 then f.lit.setWidth 32 else f.imm ++ (0 : BitVec 13)

/-- Length of the instruction as a 32-bit number of bytes. -/
def Fields.step (f : Fields) : Word := BitVec.ofNat 32 f.len

end Sys2Proof

namespace Sys2Proof.Machine

open Host (Outcome)

/-- An instruction of the lane stream as it issues: warp, group, active lanes, PC, fields. -/
structure Iss where
  core : Nat
  slot : Nat
  w : Warp
  grp : Word
  act : Word
  pc : Word
  eng : Nat
  op : Nat
  f : Fields

/-- An instruction of the lead stream as it issues. -/
structure LIss where
  core : Nat
  slot : Nat
  c : Crew
  pc : Word
  eng : Nat
  op : Nat
  f : Fields

/-! ### Register fields -/

/-- The carry-out register of LMULW, with its role (Table 12.2). -/
def carryOut (eng op : Nat) (f : Fields) : Option (Role × Nat) :=
  if eng = 8 ∧ op = 9 ∧ bits f.fn.toNat 7 7 = 1 then
    some (if bits f.mod.toNat 0 0 = 1 then .vpair else .v, bits f.fn.toNat 6 0)
  else none

/-- The lowest liveness group beyond the allocation (R76); the lead stream has none. -/
def badGroup (alloc : Nat) (live : Option Word) : Option Nat :=
  match live with
  | none => none
  | some w => firstBelow (fun g => bitOf w g && decide (64 * g ≥ alloc)) 24

/-- The detail of R71 for the first register that fails: A, B, C, D, the carry-out field, the liveness word. -/
def regBad (st : Stream) (eng op : Nat) (f : Fields) (alloc : Nat) : Option Nat :=
  let sh := shapeOf st eng op f
  if sh.a.bad alloc f.a.toNat then some f.a.toNat
  else if !f.immB && sh.b.bad alloc f.b.toNat then some (f.b.toNat + 2 ^ 11)
  else if sh.c.bad alloc f.c.toNat then some (f.c.toNat + 2 * 2 ^ 11)
  else if sh.d.bad alloc f.d.toNat then some (f.d.toNat + 3 * 2 ^ 11)
  else
    match carryOut eng op f with
    | some (r, n) => if r.bad alloc n then some (n + 2 ^ 13) else liveBad
    | none => liveBad
where
  liveBad : Option Nat :=
    match st with
    | .lead => none
    | .lane => (badGroup alloc f.live).map fun g => 64 * g + 2 ^ 13

/-- The destination registers of an instruction, in vector or lead numbers. -/
def destRegs (st : Stream) (eng op : Nat) (f : Fields) : List Nat :=
  let sh := shapeOf st eng op f
  (if sh.d = .k then [f.d.toNat] else sh.d.regs f.d.toNat) ++
    (match carryOut eng op f with | some (r, n) => r.regs n | none => [])

/-- The source registers of A, B and C. -/
def srcRegs (st : Stream) (eng op : Nat) (f : Fields) : List Nat × List Nat × List Nat :=
  let sh := shapeOf st eng op f
  let regs (r : Role) (n : Nat) : List Nat := if r = .k then [n] else r.regs n
  (regs sh.a f.a.toNat, if f.immB then [] else regs sh.b f.b.toNat, regs sh.c f.c.toNat)

/-- The outcome of the examination of R70. -/
inductive Ready where
  | go
  | wait
  /-- EMPTY, with the detail of R71. -/
  | empty (detail : Nat)
  deriving DecidableEq, Repr

/-- R70: sources with policy 1, then every source and destination. A replayed instruction does not wait for the
destinations that it marked empty itself (R228). -/
def ready (st : Stream) (eng op : Nat) (f : Fields) (empty : List Nat) (held : Bool) : Ready :=
  let (a, b, c) := srcRegs st eng op f
  let (pa, pb, pc) := f.policy
  let d := destRegs st eng op f
  let isEmpty (r : Nat) : Bool := empty.contains r && !(held && d.contains r)
  if pa && a.any isEmpty then .empty f.a.toNat
  else if pb && b.any isEmpty then .empty (f.b.toNat + 2 ^ 11)
  else if pc && c.any isEmpty then .empty (f.c.toNat + 2 * 2 ^ 11)
  else if (a ++ b ++ c ++ d).any isEmpty then .wait
  else .go

/-! ### Operands read at issue -/

/-- The instruction as the source of a fault. -/
def Iss.src (i : Iss) : Src := { pc := i.pc, eng := i.eng, op := i.op, ilen := i.f.words }

/-- A fault of an instruction in some of its active lanes. -/
def Iss.raise (i : Iss) (s : State) (cls : Nat) (lanes : Word) (addr data : Nat → DWord) : State :=
  s.trap i.core i.slot i.src { cls, lanes, active := i.act, addr, data,
                               refill := if (lanesOf i.act).any fun l => (i.w.lane l).hold then
                                           destRegs .lane i.eng i.op i.f else [] }

/-- The prologue's faults arise in every lane of the group (R82). -/
def Iss.raiseAll (i : Iss) (s : State) (cls : Nat) (data : DWord) : State :=
  ({ i with act := i.grp } : Iss).raise s cls i.grp (fun _ => 0) (fun _ => data)

/-! ### How an instruction ends -/

/-- Lanes go past the instruction; a safe point executed is remembered (R163, R374). -/
def Warp.advance (w : Warp) (m : Word) (f : Fields) : Warp :=
  w.onMask m fun _ x =>
    { x with pc := x.pc + f.step, wait := .none, hold := false, age := 0, answers := [], extData := [], extErr := [],
             lastSp := if f.live.isSome then f.live else x.lastSp }

/-- The warp issued one more instruction (R210). -/
def Warp.counted (w : Warp) : Warp := { w with instr := w.instr + 1 }

/-- The instruction ends: its active lanes change, and the group goes past it. -/
def Iss.commit (i : Iss) (s : State) (g : Nat → Lane → Lane) : State :=
  s.onWarp i.core i.slot fun w => ((w.onMask i.act g).advance i.grp i.f).counted

/-- The instruction ends with a change of the warp. -/
def Iss.commitWarp (i : Iss) (s : State) (g : Warp → Warp) : State :=
  s.onWarp i.core i.slot fun w => ((g w).advance i.grp i.f).counted

/-- The instruction ends with nothing written in the warp. -/
def Iss.done (i : Iss) (s : State) : State := i.commitWarp s id

/-- The registers that a producer writes in its lanes, marked at its issue. -/
def Warp.markAll (w : Warp) (m : Word) (regs : List Nat) : Warp :=
  w.onMask m fun _ x => regs.foldl (fun (x : Lane) r => x.mark r) x

/-- The instruction ends as a producer: its destinations are empty until the producer writes them (R68). -/
def Iss.produce (i : Iss) (s : State) (vals : List (Nat × Nat × DWord)) (flags : List (Nat × Bool × Bool))
    (chain : List Nat := []) : State :=
  let (id, s) := s.fresh
  let regs := destRegs .lane i.eng i.op i.f
  i.commitWarp s fun w =>
    let w := w.markAll i.act regs
    { w with empty := (w.empty ++ regs).dedup,
             prods := w.prods ++ [{ id, regs, vals, replies := 0, flags, chain }] }

/-- The active lanes begin a wait at the instruction, and the other lanes of the group go past it. -/
def Iss.await (i : Iss) (s : State) (m : Word) (wait : Nat → Wait) : State :=
  s.onWarp i.core i.slot fun w =>
    ((w.advance (i.grp &&& ~~~m) i.f).onMask m fun l x =>
      { x with wait := wait l, adv := i.f.len, age := 0, sp := i.f.live,
               lastSp := if i.f.live.isSome then i.f.live else x.lastSp }).counted

/-- The group attempts the instruction again later; nothing of it takes place. It could issue but for the part (R165). -/
def Iss.retry (i : Iss) (s : State) : State :=
  s.onWarp i.core i.slot fun w => w.onMask i.grp fun _ x => { x with wait := .retry, sp := i.f.live }

/-- The group waits at the instruction as R40 has it, for a register, an entry or a counter; it attempts it again later. -/
def Iss.block (i : Iss) (s : State) : State :=
  s.onWarp i.core i.slot fun w => w.onMask i.grp fun _ x => { x with wait := .retry, age := 0, sp := i.f.live }

/-- The lead thread goes past the instruction. -/
def Lead.advance (x : Lead) (f : Fields) : Lead :=
  { x with pc := x.pc + f.step, wait := .none, hold := false, answers := [], extData := [], extErr := [],
           instr := x.instr + 1, lastSp := if f.live.isSome then f.live else x.lastSp }

/-- A lead instruction ends. -/
def LIss.commit (i : LIss) (s : State) (g : Lead → Lead) : State :=
  s.onLead i.core i.slot fun x => (g x).advance i.f

/-- A lead instruction ends with nothing written. -/
def LIss.done (i : LIss) (s : State) : State := i.commit s id

/-- The lead thread attempts the instruction again later. -/
def LIss.retry (i : LIss) (s : State) : State := s.onLead i.core i.slot fun x =>
    { x with wait := .retry, sp := i.f.live, swaits := i.eng == 0 && i.op == 0x1C }

/-- A lead instruction faults (R159). -/
def LIss.raise (i : LIss) (s : State) (cls : Nat) (faddr : DWord) : State := s.trapLead i.core i.slot cls faddr

/-! ### The issue -/

/-- A save of the unit is pending and waits for safe points (R47); a warp that holds a lease does not stop (R49). -/
def State.stopping (s : State) (u : UnitId) : Bool := s.preempts.any fun p => p.unit == u && p.option == 1 && !p.full

/-- The unit of pre-emption of a warp. -/
def Warp.unit (w : Warp) (s : State) (core slot : Nat) : UnitId :=
  match w.crew with
  | none => .loose core slot
  | some k => .gang ((look s.crews k).elim 0 fun c => c.gang)

/-- No lease of the warp is held. -/
def Warp.unleased (w : Warp) : Bool := w.leases.all fun l => !(l.granted && l.ended.isNone)

/-- The elected forms of the lane stream: the guard and publish instructions, the copies, MXISSUE and MEASURE (R81). -/
def electedForm (eng op : Nat) : Bool :=
  (eng == 7 && [2, 3, 4, 7, 8].contains op) || eng == 10 || (eng == 9 && op == 4) || (eng == 12 && op == 3)

/-- The active lanes that may raise a fault: of an elected form the lowest only (R81). -/
def Iss.raisers (i : Iss) : Word :=
  if electedForm i.eng i.op && i.act != 0 then (1 : Word) <<< lowest i.act else i.act

/-- FCVT into one slot of its destination reads the rest of it (R202). -/
def readsDest (eng op : Nat) (f : Fields) : List Nat :=
  if eng = 3 ∧ op = 8 ∧ fcvtSlots (bits f.fn.toNat 7 3) ≠ 1 then [f.d.toNat] else []

/-- Lanes that read a register whose word holds an uncorrectable error (R188, R455); PREF raises no such fault (R236). -/
def Iss.badLanes (i : Iss) : Word :=
  let (a, b, c) := srcRegs .lane i.eng i.op i.f
  let regs := if i.eng = 5 ∧ i.op = 9 then [] else a ++ b ++ c ++ readsDest i.eng i.op i.f
  i.raisers &&& maskOf fun l => (i.w.lane l).bad.any fun r => regs.contains r

/-- Lanes raise DATA_CHECK for a register word that they read, and the error is counted (R188, R455). -/
def Iss.raiseBad (i : Iss) (s : State) (m : Word) : State :=
  i.raise (s.errUp (dieOf i.core) 24 24 (popCount m)) Cls.dataCheck m (fun _ => 0) fun _ => 0

/-- The lead instruction reads a register that holds an uncorrectable error (R455). -/
def LIss.badRead (i : LIss) : Bool :=
  let (a, b, c) := srcRegs .lead i.eng i.op i.f
  i.c.lead.bad.any fun r => (a ++ b ++ c).contains r

/-- The active lanes of a group (R63). -/
def activeOf (w : Warp) (grp : Word) (f : Fields) : Word :=
  let m := w.getM f.pm.toNat
  grp &&& (if f.pn then ~~~m else m)

/-- The lane-stream issue of R83: ILLEGAL, REGNUM, DIVERGE, EMPTY, then the instruction. -/
def issueLanes (eng op : Nat) (f : Fields) (s : State) (core slot : Nat) (grp : Word) (w : Warp)
    (div : State → Iss → Option Word) (k : State → Iss → State) : State :=
  let i : Iss := { core, slot, w, grp, act := activeOf w grp f, pc := (w.lane (lowest grp)).pc, eng, op, f }
  let held := (lanesOf i.act).any fun l => (w.lane l).hold
  if !(f.formOk && (illegal? .lane w.crew.isNone eng op f).isNone) then
    i.raiseAll s Cls.illegal ((encodeW0 eng op f).setWidth 64)
  else
    match regBad .lane eng op f w.regs with
    | some d => i.raiseAll s Cls.regnum (w64 d)
    | none =>
      if f.live.isSome && s.stopping (w.unit s core slot) && w.unleased then
        s.onWarp core slot fun w => w.onMask grp fun _ x => { x with wait := .stopped, lastSp := f.live, sp := f.live }
      else
        match div s i with
        | some m =>
          let i : Iss := if i.act = 0 then { i with act := i.grp } else i
          i.raise s Cls.diverge i.act (fun _ => 0) fun _ => m.setWidth 64
        | none =>
          match ready .lane eng op f w.empty held with
          | .empty d =>
            if i.act = 0 then i.done s else i.raise s Cls.empty i.raisers (fun _ => 0) fun _ => w64 d
          | .wait => i.block s
          | .go =>
            if i.badLanes = 0 then k s i else i.raiseBad s i.badLanes

/-- The lead-stream issue of R83. The DATA_CHECK of a k register, which has no handle and no offset, has FADDR 0 (DESIGN
CHOICE, log 67). -/
def issueLead (eng op : Nat) (f : Fields) (s : State) (core slot : Nat) (c : Crew) (k : State → LIss → State) : State :=
  let i : LIss := { core, slot, c, pc := c.lead.pc, eng, op, f }
  if !(f.formOk && (illegal? .lead false eng op f).isNone) then
    i.raise s Cls.illegal ((encodeW0 eng op f).setWidth 64)
  else
    match regBad .lead eng op f 0 with
    | some d => i.raise s Cls.regnum (w64 d)
    | none =>
      if f.live.isSome && s.stopping (.gang c.gang) then
        s.onLead core slot fun x => { x with wait := .stopped, lastSp := f.live, sp := f.live }
      else
        match ready .lead eng op f c.lead.empty c.lead.hold with
        | .empty d => i.raise s Cls.empty (w64 d)
        | .wait => i.retry s
        | .go =>
          if i.badRead then i.raise (s.errUp (dieOf core) 24 24 1) Cls.dataCheck 0 else k s i

/-- The issue of an instruction by the thread whose turn it is. -/
def issue (eng op : Nat) (f : Fields) (s : State) (div : State → Iss → Option Word) (k : State → Iss → State)
    (kl : State → LIss → State) : Outcome State Fault Refusal :=
  match s.cur with
  | .none => .fault .noThread
  | .lanes core slot grp =>
    match s.warp? core slot with
    | none => .fault .noThread
    | some w => .next (issueLanes eng op f s core slot grp w div k)
  | .lead core slot =>
    match s.crew? core slot with
    | none => .fault .noThread
    | some c => .next (issueLead eng op f s core slot c kl)

/-- No convergence is asked (R83 step 4). -/
def anyway (_ : State) (_ : Iss) : Option Word := none

/-- An instruction of the lane stream only. -/
def laneInstr (eng op : Nat) (f : Fields) (s : State) (k : State → Iss → State) : Outcome State Fault Refusal :=
  issue eng op f s anyway k fun s _ => s

/-- An instruction of the lead stream only. -/
def leadInstr (eng op : Nat) (f : Fields) (s : State) (k : State → LIss → State) : Outcome State Fault Refusal :=
  issue eng op f s anyway (fun s _ => s) k

/-- The warp is converged at the instruction (R169); otherwise the lanes that break it. -/
def converged (_ : State) (i : Iss) : Option Word :=
  let off := i.w.live &&& maskOf fun l =>
    !(decide ((i.w.lane l).pc = i.pc)) || (match (i.w.lane l).wait with | .park _ _ => true | _ => false) ||
      (i.w.handler != 0 && !bitOf i.w.handler l) || (!bitOf i.grp l && decide ((i.w.lane l).wait ≠ .none))
  if off = 0 then none else some off

/-- Bound tiles with live lanes, each as its mask; none when unbound or in a handler (R180). -/
def Iss.boundTiles (i : Iss) : List Word :=
  if i.w.chain.bound.isNone ∨ i.w.handler ≠ 0 then []
  else
    ((List.range (32 / i.w.tileSize)).map fun t => i.w.tileOf (t * i.w.tileSize) &&& i.w.live).filter fun m => m != 0

/-- The lanes of bound tiles whose live lanes differ in an outcome, or of which only some are active (R180). -/
def splitTiles (out : State → Iss → Nat → Nat) (s : State) (i : Iss) : Option Word :=
  let bad := i.boundTiles.filter fun m =>
    m &&& i.act != 0 && (m &&& i.act != m || (lanesOf m).any fun l => out s i l != out s i (lowest m))
  if bad = [] then none else some (bad.foldl (· ||| ·) 0)

/-- An instruction of the lane stream whose outcome may not split a bound tile (R180). -/
def tiledInstr (eng op : Nat) (f : Fields) (s : State) (out : State → Iss → Nat → Nat) (k : State → Iss → State) :
    Outcome State Fault Refusal :=
  issue eng op f s (splitTiles out) k fun s _ => s

/-- Every live lane of the warp has reached a per-warp form (R81); until then the group attempts it again. -/
def Iss.perWarp (i : Iss) (s : State) (k : State → State) : State :=
  if i.grp = i.w.live then k s else i.retry s

/-- The target of a branch (R62, R153, R167). -/
def targetOf (f : Fields) (pc : Word) : Word :=
  if f.form = .w160 then f.lit.setWidth 32 else pc + 4 * f.imm.signExtend 32

end Sys2Proof.Machine
end

