-- ==== Sys2Proof/Machine/Numbers.lean ====
section
/-! DEFINITION. Number formats and rounding: exact values, trunc, sat, round, the two block families and their
converters, conversion and floating-point events (R94 to R115). -/

namespace Sys2Proof.Machine

/-! ### Integers -/

/-- trunc(x, w) as a number below 2^w (R97). -/
def truncN (w : Nat) (x : Int) : Nat := (x % (2 ^ w : Nat)).toNat

/-- The signed value of the low `w` bits of a pattern (R96). -/
def signedOf (w n : Nat) : Int :=
  let m := n % 2 ^ w
  if 2 * m ≥ 2 ^ w then (m : Int) - (2 ^ w : Nat) else m

/-- The low `w` bits of a pattern, read as signed or unsigned. -/
def readInt (w : Nat) (signed : Bool) (n : Nat) : Int := if signed then signedOf w n else ((n % 2 ^ w : Nat) : Int)

/-- The smallest and the largest value of an integer type. -/
def minInt (w : Nat) (signed : Bool) : Int := if signed then -((2 ^ (w - 1) : Nat) : Int) else 0
def maxInt (w : Nat) (signed : Bool) : Int := if signed then ((2 ^ (w - 1) : Nat) : Int) - 1 else ((2 ^ w : Nat) : Int) - 1

/-- sat(x, type) (R97). -/
def satInt (w : Nat) (signed : Bool) (x : Int) : Int := max (minInt w signed) (min (maxInt w signed) x)

/-- Quotient under R99: 0 for a divisor 0, the largest value for the most negative value by −1. -/
def quotInt (w : Nat) (signed : Bool) (a b : Int) : Int :=
  if b = 0 then 0 else satInt w signed (a.tdiv b)

/-- Remainder under R99: the dividend for a divisor 0. -/
def remInt (a b : Int) : Int := if b = 0 then a else a.tmod b

/-! ### Exact values -/

/-- An exact value: a NaN, an infinity, or (−1)^neg · m · 2^e, where a zero keeps its sign (R100). -/
inductive Val where
  | nan
  | inf (neg : Bool)
  | fin (neg : Bool) (m : Nat) (e : Int)
  deriving DecidableEq, Repr

/-- Zero with a sign. -/
def Val.zero (neg : Bool) : Val := .fin neg 0 0

/-- An integer as an exact value. -/
def Val.ofInt (x : Int) : Val := .fin (decide (x < 0)) x.natAbs 0

/-- The sign of a value. -/
def Val.neg : Val → Bool
  | .nan => false
  | .inf n => n
  | .fin n _ _ => n

def Val.isNan : Val → Bool
  | .nan => true
  | _ => false

def Val.isInf : Val → Bool
  | .inf _ => true
  | _ => false

def Val.isZero : Val → Bool
  | .fin _ 0 _ => true
  | _ => false

/-- The value with the other sign. -/
def Val.flip : Val → Val
  | .nan => .nan
  | .inf n => .inf (!n)
  | .fin n m e => .fin (!n) m e

/-- The value scaled by a power of 2. -/
def Val.scale (x : Val) (k : Int) : Val :=
  match x with
  | .fin n m e => .fin n m (e + k)
  | y => y

/-- A magnitude as a signed integer at an exponent not above its own. -/
def intAt (neg : Bool) (m : Nat) (e base : Int) : Int :=
  let k : Int := (m * 2 ^ (e - base).toNat : Nat)
  if neg then -k else k

/-- The exact sum; an exact zero sum of opposite signs is +0, or −0 when rounding down (R105). -/
def Val.add (down : Bool) (x y : Val) : Val :=
  match x, y with
  | .nan, _ => .nan
  | _, .nan => .nan
  | .inf a, .inf b => if a = b then .inf a else .nan
  | .inf a, _ => .inf a
  | _, .inf b => .inf b
  | .fin a m e, .fin b n g =>
    if m = 0 ∧ n = 0 then .zero (if a = b then a else down)
    else if m = 0 then .fin b n g
    else if n = 0 then .fin a m e
    else
      let base := min e g
      let t := intAt a m e base + intAt b n g base
      if t = 0 then .zero down else .fin (decide (t < 0)) t.natAbs base

/-- The exact product. -/
def Val.mul (x y : Val) : Val :=
  match x, y with
  | .nan, _ => .nan
  | _, .nan => .nan
  | .inf a, .inf b => .inf (a != b)
  | .inf a, .fin b n _ => if n = 0 then .nan else .inf (a != b)
  | .fin a m _, .inf b => if m = 0 then .nan else .inf (a != b)
  | .fin a m e, .fin b n g => .fin (a != b) (m * n) (e + g)

/-- A quotient to well beyond every format: 192 further bits, the last one standing for the rest (R208). -/
def Val.div (x y : Val) : Val :=
  match x, y with
  | .nan, _ => .nan
  | _, .nan => .nan
  | .inf _, .inf _ => .nan
  | .inf a, .fin b _ _ => .inf (a != b)
  | .fin a _ _, .inf b => .zero (a != b)
  | .fin a m e, .fin b n g =>
    if n = 0 then (if m = 0 then .nan else .inf (a != b))
    else
      let q := m * 2 ^ 192 / n
      .fin (a != b) (2 * q + if m * 2 ^ 192 % n = 0 then 0 else 1) (e - g - 193)

/-- A square root to well beyond every format, the last bit standing for the rest (R208). -/
def Val.sqrt (x : Val) : Val :=
  match x with
  | .nan => .nan
  | .inf n => if n then .nan else .inf false
  | .fin n m e =>
    if m = 0 then .zero n
    else if n then .nan
    else
      let s := if e % 2 = 0 then m * 2 ^ 200 else 2 * m * 2 ^ 200
      let e' := if e % 2 = 0 then e else e - 1
      let r := Nat.sqrt s
      .fin false (2 * r + if r * r = s then 0 else 1) (e' / 2 - 101)

/-- The order of two values that are not NaN: −1, 0 or 1; zeros are equal. -/
def Val.cmp (x y : Val) : Int :=
  match x, y with
  | .inf a, .inf b => if a = b then 0 else if a then -1 else 1
  | .inf a, _ => if a then -1 else 1
  | _, .inf b => if b then 1 else -1
  | .fin a m e, .fin b n g =>
    let base := min e g
    if m = 0 ∧ n = 0 then 0
    else
      let p := if m = 0 then 0 else intAt a m e base
      let q := if n = 0 then 0 else intAt b n g base
      if p < q then -1 else if p = q then 0 else 1
  | _, _ => 0

/-! ### Float formats (Table 4.2) -/

/-- The parameters of a float format. -/
structure Flt where
  eb : Nat
  mb : Nat
  /-- The all-ones exponent holds infinity and NaN. -/
  ieee : Bool
  /-- Its canonical NaN (Table 4.3). -/
  nan : Option Nat
  deriving DecidableEq, Repr

/-- The float format of an FMT or float MOD code 0 to 7 (Tables 3.9, 4.1). -/
def fltOf (fmt : Nat) : Flt :=
  match fmt with
  | 0 => ⟨8, 23, true, some 0x7FC00000⟩
  | 1 => ⟨5, 10, true, some 0x7E00⟩
  | 2 => ⟨8, 7, true, some 0x7FC0⟩
  | 3 => ⟨4, 3, false, some 0x7F⟩
  | 4 => ⟨5, 2, true, some 0x7E⟩
  | 5 => ⟨3, 2, false, none⟩
  | 6 => ⟨2, 3, false, none⟩
  | _ => ⟨2, 1, false, none⟩

def Flt.bias (f : Flt) : Int := 2 ^ (f.eb - 1) - 1
def Flt.emin (f : Flt) : Int := 1 - f.bias
def Flt.width (f : Flt) : Nat := 1 + f.eb + f.mb

/-- Largest exponent field of a finite value. -/
def Flt.topField (f : Flt) : Nat := if f.ieee then 2 ^ f.eb - 2 else 2 ^ f.eb - 1

/-- The largest finite value as significand and exponent: 448 in e4m3 (R100). -/
def Flt.topSig (f : Flt) : Nat := if f.nan.isSome && !f.ieee then 2 ^ (f.mb + 1) - 2 else 2 ^ (f.mb + 1) - 1
def Flt.topExp (f : Flt) : Int := f.topField - f.bias - f.mb

/-- The pattern of the largest finite value. -/
def Flt.maxfin (f : Flt) (neg : Bool) : Nat :=
  (if neg then 2 ^ (f.eb + f.mb) else 0) + f.topField * 2 ^ f.mb + (f.topSig - 2 ^ f.mb)

/-- The pattern of an infinity. -/
def Flt.infPat (f : Flt) (neg : Bool) : Nat :=
  (if neg then 2 ^ (f.eb + f.mb) else 0) + (2 ^ f.eb - 1) * 2 ^ f.mb

/-- The pattern of a zero. -/
def Flt.zeroPat (f : Flt) (neg : Bool) : Nat := if neg then 2 ^ (f.eb + f.mb) else 0

/-- The exact value of a pattern (R100). -/
def Flt.decode (f : Flt) (p : Nat) : Val :=
  let neg := p / 2 ^ (f.eb + f.mb) % 2 = 1
  let e := p / 2 ^ f.mb % 2 ^ f.eb
  let m := p % 2 ^ f.mb
  if f.ieee ∧ e = 2 ^ f.eb - 1 then (if m = 0 then .inf neg else .nan)
  else if !f.ieee ∧ f.nan.isSome ∧ e = 2 ^ f.eb - 1 ∧ m = 2 ^ f.mb - 1 then .nan
  else if e = 0 then .fin neg m (f.emin - f.mb)
  else .fin neg (2 ^ f.mb + m) (e - f.bias - f.mb)

/-- Rounding modes (R102). -/
inductive Mode where
  | rne | rtz | rup | rdn
  deriving DecidableEq, Repr

/-- The mode of FN[2:0] (R78). -/
def modeOf (fn : Nat) : Mode :=
  match fn % 8 with
  | 0 => .rne
  | 1 => .rtz
  | 2 => .rup
  | _ => .rdn

/-- m / 2^sh to an integer in a mode, for a value of the given sign (R103). -/
def roundShift (mode : Mode) (neg : Bool) (m sh : Nat) : Nat :=
  let q := m / 2 ^ sh
  let r := m % 2 ^ sh
  match mode with
  | .rne => if 2 * r > 2 ^ sh ∨ (2 * r = 2 ^ sh ∧ q % 2 = 1) then q + 1 else q
  | .rtz => q
  | .rup => if !neg ∧ r ≠ 0 then q + 1 else q
  | .rdn => if neg ∧ r ≠ 0 then q + 1 else q

/-- m · 2^e to a multiple k of 2^eq in a mode. A value below a quarter of the spacing rounds as a quarter does. -/
def roundAt (mode : Mode) (neg : Bool) (m : Nat) (e eq : Int) : Nat :=
  if eq ≤ e then m * 2 ^ (e - eq).toNat
  else roundShift mode neg m (min (eq - e).toNat (Nat.log2 m + 3))

/-- The floating-point events (Table 4.7): 0 NaN, 1 infinity, 2 overflow, 3 underflow. -/
abbrev Events := List Nat

/-- The overflow result of Table 4.4, as a pattern. -/
def Flt.overflow (f : Flt) (mode : Mode) (neg : Bool) : Nat :=
  let toInf := match mode with
    | .rne => true
    | .rtz => false
    | .rup => !neg
    | .rdn => neg
  if f.ieee && toInf then f.infPat neg else f.maxfin neg

/-- round(x, fmt, mode) as a pattern, with the overflow and underflow events (R103, R104, R114). `onan` is the
overflow-to-NaN option; no event counts NaN or infinity here. -/
def Flt.round (f : Flt) (mode : Mode) (onan : Bool) (x : Val) : Nat × Events :=
  match x with
  | .nan => (f.nan.getD 0, [])
  | .inf n =>
    if f.ieee then (f.infPat n, []) else if onan then (f.nan.getD 0, []) else (f.maxfin n, [])
  | .fin n m e =>
    if m = 0 then (f.zeroPat n, [])
    else
      let top := (Nat.log2 m : Int) + e
      let eq := max top f.emin - f.mb
      let k := roundAt mode n m e eq
      let ovf := decide (eq > f.topExp ∨ (eq = f.topExp ∧ k > f.topSig))
      let sign := if n then 2 ^ (f.eb + f.mb) else 0
      let k' := roundAt mode n m e (top - f.mb)
      let tiny := decide ((Nat.log2 k' : Int) + (top - f.mb) < f.emin)
      let exact := decide (eq ≤ e) || decide (m % 2 ^ (eq - e).toNat.min (Nat.log2 m + 1) = 0 ∧ (eq - e).toNat ≤ Nat.log2 m)
      let unf : Events := if tiny ∧ !exact then [3] else []
      if ovf then (if onan then f.nan.getD 0 else f.overflow mode n, [2])
      else if k < 2 ^ f.mb then (sign + k, unf)
      else
        let kn := if k = 2 ^ (f.mb + 1) then 2 ^ f.mb else k
        let en := if k = 2 ^ (f.mb + 1) then eq + 1 else eq
        (sign + (en + f.mb + f.bias).toNat * 2 ^ f.mb + (kn - 2 ^ f.mb), unf)

/-- A delivered float result and its events: NaN and infinity as delivered, overflow and underflow as rounded (R114). -/
def Flt.deliver (f : Flt) (mode : Mode) (operandInf : Bool) (x : Val) : Nat × Events :=
  let (p, ev) := f.round mode false x
  let d := f.decode p
  (p, ev ++ (if d.isNan then [0] else []) ++ (if d.isInf && !operandInf then [1] else []))

/-- Format group of a float format (R211): f32, f16, bf16, narrow. -/
def groupOf (fmt : Nat) : Nat := if fmt ≤ 2 then fmt else 3

/-- Events of a format group as counter numbers (R211). -/
def counters (group : Nat) (ev : Events) : List Nat := ev.map fun e => 4 * group + e

/-! ### Conversion of one element (R112, Table 4.6) -/

/-- The integer type of an FMT code 0x08 to 0x0F: width and sign. -/
def intFmt (fmt : Nat) : Nat × Bool :=
  match fmt with
  | 0x08 => (8, true) | 0x09 => (8, false) | 0x0A => (4, true) | 0x0B => (4, false)
  | 0x0C => (16, true) | 0x0D => (16, false) | 0x0E => (32, true) | _ => (32, false)

/-- The exact value of an element pattern of an FMT that is no block format. -/
def decodeElem (fmt p : Nat) : Val :=
  if fmt < 8 then (fltOf fmt).decode p
  else let (w, sg) := intFmt fmt; Val.ofInt (readInt w sg p)

/-- A value rounded to an integer in a mode. -/
def Val.toInt (mode : Mode) (neg : Bool) (m : Nat) (e : Int) : Int :=
  let k : Int := (if m = 0 then 0 else roundAt mode neg m e 0 : Nat)
  if neg then -k else k

/-- Encoding into an integer type, with its events (Tables 4.6, 4.7). -/
def encodeInt (w : Nat) (signed : Bool) (mode : Mode) (x : Val) : Nat × Events :=
  match x with
  | .nan => (0, [0])
  | .inf n => (truncN w (if n then minInt w signed else maxInt w signed), [2])
  | .fin n m e =>
    let k := Val.toInt mode n m e
    (truncN w (satInt w signed k), if k = satInt w signed k then [] else [2])

/-- Encoding into a float format, with its events (Tables 4.6, 4.7). -/
def encodeFlt (f : Flt) (mode : Mode) (onan : Bool) (x : Val) : Nat × Events :=
  let (p, ev) := f.round mode onan x
  let d := f.decode p
  let nan := d.isNan || x.isNan
  let inf := d.isInf && !x.isInf
  let ovf := x.isInf && !f.ieee && !onan
  (p, ev ++ (if nan then [0] else []) ++ (if inf then [1] else []) ++ if ovf then [2] else [])

/-- One element into a format that is no block format; an event counts against the destination, or the source's format
when the destination is an integer (R115; an integer source then counts nothing, log 13). -/
def convert (src dst : Nat) (mode : Mode) (onan : Bool) (x : Val) : Nat × List Nat :=
  if dst < 8 then
    let (p, ev) := encodeFlt (fltOf dst) mode onan x
    (p, counters (groupOf dst) ev)
  else
    let (w, sg) := intFmt dst
    let (p, ev) := encodeInt w sg mode x
    (p, if src < 8 then counters (groupOf src) ev else if src < 0x13 ∧ src ≥ 0x10 then counters 4 ev
        else if src ≥ 0x13 then counters 5 ev else [])

/-! ### Block formats -/

/-- Magnitude width of a TXB format (R106). -/
def txbBits (fmt : Nat) : Nat := if fmt = 0x10 then 6 else if fmt = 0x11 then 4 else 2

/-- The element format of an MX format; 8 (s8) for mxi8 (Table 4.1). -/
def mxElem (fmt : Nat) : Nat :=
  match fmt with
  | 0x13 => 3 | 0x14 => 4 | 0x15 => 5 | 0x16 => 6 | 0x17 => 7 | _ => 8

/-- The exact value of a TXB element (R107). -/
def txbValue (fmt p e0 e1 : Nat) : Val :=
  let mb := txbBits fmt
  if e0 = 255 ∨ e1 = 255 then .nan
  else
    let mag := p % 2 ^ mb
    let sel := p / 2 ^ (mb + 1) % 2
    if mag = 0 then .zero false else .fin (decide (p / 2 ^ mb % 2 = 1)) mag ((if sel = 1 then e1 else e0 : Nat) - 127)

/-- The exact value of an MX element (R110). -/
def mxValue (fmt p scale : Nat) : Val :=
  if scale = 255 then .nan
  else if fmt = 0x18 then (Val.ofInt (signedOf 8 p)).scale (-6 + ((scale : Int) - 127))
  else ((fltOf (mxElem fmt)).decode p).scale ((scale : Int) - 127)

/-- The exponent of the leading bit of a nonzero magnitude. -/
def topOf (m : Nat) (e : Int) : Int := (Nat.log2 m : Int) + e

/-- |x| / 2^s to the nearest integer, ties to even. -/
def rneAt (x : Val) (s : Int) : Nat :=
  match x with
  | .fin _ m e => if m = 0 then 0 else roundAt .rne false m e s
  | _ => 0

/-- The largest magnitude of a block, as (m, e); m = 0 when all are zero. -/
def maxMag : List Val → Nat × Int
  | [] => (0, 0)
  | x :: r =>
    let (m, e) := maxMag r
    match x with
    | .fin _ n g => if Val.cmp (.fin false n g) (.fin false m e) = 1 then (n, g) else (m, e)
    | _ => (m, e)

/-- A block of exact values as element patterns, exponent or scale bytes, and events. -/
structure Block where
  elems : List Nat
  exps : List Nat
  events : Events

/-- The first exponent of R108: raised once when the largest magnitude rounds up to 2^mb. -/
def txbBase (mb m : Nat) (e : Int) : Nat :=
  let e0 := topOf m e - (mb - 1)
  let b (k : Int) : Nat := (max (k + 127) 0).toNat
  if roundAt .rne false m e ((b e0 : Int) - 127) = 2 ^ mb then b (e0 + 1) else b e0

/-- The TXB converter (R108). -/
def txbEncode (fmt : Nat) (xs : List Val) : Block :=
  let mb := txbBits fmt
  if xs.any fun x => x.isNan || x.isInf then { elems := xs.map fun _ => 0, exps := [255, 255], events := [0] }
  else
    let (m, e) := maxMag xs
    if m = 0 then { elems := xs.map fun _ => 0, exps := [0, 0], events := [] }
    else
      let b0 := txbBase mb m e
      let b1 := b0 - 6
      let one (x : Val) : Nat × Events :=
        let k0 := rneAt x ((b0 : Int) - 127)
        let k1 := rneAt x ((b1 : Int) - 127)
        let mag := if k0 ≠ 0 then k0 else min k1 (2 ^ mb - 1)
        let sat := decide (k0 = 0 ∧ k1 > 2 ^ mb - 1)
        if mag = 0 then (0, if x.isZero then [] else [3])
        else (mag + (if x.neg then 2 ^ mb else 0) + (if k0 = 0 then 2 ^ (mb + 1) else 0), if sat then [2] else [])
      { elems := xs.map fun x => (one x).1, exps := [b0, b1], events := xs.flatMap fun x => (one x).2 }

/-- emax of R111. -/
def mxEmax (fmt : Nat) : Int :=
  match fmt with
  | 0x13 => 8 | 0x14 => 15 | 0x15 => 4 | 0x16 => 2 | 0x17 => 2 | _ => 0

/-- One element of an MX block at scale 2^s, with its events (R111, R114). -/
def mxElement (fmt : Nat) (s : Int) (x : Val) : Nat × Events :=
  let (p, ovf) :=
    if fmt = 0x18 then
      let k := rneAt x (s - 6)
      (truncN 8 (if x.neg then -((min k 127 : Nat) : Int) else ((min k 127 : Nat) : Int)), decide (k > 127))
    else
      let f := fltOf (mxElem fmt)
      let (p, ev) := f.round .rne false (x.scale (-s))
      (if ev.contains 2 then f.maxfin x.neg else p, ev.contains 2)
  let zero := if fmt = 0x18 then decide (p = 0) else ((fltOf (mxElem fmt)).decode p).isZero
  (p, (if ovf then [2] else []) ++ if zero && !x.isZero then [3] else [])

/-- The MX converter (R111). -/
def mxEncode (fmt : Nat) (xs : List Val) : Block :=
  if xs.any fun x => x.isNan || x.isInf then { elems := xs.map fun _ => 0, exps := [255], events := [0] }
  else
    let (m, e) := maxMag xs
    if m = 0 then { elems := xs.map fun _ => 0, exps := [0], events := [] }
    else
      let s := min (max (topOf m e - mxEmax fmt) (-127)) 127
      { elems := xs.map fun x => (mxElement fmt s x).1, exps := [(s + 127).toNat],
        events := xs.flatMap fun x => (mxElement fmt s x).2 }

/-- A block format of Table 4.1. -/
def isBlock (fmt : Nat) : Bool := decide (0x10 ≤ fmt ∧ fmt ≤ 0x18)

/-- A block of values into a block format, with events as counter numbers (R115). -/
def encodeBlock (fmt : Nat) (xs : List Val) : List Nat × List Nat × List Nat :=
  let b := if fmt ≤ 0x12 then txbEncode fmt xs else mxEncode fmt xs
  (b.elems, b.exps, counters (if fmt ≤ 0x12 then 4 else 5) b.events)

/-- The exact values of a block. -/
def decodeBlock (fmt : Nat) (elems exps : List Nat) : List Val :=
  elems.map fun p =>
    if fmt ≤ 0x12 then txbValue fmt p (exps.getD 0 0) (exps.getD 1 0) else mxValue fmt p (exps.getD 0 0)

/-! ### Counting events (R115, R211, R213) -/

/-- One counter of a task goes up, with its threshold record. A threshold written at or below a counter that has already
passed it is met at the counter's next event (DESIGN CHOICE, log 76). -/
def State.countOne (s : State) (task : Nat) (pc : Word) (n k : Nat) : State :=
  match s.task? task with
  | none => s
  | some t =>
    let v := satAdd (2 ^ 48 - 1) (count t.fp n) k
    let thr := (s.ctx? t.ctx).elim 0 fun x => count x.fpThr n
    let hit := decide (thr ≠ 0 ∧ v ≥ thr) && !t.fpRecorded.contains n
    let s := s.onTask task fun t =>
      { t with fp := put t.fp n v, fpRecorded := if hit then n :: t.fpRecorded else t.fpRecorded }
    if hit then s.postVd (s.vdOf t.ctx) { time := some s.time.toNat, source := t.number, kind := 5, fclass := n, fpc := pc.toNat, detail := v }
    else s

/-- Events counted for a task by an instruction at a PC. -/
def State.countFp (s : State) (task : Nat) (pc : Word) (ns : List Nat) : State :=
  ns.dedup.foldl (fun s n => s.countOne task pc n (ns.count n)) s

end Sys2Proof.Machine
end

