-- ==== Sys2Proof/Machine/Operands.lean ====
section
/-! DEFINITION. Operand forms: integer types of MOD, register and immediate operands of both streams, scalar and paired
floats, and how results are written (R61, R77, R146, R189, R199). -/

namespace Sys2Proof.Machine

/-! ### Types of MOD (Table 3.9) -/

/-- Width in bits of an integer MOD type. -/
def tyWidth (mo : Nat) : Nat := if mo ≤ 1 then 32 else if mo ≤ 3 then 16 else if mo ≤ 5 then 8 else 64

/-- An integer MOD type is signed. -/
def tySigned (mo : Nat) : Bool := mo % 2 = 0

/-- The operand of an integer type in the low bits of a pattern. -/
def tyRead (mo : Nat) (p : DWord) : Int := readInt (tyWidth mo) (tySigned mo) p.toNat

/-- A pattern of width w, extended by the type to a whole register or pair (R189). -/
def tyExtend (mo : Nat) (p : Nat) : DWord :=
  if tyWidth mo = 64 then w64 p
  else if tySigned mo then w64 (truncN 32 (signedOf (tyWidth mo) p)) else w64 (p % 2 ^ tyWidth mo)

/-- trunc of an exact result, as written (R189, R97). -/
def tyTrunc (mo : Nat) (x : Int) : DWord := tyExtend mo (truncN (tyWidth mo) x)

/-- sat of an exact result, as written (R189, R97). -/
def tySat (mo : Nat) (x : Int) : DWord := tyTrunc mo (satInt (tyWidth mo) (tySigned mo) x)

/-! ### Lane operands -/

/-- A register or pair of a lane. -/
def Warp.getW (w : Warp) (wide : Bool) (l r : Nat) : DWord :=
  if wide then w.getV2 l r else (w.getV l r).setWidth 64

/-- A register or pair of a lane written. -/
def Lane.setW (x : Lane) (wide : Bool) (r : Nat) (v : DWord) : Lane :=
  if wide then x.setV2 r v else x.setV r (lo32 v)

/-- MOD as a number. -/
def Iss.mo (i : Iss) : Nat := i.f.mod.toNat

/-- FN as a number. -/
def Iss.fn (i : Iss) : Nat := i.f.fn.toNat

/-- The MOD type takes pairs (R189). -/
def Iss.wide (i : Iss) : Bool := i.mo == 6 || i.mo == 7

/-- Operand A of a lane. -/
def Iss.a (i : Iss) (wide : Bool) (l : Nat) : DWord := i.w.getW wide l i.f.a.toNat

/-- Operand B of a lane: a register, a pair or the immediate (R60, R61). -/
def Iss.b (i : Iss) (wide : Bool) (l : Nat) : DWord :=
  if i.f.immB then i.f.immValue else i.w.getW wide l i.f.b.toNat

/-- Operand C of a lane. -/
def Iss.c (i : Iss) (wide : Bool) (l : Nat) : DWord := i.w.getW wide l i.f.c.toNat

/-- The low 32 bits of operand B. -/
def Iss.b32 (i : Iss) (l : Nat) : Word := lo32 (i.b false l)

/-- Operand B of a float instruction: a register or a float immediate (R61, R199). -/
def Iss.bFloat (i : Iss) (l : Nat) : Word := if i.f.immB then i.f.immFloat else i.w.getV l i.f.b.toNat

/-- The instruction writes its destination in each active lane. -/
def Iss.write (i : Iss) (s : State) (wide : Bool) (v : Nat → DWord) : State :=
  i.commit s fun l x => x.setW wide i.f.d.toNat (v l)

/-- The instruction writes a mask register: the active lanes' bits by a test, the other bits kept (R192). -/
def Iss.writeMask (i : Iss) (s : State) (p : Nat → Bool) : State :=
  i.commitWarp s fun w =>
    let d := i.f.d.toNat
    w.setM d ((w.m.getD d 0 &&& ~~~i.act) ||| (i.act &&& maskOf p))

/-- The instruction is a producer of one value in each active lane (R68). -/
def Iss.produceWide (i : Iss) (s : State) (wide : Bool) (v : Nat → DWord) : State :=
  let d := i.f.d.toNat
  i.produce s ((lanesOf i.act).flatMap fun l =>
    if wide then [(l, d, (lo32 (v l)).setWidth 64), (l, d + 1, (hi32 (v l)).setWidth 64)] else [(l, d, v l)]) []

/-- Active lanes of the partition tile of a lane (R194). -/
def Iss.tileActs (i : Iss) (l : Nat) : List Nat := lanesOf (i.act &&& i.w.tileOf l)

/-! ### Float operands (R199) -/

/-- A scalar float operand: the whole register for f32, bits [15:0] otherwise. -/
def scalarFlt (mo : Nat) (x : Word) : Val := (fltOf mo).decode (if mo = 0 then x.toNat else x.toNat % 2 ^ 16)

/-- Element `e` of a packed pair. -/
def pairElem (x : Word) (e : Nat) : Nat := x.toNat / 2 ^ (16 * e) % 2 ^ 16

/-! ### Lead operands (R146) -/

def LIss.mo (i : LIss) : Nat := i.f.mod.toNat
def LIss.fn (i : LIss) : Nat := i.f.fn.toNat
def LIss.a (i : LIss) : DWord := i.c.lead.getK i.f.a.toNat
/-- Operand B: a register or the immediate (R60, R61). -/
def LIss.b (i : LIss) : DWord := if i.f.immB then i.f.immValue else i.c.lead.getK i.f.b.toNat
def LIss.kc (i : LIss) : DWord := i.c.lead.getK i.f.c.toNat

/-- The instruction writes its destination. -/
def LIss.write (i : LIss) (s : State) (v : DWord) : State := i.commit s fun x => x.setK i.f.d.toNat v

/-- A lead operand as s64 or n64. -/
def leadRead (unsigned : Bool) (x : DWord) : Int := if unsigned then (x.toNat : Int) else x.toInt

end Sys2Proof.Machine
end

