-- ==== Sys2Proof/Machine/Flags.lean ====
section
/-! DEFINITION. Conditions: the comparisons of both streams, branch conditions, float conditions and classes, and the
carry and overflow of chain operations. -/

namespace Sys2Proof.Machine

/-- The conditions of SCMP (Table 6.4). -/
def scmpHolds (mo : Nat) (a b : DWord) : Bool :=
  match mo with
  | 0 => a == b
  | 1 => a != b
  | 2 => decide (a.toInt < b.toInt)
  | 3 => decide (a.toInt ≥ b.toInt)
  | 4 => decide (a.toNat < b.toNat)
  | 5 => decide (a.toNat ≥ b.toNat)
  | 6 => decide (a.toInt ≤ b.toInt)
  | 7 => decide (a.toInt > b.toInt)
  | 8 => decide (a.toNat ≤ b.toNat)
  | _ => decide (a.toNat > b.toNat)

/-- The conditions of SBC and LBRC on a signed value (R153, R168). -/
def signHolds (mo : Nat) (x : Int) : Bool :=
  match mo with
  | 0 => decide (x ≠ 0)
  | 1 => decide (x = 0)
  | 2 => decide (x < 0)
  | _ => decide (x ≥ 0)

/-- The conditions of ICMP and LCMP (R192). -/
def icmpHolds (cond : Nat) (a b : Int) : Bool :=
  match cond with
  | 0 => decide (a = b)
  | 1 => decide (a ≠ b)
  | 2 => decide (a < b)
  | 3 => decide (a ≤ b)
  | 4 => decide (a > b)
  | _ => decide (a ≥ b)

/-- The conditions of FCMP; a NaN operand makes only .ne and .uno true (R202). -/
def fcmpHolds (cond : Nat) (a b : Val) : Bool :=
  if a.isNan || b.isNan then decide (cond = 1 ∨ cond = 7)
  else
    match cond with
    | 0 => decide (Val.cmp a b = 0)
    | 1 => decide (Val.cmp a b ≠ 0)
    | 2 => decide (Val.cmp a b = -1)
    | 3 => decide (Val.cmp a b ≠ 1)
    | 4 => decide (Val.cmp a b = 1)
    | 5 => decide (Val.cmp a b ≠ -1)
    | 6 => true
    | _ => false

/-- The class bit of a float value (R203). -/
def classOf (f : Flt) (x : Val) : Nat :=
  match x with
  | .nan => 8
  | .inf n => if n then 0 else 7
  | .fin n m e =>
    if m = 0 then (if n then 3 else 4)
    else if topOf m e < f.emin then (if n then 2 else 5)
    else if n then 1 else 6

/-- Carry out of a width: the exact unsigned result does not fit (R301). -/
def carryOf (w : Nat) (x : Int) : Bool := decide (x < 0 ∨ x ≥ ((2 ^ w : Nat) : Int))

/-- Signed overflow of a width: the exact signed result does not fit (R301). -/
def overflowOf (w : Nat) (x : Int) : Bool := decide (x < minInt w true ∨ x > maxInt w true)

end Sys2Proof.Machine
end

