-- ==== Sys2Proof/Machine/Finish.lean ====
section
/-! DEFINITION. Waits that others end and completion points: join masks (R172), barriers (R173), the decision queue
(R34), and the completion of warps, crews and gangs (R32, R175, R221, R267). -/

namespace Sys2Proof.Machine

/-! ### Join masks (R171, R172) -/

/-- The lane waits at a WAITJ on mask `j`. -/
def Lane.atJoin (x : Lane) (j : Nat) : Bool := match x.wait with | .join k => k == j | _ => false

/-- Some lane waits on the mask, and every member waits on it. -/
def Warp.joinDue (w : Warp) (j : Nat) : Bool :=
  w.lanes.any (·.atJoin j) && (lanesOf (w.j.getD j 0)).all fun l => (w.lane l).atJoin j

/-- The waiters of one mask are released when they are due. -/
def Warp.checkJoin (w : Warp) (j : Nat) : Warp :=
  if w.joinDue j then
    { w.onLanes fun _ x => if x.atJoin j then x.pass else x with jtimer := drop w.jtimer j }
  else w

/-- The release condition of every mask (R171). -/
def Warp.checkJoins (w : Warp) : Warp := (List.range 12).foldl Warp.checkJoin w

/-! ### Barriers (R173) -/

/-- Keys of the warps of a crew that have not completed. -/
def State.crewWarps (s : State) (k : Nat) : List Nat :=
  (s.warps.filter fun e => e.2.crew == some k).map (·.1)

/-- Live lanes of a crew. -/
def State.crewLive (s : State) (k : Nat) : Nat :=
  (s.crewWarps k).foldl (fun n i => n + ((look s.warps i).elim 0 fun w => popCount w.live)) 0

/-- Lanes that have arrived. -/
def Barrier.total (b : Barrier) : Nat := b.arrived.foldl (fun n e => n + popCount e.2) 0

/-- The instance is complete, given the live count. -/
def Barrier.full (b : Barrier) (live : Nat) : Bool :=
  if b.counted then decide (b.total ≥ b.count) else decide (b.total = live)

/-- Every arrived lane that waits so goes on. -/
def State.passArrived (s : State) (b : Barrier) (wait : Wait) : State :=
  b.arrived.foldl (fun s e => s.onWarpKey e.1 fun w =>
    w.onMask e.2 fun _ x => if x.wait = wait then x.pass else x) s

/-- The crew barriers that are complete are released and closed. -/
def State.checkBars (s : State) (k : Nat) : State :=
  match look s.crews k with
  | none => s
  | some c =>
    let live := s.crewLive k
    let due := c.bars.filter fun e => e.2.full live
    let s := due.foldl (fun s e => s.passArrived e.2 (.bar e.1)) s
    s.onCrewKey k fun c => { c with bars := keep c.bars fun _ b => !b.full live }

/-- The gang barriers that are complete are released and closed. -/
def State.checkGbars (s : State) (g : Nat) : State :=
  match look s.gangs g with
  | none => s
  | some x =>
    let live := x.crews.foldl (fun n k => n + s.crewLive k) 0
    let due := x.gbars.filter fun e => e.2.full live
    let s := due.foldl (fun s e => s.passArrived e.2 (.gbar e.1)) s
    s.onGang g fun x => { x with gbars := keep x.gbars fun _ b => !b.full live }

/-! ### The decision queue (R34) -/

/-- Entries that every warp of the crew has consumed or completed are freed. -/
def State.trimDq (s : State) (k : Nat) : State :=
  let reads := (s.crewWarps k).filterMap fun i => (look s.warps i).map (·.dqRead)
  s.onCrewKey k fun c =>
    let base := (minOf reads).getD (c.dqBase + c.dq.length)
    { c with dq := c.dq.drop (base - c.dqBase), dqBase := max base c.dqBase }

/-! ### Pre-emption ends -/

/-- The cluster of a unit. -/
def State.unitCluster (s : State) (u : UnitId) : Nat :=
  match u with
  | .gang g => (look s.gangs g).elim 0 (·.cluster)
  | .loose core _ => clusterOf core

/-- Task of a unit. -/
def State.unitTask (s : State) (u : UnitId) : Nat :=
  match u with
  | .gang g => (look s.gangs g).elim 0 (·.task)
  | .loose core slot => (s.warp? core slot).elim 0 (·.task)

/-- Context of a unit. -/
def State.unitCtx (s : State) (u : UnitId) : Nat :=
  match u with
  | .gang g => (look s.gangs g).elim 0 (·.ctx)
  | .loose core slot => (s.warp? core slot).elim 0 (·.ctx)

/-- The pre-emption of a unit ends; a missed deadline is recorded (R375). -/
def State.endPreempt (s : State) (u : UnitId) : State :=
  let s1 := { s with preempts := s.preempts.filter fun p => p.unit != u }
  match s.preempts.find? fun p => p.unit == u with
  | none => s1
  | some p =>
    if p.missed then
      let cl := s.unitCluster u
      s1.postVd (s.vdOf (s.unitCtx u)) {
        source := s.taskNo (s.unitTask u), kind := 7, status := 3, fpc := cl + p.option * 256,
        detail := s.cycleOf (cl * 16) - p.start }
    else s1

/-! ### Completion points -/

/-- A gang has completed: its crews and tiles are gone, and its task counts it (R32, R221). -/
def State.checkGang (s : State) (g : Nat) : State :=
  match look s.gangs g with
  | none => s
  | some x =>
    if x.crews.all fun k => (look s.crews k).all fun (c : Crew) => c.done then
      let s := s.endPreempt (.gang g)
      let s := s.onTask x.task fun t => { t with gangsDone := t.gangsDone + 1 }
      { s with gangs := drop s.gangs g, crews := keep s.crews fun k _ => !(x.crews.contains k) }
    else s

/-- The grains of a crew become unclaimed, one more move (R267). -/
def State.disown (s : State) (k ctx : Nat) : State :=
  { s with owners := mapS s.owners fun _ e =>
      if Owner.claimed e && !Owner.parked e && !Owner.loose e && Owner.core e == k / 4 && Owner.slot e == k % 4 &&
          Owner.ctx e == ctx then
        Owner.make false false false (k / 4) (k % 4) (ctx / 64) (ctx % 64) (Owner.moves e + 1)
      else e }

/-- The crew has reached its completion point (R32). -/
def Crew.complete (c : Crew) : Bool :=
  !c.done && c.lead.ended && c.doneWarps.length == c.warps.length && c.mx == [] &&
    c.copies == []

/-- A crew that has reached its completion point gives up its grains and its tiles but those of the gang, and its gang
may have completed with it. Its slot is held until then (log 14). -/
def State.checkCrew (s : State) (k : Nat) : State :=
  match look s.crews k with
  | none => s
  | some c =>
    if c.complete then
      let s := s.disown k c.ctx
      let s := s.onCrewKey k fun c =>
        { c with done := true, tiles := keep c.tiles fun _ t => t.level == 2, frames := [], weights := [] }
      s.checkGang c.gang
    else s

/-- Grains claimed by continuation warps of a context on a core revert to unclaimed with the last of them (R267). -/
def State.disownLoose (s : State) (core ctx : Nat) : State :=
  if s.warps.any fun e => e.2.crew.isNone && e.2.ctx == ctx && e.1 / 16 == core then s
  else
    { s with owners := mapS s.owners fun _ e =>
        if Owner.claimed e && Owner.loose e && Owner.core e == core && Owner.ctx e == ctx then
          e &&& ~~~(w64 (2 ^ 63)) else e }

/-- A warp whose last lane has exited leaves its slot; its crew's queue entries are freed, and its crew may have
completed (R175, R34). -/
def State.checkWarp (s : State) (core slot : Nat) : State :=
  match s.warp? core slot with
  | none => s
  | some w =>
    if w.live ≠ 0 then s
    else
      let s := if w.crew.isNone then s.endPreempt (.loose core slot) else s
      let s := ({ s with warps := drop s.warps (warpKey core slot) } : State).tidyLeases
      match w.crew with
      | none =>
        (s.onTask w.task fun t => { t with conts := t.conts - 1 }).disownLoose core w.ctx
      | some k =>
        ((s.onCrewKey k fun c => { c with doneWarps := c.doneWarps ++ [w.rank] }).trimDq k).checkCrew k

/-- Resident cycles of a gang, over all its runs (R373). -/
def State.residentGang (s : State) (g : Nat) : Nat :=
  (look s.gangs g).elim 0 fun x => x.elapsed + (s.cycleOf (x.cluster * 16) - x.since)

/-- Resident cycles of the unit of a warp (R377). -/
def State.resident (s : State) (core : Nat) (w : Warp) : Nat :=
  match w.crew with
  | some k => (look s.crews k).elim 0 fun c => s.residentGang c.gang
  | none => w.elapsed + (s.cycleOf core - w.since)

end Sys2Proof.Machine
end

