-- ==== Sys2Proof/Machine/Reach.lean ====
section
/-! DEFINITION. The path from an instruction to memory, shared by the access, atomic, home and dispatch instructions of
both streams: the checks over the active lanes and their outcomes (R226 to R228, R150 to R152, R159, R160), loads and
stores by region kind (R119 to R131), fences and completion points (R132, R280, R281). -/

namespace Sys2Proof.Machine

/-! ### Threads at an instruction -/

/-- Who executes an instruction that reaches memory. -/
inductive Caller where
  /-- The lanes of a group; those of the mask access memory: the active lanes, or the elected one (R81). -/
  | warp (i : Iss) (ask : Word)
  | lead (i : LIss)

/-- The lanes that access memory; 0 stands for the lead thread. -/
def Caller.lanes (c : Caller) : List Nat := match c with | .warp _ m => lanesOf m | .lead _ => [0]
/-- The lanes for which the instruction acts: the elected lane acts for every active lane. -/
def Caller.actors (c : Caller) : List Nat := match c with | .warp i _ => lanesOf i.act | .lead _ => [0]
/-- The lanes that access memory, as a mask. -/
def Caller.mask (c : Caller) : Word := match c with | .warp _ m => m | .lead _ => 1
def Caller.core (c : Caller) : Nat := match c with | .warp i _ => i.core | .lead i => i.core
def Caller.slot (c : Caller) : Nat := match c with | .warp i _ => i.slot | .lead i => i.slot
def Caller.ctx (c : Caller) : Nat := match c with | .warp i _ => i.w.ctx | .lead i => i.c.ctx
def Caller.task (c : Caller) : Nat := match c with | .warp i _ => i.w.task | .lead i => i.c.task
def Caller.pc (c : Caller) : Word := match c with | .warp i _ => i.pc | .lead i => i.pc
def Caller.eng (c : Caller) : Nat := match c with | .warp i _ => i.eng | .lead i => i.eng
def Caller.op (c : Caller) : Nat := match c with | .warp i _ => i.op | .lead i => i.op
def Caller.f (c : Caller) : Fields := match c with | .warp i _ => i.f | .lead i => i.f
def Caller.mo (c : Caller) : Nat := c.f.mod.toNat
def Caller.fn (c : Caller) : Nat := c.f.fn.toNat

/-- The thread of the caller. -/
def Caller.thread (c : Caller) : Thread :=
  match c with | .warp i _ => .warp i.core i.slot | .lead i => .lead i.core i.slot

/-- Key of the crew of the caller; none for a continuation warp. -/
def Caller.crew (c : Caller) : Option Nat :=
  match c with | .warp i _ => i.w.crew | .lead i => some (crewKey i.core i.slot)

/-- The agent that a lane is. -/
def Caller.agent (c : Caller) (l : Nat) : Agent :=
  match c with | .warp i _ => .lane i.core i.slot l | .lead i => .lead i.core i.slot

/-- The agent as an accessor. -/
def Caller.who (c : Caller) (s : State) (l : Nat) : Who :=
  match c with | .warp i _ => s.laneWho i.core i.slot i.w l | .lead i => s.leadWho i.core i.slot i.c

/-- A register of the caller's namespace: 32 bits of a lane, 64 of the lead. -/
def Caller.reg (c : Caller) (l r : Nat) : Nat :=
  match c with | .warp i _ => (i.w.getV l r).toNat | .lead i => (i.c.lead.getK r).toNat

/-- The handle index of operand A. -/
def Caller.handle (c : Caller) (l : Nat) : Nat := c.reg l c.f.a.toNat

/-- The offset register read as n32, or the low half of LIT (R61, R262). -/
def Caller.off32 (c : Caller) (l : Nat) : Nat :=
  (if c.f.immB then c.f.lit.toNat else c.reg l c.f.b.toNat) % 2 ^ 32

/-- The instruction ends with nothing written. -/
def Caller.done (c : Caller) (s : State) : State := match c with | .warp i _ => i.done s | .lead i => i.done s
/-- The instruction is attempted again later. -/
def Caller.retry (c : Caller) (s : State) : State := match c with | .warp i _ => i.retry s | .lead i => i.retry s

/-- The whole group, or the lead thread, waits before the instruction takes place. -/
def Caller.hold (c : Caller) (s : State) (wait : Wait) : State :=
  match c with
  | .warp i _ => s.onWarp i.core i.slot fun w => w.onMask i.grp fun _ x => { x with wait, age := 0, sp := i.f.live }
  | .lead i => s.onLead i.core i.slot fun x => { x with wait, sp := i.f.live }

/-- The status of an elected form goes to the elected lane, or to the lead register (R81). -/
def Caller.status (c : Caller) (s : State) (v : Nat) : State :=
  match c with
  | .warp i m => i.commit s fun l x => if bitOf m l then x.setV i.f.d.toNat (w32 v) else x
  | .lead i => i.write s (w64 v)

/-- The caller as the source of a record: FCLASS qualifiers (Table 2.7). -/
def Caller.qual (c : Caller) (l : Nat) : Nat :=
  match c with | .warp i _ => i.w.qual l | .lead i => 2 ^ 8 + i.slot * 2 ^ 9

/-! ### What a lane asks -/

/-- What one lane asks of the handle path. -/
structure Ref where
  h : Nat
  o : Int
  q : Ask

/-- Bit [16] of TDATA: a store or an atomic (Table 9.8, R245). -/
def storeBit (acc : Nat) : Nat := if acc = 1 then 0 else 2 ^ 16

/-! ### Lost lines (R291, R292) -/

/-- The present stage-1 leaves that meet a range of addresses: first address and size. -/
def leaves (m : Memory) (hbSlots root2 lo hi : Nat) : List Nat → Nat → Nat → List (Nat × Nat)
  | [], _, _ => []
  | level :: r, table, va =>
    let size := 2 ^ (39 - 9 * level)
    match walk2 m hbSlots [0, 1, 2, 3] root2 table with
    | .error _ => []
    | .ok t =>
      (List.range 512).flatMap fun ix =>
        let e := entryAt m (t.frame * 4096) ix
        let at_ := va + ix * size
        if bits e 0 0 = 0 ∨ hi ≤ at_ ∨ at_ + size ≤ lo then []
        else if bits e 1 1 = 1 then [(at_, size)]
        else leaves m hbSlots root2 lo hi r (bits e 47 12 * 4096) at_

/-- The handle is bound to a guard or barrier object that is marked as lost (R292). -/
def State.boundLost (s : State) (c : Nat) (x : Ctx) (e : BitVec 256) : Bool :=
  let g := (look x.handles (Entry.shandle e)).getD 0
  let va := Entry.base g + Entry.soff e
  Entry.kind e == 2 && Entry.length e != 0 && s.syncs.any (fun o => o.2.lost) &&
    match s.walkRaw c (va / 4096) with
    | .ok t => (look s.syncs (t.frame * 4096 + va % 4096)).any (·.lost)
    | .error _ => false

/-- The lowest offset of a handle that a lost line lies at. -/
def State.lostUnder (s : State) (c : Nat) (x : Ctx) (e : BitVec 256) : Option Nat :=
  match x.root, s.vd? x.vd with
  | some root, some v =>
    let lo := Entry.base e
    let hi := lo + Entry.length e
    let pages := (leaves s.mem v.config.hbSlots (Config.stage2Root x.vd) lo hi [0, 1, 2, 3] root 0).flatMap fun l =>
      let first := max l.1 lo / 4096
      (List.range ((min (l.1 + l.2) hi + 4095) / 4096 - first)).map (first + ·)
    let at_ := pages.flatMap fun p =>
      match s.walkRaw c p with
      | .ok t => (s.lost.filter fun n => decide (n / 64 = t.frame)).map fun n => p * 4096 + n % 64 * 64
      | .error _ => []
    minOf ((at_.filter fun a => decide (lo ≤ a + 63 ∧ a < hi)).map fun a => a - lo)
  | _, _ => none

/-- The lowest handle of a context that maps a lost line, with the lowest such offset (R292). -/
def State.lostIn (s : State) (c : Nat) : Option (Nat × Nat) :=
  match s.ctx? c with
  | none => none
  | some x => x.handles.findSome? fun e =>
      if Entry.valid e.2 && Entry.combined e.2 && Entry.space e.2 != 1 && Entry.space e.2 != 4 then
        (if s.boundLost c x e.2 then some 0 else s.lostUnder c x e.2).map fun o => (e.1, o)
      else none

/-- The context stops on COHERENCE_LOST (R292). -/
def State.stopLost (s : State) (c unit : Nat) : State :=
  let at_ := (s.lostIn c).getD (0, 0)
  s.stop c Cls.coherenceLost 0xFFFFFFFF 0 0xFFFFFFFF#32 (w64 (at_.1 * 2 ^ 52 + at_.2 % 2 ^ 52)) unit

/-! ### Outcomes of the checks -/

/-- FADDR of a lead fault on a handle access (Table 6.7). -/
def leadFaddr (cls h : Nat) (o : Int) : DWord :=
  if cls = Cls.bounds then (if h ≥ 4096 then w64 h else i64 o)
  else if cls = Cls.misalign then i64 o
  else w64 (h % 4096 * 2 ^ 52) + (i64 o &&& 0xFFFFFFFFFFFFF#64)

/-- The instruction faults in some lanes: TADDR holds the offset, TDATA the handle (Table 9.8), or FADDR both. -/
def Caller.fault (c : Caller) (s : State) (cls : Nat) (lanes : Word) (acc : Nat) (far : Word) (ref : Nat → Ref) :
    State :=
  if cls = Cls.coherenceLost then s.stopLost c.ctx (dieOf c.core)
  else
    let s := if cls = Cls.dataCheck then s.errUp (dieOf c.core) 48 16 (popCount lanes) else s
    match c with
    | .warp i _ =>
      i.raise s cls lanes (fun l => i64 (ref l).o) fun l =>
        w64 ((ref l).h % 2 ^ 16 + storeBit acc + if bitOf far l then 2 ^ 63 else 0)
    | .lead i => i.raise s cls (leadFaddr cls (ref 0).h (ref 0).o)

/-- Destinations of a producer, which are empty while it is parked (R228). -/
def parkedDests (i : Iss) : List Nat :=
  if i.eng = 5 ∨ i.eng = 6 then destRegs .lane i.eng i.op i.f else []

/-- The active lanes, or the lead thread, are parked on PAGE; the other lanes of the group go past, but for those of a bound
tile, which stays in one group (R160, R180, R228). -/
def Caller.park (c : Caller) (s : State) (acc : Nat) (faults : List (Nat × Nat)) (hbs : List (Nat × Bool)) :
    State :=
  match c with
  | .warp i _ =>
    (s.parkLanes i.core i.slot i.act i.w.ctx acc i.eng faults hbs).onWarp i.core i.slot fun w =>
      { (w.advance (i.grp &&& ~~~w.widenBound i.act) i.f).onMask i.act fun _ x => { x with hold := true, sp := i.f.live } with
        empty := (w.empty ++ parkedDests i).dedup }
  | .lead i =>
    let s := s.countFault i.c.ctx Cls.page
    let (fids, s) := s.postFaults (.lead i.core i.slot) i.c.ctx acc 0 i.core faults
    let (hids, s) := s.requestServices i.c.ctx acc (hubOfDie (dieOf i.core)) hbs.dedup
    s.onLead i.core i.slot fun x => { x with wait := .park fids hids, sp := i.f.live }

/-- The group, or the lead thread, waits for walks. -/
def Caller.walk (c : Caller) (s : State) (acc : Nat) (pages : List (Nat × Bool)) : State :=
  match c with
  | .warp i _ => s.waitWalks i.core i.slot i.grp i.w.ctx acc pages
  | .lead i =>
    let (ids, s) := s.requestWalks i.c.ctx acc (hubOfDie (dieOf i.core)) pages
    s.onLead i.core i.slot fun x => { x with wait := .walk ids }

/-- Requests go to the host or a peer, and the group waits for all of their answers (R139, R449, R450). -/
def Caller.ask (c : Caller) (s : State) (l : List (Nat × Loc)) (kind : Nat → ExtKind) : State :=
  let (group, s) := s.fresh
  let s := l.foldl (fun s e =>
    let (id, s) := s.fresh
    { s with exts := put s.exts id { agent := c.agent e.1, ctx := c.ctx, loc := e.2, kind := kind e.1, group } }) s
  c.hold s (.ext group)

/-- Outcomes of the lanes, and what follows from them: faults, parking and waiting, or, once the gate lets it pass, the
requests that leave the part, or the effect (R226). -/
def Caller.follow (c : Caller) (s : State) (acc : Nat) (ref : Nat → Ref) (out : Nat → AccOut) (kind : Nat → ExtKind)
    (gate : State → Except State State) (k : State → State) : State :=
  match groupOut c.mask out with
  | .fault cls lanes far => c.fault s cls lanes acc far ref
  | .walk pages => c.walk s acc pages
  | .park faults hbs => c.park s acc faults hbs
  | .ext locs =>
    match gate s with
    | .error s => s
    | .ok s => c.ask s locs kind
  | .ok =>
    match gate s with
    | .error s => s
    | .ok s => k s

/-- The device address or external location that an outcome gives. -/
def AccOut.loc (o : AccOut) : Loc := match o with | .ok l _ => l | _ => .dev 0

/-- A handle access of every lane that asks (R225, R226, R264). -/
def Caller.settle (c : Caller) (s : State) (acc : Nat) (ref : Nat → Ref) (kind : Nat → ExtKind)
    (gate : State → Except State State) (k : (Nat → Loc) → State → State) : State :=
  let out (l : Nat) : AccOut := s.access (c.who s l) (ref l).h (ref l).o (ref l).q
  c.follow s acc ref out kind gate (k fun l => (out l).loc)

/-- No condition holds the instruction back. -/
def open_ (s : State) : Except State State := .ok s

/-! ### Fences and completion points -/

/-- The release is one of the agent's. -/
def Release.isOf (r : Release) (a : Agent) : Bool :=
  match r.agent, a with
  | .lane c k _, .lane c' k' l => c == c' && k == k' && bitOf r.group l
  | x, y => x == y

/-- Releases of the caller's threads that are not complete (R280). -/
def Caller.outstanding (c : Caller) (s : State) : List Release :=
  (s.releases.filter fun e => c.actors.any fun l => e.2.isOf (c.agent l)).map (·.2)

/-- A fence of the agent has not published everything, or never will: its later stores and atomics are not performed
(R132, R281). -/
def State.fenced (s : State) (a : Agent) : Bool :=
  s.releases.any fun e => e.2.kind == RelKind.fence && e.2.isOf a

/-- Every pending store that satisfies a test and that no fence of its thread holds is performed (R132). -/
def State.performFree (s : State) (p : Pending → Bool) : State := s.performWhere fun x => p x && !s.fenced x.agent

/-- The context stops at a completion point on the deferred fault of a release (R281). -/
def Caller.deferred (c : Caller) (s : State) (r : Release) : State :=
  let at_ := r.failed.getD (0, 0, 0)
  s.stop c.ctx at_.1 (s.taskNo c.task) (c.qual (lowest r.group) + 2 ^ 11) r.pc
    (w64 (at_.2.1 % 4096 * 2 ^ 52 + at_.2.2 % 2 ^ 52)) (dieOf c.core)

/-- A completion point waits for the thread's releases, and raises a deferred fault (R280, R281). -/
def Caller.completion (c : Caller) (s : State) : Except State State :=
  match c.outstanding s with
  | [] => .ok s
  | rs =>
    match rs.find? fun r => r.failed.isSome with
    | some r => .error (c.deferred s r)
    | none => .error (c.retry s)

/-- Earlier loads and atomics of the caller are performed (FENCE.acq, R132). -/
def Caller.acquired (c : Caller) (s : State) : Except State State :=
  if c.actors.any fun l => s.agentAtoms (c.agent l) then .error (c.retry s) else .ok s

/-- No fence of the caller is publishing. -/
def Caller.unfenced (c : Caller) (s : State) : Bool := c.actors.all fun l => !s.fenced (c.agent l)

/-- What would perform a store or an atomic behind a fence of the caller waits for the fence; behind one whose write-back
failed it never can be, and the context stops on the deferred fault (R132, R281; log 58). -/
def Caller.behindFence (c : Caller) (s : State) : State :=
  match (c.outstanding s).find? fun r => r.kind == RelKind.fence && r.failed.isSome with
  | some r => c.deferred s r
  | none => c.retry s

/-- Earlier COHERENT stores and atomics of the caller are performed (FENCE.rel, R132). -/
def Caller.performed (c : Caller) (s : State) : Except State State :=
  let mine (a : Agent) : Bool := c.actors.any fun l => c.agent l == a
  if s.pending.any (fun p => mine p.agent && s.fenced p.agent) then .error (c.behindFence s)
  else
    let s := s.performWhere fun p => mine p.agent
    if s.pending.any (fun p => mine p.agent) then .error (c.retry s) else c.acquired s

/-- Unpublished GUARDED writes that satisfy a test and that a release of the caller may come after: those of its context
on its core, and those elsewhere that a release has followed (R124, R126; log 56). -/
def Caller.unpublished (c : Caller) (s : State) (p : WEntry → Bool) : List Nat :=
  (s.wbuf.filter fun e => p e && ((e.core == c.core && e.ctx == c.ctx) || e.passed)).map (·.id)

/-- A release begins: it is withheld until its write-back completes (R280). -/
def Caller.release (c : Caller) (s : State) (kind : RelKind) (scope : Nat) (entries : List Nat) (h off : Nat) :
    Nat × State :=
  let (id, s) := (s.passWrites c.core).fresh
  let r : Release :=
    { kind, agent := c.agent (c.actors.headD 0), group := match c with | .warp i _ => i.act | .lead _ => 0,
      ctx := c.ctx, task := c.task, core := c.core, scope, entries, pc := c.pc, handle := h, off, wait := .none,
      answers := [], extData := [], extErr := [], failed := none }
  (id, { s with releases := put s.releases id r })

/-- FENCE.rel before a store or request of the same instruction: everything earlier is performed and published first
(R132, R152, R225). -/
def Caller.released (c : Caller) (s : State) : Except State State := do
  let s ← c.completion s
  let s ← c.performed s
  match c.unpublished s fun _ => true with
  | [] => .ok s
  | es => .error (c.retry (c.release s .fence 4 es 0 0).2)

/-! ### Waits for lines -/

/-- Bytes of an atomic's operand in memory (R244). -/
def atomWidth (op mod : Nat) : Nat :=
  if op ≥ 0x0C then 16 else if op ≠ 0x0A ∧ mod ≥ 6 then 8 else 4

/-- The agent has an atomic not performed on some of the bytes (R122, R248). -/
def State.atomOn (s : State) (a : Agent) (pa n : Nat) : Bool :=
  s.atoms.any fun e =>
    (Agent.lane e.2.core e.2.slot e.2.lane == a) && e.2.reply.isNone && !e.2.waiting &&
      (match e.2.place with | .mem (.dev p) => meets p (atomWidth e.2.op e.2.mod) pa n | _ => false)

/-- An atomic on some of the bytes of a tile is not performed. -/
def AtomReq.onTile (a : AtomReq) (crew tile off n : Nat) : Bool :=
  a.reply.isNone && !a.waiting &&
    (match a.place with
     | .tile k t o => k == crew && t == tile && meets o (atomWidth a.op a.mod) off n
     | _ => false)

/-- An atomic of a warp that comes before an access of one of its lanes: the lane's own, or one of the lower PC of the
dual-issued pair (R122, R134). -/
def State.before (s : State) (a : Agent) (r : AtomReq) : Bool :=
  match a with
  | .lane c k l => r.core == c && r.slot == k && (r.lane == l || r.beat == s.beat)
  | _ => false

/-- An atomic on some of the bytes of a tile is not performed that comes before an access of an agent. -/
def State.atomOnTile (s : State) (a : Agent) (crew tile off n : Nat) : Bool :=
  s.atoms.any fun e => s.before a e.2 && e.2.onTile crew tile off n

/-- Another warp holds the line under a lease (R286). -/
def Caller.leasedOut (c : Caller) (s : State) (pa : Nat) : Bool :=
  match c with
  | .warp i _ => s.leasedElse i.core i.slot (pa / 64)
  | .lead _ => s.leased (pa / 64)

/-- The core's die is isolated: it serves no line until its warm reset (R291). -/
def State.cutOff (s : State) (core : Nat) : Bool := (s.dies.getD (dieOf core) Die.reset).isolated

/-- Some lane must wait: for the end of a lease, for its own earlier atomic, or because its die is isolated. -/
def Caller.blocked (c : Caller) (s : State) (loc : Nat → Loc) (n : Nat) : Bool :=
  c.lanes.any fun l =>
    match loc l with
    | .dev pa => c.leasedOut s pa || s.atomOn (c.agent l) pa n || s.cutOff c.core
    | _ => false

/-- The instruction waits for lines; a probe for each leased one goes to the core that leases it (R286). -/
def Caller.waitLines (c : Caller) (s : State) (loc : Nat → Loc) : State :=
  c.retry (c.lanes.foldl (fun s l =>
    match loc l with
    | .dev pa => if c.leasedOut s pa then s.probe (pa / 64) (some (c.agent l)) else s
    | _ => s) s)

/-! ### Loads and stores -/

/-- A grain without an owner is claimed for the accessor's core (R266). -/
def State.claim (s : State) (who : Who) (grain : Nat) : State :=
  let e := s.ownerOf grain
  if Owner.claimed e then s
  else
    let slot := if who.loose then 0 else who.slot
    let own := Owner.make true false who.loose (who.core.getD 0) slot (s.vdOf who.ctx) (who.ctx % 64) (Owner.moves e)
    { s with owners := put s.owners grain own }

/-- The claim that an access of a handle makes, when it is OWNED. -/
def State.touch (s : State) (who : Who) (h : Nat) (loc : Loc) : State :=
  match loc with
  | .dev pa => if Entry.kind (s.entry who h) = 1 then s.claim who (pa / 512) else s
  | _ => s

/-- What a core sees of bytes of a peer: those that the peer answered, under the buffered stores that the core sees. -/
def State.seePeer (s : State) (core vd ep off : Nat) (bs : List Byte) : List Byte :=
  s.wbuf.foldl (fun bs e =>
    match e.loc with
    | .peer v p o => if v = vd ∧ p = ep ∧ e.seenOn core then mapIx (fun k b => patchByte o e.bytes (off + k) b) 0 bs else bs
    | _ => bs) bs

/-- The bytes that a load of an agent returns. -/
def State.loadBytes (s : State) (who : Who) (loc : Loc) (n : Nat) : List Byte :=
  let back := ((who.extData.find? fun d => d.1 == loc).map (·.2)).getD []
  match loc with
  | .dev pa => s.seeN who.seat who.agent pa n
  | .peer vd ep off => s.seePeer who.seat vd ep off back
  | _ => back

/-- The directory entries of the lines that a load fills (Table 11.6). -/
def State.filled (s : State) (core : Nat) (loc : Loc) : State :=
  match loc with
  | .dev pa => s.coreFill (pa / 64) core
  | _ => s

/-- The sync object that a GUARDED entry is bound to: type, and the space and address it resolves to. -/
def State.syncOf (s : State) (who : Who) (e : BitVec 256) : Nat × Nat × Nat :=
  let g := s.entry who (Entry.shandle e)
  (Entry.stype e, Entry.space g * 2 ^ 16 + Entry.endpt g, Entry.base g + Entry.soff e)

/-- The sync object at an offset of a handle. -/
def State.syncAt (s : State) (who : Who) (type h o : Nat) : Nat × Nat × Nat :=
  let g := s.entry who h
  (type, Entry.space g * 2 ^ 16 + Entry.endpt g, Entry.base g + o)

/-- A GUARDED store enters the write buffer of the core (R261). -/
def Caller.buffer (c : Caller) (s : State) (l h o : Nat) (loc : Loc) (bs : List Byte) : State :=
  let who := c.who s l
  let e := s.entry who h
  let (id, s) := s.fresh
  { s with wbuf := s.wbuf ++ [{
      id, core := c.core, agent := c.agent l, ctx := c.ctx, handle := h, off := o, va := Entry.base e + o,
      sync := s.syncOf who e, loc, bytes := bs, die := false, gang := false, passed := false, held := none, heldBy := (c.agent l, c.pc) }] }

/-- A store of one lane by the kind of its region (R119, R261, R283, R286). What is not buffered for a peer is there
already. -/
def Caller.put1 (c : Caller) (s : State) (l h : Nat) (o : Nat) (loc : Loc) (bs : List Byte) : State :=
  let who := c.who s l
  let e := s.entry who h
  match loc with
  | .host pasid a => s.emit (.hostWrite pasid a bs)
  | .peer _ _ _ => if Entry.kind e = 2 then c.buffer s l h o loc bs else s
  | .dev pa =>
    match Entry.kind e with
    | 1 => (s.claim who (pa / 512)).coreStore who.seat pa bs
    | 2 => c.buffer s l h o loc bs
    | _ =>
      match (match c with | .warp i _ => s.leaseOf i.core i.slot (pa / 64) | .lead _ => none) with
      | some x => { s with leaseBuf := s.leaseBuf ++ [(x.id, pa, bs)] }
      | none =>
        { s with pending := s.pending ++ [{ core := c.core, agent := c.agent l, ctx := c.ctx, pa, bytes := bs }] }

/-- A store waits while a fence of its thread publishes, unless it is only buffered (R132). -/
def Caller.storeGate (c : Caller) (h : Nat → Nat) (s : State) : Except State State :=
  let buffered (l : Nat) : Bool :=
    let e := s.entry (c.who s l) (h l)
    Entry.kind e == 2 || (Entry.space e == 0 && Entry.kind e == 3)
  if c.unfenced s || c.lanes.all buffered then .ok s else .error (c.behindFence s)

/-! ### Tiles (R218 to R221, R230) -/

/-- Bytes of a row's elements (R219). -/
def rowBytes (fmt cols : Nat) : Nat := 4 * ((cols * fmtBits fmt + 31) / 32)

/-- Bits of plane per four bytes of columns: TXB formats 2, MX formats 1 (R219). -/
def planeBits (fmt : Nat) : Nat := if 0x10 ≤ fmt ∧ fmt ≤ 0x12 then 2 else if isBlock fmt then 1 else 0

/-- Bytes of a row's plane (R219). -/
def planeBytes (fmt cols : Nat) : Nat := 4 * ((planeBits fmt * cols + 127) / 128)

/-- Bytes charged for a tile (R219). -/
def tileSize (level fmt rows cols : Nat) : Nat :=
  let unit := if level = 1 then 4096 else 256
  (rows * (rowBytes fmt cols + planeBytes fmt cols) + unit - 1) / unit * unit

/-- What a tile word names. -/
inductive TileRef where
  /-- Malformed, or a rank the gang does not have (R218). -/
  | bad
  /-- No tile allocated. -/
  | none
  | at (crew tile : Nat) (t : Tile)

/-- What a tile word names for a crew (R218). -/
def State.tileRef (s : State) (crew : Option Nat) (tw : Word) : TileRef :=
  let n := tw.toNat
  let gang := bits n 12 12 = 1
  let rank := bits n 11 8
  match crew with
  | .none => .bad
  | some k =>
    if n ≥ 2 ^ 13 ∨ (¬ gang ∧ rank ≠ 0) then .bad
    else
      let owner : Option Nat :=
        if gang then
          match look s.crews k with
          | .none => .none
          | some c => (look s.gangs c.gang).bind fun g => g.crews[rank]?
        else some k
      match owner with
      | .none => .bad
      | some o =>
        match s.tile? o (n % 256) with
        | .none => .none
        | some t => .at o (n % 256) t

/-- Byte offset in a tile of a bit position in a row, or in its plane. -/
def Tile.offset (t : Tile) (row bit : Nat) (plane : Bool) : Nat :=
  row * (rowBytes t.fmt t.cols + planeBytes t.fmt t.cols) + (if plane then rowBytes t.fmt t.cols else 0) + bit / 8

/-- Some word of a range of a tile holds an uncorrectable error. -/
def Tile.badIn (t : Tile) (off n : Nat) : Bool := t.bad.any fun w => meets (w * 4) 4 off n

/-- Steps 1 to 6 of Table 9.9; the offset in the tile stands as a device location. -/
def State.tileAccess (s : State) (crew : Option Nat) (tw : Word) (row : Nat) (col : Int) (w : Nat) (plane ecc : Bool) :
    AccOut :=
  match s.tileRef crew tw with
  | .bad => .fail 1 Cls.bounds false
  | .none => .fail 1 Cls.bounds false
  | .at k _ t =>
    let bit : Int := if plane then 8 * col else col * (fmtBits t.fmt : Int)
    let limit := 8 * if plane then planeBytes t.fmt t.cols else rowBytes t.fmt t.cols
    if t.level = 1 ∨ (crew ≠ some k ∧ t.level ≠ 2) then .fail 2 Cls.perm false
    else if plane && !isBlock t.fmt then .fail 3 Cls.bounds false
    else if bit % (8 * w : Int) ≠ 0 then .fail 4 Cls.misalign false
    else if row ≥ t.rows ∨ col < 0 ∨ bit + (8 * w : Int) > limit then .fail 5 Cls.bounds false
    else
      let off := t.offset row bit.toNat plane
      if ecc && t.badIn off w then .fail 6 Cls.dataCheck false else .ok (.dev off) false

/-- What one lane asks of a tile. -/
structure TileAsk where
  tw : Word
  row : Nat
  col : Int
  w : Nat
  plane : Bool
  /-- Step 6 applies. -/
  ecc : Bool
  store : Bool

/-- The coordinate of operand B, with the column displacement (R230). -/
def Iss.coord (i : Iss) (l : Nat) : Nat × Int :=
  let b := (i.b32 l).toNat
  (b / 2 ^ 16, ((b % 2 ^ 16 : Nat) : Int) + i.f.simm)

/-- TADDR of a tile access (Table 9.8). -/
def TileAsk.addr (q : TileAsk) : DWord := w64 (q.row % 2 ^ 32 * 2 ^ 32) + (i64 q.col &&& 0xFFFFFFFF#64)

/-- TDATA of a tile access (Table 9.8). -/
def TileAsk.data (q : TileAsk) : DWord :=
  w64 (q.tw.toNat % 2 ^ 16 + (if q.store then 2 ^ 16 else 0) + 2 ^ 17 + if q.plane then 2 ^ 18 else 0)

/-- A tile access of every active lane whose checks give the outcomes; the effect is given the crew, tile and offset of
each lane (R230, R329). -/
def Iss.tilesBy (i : Iss) (s : State) (ask : Nat → TileAsk) (out : Nat → AccOut) (gate : State → Except State State)
    (k : (Nat → Nat × Nat × Nat) → State → State) : State :=
  match groupOut i.act out with
  | .fault cls lanes _ =>
    let s := if cls = Cls.dataCheck then s.errUp (dieOf i.core) 24 24 (popCount lanes) else s
    i.raise s cls lanes (fun l => (ask l).addr) fun l => (ask l).data
  | _ =>
    match gate s with
    | .error s => s
    | .ok s =>
      k (fun l =>
        match s.tileRef i.w.crew (ask l).tw with
        | .at c t _ => (c, t, match (out l).loc with | .dev off => off | _ => 0)
        | _ => (0, 0, 0)) s

/-- A tile access of LDT, STT or WAITA in every active lane (R230). -/
def Iss.tiles (i : Iss) (s : State) (ask : Nat → TileAsk) (gate : State → Except State State)
    (k : (Nat → Nat × Nat × Nat) → State → State) : State :=
  i.tilesBy s ask (fun l =>
    let q := ask l
    s.tileAccess i.w.crew q.tw q.row q.col q.w q.plane q.ecc) gate k

/-- A group whose lanes are all inactive goes past; otherwise its active lanes act. -/
def Iss.acting (i : Iss) (s : State) (k : Caller → State) : State :=
  if i.act = 0 then i.done s else k (.warp i i.act)

/-- An elected form: the lowest active lane acts for the others (R81). -/
def Iss.elected (i : Iss) (s : State) (k : Caller → State) : State :=
  if i.act = 0 then i.done s else k (.warp i ((1 : Word) <<< lowest i.act))

end Sys2Proof.Machine
end

