-- ==== Sys2Proof/Machine/Access.lean ====
section
/-! DEFINITION. The access unit (R222 to R238), the lead loads and stores (R150 to R152), and the completion of
producers (R68). -/

namespace Sys2Proof.Machine

open Host (Outcome)

/-! ### Widths and offsets (Table 9.5, R225) -/

/-- Bytes of an access by MOD (Table 9.5; the lead types of Table 3.9 agree with it). -/
def accessWidth (mo : Nat) : Nat :=
  match mo with
  | 0 => 4 | 1 => 4 | 2 => 2 | 3 => 2 | 4 => 1 | 5 => 1 | 6 => 8 | 7 => 8
  | _ => 16

/-- The offset of LD, ST and PREF in a lane (R225, R61). -/
def Iss.offset (i : Iss) (l : Nat) : Int :=
  let wide := decide (bits i.fn 7 7 = 1)
  let b := if i.f.immB then (if wide then i.f.lit.toNat else i.f.lit.toNat % 2 ^ 32) else (i.w.getW wide l i.f.b.toNat).toNat
  (b : Int) + i.f.simm

/-- The offset of SLD and SST (R150). -/
def LIss.offset (i : LIss) : Int :=
  ((if i.f.immB then i.f.lit.toNat else (i.c.lead.getK i.f.b.toNat).toNat : Nat) : Int) + i.f.simm

/-- The words that a load writes to its registers (Table 9.5). -/
def loadWords (mo : Nat) (bs : List Byte) : List Word :=
  if mo ≤ 5 then [lo32 (tyExtend mo (natOf bs))] else wordsOf bs

/-- The bytes of a data operand (Table 9.5). -/
def Iss.dataBytes (i : Iss) (l n : Nat) : List Byte :=
  ((List.range 4).flatMap fun k => bytesOf 4 (i.w.getV l (i.f.c.toNat + k)).toNat).take n

/-- A handle access by reading or writing. -/
def readAsk (w : Nat) : Ask := { w, align := w, acc := 1, ok4 := permits 1, check := true }
def writeAsk (w : Nat) : Ask := { w, align := w, acc := 2, ok4 := permits 2 }

/-- FN asks for ordering (Table 9.6). -/
def ordered (fn : Nat) : Bool := decide (bits fn 2 2 = 1)

/-! ### Handle accesses -/

/-- The loaded values become the results of a producer (R225, R68). -/
def Iss.loadTo (i : Iss) (s : State) (bytes : Nat → List Byte) : State :=
  i.produce s ((lanesOf i.act).flatMap fun l =>
    mapIx (fun n x => (l, i.f.d.toNat + n, x.setWidth 64)) 0 (loadWords i.mo (bytes l))) []

/-- LD (R225). -/
def execLd (f : Fields) (s : State) : Outcome State Fault Refusal :=
  laneInstr 5 0x00 f s fun s i => i.acting s fun c =>
    let w := accessWidth i.mo
    c.settle s 1 (fun l => { h := c.handle l, o := i.offset l, q := readAsk w }) (fun _ => .read w)
      (if ordered i.fn then c.acquired else open_) fun loc s =>
      if c.blocked s loc w then c.waitLines s loc
      else
        let s' := c.lanes.foldl (fun s l => (s.touch (c.who s l) (c.handle l) (loc l)).filled i.core (loc l)) s
        i.loadTo s' fun l => s.loadBytes (c.who s l) (loc l) w

/-- ST (R225). -/
def execSt (f : Fields) (s : State) : Outcome State Fault Refusal :=
  laneInstr 5 0x01 f s fun s i => i.acting s fun c =>
    let w := accessWidth i.mo
    c.settle s 2 (fun l => { h := c.handle l, o := i.offset l, q := writeAsk w }) (fun l => .write (i.dataBytes l w))
      (if ordered i.fn then c.released else c.storeGate c.handle) fun loc s =>
      if c.blocked s loc w then c.waitLines s loc
      else i.done (c.lanes.foldl (fun s l => c.put1 s l (c.handle l) (i.offset l).toNat (loc l) (i.dataBytes l w)) s)

/-- What LDT, STT and WAITA ask in a lane (R230, R235). -/
def Iss.tileAsk (i : Iss) (w : Nat) (plane ecc store : Bool) (l : Nat) : TileAsk :=
  { tw := i.w.getV l i.f.a.toNat, row := (i.coord l).1, col := (i.coord l).2, w, plane, ecc, store }

/-- The lanes read bytes of tiles, whose single-bit errors are corrected (R238). -/
def Iss.corrected (i : Iss) (s : State) (at_ : Nat → Nat × Nat × Nat) (w : Nat) : State :=
  (lanesOf i.act).foldl (fun s l => s.correct (dieOf i.core) (at_ l).1 (at_ l).2.1 (at_ l).2.2 w) s

/-- LDT (R230). -/
def execLdt (f : Fields) (s : State) : Outcome State Fault Refusal :=
  laneInstr 5 0x02 f s fun s i => i.acting s fun c =>
    let w := accessWidth i.mo
    i.tiles s (i.tileAsk w (decide (bits i.fn 6 6 = 1)) true false) (if ordered i.fn then c.acquired else open_) fun at_ s =>
      if c.lanes.any fun l => s.atomOnTile (c.agent l) (at_ l).1 (at_ l).2.1 (at_ l).2.2 w then c.retry s
      else i.loadTo (i.corrected s at_ w) fun l => s.tileBytes i.w l (at_ l).1 (at_ l).2.1 (at_ l).2.2 w

/-- The lanes store to tiles in rising order (R134). -/
def Iss.storeTiles (i : Iss) (s : State) (at_ : Nat → Nat × Nat × Nat) (w : Nat) : State :=
  (lanesOf i.act).foldl (fun s l =>
    s.laneTile i.core i.slot l (at_ l).1 (at_ l).2.1 (at_ l).2.2 (i.dataBytes l w)) s

/-- STT: the highest lane that stores to a word decides it (R134, R230). -/
def execStt (f : Fields) (s : State) : Outcome State Fault Refusal :=
  laneInstr 5 0x03 f s fun s i => i.acting s fun c =>
    let w := accessWidth i.mo
    i.tiles s (i.tileAsk w (decide (bits i.fn 6 6 = 1)) (decide (w < 4)) true)
      (fun s => if ordered i.fn then c.released s else if c.unfenced s then .ok s else .error (c.behindFence s)) fun at_ s =>
      if c.lanes.any fun l => s.atomOnTile (c.agent l) (at_ l).1 (at_ l).2.1 (at_ l).2.2 w then c.retry s
      else i.done (i.storeTiles (if w < 4 then i.corrected s at_ w else s) at_ w)

/-! ### Tile management -/

/-- Bytes of a crew's tiles charged to its scratchpad grant, or to its accumulator grant (R219). -/
def Crew.charged (c : Crew) (acc : Bool) : Nat :=
  c.tiles.foldl (fun n e =>
    if (e.2.level == 1) == acc then n + tileSize e.2.level e.2.fmt e.2.rows e.2.cols else n) 0

/-- One tile allocated: the crew after it and the number, or the class of its fault (R231). -/
def Crew.alloc (c : Crew) (level fmt rows cols : Nat) : Except Nat (Nat × Crew) :=
  if rows < 1 ∨ rows > 4096 ∨ cols < 1 ∨ cols > 4096 ∨ (isBlock fmt ∧ cols % 32 ≠ 0) then .error Cls.bounds
  else
    match firstBelow (fun n => (look c.tiles n).isNone) 256 with
    | none => .error Cls.quota
    | some n =>
      let acc := level == 1
      if c.charged acc + tileSize level fmt rows cols > (if acc then c.acc else c.scr) then .error Cls.quota
      else .ok (n, { c with tiles := put c.tiles n { level, fmt, rows, cols, bytes := [], bad := [], single := [] } })

/-- Tiles allocated for lanes in rising order: the crew and the numbers by lane, or the lane that failed (R231). -/
def Crew.allocAll (c : Crew) (level fmt : Nat) (shape : Nat → Nat) : List Nat → Except (Nat × Nat) (Crew × List (Nat × Nat))
  | [] => .ok (c, [])
  | l :: r =>
    match c.alloc level fmt (shape l / 2 ^ 16) (shape l % 2 ^ 16) with
    | .error cls => .error (l, cls)
    | .ok (n, c') =>
      match Crew.allocAll c' level fmt shape r with
      | .error e => .error e
      | .ok (c'', ns) => .ok (c'', (l, n) :: ns)

/-- TALLOC (R231). -/
def execTalloc (f : Fields) (s : State) : Outcome State Fault Refusal :=
  laneInstr 5 0x04 f s fun s i => i.acting s fun _ =>
    match i.w.crew.bind fun k => (look s.crews k).map fun c => (k, c) with
    | none => i.raiseAll s Cls.illegal 0
    | some (k, c) =>
      match c.allocAll i.mo (i.fn % 32) (fun l => (i.b32 l).toNat) (lanesOf i.act) with
      | .error (l, cls) => i.raise s cls ((1 : Word) <<< l) (fun _ => 0) fun _ => 0
      | .ok (c', ns) =>
        let gang := if i.mo = 2 then 2 ^ 12 + c.rank * 2 ^ 8 else 0
        i.commit { s with crews := put s.crews k c' } fun l x => x.setV i.f.d.toNat (w32 (gang + count ns l))

/-- Lanes of an instruction on a tile word that fail a test raise BOUNDS or PERM, with the tile word as detail. -/
def Iss.tileFault (i : Iss) (s : State) (cls : Nat) (lanes : Word) : State :=
  i.raise s cls lanes (fun _ => 0) fun l => w64 ((i.w.getV l i.f.a.toNat).toNat % 2 ^ 16 + 2 ^ 17)

/-- The result of TQUERY (Table 9.10). -/
def Tile.query (t : Tile) : DWord :=
  w64 (2 ^ 63 + t.level * 2 ^ 61 + t.fmt * 2 ^ 56 + tileSize t.level t.fmt t.rows t.cols * 2 ^ 32 + t.cols * 2 ^ 16 + t.rows)

/-- TQUERY (R233). -/
def execTquery (f : Fields) (s : State) : Outcome State Fault Refusal :=
  laneInstr 5 0x06 f s fun s i =>
    let ref (l : Nat) : TileRef := s.tileRef i.w.crew (i.w.getV l i.f.a.toNat)
    let bad := i.act &&& maskOf fun l => match ref l with | .bad => true | _ => false
    if bad ≠ 0 then i.tileFault s Cls.bounds bad
    else i.write s true fun l => match ref l with | .at _ _ t => t.query | _ => 0

/-- HQUERY (R234). -/
def execHquery (f : Fields) (s : State) : Outcome State Fault Refusal :=
  laneInstr 5 0x07 f s fun s i =>
    let h (l : Nat) : Nat := (i.w.getV l i.f.a.toNat).toNat
    let bad := i.act &&& maskOf fun l => decide (h l ≥ 4096)
    if bad ≠ 0 then i.raise s Cls.bounds bad (fun _ => 0) fun l => w64 (h l % 2 ^ 16)
    else i.write s true fun l => w64 (field256 (s.entry (s.laneWho i.core i.slot i.w l) (h l)) (64 * i.mo) 64)

/-! ### Waits, prefetch, fences -/

/-- WAITA: a lane whose word meets the condition goes on at once (R235). -/
def execWaita (f : Fields) (s : State) : Outcome State Fault Refusal :=
  laneInstr 5 0x08 f s fun s i => i.acting s fun c =>
    i.tiles s (i.tileAsk 4 false true false) open_ fun at_ s =>
      if c.lanes.any fun l => s.atomOnTile (c.agent l) (at_ l).1 (at_ l).2.1 (at_ l).2.2 4 then c.retry s else
      let value (l : Nat) : Word := i.w.getV l i.f.c.toNat
      let met (l : Nat) : Bool :=
        waitaHolds i.mo (w32 (natOf (s.tileBytes i.w l (at_ l).1 (at_ l).2.1 (at_ l).2.2 4))) (value l)
      i.await (i.corrected s at_ 4) (i.act &&& maskOf fun l => !met l) fun l =>
        .waita (at_ l).1 (at_ l).2.1 (at_ l).2.2 i.mo (value l)

/-- The line that a lane prefetches: into its die for .l1 and .l2, when the checks pass and no lease holds it (R236,
Table 11.6). -/
def Iss.prefetch (i : Iss) (s : State) (l : Nat) : State :=
  let c := Caller.warp i i.act
  match s.access (c.who s l) (c.handle l) (i.offset l) { w := 1, align := 1, acc := 1, ok4 := permits 1 } with
  | .ok (.dev pa) _ => if i.mo < 2 && !s.leased (pa / 64) then s.filled i.core (.dev pa) else s
  | _ => s

/-- PREF changes no value and raises nothing of its own (R236). -/
def execPref (f : Fields) (s : State) : Outcome State Fault Refusal :=
  laneInstr 5 0x09 f s fun s i => i.done ((lanesOf i.act).foldl i.prefetch s)

/-- FENCE: a completion point; `.acq` waits for the lane's atomics, the others also perform its COHERENT stores and begin
the write-back of its GUARDED writes (R132, R237, R280). -/
def execFence (f : Fields) (s : State) : Outcome State Fault Refusal :=
  laneInstr 5 0x0A f s fun s i => i.acting s fun c =>
    match (do let s ← c.completion s; if i.mo = 0 then c.acquired s else c.performed s) with
    | .error s => s
    | .ok s =>
      match (if i.mo = 0 then [] else c.unpublished s fun _ => true) with
      | [] => i.done s
      | es => i.done (c.release s .fence (max 4 (bits i.fn 5 3)) es 0 0).2

/-! ### Lead loads and stores (R150 to R152) -/

/-- A lead instruction ends as a producer (R68). -/
def LIss.produce (i : LIss) (s : State) (v : DWord) : State :=
  let (id, s) := s.fresh
  let d := i.f.d.toNat
  let regs := if d = 0 then [] else [d]
  i.commit s fun x =>
    { x with empty := (x.empty ++ regs).dedup,
             prods := x.prods ++ [{ id, regs, vals := [(0, d, v)], replies := 0, flags := [] }] }

/-- The value of SLD: sign- or zero-extended to 64 bits (R150). -/
def leadExtend (mo : Nat) (p : Nat) : DWord :=
  if tySigned mo then i64 (signedOf (tyWidth mo) p) else w64 p

/-- SLD (R150, R151). -/
def execSld (f : Fields) (s : State) : Outcome State Fault Refusal :=
  leadInstr 0 0x12 f s fun s i =>
    let c := Caller.lead i
    let w := accessWidth i.mo
    c.settle s 1 (fun l => { h := c.handle l, o := i.offset, q := readAsk w }) (fun _ => .read w) open_ fun loc s =>
      if c.blocked s loc w then c.waitLines s loc
      else
        let s' := (s.touch (c.who s 0) (c.handle 0) (loc 0)).filled i.core (loc 0)
        i.produce s' (leadExtend i.mo (natOf (s.loadBytes (c.who s 0) (loc 0) w)))

/-- SST (R150, R151). -/
def execSst (f : Fields) (s : State) : Outcome State Fault Refusal :=
  leadInstr 0 0x13 f s fun s i =>
    let c := Caller.lead i
    let w := accessWidth i.mo
    let data := bytesOf w i.kc.toNat
    c.settle s 2 (fun l => { h := c.handle l, o := i.offset, q := writeAsk w }) (fun _ => .write data)
      (if ordered i.fn then c.released else c.storeGate c.handle) fun loc s =>
      if c.blocked s loc w then c.waitLines s loc
      else i.done (c.put1 s 0 (c.handle 0) i.offset.toNat (loc 0) data)

/-! ### Producers -/

/-- A producer writes its values in a warp, and its registers are full (R68, R302). -/
def Warp.writeback (w : Warp) (p : Producer) : Warp :=
  let w := { w with empty := w.empty.filter fun r => !(p.regs.contains r), prods := w.prods.filter fun x => x.id != p.id }
  let w := w.onLanes fun l x =>
    p.vals.foldl (fun x e => if e.1 = l then x.fillV e.2.1 (lo32 e.2.2) else x) x
  { w with chain := p.flags.foldl (fun (ch : Chain) e =>
      let m : Word := (1 : Word) <<< e.1
      { ch with c := if e.2.1 then ch.c ||| m else ch.c &&& ~~~m,
                o := if e.2.2 then ch.o ||| m else ch.o &&& ~~~m }) w.chain }

/-- A producer writes its values in a lead thread. -/
def Lead.writeback (x : Lead) (p : Producer) : Lead :=
  let x := { x with empty := x.empty.filter fun r => !(p.regs.contains r), prods := x.prods.filter fun y => y.id != p.id }
  p.vals.foldl (fun x e => x.setK e.2.1 e.2.2) x

/-- A producer may write: it waits for no reply, and no chain instruction before it is outstanding when it is one (R304). -/
def mayWrite (prods : List Producer) (n : Nat) (p : Producer) : Bool :=
  p.replies == 0 && (p.chain == [] || (prods.take n).all fun q => q.chain == [])

/-- PRODUCER_WRITEBACK: the n-th outstanding producer of a thread completes, unless it waits for replies (R68, R258). -/
def execProducerWriteback (th : Thread) (n : Nat) (s : State) : Outcome State Fault Refusal :=
  match th with
  | .warp core slot =>
    match (s.warp? core slot).bind fun w => w.prods[n]?.map fun p => (w, p) with
    | some (w, p) => .next (if mayWrite w.prods n p then s.onWarp core slot fun w => w.writeback p else s)
    | none => .next s
  | .lead core slot =>
    match (s.crew? core slot).bind fun c => c.lead.prods[n]? with
    | some p => .next (if p.replies = 0 then s.onLead core slot fun x => x.writeback p else s)
    | none => .next s

end Sys2Proof.Machine
end

