-- ==== Sys2Proof/Machine/Lead.lean ====
section
/-! DEFINITION. The lead engine: integer operations, control flow, the decision queue, special registers and counters
(R146 to R156). SLD and SST stand with the access unit. -/

namespace Sys2Proof.Machine

open Host (Outcome)

/-! ### Integer operations (R146 to R149) -/

/-- A lead instruction that writes one value computed from its operands. -/
def leadOp (op : Nat) (f : Fields) (s : State) (g : LIss → DWord) : Outcome State Fault Refusal :=
  leadInstr 0 op f s fun s i => i.write s (g i)

/-- The operands as s64, or n64 when MOD is 1. -/
def LIss.ia (i : LIss) : Int := leadRead (i.mo == 1) i.a
def LIss.ib (i : LIss) : Int := leadRead (i.mo == 1) i.b

/-- Logical shifts and the arithmetic shift of a 64-bit pattern (R99, R146). -/
def shl64 (a : DWord) (c : Nat) : DWord := if c ≥ 64 then 0 else a <<< c
def shr64 (a : DWord) (c : Nat) : DWord := if c ≥ 64 then 0 else a >>> c
def sra64 (a : DWord) (c : Nat) : DWord := a.sshiftRight (min c 63)

/-- SADD (R146). -/
def execSadd (f : Fields) (s : State) : Outcome State Fault Refusal := leadOp 0x00 f s fun i => i.a + i.b
/-- SSUB (R146). -/
def execSsub (f : Fields) (s : State) : Outcome State Fault Refusal := leadOp 0x01 f s fun i => i.a - i.b
/-- SMUL (R146). -/
def execSmul (f : Fields) (s : State) : Outcome State Fault Refusal := leadOp 0x02 f s fun i => i.a * i.b
/-- SMULH (R146). -/
def execSmulh (f : Fields) (s : State) : Outcome State Fault Refusal :=
  leadOp 0x03 f s fun i => i64 (i.ia * i.ib / 2 ^ 64)
/-- SDIV (R146, R99). -/
def execSdiv (f : Fields) (s : State) : Outcome State Fault Refusal :=
  leadOp 0x04 f s fun i => i64 (quotInt 64 (i.mo == 0) i.ia i.ib)
/-- SREM (R146, R99). -/
def execSrem (f : Fields) (s : State) : Outcome State Fault Refusal :=
  leadOp 0x05 f s fun i => i64 (remInt i.ia i.ib)
/-- SAND (R146). -/
def execSand (f : Fields) (s : State) : Outcome State Fault Refusal := leadOp 0x06 f s fun i => i.a &&& i.b
/-- SOR (R146). -/
def execSor (f : Fields) (s : State) : Outcome State Fault Refusal := leadOp 0x07 f s fun i => i.a ||| i.b
/-- SXOR (R146). -/
def execSxor (f : Fields) (s : State) : Outcome State Fault Refusal := leadOp 0x08 f s fun i => i.a ^^^ i.b
/-- SSHL (R146, R99). -/
def execSshl (f : Fields) (s : State) : Outcome State Fault Refusal := leadOp 0x09 f s fun i => shl64 i.a i.b.toNat
/-- SSHR (R146, R99). -/
def execSshr (f : Fields) (s : State) : Outcome State Fault Refusal := leadOp 0x0A f s fun i => shr64 i.a i.b.toNat
/-- SSRA (R146, R99). -/
def execSsra (f : Fields) (s : State) : Outcome State Fault Refusal := leadOp 0x0B f s fun i => sra64 i.a i.b.toNat
/-- SMIN (R146). -/
def execSmin (f : Fields) (s : State) : Outcome State Fault Refusal := leadOp 0x0C f s fun i => i64 (min i.ia i.ib)
/-- SMAX (R146). -/
def execSmax (f : Fields) (s : State) : Outcome State Fault Refusal := leadOp 0x0D f s fun i => i64 (max i.ia i.ib)
/-- SCMP (R147). -/
def execScmp (f : Fields) (s : State) : Outcome State Fault Refusal :=
  leadOp 0x0E f s fun i => if scmpHolds i.mo i.a i.b then 1 else 0
/-- SSEL (R148). -/
def execSsel (f : Fields) (s : State) : Outcome State Fault Refusal :=
  leadOp 0x0F f s fun i => if i.kc ≠ 0 then i.a else i.b
/-- SLI (R148). -/
def execSli (f : Fields) (s : State) : Outcome State Fault Refusal := leadOp 0x10 f s fun i => i.b

/-- Leading zeros of a pattern of width w. -/
def clzN (w n : Nat) : Nat := if n = 0 then w else w - 1 - Nat.log2 n

/-- Trailing zeros of a pattern of width w. -/
def ctzN (w n : Nat) : Nat := ((List.range w).find? fun i => n / 2 ^ i % 2 = 1).getD w

/-- One bits of a pattern of width w. -/
def popN (w n : Nat) : Nat := ((List.range w).filter fun i => n / 2 ^ i % 2 = 1).length

/-- A pattern of width w with bit i moved to bit w − 1 − i. -/
def brevN (w n : Nat) : Nat := (List.range w).foldl (fun r i => 2 * r + n / 2 ^ i % 2) 0

/-- Field [pos+len−1:pos] of a pattern of width w; bits above it read as 0, and it is sign-extended on request from bit
min(len, w − pos) − 1 (R149, R193). -/
def extractField (w : Nat) (signed : Bool) (n pos len : Nat) : Int :=
  if len = 0 then 0
  else
    let x := n % 2 ^ w / 2 ^ pos % 2 ^ len
    if signed then signedOf (min len (w - pos)) x else x

/-- A pattern of width w with a field replaced by the low bits of another (R149, R193). -/
def insertField (w c a pos len : Nat) : Nat :=
  let mask := (2 ^ len - 1) * 2 ^ pos % 2 ^ w
  (c &&& (2 ^ w - 1 - mask)) + (a % 2 ^ len * 2 ^ pos &&& mask)

/-- The operations of SBITS (R149). -/
def sbitsOf (mo : Nat) (a b c : DWord) : DWord :=
  let pos := bits b.toNat 5 0
  let len := min (bits b.toNat 14 8) 64
  match mo with
  | 0 => w64 (popN 64 a.toNat)
  | 1 => w64 (clzN 64 a.toNat)
  | 2 => w64 (ctzN 64 a.toNat)
  | 3 => w64 (brevN 64 a.toNat)
  | 4 => i64 (extractField 64 false a.toNat pos len)
  | 5 => i64 (extractField 64 true a.toNat pos len)
  | _ => w64 (insertField 64 c.toNat a.toNat pos len)

/-- SBITS (R149). -/
def execSbits (f : Fields) (s : State) : Outcome State Fault Refusal :=
  leadOp 0x11 f s fun i => sbitsOf i.mo i.a i.b i.kc

/-! ### Control flow (R153) -/

/-- The lead thread goes to a target. -/
def LIss.jump (i : LIss) (s : State) (target : Word) (g : Lead → Lead) : State :=
  s.onLead i.core i.slot fun x => { (g x).advance i.f with pc := target }

/-- The PC after the instruction. -/
def LIss.link (i : LIss) : Word := i.pc + i.f.step

/-- The push of a return PC (R153). -/
def Lead.push (pc : Word) (x : Lead) : Lead := { x with stack := pc :: x.stack }

/-- A call: at depth 16 it faults with the target as detail (R153, Table 6.7). -/
def LIss.call (i : LIss) (s : State) (target : Word) : State :=
  if i.c.lead.stack.length ≥ 16 then i.raise s Cls.bounds (target.setWidth 64)
  else i.jump s target (Lead.push i.link)

/-- SBR (R153). -/
def execSbr (f : Fields) (s : State) : Outcome State Fault Refusal :=
  leadInstr 0 0x14 f s fun s i => i.jump s (targetOf i.f i.pc) id

/-- SBC (R153). -/
def execSbc (f : Fields) (s : State) : Outcome State Fault Refusal :=
  leadInstr 0 0x15 f s fun s i =>
    i.jump s (if signHolds i.mo i.a.toInt then targetOf i.f i.pc else i.link) id

/-- SCALL (R153). -/
def execScall (f : Fields) (s : State) : Outcome State Fault Refusal :=
  leadInstr 0 0x16 f s fun s i => i.call s (targetOf i.f i.pc)

/-- SJMP (R153). -/
def execSjmp (f : Fields) (s : State) : Outcome State Fault Refusal :=
  leadInstr 0 0x18 f s fun s i =>
    if i.a.toNat ≥ 2 ^ 32 then i.raise s Cls.bounds i.a
    else if i.mo = 1 then i.call s (lo32 i.a)
    else i.jump s (lo32 i.a) id

/-! ### The decision queue, special registers and counters -/

/-- DQPUSH: it waits while 16 entries are occupied (R34, R144, R154); a release (R123). -/
def execDqpush (f : Fields) (s : State) : Outcome State Fault Refusal :=
  leadInstr 0 0x19 f s fun s i =>
    if i.c.dq.length ≥ 16 then i.retry s
    else
      match (Caller.lead i).performed s with
      | .error s => s
      | .ok s =>
        let k := crewKey i.core i.slot
        (i.done (s.onCrewKey k fun c => { c with dq := c.dq ++ [{ data := i.mo == 1, value := i.b }] })).trimDq k

/-- Special registers that both streams read, of a task on a core (Table 3.7). -/
def State.special (s : State) (sel core task ctx : Nat) : Nat :=
  match sel with
  | 0x08 => s.taskNo task
  | 0x09 => core
  | 0x0A => clusterOf core
  | 0x0B => dieOf core
  | 0x0C => s.vdOf ctx
  | 0x0D => (s.ctx? ctx).elim (ctx % 64) (·.num)
  | 0x10 => s.cycleOf core
  | _ => s.time.toNat

/-- Special registers as the lead thread reads them (Tables 3.7, 6.5). -/
def LIss.special (i : LIss) (s : State) (sel : Nat) : DWord :=
  let g := look s.gangs i.c.gang
  match sel with
  | 0x02 => w64 i.c.warps.length
  | 0x03 => w64 i.slot
  | 0x04 => w64 i.c.rank
  | 0x05 => w64 (g.elim 0 (·.x))
  | 0x06 => w64 (g.elim 0 (·.y))
  | 0x07 => w64 (g.elim 0 (·.z))
  | 0x12 => i.c.lead.instr + 1
  | 0x28 => w64 i.c.dq.length
  | 0x29 => w64 i.c.lead.stack.length
  | 0x2A => (maskOf fun n => decide (n < i.c.warps.length) && !i.c.doneWarps.contains n).setWidth 64
  | _ =>
    if 0x20 ≤ sel ∧ sel ≤ 0x27 then i.c.q.getD (sel - 0x20) 0 else w64 (s.special sel i.core i.c.task i.c.ctx)

/-- SRDX (R155). -/
def execSrdx (f : Fields) (s : State) : Outcome State Fault Refusal :=
  leadInstr 0 0x1A f s fun s i => i.write s (i.special s i.f.a.toNat)

/-- SWRX: the counter takes the value at once (R155, R156). -/
def execSwrx (f : Fields) (s : State) : Outcome State Fault Refusal :=
  leadInstr 0 0x1B f s fun s i =>
    i.done (s.onCrew i.core i.slot fun c => { c with q := setNth c.q (i.f.a.toNat - 0x20) i.b })

/-- SWAITQ: it waits until the counter has reached the value (R156). -/
def execSwaitq (f : Fields) (s : State) : Outcome State Fault Refusal :=
  leadInstr 0 0x1C f s fun s i =>
    if (i.c.q.getD i.f.a.toNat 0).toNat ≥ i.b.toNat then i.done (s.observe (crewKey i.core i.slot) i.f.a.toNat)
    else i.retry s

end Sys2Proof.Machine
end

