-- ==== Sys2Proof/Machine/Sequencer.lean ====
section
/-! DEFINITION. The sequencer: lane branches, uniform branches, join masks, barriers, partition tiles, traps and the
return from them (R163 to R187). -/

namespace Sys2Proof.Machine

open Host (Outcome)

/-! ### Lane branches (R168) -/

/-- The active lanes go to their targets, the others past the instruction. -/
def Iss.branch (i : Iss) (s : State) (target : Nat → Word) (g : Nat → Lane → Lane) : State :=
  i.commitWarp s fun w => w.onMask i.act fun l x => { g l x with pc := target l - i.f.step }

/-- The PC after the instruction. -/
def Iss.link (i : Iss) : Word := i.pc + i.f.step

/-- Operand A of a lane as a PC or condition. -/
def Iss.a32 (i : Iss) (l : Nat) : Word := i.w.getV l i.f.a.toNat

/-- The target of LBRC in a lane. -/
def Iss.lbrcTarget (i : Iss) (l : Nat) : Word :=
  if signHolds i.mo (i.a32 l).toInt then targetOf i.f i.pc else i.link

/-- An outcome that is the same in every lane. -/
def sameOut (_ : State) (_ : Iss) (_ : Nat) : Nat := 0

/-- LBR (R168). -/
def execLbr (f : Fields) (s : State) : Outcome State Fault Refusal :=
  tiledInstr 1 0x00 f s sameOut fun s i => i.branch s (fun _ => targetOf i.f i.pc) fun _ x => x

/-- LBRC (R168). -/
def execLbrc (f : Fields) (s : State) : Outcome State Fault Refusal :=
  tiledInstr 1 0x01 f s (fun _ i l => (i.lbrcTarget l).toNat) fun s i => i.branch s i.lbrcTarget fun _ x => x

/-- LCALL: the link register is written at once (R168). -/
def execLcall (f : Fields) (s : State) : Outcome State Fault Refusal :=
  tiledInstr 1 0x02 f s sameOut fun s i =>
    i.branch s (fun _ => targetOf i.f i.pc) fun _ x => x.setV i.f.d.toNat i.link

/-- LRET (R168). -/
def execLret (f : Fields) (s : State) : Outcome State Fault Refusal :=
  tiledInstr 1 0x03 f s (fun _ i l => (i.a32 l).toNat) fun s i => i.branch s i.a32 fun _ x => x

/-- LJMP and LJMP.call (R168). -/
def execLjmp (f : Fields) (s : State) : Outcome State Fault Refusal :=
  tiledInstr 1 0x04 f s (fun _ i l => (i.a32 l).toNat) fun s i =>
    i.branch s i.a32 fun _ x => if i.mo = 1 then x.setV i.f.d.toNat i.link else x

/-! ### Uniform branches and decisions (R169, R170) -/

/-- What the decision queue holds for a warp. -/
inductive DqNext where
  | entry (e : DqEntry)
  /-- Not pushed yet. -/
  | wait
  /-- No entry remains and the lead thread has ended. -/
  | none
  deriving DecidableEq, Repr

/-- The next entry of a warp (R34, R36). -/
def State.dqNext (s : State) (w : Warp) : DqNext :=
  match w.crew with
  | .none => .none
  | some k =>
    match look s.crews k with
    | .none => .none
    | some c =>
      match c.dq[w.dqRead - c.dqBase]? with
      | some e => .entry e
      | .none => if c.lead.ended then .none else .wait

/-- The warp consumes its next entry (R34). -/
def Iss.consume (i : Iss) (s : State) : State :=
  let s := s.onWarp i.core i.slot fun w => { w with dqRead := w.dqRead + 1 }
  match i.w.crew with
  | none => s
  | some k => s.trimDq k

/-- A form that consumes an entry of a tag (R170). -/
def Iss.decision (i : Iss) (s : State) (data : Bool) (k : State → DWord → State) : State :=
  match s.dqNext i.w with
  | .wait => i.block s
  | .none => i.raise s Cls.dqmismatch i.act (fun _ => 0) fun _ => 0
  | .entry e =>
    if e.data != data then i.raise s Cls.dqmismatch i.act (fun _ => 0) fun _ => 1
    else i.consume (k s e.value)

/-- UBR (R170). -/
def execUbr (f : Fields) (s : State) : Outcome State Fault Refusal :=
  issue 1 0x05 f s converged (fun s i => i.decision s false fun s v =>
    i.branch s (fun _ => if v ≠ 0 then targetOf i.f i.pc else i.link) fun _ x => x) fun s _ => s

/-- DQPOP, a producer (R170, R68). -/
def execDqpop (f : Fields) (s : State) : Outcome State Fault Refusal :=
  issue 1 0x06 f s converged (fun s i => i.decision s true fun s v =>
    i.produceWide s (i.mo == 1) fun _ => if i.mo = 1 then v else (lo32 v).setWidth 64) fun s _ => s

/-! ### Join masks (R171, R172) -/

/-- A join mask changed, and the release conditions evaluated. -/
def Iss.setJoin (i : Iss) (s : State) (j : Nat) (v : Word) : State :=
  i.commitWarp s fun w => ({ w with j := setNth w.j j v } : Warp).checkJoins

/-- The join mask that field A names. -/
def Iss.joinA (i : Iss) : Word := i.w.j.getD i.f.a.toNat 0

/-- JOIN (R171). -/
def execJoin (f : Fields) (s : State) : Outcome State Fault Refusal :=
  laneInstr 1 0x07 f s fun s i => i.setJoin s i.f.a.toNat (i.joinA ||| i.act)

/-- LEAVE (R171). -/
def execLeave (f : Fields) (s : State) : Outcome State Fault Refusal :=
  laneInstr 1 0x08 f s fun s i => i.setJoin s i.f.a.toNat (i.joinA &&& ~~~i.act)

/-- The lanes of a mask release what they did before: earlier stores and atomics are performed (R123, R137). -/
def Iss.released (i : Iss) (s : State) (m : Word) : Except State State :=
  (Caller.warp { i with act := m } m).performed s

/-- WAITJ: members wait, others pass (R172); the arrival is a release (R123). -/
def execWaitj (f : Fields) (s : State) : Outcome State Fault Refusal :=
  tiledInstr 1 0x09 f s (fun _ i l => if bitOf i.joinA l then 1 else 0) fun s i =>
    let j := i.f.a.toNat
    let m := i.act &&& i.joinA
    match i.released s m with
    | .error s => s
    | .ok s =>
      (i.await s m fun _ => .join j).onWarp i.core i.slot fun w =>
        ({ w with jtimer := if m = 0 ∨ (look w.jtimer j).isSome then w.jtimer
                            else put w.jtimer j (s.resident i.core i.w, i.pc) } : Warp).checkJoins

/-- JSET (R171). -/
def execJset (f : Fields) (s : State) : Outcome State Fault Refusal :=
  laneInstr 1 0x0A f s fun s i => i.setJoin s i.f.d.toNat (i.w.getM i.f.a.toNat &&& i.w.live)

/-- JGET (R171). -/
def execJget (f : Fields) (s : State) : Outcome State Fault Refusal :=
  laneInstr 1 0x0B f s fun s i => i.commitWarp s fun w => w.setM i.f.d.toNat i.joinA

/-! ### Barriers (R173) -/

/-- The arrival of the active lanes at an instance, which it opens or joins. -/
def Barrier.arrive (b : Option Barrier) (counted : Bool) (count_ key : Nat) (m : Word) (pc : Word) (now : Nat) :
    Barrier :=
  match b with
  | none => { counted, count := count_, arrived := [(key, m)], pc, start := now }
  | some b => { b with arrived := put b.arrived key ((look b.arrived key).getD 0 ||| m) }

/-- The arrival's form or count is not one the barrier takes (R173). -/
def barBad (b : Option Barrier) (counted : Bool) (count_ limit : Nat) : Bool :=
  (counted && decide (count_ = 0 ∨ count_ > limit)) ||
    b.any fun b => b.counted != counted || (counted && b.count != count_)

/-- The count of a barrier form: IMM19 in the counted form. -/
def Iss.count (i : Iss) : Nat := if i.mo = 1 then i.f.imm.toNat else 0

/-- BAR (R173); the arrival is a release (R123). -/
def execBar (f : Fields) (s : State) : Outcome State Fault Refusal :=
  tiledInstr 1 0x0C f s sameOut fun s i =>
    let id := i.f.a.toNat
    let k := i.w.crew.getD 0
    let b := (look s.crews k).bind fun c => look c.bars id
    if i.act = 0 then i.done s
    else if barBad b (i.mo == 1) i.count 512 then i.raise s Cls.bounds i.act (fun _ => 0) fun _ => w64 id
    else
      match i.released s i.act with
      | .error s => s
      | .ok s =>
        let s' := i.await s i.act fun _ => .bar id
        let b' := Barrier.arrive b (i.mo == 1) i.count (warpKey i.core i.slot) i.act i.pc (s.resident i.core i.w)
        (s'.onCrewKey k fun c => { c with bars := put c.bars id b' }).checkBars k

/-- The unpublished GUARDED writes of a context on a core are seen by every core of a gang, which is on its die (R137). -/
def State.shareWrites (s : State) (core ctx : Nat) : State :=
  { s with wbuf := s.wbuf.map fun e => if e.core = core ∧ e.ctx = ctx then { e with gang := true } else e }

/-- GBAR (R173); the arrival is a release (R123). -/
def execGbar (f : Fields) (s : State) : Outcome State Fault Refusal :=
  tiledInstr 1 0x0D f s sameOut fun s i =>
    let id := i.f.a.toNat
    let g := (look s.crews (i.w.crew.getD 0)).elim 0 (·.gang)
    let b := (look s.gangs g).bind fun x => look x.gbars id
    if i.act = 0 then i.done s
    else if barBad b (i.mo == 1) i.count 8192 then i.raise s Cls.bounds i.act (fun _ => 0) fun _ => w64 id
    else
      match i.released s i.act with
      | .error s => s
      | .ok s =>
        let s' := i.await (s.shareWrites i.core i.w.ctx) i.act fun _ => .gbar id
        let b' := Barrier.arrive b (i.mo == 1) i.count (warpKey i.core i.slot) i.act i.pc (s.resident i.core i.w)
        (s'.onGang g fun x => { x with gbars := put x.gbars id b' }).checkGbars g

/-! ### Exit (R175) -/

/-- Lanes of a warp end: they leave every join mask and the handler. -/
def Warp.exitLanes (w : Warp) (m : Word) : Warp :=
  let w := w.onMask m fun _ x => { x with pc := 0xFFFFFFFF#32, wait := .none, hold := false, answers := [], extData := [],
                                          extErr := [], age := 0 }
  (({ w with live := w.live &&& ~~~m, j := w.j.map fun j => j &&& ~~~m } : Warp).checkJoins).endHandler

/-- The active lanes exit; barriers, the warp and its crew may complete (R173, R175). -/
def Iss.exit (i : Iss) (s : State) : State :=
  let s := i.commitWarp s fun w => w
  let s := s.onWarp i.core i.slot fun w => w.exitLanes i.act
  let s := match i.w.crew with
    | none => s
    | some k => (s.checkBars k).checkGbars ((look s.crews k).elim 0 (·.gang))
  s.checkWarp i.core i.slot

/-! ### Partition tiles (R177, R179) -/

/-- PARTSET: ILLEGAL while bound (R177). -/
def execPartset (f : Fields) (s : State) : Outcome State Fault Refusal :=
  issue 1 0x0F f s converged (fun s i =>
    if i.w.chain.bound.isSome then i.raise s Cls.illegal i.act (fun _ => 0) fun _ => (encodeW0 1 0x0F i.f).setWidth 64
    else i.commitWarp s fun w => { w with partLog := i.mo }) fun s _ => s

/-- ELECT: 1 for the lowest active lane of each tile, 0 for the group's other lanes (R179). -/
def execElect (f : Fields) (s : State) : Outcome State Fault Refusal :=
  laneInstr 1 0x10 f s fun s i =>
    let won := maskOf fun l => bitOf i.act l && lowest (i.act &&& i.w.tileOf l) == l
    i.commitWarp s fun w =>
      let d := i.f.d.toNat
      w.setM d ((w.m.getD d 0 &&& ~~~i.grp) ||| (i.grp &&& won))

/-! ### Traps (R181 to R186) -/

/-- The class of a software trap raised in the active lanes, with the IMM19 code (R185). -/
def Iss.soft (i : Iss) (s : State) (cls : Nat) : State :=
  if i.act = 0 then i.done s else i.raise s cls i.act (fun _ => 0) fun _ => w64 i.f.imm.toNat

/-- TRAP (R185). -/
def execTrap (f : Fields) (s : State) : Outcome State Fault Refusal :=
  tiledInstr 1 0x11 f s sameOut fun s i => i.soft s Cls.swtrap

/-- The resume PC of RTE in a lane (R182). -/
def Iss.resume (i : Iss) (l : Nat) : Word :=
  match i.mo with
  | 0 => i.w.tpc
  | 1 => i.w.tpc + w32 (4 * bits i.w.tcause.toNat 11 9)
  | _ => i.a32 l

/-- Lanes of bound tiles that the return would leave at different PCs, after RTE.to in some of them (R180). -/
def Iss.rteSplit (i : Iss) : Bool :=
  i.w.chain.bound.isSome && (List.range 32).any fun l => bitOf i.act l &&
    (lanesOf (i.w.tileOf l &&& i.w.live)).any fun k =>
      if bitOf i.act k then i.resume k != i.resume l
      else match (i.w.lane k).wait with | .rte r => r != i.resume l | _ => false

/-- RTE: outside a handler it is ILLEGAL (R182). -/
def execRte (f : Fields) (s : State) : Outcome State Fault Refusal :=
  laneInstr 1 0x12 f s fun s i =>
    if i.w.handler = 0 then
      if i.act = 0 then i.done s
      else i.raise s Cls.illegal i.act (fun _ => 0) fun _ => (encodeW0 1 0x12 i.f).setWidth 64
    else if i.rteSplit then i.raise s Cls.diverge i.act (fun _ => 0) fun _ => i.act.setWidth 64
    else (i.done s).onWarp i.core i.slot fun w => w.rte i.act i.resume i.f.live

/-- LPCRD (R186). -/
def execLpcrd (f : Fields) (s : State) : Outcome State Fault Refusal :=
  laneInstr 1 0x13 f s fun s i =>
    i.write s false fun l =>
      let k := (i.a32 l).toNat % 32
      (if bitOf i.w.live k then (i.w.lane k).pc else 0xFFFFFFFF#32).setWidth 64

end Sys2Proof.Machine
end

