-- ==== Sys2Proof/Machine/Integer.lean ====
section
/-! DEFINITION. The integer pipe: integer arithmetic, comparisons, bit instructions, work across lanes and mask logic
(R189 to R198). -/

namespace Sys2Proof.Machine

open Host (Outcome)

/-! ### Shared forms -/

/-- A lane instruction of ENG 2 that writes the exact result of two typed operands, by trunc or sat (R190). -/
def intOp (op : Nat) (f : Fields) (s : State) (sat : Iss → Bool) (g : Nat → Int → Int → Int) :
    Outcome State Fault Refusal :=
  laneInstr 2 op f s fun s i => i.write s i.wide fun l =>
    let x := g (tyWidth i.mo) (tyRead i.mo (i.a i.wide l)) (tyRead i.mo (i.b i.wide l))
    if sat i then tySat i.mo x else tyTrunc i.mo x

/-- No saturation. -/
def noSat (_ : Iss) : Bool := false

/-- A lane instruction of ENG 2 that writes a function of the w-bit pattern of A and the count in B (R190). -/
def shiftOp (op : Nat) (f : Fields) (s : State) (g : Nat → Nat → Nat → Nat) : Outcome State Fault Refusal :=
  laneInstr 2 op f s fun s i => i.write s i.wide fun l =>
    let w := tyWidth i.mo
    tyExtend i.mo (g w ((i.a i.wide l).toNat % 2 ^ w) (i.b32 l).toNat)

/-- A lane instruction of ENG 2 that writes a bitwise function (R190). -/
def bitOp (op : Nat) (f : Fields) (s : State) (g : DWord → DWord → DWord) : Outcome State Fault Refusal :=
  laneInstr 2 op f s fun s i => i.write s i.wide fun l => g (i.a i.wide l) (i.b i.wide l)

/-- Shifts of a w-bit pattern (R99, R190). -/
def shlN (w a c : Nat) : Nat := if c ≥ w then 0 else a * 2 ^ c % 2 ^ w
def shrN (w a c : Nat) : Nat := if c ≥ w then 0 else a / 2 ^ c
def sraN (w a c : Nat) : Nat := truncN w (signedOf w a / ((2 ^ min c (w - 1) : Nat) : Int))

/-! ### Arithmetic (R190) -/

/-- IADD (R190). -/
def execIadd (f : Fields) (s : State) : Outcome State Fault Refusal := intOp 0x00 f s noSat fun _ a b => a + b
/-- ISUB (R190). -/
def execIsub (f : Fields) (s : State) : Outcome State Fault Refusal := intOp 0x01 f s noSat fun _ a b => a - b
/-- IMUL (R190). -/
def execImul (f : Fields) (s : State) : Outcome State Fault Refusal := intOp 0x02 f s noSat fun _ a b => a * b
/-- IMULH (R190). -/
def execImulh (f : Fields) (s : State) : Outcome State Fault Refusal :=
  intOp 0x03 f s noSat fun w a b => a * b / ((2 ^ w : Nat) : Int)
/-- IAND (R190). -/
def execIand (f : Fields) (s : State) : Outcome State Fault Refusal := bitOp 0x06 f s fun a b => a &&& b
/-- IOR (R190). -/
def execIor (f : Fields) (s : State) : Outcome State Fault Refusal := bitOp 0x07 f s fun a b => a ||| b
/-- IXOR (R190). -/
def execIxor (f : Fields) (s : State) : Outcome State Fault Refusal := bitOp 0x08 f s fun a b => a ^^^ b
/-- ISHL (R190, R99). -/
def execIshl (f : Fields) (s : State) : Outcome State Fault Refusal := shiftOp 0x09 f s shlN
/-- ISHR (R190, R99). -/
def execIshr (f : Fields) (s : State) : Outcome State Fault Refusal := shiftOp 0x0A f s shrN
/-- ISRA (R190, R99). -/
def execIsra (f : Fields) (s : State) : Outcome State Fault Refusal := shiftOp 0x0B f s sraN
/-- IMIN (R190). -/
def execImin (f : Fields) (s : State) : Outcome State Fault Refusal := intOp 0x0C f s noSat fun _ a b => min a b
/-- IMAX (R190). -/
def execImax (f : Fields) (s : State) : Outcome State Fault Refusal := intOp 0x0D f s noSat fun _ a b => max a b
/-- IADDS (R190, R98). -/
def execIadds (f : Fields) (s : State) : Outcome State Fault Refusal :=
  intOp 0x17 f s (fun _ => true) fun _ a b => a + b
/-- ISUBS (R190, R98). -/
def execIsubs (f : Fields) (s : State) : Outcome State Fault Refusal :=
  intOp 0x18 f s (fun _ => true) fun _ a b => a - b

/-- IABS, saturating under .sat (R190). -/
def execIabs (f : Fields) (s : State) : Outcome State Fault Refusal :=
  laneInstr 2 0x0E f s fun s i => i.write s i.wide fun l =>
    let x : Int := (tyRead i.mo (i.a i.wide l)).natAbs
    if i.fn = 1 then tySat i.mo x else tyTrunc i.mo x

/-- IMAD (R191). -/
def execImad (f : Fields) (s : State) : Outcome State Fault Refusal :=
  laneInstr 2 0x04 f s fun s i => i.write s i.wide fun l =>
    tyTrunc i.mo (tyRead i.mo (i.a i.wide l) * tyRead i.mo (i.b i.wide l) + tyRead i.mo (i.c i.wide l))

/-- IMADW: 32-bit operands, a 64-bit addend and result (R191). -/
def execImadw (f : Fields) (s : State) : Outcome State Fault Refusal :=
  laneInstr 2 0x05 f s fun s i => i.write s true fun l =>
    i64 (tyRead i.mo (i.a false l) * tyRead i.mo (i.b false l) + leadRead (i.mo == 1) (i.c true l))

/-- Sum of the products of the lanes of two words, each `w` bits wide, of the given signs. -/
def dotWords (w n : Nat) (sa sb : Bool) (a b : Word) : Int :=
  (List.range n).foldl (fun (x : Int) k =>
    x + readInt w sa (a.toNat / 2 ^ (w * k)) * readInt w sb (b.toNat / 2 ^ (w * k))) 0

/-- IDP4 and IDP2: the exact dot product added to C, saturated once (R191, R98). -/
def dotOp (op w n unsignedMo : Nat) (f : Fields) (s : State) : Outcome State Fault Refusal :=
  laneInstr 2 op f s fun s i => i.write s false fun l =>
    let un := i.mo == unsignedMo
    let x := readInt 32 (!un) (i.c false l).toNat +
      dotWords w n (!un) (!un && i.mo != 8) (i.w.getV l i.f.a.toNat) (i.b32 l)
    let ty := if un then 1 else 0
    if i.fn = 1 then tySat ty x else tyTrunc ty x

/-- IDP4 (R191). -/
def execIdp4 (f : Fields) (s : State) : Outcome State Fault Refusal := dotOp 0x19 8 4 5 f s
/-- IDP2 (R191). -/
def execIdp2 (f : Fields) (s : State) : Outcome State Fault Refusal := dotOp 0x1A 16 2 3 f s

/-! ### Comparison and selection (R192) -/

/-- The outcome of ICMP in a lane. -/
def Iss.icmp (i : Iss) (l : Nat) : Bool :=
  icmpHolds (bits i.fn 2 0) (tyRead i.mo (i.a i.wide l)) (tyRead i.mo (i.b i.wide l))

/-- A comparison's outcome, to a mask or with .v to a register (R192). -/
def Iss.writeCond (i : Iss) (s : State) (p : Nat → Bool) : State :=
  if bits i.fn 3 3 = 1 then i.write s false fun l => if p l then 1 else 0 else i.writeMask s p

/-- ICMP (R192). -/
def execIcmp (f : Fields) (s : State) : Outcome State Fault Refusal :=
  laneInstr 2 0x0F f s fun s i => i.writeCond s i.icmp

/-- ISEL (R192). -/
def execIsel (f : Fields) (s : State) : Outcome State Fault Refusal :=
  laneInstr 2 0x10 f s fun s i => i.write s i.wide fun l =>
    if bitOf (i.w.getM i.f.c.toNat) l then i.a i.wide l else i.b i.wide l

/-! ### Bit instructions (R193) -/

/-- IPOP (R193). -/
def execIpop (f : Fields) (s : State) : Outcome State Fault Refusal :=
  laneInstr 2 0x11 f s fun s i => i.write s false fun l => w64 (popN (tyWidth i.mo) (i.a i.wide l).toNat)

/-- ICLZ (R193). -/
def execIclz (f : Fields) (s : State) : Outcome State Fault Refusal :=
  laneInstr 2 0x12 f s fun s i => i.write s false fun l => w64 (clzN (tyWidth i.mo) (i.a i.wide l).toNat)

/-- IBREV (R193). -/
def execIbrev (f : Fields) (s : State) : Outcome State Fault Refusal :=
  laneInstr 2 0x13 f s fun s i => i.write s i.wide fun l => w64 (brevN (tyWidth i.mo) (i.a i.wide l).toNat)

/-- The bytes that IPERM picks (R193). -/
def permute (a b sel : Word) : Nat :=
  (List.range 4).foldl (fun r k =>
    let x := bits sel.toNat (4 * k + 3) (4 * k)
    r + (if x ≥ 8 then 0 else (join64 b a).toNat / 2 ^ (8 * x) % 256) * 2 ^ (8 * k)) 0

/-- IPERM (R193). -/
def execIperm (f : Fields) (s : State) : Outcome State Fault Refusal :=
  laneInstr 2 0x14 f s fun s i => i.write s false fun l =>
    w64 (permute (i.w.getV l i.f.a.toNat) (i.b32 l) (i.w.getV l i.f.c.toNat))

/-- Position and length of a bit field in operand B (R193). -/
def fieldOf (b : Word) : Nat × Nat := (bits b.toNat 4 0, min (bits b.toNat 13 8) 32)

/-- IBFE (R193). -/
def execIbfe (f : Fields) (s : State) : Outcome State Fault Refusal :=
  laneInstr 2 0x15 f s fun s i => i.write s false fun l =>
    let (pos, len) := fieldOf (i.b32 l)
    i64 (extractField 32 (i.mo == 0) (i.w.getV l i.f.a.toNat).toNat pos len)

/-- IBFI (R193). -/
def execIbfi (f : Fields) (s : State) : Outcome State Fault Refusal :=
  laneInstr 2 0x16 f s fun s i => i.write s false fun l =>
    let (pos, len) := fieldOf (i.b32 l)
    w64 (insertField 32 (i.w.getV l i.f.c.toNat).toNat (i.w.getV l i.f.a.toNat).toNat pos len)

/-- IMOV (R193). -/
def execImov (f : Fields) (s : State) : Outcome State Fault Refusal :=
  laneInstr 2 0x1B f s fun s i => i.write s i.wide fun l => i.b i.wide l

/-! ### Work across lanes (R194 to R197) -/

/-- The source lane of SHFL (R195). -/
def shflSource (mode size l k : Nat) : Nat :=
  let r := l % size
  let base := l - r
  match mode with
  | 0 => base + k % size
  | 1 => if k ≤ r then l - k else l
  | 2 => if r + k < size then l + k else l
  | _ => base + (r ^^^ k) % size

/-- SHFL: an exited source lane supplies 0 (R195, R176). -/
def execShfl (f : Fields) (s : State) : Outcome State Fault Refusal :=
  laneInstr 2 0x1C f s fun s i =>
    let src (l : Nat) : Nat := shflSource i.fn i.w.tileSize l (i.b32 l).toNat
    let regs := (srcRegs .lane i.eng i.op i.f).1
    let bad := i.act &&& maskOf fun l => bitOf i.w.live (src l) && (i.w.lane (src l)).bad.any fun r => regs.contains r
    if bad ≠ 0 then i.raiseBad s bad
    else i.write s i.wide fun l => if bitOf i.w.live (src l) then i.a i.wide (src l) else 0

/-- The result of VOTE in a lane (R196). -/
def Iss.vote (i : Iss) (l : Nat) : Word :=
  let ls := i.tileActs l
  let v (k : Nat) : Word := i.w.getV k i.f.a.toNat
  match i.fn with
  | 0 => if ls.all fun k => v k != 0 then 1 else 0
  | 1 => if ls.any fun k => v k != 0 then 1 else 0
  | 2 => if ls.all fun k => v k == v l then 1 else 0
  | _ => maskOf fun k => decide (k ∈ ls) && v k != 0

/-- VOTE (R196). -/
def execVote (f : Fields) (s : State) : Outcome State Fault Refusal :=
  laneInstr 2 0x1D f s fun s i => i.write s false fun l => (i.vote l).setWidth 64

/-- The exact combination of a list of typed values; the identity when it is empty (R197). -/
def combine (op mo : Nat) (xs : List Int) : Int :=
  let w := tyWidth mo
  let pat (g : Nat → Nat → Nat) (e : Nat) : Int := (xs.foldl (fun r x => g r (truncN w x)) e : Nat)
  match op with
  | 0 => xs.foldl (· + ·) 0
  | 1 => xs.foldl min (maxInt w (tySigned mo))
  | 2 => xs.foldl max (minInt w (tySigned mo))
  | 3 => pat (fun a b => a &&& b) (2 ^ w - 1)
  | 4 => pat (fun a b => a ||| b) 0
  | _ => pat (fun a b => a ^^^ b) 0

/-- A combination over lanes, as written (R197). -/
def Iss.combined (i : Iss) (ls : List Nat) : DWord :=
  let x := combine (bits i.fn 2 0) i.mo (ls.map fun k => tyRead i.mo (i.a i.wide k))
  if bits i.fn 3 3 = 1 then tySat i.mo x else tyTrunc i.mo x

/-- REDI (R197). -/
def execRedi (f : Fields) (s : State) : Outcome State Fault Refusal :=
  laneInstr 2 0x1E f s fun s i => i.write s i.wide fun l => i.combined (i.tileActs l)

/-- SCANI (R197). -/
def execScani (f : Fields) (s : State) : Outcome State Fault Refusal :=
  laneInstr 2 0x1F f s fun s i => i.write s i.wide fun l =>
    i.combined ((i.tileActs l).filter fun k => decide (k < l) || (decide (k = l) && decide (bits i.fn 4 4 = 0)))

/-! ### Masks (R198) -/

/-- MLOG (R198). -/
def execMlog (f : Fields) (s : State) : Outcome State Fault Refusal :=
  laneInstr 2 0x20 f s fun s i => i.commitWarp s fun w =>
    w.setM i.f.d.toNat (maskOf fun l =>
      let a := if bitOf (i.w.getM i.f.a.toNat) l then 2 else 0
      let b := if bitOf (i.w.getM i.f.b.toNat) l then 1 else 0
      i.fn / 2 ^ (a + b) % 2 == 1)

/-- MMOV (R198). -/
def execMmov (f : Fields) (s : State) : Outcome State Fault Refusal :=
  laneInstr 2 0x21 f s fun s i =>
    match i.mo with
    | 0 => i.commitWarp s fun w => w.setM i.f.d.toNat (i.w.getM i.f.a.toNat)
    | 1 => i.writeMask s fun l => i.w.getV l i.f.a.toNat != 0
    | 2 => i.write s false fun _ => (i.w.getM i.f.a.toNat).setWidth 64
    | _ => i.commitWarp s fun w => w.setM i.f.d.toNat (lo32 i.f.immValue)

end Sys2Proof.Machine
end

