-- ==== Sys2Proof/Machine/Float.lean ====
section
/-! DEFINITION. The float pipe (R199 to R206). -/

namespace Sys2Proof.Machine

open Host (Outcome)

/-! ### Shared forms -/

/-- The instruction writes a result in each active lane and counts its events in each (R115). -/
def Iss.writeFp (i : Iss) (s : State) (wide : Bool) (r : Nat → DWord × List Nat) : State :=
  (i.write s wide fun l => (r l).1).countFp i.w.task i.pc ((lanesOf i.act).flatMap fun l => (r l).2)

/-- Scalar operands of a lane (R199). -/
def Iss.fa (i : Iss) (l : Nat) : Val := scalarFlt i.mo (i.w.getV l i.f.a.toNat)
def Iss.fb (i : Iss) (l : Nat) : Val := scalarFlt i.mo (i.bFloat l)
def Iss.fc (i : Iss) (l : Nat) : Val := scalarFlt i.mo (i.w.getV l i.f.c.toNat)

/-- The rounding mode of FN[2:0] (R78). -/
def Iss.mode (i : Iss) : Mode := modeOf (bits i.fn 2 0)

/-- Sums round an exact zero down only under RDN (R105). -/
def Mode.down (m : Mode) : Bool := m == .rdn

/-- A result delivered in a float format, with its events as counter numbers (R113, R115). -/
def deliverIn (fmt : Nat) (mode : Mode) (opInf : Bool) (y : Val) : Nat × List Nat :=
  let (p, ev) := (fltOf fmt).deliver mode opInf y
  (p, counters (groupOf fmt) ev)

/-- A scalar instruction that rounds an exact result of A and B once (R200). -/
def floatOp (op : Nat) (f : Fields) (s : State) (g : Bool → Val → Val → Val) : Outcome State Fault Refusal :=
  laneInstr 3 op f s fun s i => i.writeFp s false fun l =>
    let r := deliverIn i.mo i.mode ((i.fa l).isInf || (i.fb l).isInf) (g i.mode.down (i.fa l) (i.fb l))
    (w64 r.1, r.2)

/-- FADD (R200). -/
def execFadd (f : Fields) (s : State) : Outcome State Fault Refusal := floatOp 0x00 f s fun dn a b => Val.add dn a b
/-- FSUB (R200). -/
def execFsub (f : Fields) (s : State) : Outcome State Fault Refusal := floatOp 0x01 f s fun dn a b => Val.add dn a b.flip
/-- FMUL (R200). -/
def execFmul (f : Fields) (s : State) : Outcome State Fault Refusal := floatOp 0x02 f s fun _ a b => Val.mul a b

/-- FFMA, one rounding (R200). -/
def execFfma (f : Fields) (s : State) : Outcome State Fault Refusal :=
  laneInstr 3 0x03 f s fun s i => i.writeFp s false fun l =>
    let (a, b, c) := (i.fa l, i.fb l, i.fc l)
    let r := deliverIn i.mo i.mode (a.isInf || b.isInf || c.isInf) (Val.add i.mode.down (Val.mul a b) c)
    (w64 r.1, r.2)

/-- The smaller or larger of two patterns of a float format, with −0 below +0; the canonical NaN when both are NaN
(R201). -/
def minMax (fl : Flt) (larger : Bool) (p q : Nat) : Nat :=
  let (x, y) := (fl.decode p, fl.decode q)
  if x.isNan then (if y.isNan then fl.nan.getD 0 else q)
  else if y.isNan then p
  else
    let below := decide (Val.cmp x y = -1) || (decide (Val.cmp x y = 0) && x.neg && !y.neg)
    if below then (if larger then q else p) else if larger then p else q

/-- The pattern of a scalar operand. -/
def scalarPat (mo : Nat) (x : Word) : Nat := if mo = 0 then x.toNat else x.toNat % 2 ^ 16

/-- A NaN event when the delivered pattern is NaN (R201). -/
def nanEvent (fmt p : Nat) : List Nat := if ((fltOf fmt).decode p).isNan then counters (groupOf fmt) [0] else []

/-- FMIN and FMAX (R201). -/
def minMaxOp (op : Nat) (larger : Bool) (f : Fields) (s : State) : Outcome State Fault Refusal :=
  laneInstr 3 op f s fun s i => i.writeFp s false fun l =>
    let p := minMax (fltOf i.mo) larger (scalarPat i.mo (i.w.getV l i.f.a.toNat)) (scalarPat i.mo (i.bFloat l))
    (w64 p, nanEvent i.mo p)

/-- FMIN (R201). -/
def execFmin (f : Fields) (s : State) : Outcome State Fault Refusal := minMaxOp 0x04 false f s
/-- FMAX (R201). -/
def execFmax (f : Fields) (s : State) : Outcome State Fault Refusal := minMaxOp 0x05 true f s

/-- FCMP (R202). -/
def execFcmp (f : Fields) (s : State) : Outcome State Fault Refusal :=
  laneInstr 3 0x06 f s fun s i => i.writeCond s fun l => fcmpHolds (bits i.fn 2 0) (i.fa l) (i.fb l)

/-- The pattern of FSGN (R203). -/
def signFrom (fl : Flt) (mode p q : Nat) : Nat :=
  let top := 2 ^ (fl.eb + fl.mb)
  let (sp, sq) := (p / top % 2, q / top % 2)
  let sg := match mode with
    | 0 => sq
    | 1 => 1 - sq
    | _ => (sp + sq) % 2
  if (fl.decode p).isNan then fl.nan.getD 0 else p % top + sg * top

/-- FSGN; a NaN delivered counts its event (R203, R114). -/
def execFsgn (f : Fields) (s : State) : Outcome State Fault Refusal :=
  laneInstr 3 0x07 f s fun s i => i.writeFp s false fun l =>
    let p := signFrom (fltOf i.mo) i.fn (scalarPat i.mo (i.w.getV l i.f.a.toNat)) (scalarPat i.mo (i.bFloat l))
    (w64 p, nanEvent i.mo p)

/-! ### FCVT (R204) -/

/-- The source value of FCVT in a lane. -/
def Iss.cvtSource (i : Iss) (l : Nat) : Val :=
  let im := i.f.imm.toNat
  let sf := bits im 4 0
  if bits im 14 14 = 1 then Val.ofInt (readInt 64 (sf == 0x0E) (i.w.getV2 l i.f.a.toNat).toNat)
  else
    decodeElem sf ((i.w.getV l i.f.a.toNat).toNat / 2 ^ (32 / fcvtSlots sf * bits im 10 8) % 2 ^ fmtBits sf)

/-- The converted element and its events (R112, R115). -/
def Iss.cvt (i : Iss) (l : Nat) : Nat × List Nat :=
  let im := i.f.imm.toNat
  let sf := bits im 4 0
  let df := bits i.fn 7 3
  if bits im 15 15 = 1 then
    let (p, ev) := encodeInt 64 (df == 0x0E) i.mode (i.cvtSource l)
    (p, if sf < 8 then counters (groupOf sf) ev else [])
  else convert sf df i.mode (bits im 7 7 = 1) (i.cvtSource l)

/-- FCVT: it writes the whole register or pair, or one slot (R204). -/
def execFcvt (f : Fields) (s : State) : Outcome State Fault Refusal :=
  laneInstr 3 0x08 f s fun s i =>
    let im := i.f.imm.toNat
    let n := fcvtSlots (bits i.fn 7 3)
    i.writeFp s (bits im 15 15 = 1) fun l =>
      let (p, ev) := i.cvt l
      if n = 1 then (w64 p, ev)
      else (w64 (insertField 32 (i.w.getV l i.f.d.toNat).toNat p (32 / n * bits im 13 11) (32 / n)), ev)

/-- FCLASS (R203). -/
def execFclass (f : Fields) (s : State) : Outcome State Fault Refusal :=
  laneInstr 3 0x09 f s fun s i => i.write s false fun l =>
    let fl := fltOf i.mo
    w64 (2 ^ classOf fl (fl.decode ((i.w.getV l i.f.a.toNat).toNat % 2 ^ fl.width)))

/-- FSCALE (R200). -/
def execFscale (f : Fields) (s : State) : Outcome State Fault Refusal :=
  laneInstr 3 0x0A f s fun s i => i.writeFp s false fun l =>
    let r := deliverIn i.mo i.mode (i.fa l).isInf ((i.fa l).scale (i.b32 l).toInt)
    (w64 r.1, r.2)

/-! ### Packed pairs (R199, R200) -/

/-- An instruction over both elements of packed pairs in a format. -/
def pairOp (op fmt : Nat) (f : Fields) (s : State) (g : Bool → Val → Val → Val → Val) (usesC : Bool) :
    Outcome State Fault Refusal :=
  laneInstr 3 op f s fun s i => i.writeFp s false fun l =>
    let one (e : Nat) : Nat × List Nat :=
      let a := (fltOf fmt).decode (pairElem (i.w.getV l i.f.a.toNat) e)
      let b := (fltOf fmt).decode (pairElem (i.bFloat l) e)
      let c := if usesC then (fltOf fmt).decode (pairElem (i.w.getV l i.f.c.toNat) e) else Val.zero false
      deliverIn fmt i.mode (a.isInf || b.isInf || c.isInf) (g i.mode.down a b c)
    (w64 ((one 0).1 + (one 1).1 * 2 ^ 16), (one 0).2 ++ (one 1).2)

/-- HADD2 (R200). -/
def execHadd2 (f : Fields) (s : State) : Outcome State Fault Refusal :=
  pairOp 0x0B 1 f s (fun dn a b _ => Val.add dn a b) false
/-- HMUL2 (R200). -/
def execHmul2 (f : Fields) (s : State) : Outcome State Fault Refusal := pairOp 0x0C 1 f s (fun _ a b _ => Val.mul a b) false
/-- HFMA2 (R200). -/
def execHfma2 (f : Fields) (s : State) : Outcome State Fault Refusal :=
  pairOp 0x0D 1 f s (fun dn a b c => Val.add dn (Val.mul a b) c) true
/-- BADD2 (R200). -/
def execBadd2 (f : Fields) (s : State) : Outcome State Fault Refusal :=
  pairOp 0x0E 2 f s (fun dn a b _ => Val.add dn a b) false
/-- BMUL2 (R200). -/
def execBmul2 (f : Fields) (s : State) : Outcome State Fault Refusal := pairOp 0x0F 2 f s (fun _ a b _ => Val.mul a b) false
/-- BFMA2 (R200). -/
def execBfma2 (f : Fields) (s : State) : Outcome State Fault Refusal :=
  pairOp 0x10 2 f s (fun dn a b c => Val.add dn (Val.mul a b) c) true

/-! ### Reductions and dot products (R205, R206) -/

/-- The pairwise tree over 2^k leaves from `b`, absent leaves passed over (R206). -/
def redTree (node : Nat → Nat → Nat × List Nat) (leaf : Nat → Option Nat) : Nat → Nat → Option Nat × List Nat
  | 0, b => (leaf b, [])
  | k + 1, b =>
    let (x, ex) := redTree node leaf k b
    let (y, ey) := redTree node leaf k (b + 2 ^ k)
    match x, y with
    | none, q => (q, ex ++ ey)
    | p, none => (p, ex ++ ey)
    | some p, some q => let (r, ev) := node p q; (some r, ex ++ ey ++ ev)

/-- REDF over the tile of a lane: the result, and the events that every active lane of the tile counts (R206). A NaN
that no node touched is still delivered canonical (R101). -/
def Iss.redf (i : Iss) (l : Nat) : Nat × List Nat :=
  let fl := fltOf i.mo
  let op := bits i.fn 4 3
  let node (p q : Nat) : Nat × List Nat :=
    if op = 0 then
      let (x, y) := (fl.decode p, fl.decode q)
      deliverIn i.mo i.mode (x.isInf || y.isInf) (Val.add i.mode.down x y)
    else (minMax fl (op == 2) p q, [])
  let leaf (k : Nat) : Option Nat := if bitOf i.act k then some (scalarPat i.mo (i.w.getV k i.f.a.toNat)) else none
  let (r, ev) := redTree node leaf i.w.partLog (l / i.w.tileSize * i.w.tileSize)
  let p := r.getD 0
  let p := if (fl.decode p).isNan then fl.nan.getD 0 else p
  (p, if op = 0 ∧ 1 < popCount (i.act &&& i.w.tileOf l) then ev else nanEvent i.mo p)

/-- REDF (R206). -/
def execRedf (f : Fields) (s : State) : Outcome State Fault Refusal :=
  laneInstr 3 0x11 f s fun s i => i.writeFp s false fun l => (w64 (i.redf l).1, (i.redf l).2)

/-- FDOT2 (R205). -/
def execFdot2 (f : Fields) (s : State) : Outcome State Fault Refusal :=
  laneInstr 3 0x12 f s fun s i => i.writeFp s false fun l =>
    let el (x : Word) (e : Nat) : Val := (fltOf i.mo).decode (pairElem x e)
    let a := i.w.getV l i.f.a.toNat
    let b := i.bFloat l
    let c := scalarFlt 0 (i.w.getV l i.f.c.toNat)
    let y := Val.add i.mode.down (Val.add i.mode.down (Val.mul (el a 0) (el b 0)) (Val.mul (el a 1) (el b 1))) c
    let r := deliverIn 0 i.mode ((el a 0).isInf || (el a 1).isInf || (el b 0).isInf || (el b 1).isInf || c.isInf) y
    (w64 r.1, r.2)

end Sys2Proof.Machine
end

