-- ==== Sys2Proof/Machine/Home.lean ====
section
/-! DEFINITION. The home engine (R261 to R290): owned grains, guards, releases and their write-back, publishing and
discarding, and leases. -/

namespace Sys2Proof.Machine

open Host (Outcome)

/-! ### Operands (R262, R263) -/

/-- The offset of a home instruction whose IMM19 is a displacement (R262). -/
def Caller.homeOff (c : Caller) (l : Nat) : Int := (c.off32 l : Int) + c.f.simm

/-- The scope that FN names, or a default (R263). -/
def Caller.scope (c : Caller) (default : Nat) : Nat := if bits c.fn 2 2 = 1 then bits c.fn 5 3 else default

/-- A space other than GLOBAL and PEER is out of place (Table 11.4). -/
def guardOk (e : BitVec 256) : Bool :=
  Entry.pr e && Entry.pw e && Entry.pa e && Entry.kind e == 3 && decide (Entry.space e ≤ 1)

/-- What a guard instruction asks (Table 11.4). -/
def Caller.guardRef (c : Caller) (l : Nat) : Ref :=
  { h := c.handle l, o := c.homeOff l, q := { w := 8, align := 8, acc := 8, ok4 := guardOk, own := false } }

/-- The handle of the lane that asks lies in PEER space. -/
def Caller.atPeer (c : Caller) (s : State) (h : Nat) : Bool :=
  Entry.space (s.entry (c.who s (c.lanes.headD 0)) h) == 1

/-- A thread waits for a reply; the lanes of its group that are not active go past. -/
def Caller.await (c : Caller) (s : State) (wait : Wait) : State :=
  match c with
  | .warp i _ => i.await s i.act fun _ => wait
  | .lead i => s.onLead i.core i.slot fun x =>
      { x with wait, adv := i.f.len, instr := x.instr + 1, sp := i.f.live,
               lastSp := if i.f.live.isSome then i.f.live else x.lastSp }

/-- A waiting lead thread goes on after its instruction. -/
def Lead.pass (x : Lead) : Lead :=
  { x with pc := x.pc + w32 x.adv, wait := .none, hold := false, answers := [], extData := [], extErr := [] }

/-! ### Guards (R270 to R273) -/

/-- A guard is requested at its home (R271, R273). -/
def Caller.requestGuard (c : Caller) (s : State) (pa : Nat) (once : Bool) : State :=
  let (id, s) := s.fresh
  let r : GuardReq :=
    { thread := c.thread, lane := c.lanes.headD 0, group := match c with | .warp i _ => i.act | .lead _ => 0,
      ctx := c.ctx, pa, shared := c.mo == 1, once, dest := c.f.d.toNat,
      unqueued := !once && decide (s.guardsAt (homeHub pa) ≥ 8192), reply := none }
  (c.await { s with guards := put s.guards id r } (.reply id)).serveGuard pa

/-- GACQ and GTRY of one thread: the thread's own earlier accesses to the word are performed first (R122, R124). -/
def Caller.acquireGuard (c : Caller) (s : State) (once : Bool) : State :=
  c.settle s 8 c.guardRef (fun _ => .guard c.op (c.mo == 1)) c.acquired fun loc s =>
    let l := c.lanes.headD 0
    match loc l with
    | .dev pa =>
      let mine (p : Pending) : Bool := p.agent == c.agent l && p.pa / 64 == pa / 64
      if c.leasedOut s pa || s.cutOff c.core then c.waitLines s loc
      else if s.fenced (c.agent l) && s.pending.any mine then c.behindFence s
      else c.requestGuard (s.performWhere mine) pa once
    | x => c.status s (natOf (s.loadBytes (c.who s l) x 4))

/-- GREL of one thread: a completion point and a release of every active lane; a peer that answers other than 0 did not
find its guard held in the mode (R272, R276, R280; log 52). -/
def Caller.releaseGuard (c : Caller) (s : State) : State :=
  let l := c.lanes.headD 0
  let h := c.handle l
  c.settle s 8 c.guardRef (fun _ => .guard c.op (c.mo == 1))
    (fun s => if c.atPeer s h then c.released s else do c.performed (← c.completion s)) fun loc s =>
    match loc l with
    | .dev pa =>
      let o := (c.homeOff l).toNat
      let key := s.syncAt (c.who s l) 1 h o
      c.done (c.release s (.grel pa (c.mo == 1)) (c.scope 4) (c.unpublished s fun e => s.sameSync e.ctx e.sync c.ctx key) h o).2
    | x =>
      if natOf (s.loadBytes (c.who s l) x 4) = 0 then c.done s
      else
        let (id, s) := c.release s (.grel 0 (c.mo == 1)) 4 [] h (c.homeOff l).toNat
        c.done { s with releases := adjust s.releases id fun r => { r with failed := some (Cls.bounds, r.handle, r.off) } }

/-- GACQ (R271). -/
def execGacq (f : Fields) (s : State) : Outcome State Fault Refusal :=
  issue 7 0x02 f s anyway (fun s i => i.elected s fun c => c.acquireGuard s false) fun s i =>
    (Caller.lead i).acquireGuard s false

/-- GTRY (R271). -/
def execGtry (f : Fields) (s : State) : Outcome State Fault Refusal :=
  issue 7 0x03 f s anyway (fun s i => i.elected s fun c => c.acquireGuard s true) fun s i =>
    (Caller.lead i).acquireGuard s true

/-- GREL (R272). -/
def execGrel (f : Fields) (s : State) : Outcome State Fault Refusal :=
  issue 7 0x04 f s anyway (fun s i => i.elected s fun c => c.releaseGuard s) fun s i => (Caller.lead i).releaseGuard s

/-- GUARD_REQUEST_RETRY: a request that found the store full is made again (R273). -/
def execGuardRequestRetry (id : Nat) (s : State) : Outcome State Fault Refusal :=
  match look s.guards id with
  | none => .next s
  | some g =>
    .next (if g.unqueued && decide (s.guardsAt (homeHub g.pa) < 8192) then
      ({ s with guards := put s.guards id { g with unqueued := false } } : State).serveGuard g.pa else s)

/-! ### Write-back of releases (R280, R281) -/

/-- A release as an accessor, for a write of the given context and core. -/
def Release.who (r : Release) (s : State) (id ctx core : Nat) : Who :=
  { agent := .release id, ctx, core := some core, slot := 0, loose := false, secure := s.worldOf core,
    answers := r.answers, extData := r.extData, extErr := r.extErr, args := none, waits := true }

/-- The object whose release keeps writes below DEVICE, with the releasing agent and its PC. -/
def Release.obj (r : Release) : Option (Nat × Agent × Word) :=
  match r.kind with | .grel pa _ => some (pa, r.agent, r.pc) | _ => none

/-- The release changes. -/
def State.onRelease (s : State) (id : Nat) (g : Release → Release) : State := { s with releases := adjust s.releases id g }

/-- A write-back fails: what it has not written is discarded, and the release stays withheld; a guard whose earlier release
covers some of that is granted to nobody (R129, R281). -/
def State.failRelease (s : State) (id cls : Nat) (e : WEntry) (rest : List WEntry) : State :=
  let gone := e.id :: rest.map (·.id)
  let objects := (e :: rest).filterMap (·.held)
  let s := objects.foldl (fun (s : State) o => s.onSync o fun x => { x with stuck := true }) s
  ({ s with wbuf := s.wbuf.filter fun x => !(gone.contains x.id) } : State).onRelease id fun r =>
    { r with failed := some (cls, e.handle, e.off - e.va % 64) }

/-- The release takes effect; at a guard word under a lease it waits for the end of the lease (R255, R272, R277, R286). -/
def State.takeEffect (s : State) (id : Nat) (r : Release) : State :=
  let gone (s : State) : State := { s with releases := drop s.releases id }
  match r.kind with
  | .fence => gone s
  | .arrive => gone { s with atoms := mapS s.atoms fun _ a => if a.rel = some id then { a with rel := none } else a }
  | .forced pa => (gone s).serveGuard pa
  | .grel pa shared =>
    let t : Thread := match r.agent with | .lane c k _ => .warp c k | .lead c k => .lead c k | _ => .warp r.core 0
    if s.leased (pa / 64) then s.probe (pa / 64) none
    else if s.heldIn pa shared then (gone s).dropGuard pa shared r.scope t
    else (s.onRelease id fun r => { r with failed := some (Cls.bounds, r.handle, r.off) }).serveGuard pa

/-- A buffered store for a peer goes to it, and the release waits for the answer (R276, R450). -/
def State.sendPeer (s : State) (id : Nat) (e : WEntry) : State :=
  let (group, s) := s.fresh
  let (x, s) := s.fresh
  ({ s with exts := put s.exts x { agent := .release id, ctx := e.ctx, loc := e.loc, kind := .write e.bytes, group } } :
    State).onRelease id fun r => { r with wait := .ext group }

/-- The peer's answer to a store that a release sent it is used up. -/
def Release.took (r : Release) (loc : Loc) : Release := { r with extData := r.extData.filter fun d => d.1 != loc }

/-- An entry has left the write buffers. -/
def State.unbuffer (s : State) (e : WEntry) : State := { s with wbuf := s.wbuf.filter fun x => x.id != e.id }

/-- The entries of a release go out in order; it takes effect after the last (R280). -/
def State.writeBack (id : Nat) (r : Release) : List WEntry → State → State
  | [], s => s.takeEffect id r
  | e :: rest, s =>
    if r.scope ≤ 1 then State.writeBack id r rest (s.keepBelow e r.obj false e.loc)
    else if s.cutOff e.core then s
    else
      let who := r.who s id e.ctx e.core
      match e.loc with
      | .peer _ _ _ =>
        if r.scope ≤ 3 then State.writeBack id r rest (s.keepBelow e r.obj true e.loc)
        else
          match extFail who e.loc with
          | some o => s.failRelease id o.cls e rest
          | none =>
            if r.extData.any fun d => d.1 == e.loc then
              State.writeBack id (r.took e.loc) rest ((s.unbuffer e).onRelease id fun r => r.took e.loc)
            else s.sendPeer id e
      | _ =>
        match s.translate who e.va 2 with
        | .ok (.dev pa) sec =>
          if sec ≠ s.worldOf e.core then s.failRelease id Cls.world e rest
          else if pa / 64 ∈ s.lost then s.stopLost e.ctx (dieOf e.core)
          else if r.scope ≤ 3 then State.writeBack id r rest (s.keepBelow e r.obj true (.dev pa))
          else State.writeBack id r rest (s.publishAt e pa)
        | .miss page host =>
          let (w, s) := s.requestWalk e.ctx page 2 (hubOfDie (dieOf e.core)) host
          s.onRelease id fun r => { r with wait := .walk [w] }
        | .page va cause =>
          let (f, s) := (s.countFault e.ctx Cls.page).postFault (.release id) e.ctx va 2 cause 0x11 e.core
          s.onRelease id fun r => { r with wait := .park f.toList [], answers := [] }
        | .hostBacked page =>
          let (w, s) := (s.countFault e.ctx Cls.page).requestService e.ctx page 2 (hubOfDie (dieOf e.core))
          s.onRelease id fun r => { r with wait := .park [] [w], answers := [] }
        | .fail _ cls _ => s.failRelease id cls e rest
        | _ => s.failRelease id Cls.pageFatal e rest

/-- RELEASE_WRITEBACK_COMPLETE (R280, R281). A release of a context that is being killed is never granted: it ends without
effect (R274, R441). -/
def execReleaseWritebackComplete (id : Nat) (s : State) : Outcome State Fault Refusal :=
  match look s.releases id with
  | none => .next s
  | some r =>
    .next (if r.wait ≠ .none ∨ r.failed ≠ none then s
    else if s.runs r.ctx then State.writeBack id r (s.wbuf.filter fun e => r.entries.contains e.id) s
    else { s with releases := drop s.releases id })

/-- FORCED_PUBLISH: the holder of unpublished writes of a guard begins their write-back, when an acquire that they are not
visible to waits (R277). -/
def execForcedPublish (objAddr : Nat) (s : State) : Outcome State Fault Refusal :=
  let wanted := s.guards.any fun e => e.2.pa == objAddr && e.2.reply.isNone && !e.2.unqueued &&
    s.mustPublish objAddr e.2.thread
  .next (if wanted then s.publishHeld objAddr else s)

/-! ### Publishing and discarding (R278, R279) -/

/-- The length of a range (Table 11.2). -/
def Caller.len (c : Caller) (l : Nat) : Nat := c.reg l c.f.c.toNat

/-- A range of a GUARDED or COHERENT region with PW (Table 11.4). -/
def publishOk (e : BitVec 256) : Bool := permits 2 e && decide (Entry.kind e ≥ 2)

/-- The pages of a range that a lane names, or its failure: steps 1 to 9 of Table 9.7 (R264), and every line of it against
the marks of R292. -/
def Caller.rangeOut (c : Caller) (s : State) (l : Nat) (o : Int) (align : Nat) (ok4 : BitVec 256 → Bool) : AccOut :=
  let who := c.who s l
  let h := c.handle l
  match s.rangeCheck who h o (c.len l) align ok4 with
  | some (n, cls) => .fail n cls false
  | none =>
    let e := s.entry who h
    let stop := o.toNat + c.len l
    let run (p : Nat × Nat) : AccOut :=
      match s.place who e p.1 { w := 1, align := 1, acc := 2, ok4, own := false } with
      | .ok (.dev pa) sec =>
        if (List.range ((pa + p.2 + 63) / 64 - pa / 64)).any fun i => s.lost.contains (pa / 64 + i) then
          .fail 11 Cls.coherenceLost false
        else .ok (.dev pa) sec
      | .ext loc => .ok loc false
      | x => x
    let ps := pieces (Entry.base e) o.toNat (c.len l)
    AccOut.decide ((ps.zip (ps.drop 1 ++ [stop])).map fun p => run (p.1, p.2 - p.1))

/-- Unpublished writes of the core to a range of addresses of the context. -/
def State.unpublishedIn (s : State) (core ctx lo hi : Nat) : List WEntry :=
  s.wbuf.filter fun e => e.core == core && e.ctx == ctx && meets e.va e.bytes.length lo (hi - lo) &&
    (match e.loc with | .dev _ => true | _ => false)

/-- The same for a range of a peer's memory. -/
def State.unpublishedFor (s : State) (core ctx ep lo hi : Nat) : List WEntry :=
  s.wbuf.filter fun e => e.core == core && e.ctx == ctx && meets e.va e.bytes.length lo (hi - lo) &&
    (match e.loc with | .peer _ p _ => p == ep | _ => false)

/-- The write-back of PUBLISH in device memory, its faults raised at the instruction (R278). -/
def Caller.publishRange (c : Caller) (s : State) (l : Nat) (lo hi : Nat) : State :=
  let es := s.unpublishedIn c.core c.ctx lo hi
  let who := c.who s l
  let scope := c.scope 4
  let out (e : WEntry) : AccOut :=
    match s.translate who e.va 2 with
    | .ok x sec => if sec ≠ who.secure then .fail 8 Cls.world false else .ok x sec
    | x => x
  let bad := es.find? fun e => match out e with | .ok _ _ => false | _ => true
  if scope ≤ 1 then c.done s
  else
    match bad with
    | some e => c.follow s 2 (fun _ => { h := e.handle, o := e.off, q := writeAsk 1 }) (fun _ => out e) (fun _ => .read 0) open_ c.done
    | none =>
      c.done (es.foldl (fun s e =>
        match out e with
        | .ok (.dev pa) _ => if scope ≤ 3 then s.keepBelow e none true (.dev pa) else s.publishAt e pa
        | _ => s) s)

/-- The write-back of PUBLISH to a peer, one store after another (R276, R278). -/
def Caller.publishPeer (c : Caller) (s : State) (l ep lo hi : Nat) : State :=
  let who := c.who s l
  match s.unpublishedFor c.core c.ctx ep lo hi with
  | [] => c.done s
  | e :: es =>
    if c.scope 5 ≤ 1 then c.done s
    else if c.scope 5 ≤ 3 then c.done ((e :: es).foldl (fun s e => s.keepBelow e none true e.loc) s)
    else
      match extFail who e.loc with
      | some (.fail n cls far) =>
        c.follow s 2 (fun _ => { h := e.handle, o := e.off, q := writeAsk 1 }) (fun _ => .fail n cls far) (fun _ => .read 0) open_ c.done
      | _ =>
        if who.extData.any fun d => d.1 == e.loc then
          (match es with
            | [] => c.done (s.unbuffer e)
            | e' :: _ => c.ask (s.unbuffer e) [(l, e'.loc)] fun _ => .write e'.bytes)
        else c.ask s [(l, e.loc)] fun _ => .write e.bytes

/-- PUBLISH of one thread. -/
def Caller.publish (c : Caller) (s : State) : State :=
  let l := c.lanes.headD 0
  let h := c.handle l
  let o := c.homeOff l
  c.follow s 2 (fun _ => { h, o, q := writeAsk 1 }) (fun _ => c.rangeOut s l o 1 publishOk) (fun _ => .read 0) open_ fun s =>
    let e := s.entry (c.who s l) h
    let lo := Entry.base e + o.toNat
    if Entry.kind e ≠ 2 then c.done s
    else if Entry.space e = 1 then c.publishPeer s l (Entry.endpt e) lo (lo + c.len l)
    else c.publishRange s l lo (lo + c.len l)

/-- PUBLISH (R278). -/
def execPublish (f : Fields) (s : State) : Outcome State Fault Refusal :=
  issue 7 0x07 f s anyway (fun s i => i.elected s fun c => c.publish s) fun s i => (Caller.lead i).publish s

/-- A release has taken the entry, or a PUBLISH has pushed it out of the core: DISCARD comes too late for it (R126, R276,
R279). -/
def State.outOfReach (s : State) (e : WEntry) : Bool :=
  e.held.isSome || e.die || s.releases.any fun r => r.2.entries.contains e.id

/-- DISCARD parks on nothing: an absent page has nothing to discard (R279). -/
def AccOut.unparked (o : AccOut) : AccOut :=
  match o with | .page _ _ => .ok (.dev 0) false | .hostBacked _ => .ok (.dev 0) false | x => x

/-- The L1 of a core drops its clean copies of the lines at a range of addresses of a context (R279). -/
def State.dropCopies (s : State) (core ctx lo hi : Nat) : State :=
  let frames := ((List.range ((hi + 4095) / 4096 - lo / 4096)).map (lo / 4096 + ·)).filterMap fun p =>
    match s.walkRaw ctx p with | .ok t => some (p, t.frame) | .error _ => none
  let hit (line : Nat) : Bool := frames.any fun e => line / 64 == e.2 && decide (lo ≤ e.1 * 4096 + line % 64 * 64 + 63 ∧ e.1 * 4096 + line % 64 * 64 < hi)
  let left (k : Nat) (e : List Nat × Bool) : List Nat × Bool :=
    if k % 4 = dieOf core ∧ !e.2 ∧ hit (k / 4) then (e.1.filter fun c => c != core, false) else e
  { s with dieDir := keep (mapS s.dieDir left) fun _ e => e.1 != [] || e.2 }

/-- DISCARD of one thread: the core's unpublished writes to the lines of the range are cancelled, and its L1 holds none of
the lines. -/
def Caller.discard (c : Caller) (s : State) : State :=
  let l := c.lanes.headD 0
  let h := c.handle l
  let o := c.homeOff l
  c.follow s 2 (fun _ => { h, o, q := writeAsk 1 }) (fun _ => (c.rangeOut s l o 1 publishOk).unparked) (fun _ => .read 0) open_ fun s =>
    let e := s.entry (c.who s l) h
    if Entry.kind e = 2 then
      let lo := (Entry.base e + o.toNat) / 64 * 64
      let hi := (Entry.base e + o.toNat + c.len l + 63) / 64 * 64
      let es := if Entry.space e = 1 then s.unpublishedFor c.core c.ctx (Entry.endpt e) lo hi else s.unpublishedIn c.core c.ctx lo hi
      let gone := (es.filter fun e => !s.outOfReach e).map (·.id)
      c.done (({ s with wbuf := s.wbuf.filter fun e => !(gone.contains e.id) } : State).dropCopies c.core c.ctx lo hi)
    else c.done (s.dropCopies c.core c.ctx (Entry.base e + o.toNat) (Entry.base e + o.toNat + c.len l))

/-- DISCARD (R279). -/
def execDiscard (f : Fields) (s : State) : Outcome State Fault Refusal :=
  issue 7 0x08 f s anyway (fun s i => i.elected s fun c => c.discard s) fun s i => (Caller.lead i).discard s

/-! ### Owned grains (R266 to R269) -/

/-- MOVE needs PW on an OWNED region (Table 11.4). -/
def moveOk (e : BitVec 256) : Bool := permits 2 e && Entry.kind e == 1

/-- The pages and grains that a lane's MOVE names, or its failure (R264, R268). -/
def Caller.moveOut (c : Caller) (s : State) (l : Nat) : AccOut := c.rangeOut s l (c.off32 l : Int) 512 moveOk

/-- The grains of a lane's range, as device grains, with the offset of each. -/
def Caller.moveGrains (c : Caller) (s : State) (l : Nat) : List (Nat × Nat) :=
  let who := c.who s l
  let e := s.entry who (c.handle l)
  (List.range (c.len l / 512)).filterMap fun n =>
    let o := c.off32 l + 512 * n
    match s.place who e o { w := 1, align := 1, acc := 2, ok4 := moveOk, own := false } with
    | .ok (.dev pa) _ => some (pa / 512, o)
    | _ => none

/-- An owner entry names the core and the context. -/
def Owner.names (e : DWord) (core ctx : Nat) : Bool := Owner.core e == core && Owner.ctx e == ctx

/-- An owner entry is the core's and context's. -/
def Owner.mine (e : DWord) (core ctx : Nat) : Bool := Owner.claimed e && !Owner.parked e && Owner.names e core ctx

/-- One grain passes to a crew, or back to unclaimed (R268). -/
def State.moveGrain (s : State) (who : Who) (target : Option Nat) (g : Nat) : State :=
  let s := s.claim who g
  let e := s.ownerOf g
  let e' := match target with
    | none => Owner.make false false (Owner.loose e) (Owner.core e) (Owner.slot e) (Owner.ctx e / 64) (Owner.ctx e % 64)
        (Owner.moves e + 1)
    | some k => Owner.make true false false (k / 4) (k % 4) (Owner.ctx e / 64) (Owner.ctx e % 64) (Owner.moves e + 1)
  { s with owners := put s.owners g e' }

/-- The crew of rank n in the gang of a crew. -/
def State.crewRank (s : State) (crew : Option Nat) (n : Nat) : Option Nat :=
  ((crew.bind fun k => look s.crews k).bind fun c => look s.gangs c.gang).bind fun g => g.crews[n]?

/-- MOVE (R268). -/
def execMove (f : Fields) (s : State) : Outcome State Fault Refusal :=
  laneInstr 7 0x00 f s fun s i => i.acting s fun c =>
    let ref (l : Nat) : Ref := { h := c.handle l, o := c.off32 l, q := writeAsk 1 }
    c.follow s 2 ref (c.moveOut s) (fun _ => .read 0) c.performed fun s =>
      let grains (l : Nat) : List (Nat × Nat) := c.moveGrains s l
      let data (l : Nat) : DWord := w64 (c.handle l % 2 ^ 16)
      let shared := i.act &&& maskOf fun l => (grains l).any fun g =>
        (lanesOf i.act).any fun l' => l' != l && (grains l').any fun g' => g'.1 == g.1
      let target := s.crewRank i.w.crew f.simm.toNat
      let foreign (l : Nat) : Option Nat :=
        ((grains l).find? fun g => Owner.claimed (s.ownerOf g.1) && !Owner.mine (s.ownerOf g.1) i.core i.w.ctx).map (·.2)
      let cls (l : Nat) : Nat :=
        if (grains l).any fun g => Owner.mine (s.ownerOf g.1) i.core i.w.ctx then Cls.grain else Cls.owner
      let bad := i.act &&& maskOf fun l => (foreign l).isSome
      if shared ≠ 0 then c.fault s Cls.bounds shared 2 0 ref
      else if f.simm ≥ 0 ∧ target = none then c.fault s Cls.bounds i.act 2 0 ref
      else if bad ≠ 0 then
        let k := cls (lowest bad)
        i.raise s k (bad &&& maskOf fun l => cls l == k) (fun l => w64 ((foreign l).getD 0)) data
      else
        let target := if f.simm < 0 then none else target
        i.done (c.lanes.foldl (fun s l =>
          (grains l).foldl (fun s g => s.moveGrain (c.who s l) target g.1) s) (s.passWrites i.core))

/-- The pair that OWNQ writes (R269). -/
def ownqPair (e : DWord) (core ctx : Nat) : DWord :=
  w64 ((if Owner.claimed e then 2 ^ 31 else 0) + (if Owner.names e core ctx then 2 ^ 30 else 0) +
    (if Owner.parked e then 2 ^ 29 else 0) + Owner.slot e * 2 ^ 12 + Owner.core e + Owner.moves e * 2 ^ 32)

/-- OWNQ needs PR on an OWNED region (Table 11.4). -/
def ownqOk (e : BitVec 256) : Bool := Entry.pr e && Entry.kind e == 1

/-- OWNQ (R269). -/
def execOwnq (f : Fields) (s : State) : Outcome State Fault Refusal :=
  laneInstr 7 0x01 f s fun s i => i.acting s fun c =>
    c.settle s 1
      (fun l => { h := c.handle l, o := c.homeOff l, q := { w := 1, align := 1, acc := 1, ok4 := ownqOk, own := false } })
      (fun _ => .read 0) open_ fun loc s =>
      i.write s true fun l =>
        match loc l with
        | .dev pa => ownqPair (s.ownerOf (pa / 512)) i.core i.w.ctx
        | _ => 0

/-! ### Leases (R285 to R290) -/

/-- LEASE needs PR and PW on a COHERENT region of the device (Table 11.4). -/
def leaseOk (e : BitVec 256) : Bool := Entry.pr e && Entry.pw e && Entry.kind e == 3 && Entry.space e == 0

/-- The lines that lanes name, each given by a stage-1 address and a device address: every line once, at the lowest such
address of the line's first byte named, ascending by it. -/
def leaseLines (named : List (Nat × Nat)) : List (Nat × Nat) :=
  let lowest : SMap Nat := named.foldl (fun m n =>
    put m (n.2 / 64) (match look m (n.2 / 64) with | some v => min v (n.1 / 64 * 64) | none => n.1 / 64 * 64)) []
  lowest.foldl (fun (m : SMap Nat) (e : Nat × Nat) => put m e.2 (e.1 * 64)) []

/-- LEASE (R285): its lines are requested one after another, each once the one before it is granted. -/
def execLease (f : Fields) (s : State) : Outcome State Fault Refusal :=
  laneInstr 7 0x05 f s fun s i => i.acting s fun c =>
    let q : Ask := { w := 64, align := 64, acc := 3, ok4 := leaseOk, own := false }
    let off (l : Nat) : Nat := c.off32 l
    c.settle s 3 (fun l => { h := c.handle l, o := off l, q }) (fun _ => .read 0) c.acquired fun loc s =>
      let named := c.lanes.map fun l =>
        (Entry.base (s.entry (c.who s l) (c.handle l)) + off l, match loc l with | .dev pa => pa | _ => 0)
      let lines := leaseLines named
      let fault (why : Nat) : State := i.raise s Cls.lease i.act (fun l => w64 (off l)) fun _ => w64 why
      let top := i.w.leases.foldl (fun n x => max n (x.va + 1)) 0
      if i.w.leases.length + lines.length > 2 then fault 0
      else if lines.any fun x => decide (x.1 < top) then fault 1
      else
        let first := s.nextId
        let ls : List Lease := mapIx (fun n x =>
          { id := first + n, line := x.2 / 64, loc := .dev x.2, va := x.1, core := i.core, slot := i.slot, hold := f.imm.toNat,
            granted := false, ended := none, start := 0 }) 0 lines
        let s := { s with nextId := first + lines.length, leaseQ := s.leaseQ ++ ls.take 1 }
        c.await (s.onWarp i.core i.slot fun w => { w with leases := w.leases ++ ls }) (.reply (first + lines.length - 1))

/-- Lease-buffer entries of a core in use. -/
def State.leasesOn (s : State) (core : Nat) : Nat :=
  (s.warps.flatMap fun e => e.2.leases.filter fun x => x.core == core && s.holds x).length

/-- The request is the first for its line. -/
def State.firstLease (s : State) (x : Lease) : Bool := (s.leaseQ.find? fun (y : Lease) => y.line == x.line).any fun (y : Lease) => y.id == x.id

/-- An atomic on the line stands behind a lease that has ended, and comes before the next one (R257, R287). -/
def State.asideOn (s : State) (line : Nat) : Bool :=
  s.atoms.any fun e => e.2.aside && e.2.reply.isNone && match e.2.place with | .mem (.dev pa) => pa / 64 == line | _ => false

/-- Some warp of a context holds a lease, whose buffered stores are not performed. -/
def State.leaseHeld (s : State) (c : Nat) : Bool :=
  s.warps.any fun (e : Nat × Warp) => e.2.ctx == c && e.2.leases.any fun x => s.holds x

/-- A request for a line is granted, and the next line of its LEASE is requested (R285). -/
def State.grantLease (s : State) (core slot : Nat) (w : Warp) (x : Lease) : State :=
  let s := s.performFree fun p =>
    p.pa / 64 == x.line && match p.agent with | .lane c k _ => c == core && k == slot | _ => false
  let next := w.leases.filter fun y => y.id == x.id + 1 && !y.granted && !(s.leaseQ.any fun q => q.id == y.id)
  let s := { s with leaseQ := (s.leaseQ.filter fun (y : Lease) => y.id != x.id) ++ next }
  let start := s.cycleOf core
  (s.coreOwn x.line core).onWarp core slot fun w =>
    { w.onLanes fun _ l => if l.wait = .reply x.id then l.pass else l with
      leases := w.leases.map fun y => if y.id = x.id then { y with granted := true, start } else y }

/-- LEASE_GRANT: a line that a warp has requested first enters the lease buffer (R285, R290). -/
def execLeaseGrant (core slot : Nat) (s : State) : Outcome State Fault Refusal :=
  match (s.warp? core slot).bind fun w => (w.leases.find? fun x => !x.granted && s.firstLease x).map fun x => (w, x) with
  | none => .next s
  | some (w, x) =>
    if !s.runs w.ctx || s.leased x.line || s.asideOn x.line || s.cutOff core || decide (s.leasesOn core ≥ 16) then .next s
    else if x.line ∈ s.lost then .next (s.stopLost w.ctx (dieOf core))
    else .next (s.grantLease core slot w x)

/-- LEASE_EXPIRY: a lease not closed ends (R288). -/
def execLeaseExpiry (core line : Nat) (s : State) : Outcome State Fault Refusal :=
  let due (x : Lease) : Bool :=
    x.core == core && x.line == line && x.granted && x.ended.isNone && decide (s.cycleOf core ≥ x.start + x.hold)
  .next ({ s with warps := mapS s.warps fun _ w =>
    { w with leases := w.leases.map fun x => if due x then { x with ended := some 1 } else x } } : State).tidyLeases

/-- The leases of a warp that it holds, or that have ended and are not closed; requests are not among them (R285). -/
def Warp.granted (w : Warp) : List Lease := w.leases.filter (·.granted)

/-- The status of UNLEASE (R287). -/
def State.unleaseStatus (s : State) (w : Warp) : Nat :=
  if w.granted = [] then 3
  else if w.granted.all s.holds then 0
  else if w.granted.any fun x => x.ended == some 2 then 2 else 1

/-- The buffered stores of leases are written in one instant, after the stores of the warp's lanes that came before them
(R122, R287). -/
def State.commitLeases (s : State) (core slot : Nat) (ls : List Lease) : State :=
  let old (p : Pending) : Bool :=
    (ls.any fun x => x.line == p.pa / 64) && match p.agent with | .lane c k _ => c == core && k == slot | _ => false
  let s := (s.pending.filter old).foldl State.performPending { s with pending := s.pending.filter fun p => !old p }
  (s.leaseBuf.filter fun e => ls.any fun x => x.id == e.1).foldl
    (fun s e => (s.patchLine core e.2.1 e.2.2.length).store e.2.1 e.2.2) s

/-- A fence of a lane of a warp has not published everything: the warp's buffered stores wait for it (R132). -/
def State.warpFence (s : State) (core slot : Nat) : Option Release :=
  (s.releases.find? fun e => e.2.kind == RelKind.fence && match e.2.agent with | .lane c k _ => c == core && k == slot | _ => false).map
    (·.2)

/-- UNLEASE closes the leases of the warp (R287). -/
def Iss.unlease (i : Iss) (s : State) (status : Nat) : State :=
  let s := if status = 0 then s.commitLeases i.core i.slot i.w.granted else s
  let s := (s.onWarp i.core i.slot fun w => { w with leases := w.leases.filter fun x => !x.granted }).tidyLeases
  i.commit s fun _ x => x.setV i.f.d.toNat (w32 status)

/-- UNLEASE (R287): a commit waits for a fence of the warp that is still publishing (R132). -/
def execUnlease (f : Fields) (s : State) : Outcome State Fault Refusal :=
  laneInstr 7 0x06 f s fun s i => i.acting s fun c =>
    let status := s.unleaseStatus i.w
    match (if status = 0 then s.warpFence i.core i.slot else none) with
    | none => i.unlease s status
    | some r => if r.failed.isSome then c.deferred s r else c.retry s

/-! ### The directory (R282, R283) -/

/-- HOME_DIRECTORY_REQUEST: the stores of a core to a line reach its home and are performed, unless a lease holds the
line or a fence of their thread is still publishing. -/
def execHomeDirectoryRequest (core line : Nat) (s : State) : Outcome State Fault Refusal :=
  let due (p : Pending) : Bool := p.core == core && p.pa / 64 == line && !s.fenced p.agent && !s.cutOff core
  match s.pending.find? due with
  | none => .next s
  | some p =>
    .next (if line ∈ s.lost then s.stopLost p.ctx (dieOf core) else s.performWhere due)

end Sys2Proof.Machine
end

