-- ==== Sys2Proof/Machine/Atomic.lean ====
section
/-! DEFINITION. The atomic service (R239 to R260): the checks of an atomic at its core, its requests, their performance at
the executor, barrier objects, and the arrival of replies. -/

namespace Sys2Proof.Machine

open Host (Outcome)

/-! ### Issue (R242 to R246) -/

/-- The operation that an atomic instruction performs: RED by SEL (R248), the others their own. -/
def Iss.atomOp (i : Iss) : Nat :=
  if i.op ≠ 0x0B then i.op
  else match bits i.fn 5 3 with
    | 0 => 0x00 | 1 => 0x01 | 2 => 0x02 | 3 => 0x03 | 4 => 0x04 | 5 => 0x05 | _ => 0x0A

/-- The instruction has a destination, and so awaits replies (R244). -/
def Iss.returning (i : Iss) : Bool := i.op != 0x0B && i.op != 0x0C

/-- The operands of C: value, or expected and new value, or count and phase (R244, R252). -/
def Iss.atomOperands (i : Iss) (l : Nat) : List DWord :=
  let n := i.f.c.toNat
  let wide := decide (i.mo ≥ 6)
  match i.op with
  | 0x07 => if wide then [i.w.getV2 l n, i.w.getV2 l (n + 2)] else [(i.w.getV l n).setWidth 64, (i.w.getV l (n + 1)).setWidth 64]
  | 0x0C => [(i.w.getV l n).setWidth 64, (i.w.getV l (n + 1)).setWidth 64]
  | _ => [i.w.getW wide l n]

/-- Operands as words, for a request that leaves the part. -/
def operandWords (xs : List DWord) : List Word := xs.flatMap fun x => [lo32 x, hi32 x]

/-- An AtomicOp that the host performs (R241). -/
def hostAtomic (op mo : Nat) : Bool :=
  (op == 0x00 || op == 0x06 || op == 0x07) && (mo == 0 || mo == 1 || mo == 6 || mo == 7)

/-- The permission of an atomic at step 4 (R241, R245). -/
def atomOk (op mo : Nat) (hostOn : Bool) (e : BitVec 256) : Bool :=
  (if op = 0x0E then Entry.pr e else Entry.pa e) && Entry.kind e != 0 && Entry.space e != 2 && Entry.space e != 3 &&
    (Entry.space e != 4 || (hostAtomic op mo && hostOn))

/-- AtomicOp completion is enabled at the host port of a core's hub (R241). -/
def hostAtomics (core : Nat) : Bool := Config.atomicOps (hubOfDie (dieOf core))

/-- Entries of the Badger-credit resource granted to a VD, at least 4 (R256). -/
def State.creditsOf (s : State) (vd : Nat) : Nat :=
  match s.vd? vd with
  | none => 4
  | some v => max 4 ((v.config.grants.filter fun g => g.type == 0x0D).foldl (fun n g => n + g.amount) 0)

/-- The Badger slot of a device address (R240). -/
def badgerSlot (pa : Nat) : Nat :=
  bits pa 13 6 ^^^ bits pa 21 14 ^^^ bits pa 29 22 ^^^ bits pa 37 30 ^^^ bits pa 45 38 ^^^ bits pa 51 46

/-- The die is admitted and serves lines. -/
def State.admitted (s : State) (d : Nat) : Bool := s.dies.getD d Die.reset |> fun x => x.up && !x.isolated

/-- The Badgers of a die take requests: until step 3 of a warm reset, when their slots move, but for an isolated die (R240,
R458). -/
def State.serves (s : State) (d : Nat) : Bool := s.dies.getD d Die.reset |> fun x => (x.up || x.step == 2) && !x.isolated

/-- The die whose Badger serves a line (R240). -/
def State.badgerDie (s : State) (pa : Nat) : Nat :=
  let d := badgerSlot pa / 64
  if s.serves d then d else (firstBelow s.admitted 4).getD d

/-- The cluster whose Badger serves a request, or has accepted it; none when the issuing or holding core executes it, or it
leaves the part (Table 10.1, R240). -/
def State.badgerOf (s : State) (a : AtomReq) : Option Nat :=
  if a.accepted && !a.waiting then a.badger
  else
    match a.place with
    | .mem (.dev pa) => if a.owned then none else some (s.badgerDie pa * 64 + badgerSlot pa % 64)
    | _ => none

/-- The request stands at an executor of the part that has not performed it. -/
def AtomReq.ready (a : AtomReq) : Bool :=
  a.accepted && a.reply.isNone && !a.waiting && !a.retry &&
    match a.place with | .mem (.dev _) => true | .mem _ => false | .tile _ _ _ => true

/-- An entry of a VD is free at a Badger: a request holds one from its acceptance until it is performed or registered
(R256). -/
def State.creditFree (s : State) (vd : Nat) (b : Nat) : Bool :=
  decide ((s.atoms.filter fun e => e.2.ready && e.2.badger == some b && s.vdOf e.2.ctx == vd).length < s.creditsOf vd)

/-- The location of a request meets that of another. -/
def AtomReq.meets (a b : AtomReq) : Bool :=
  match a.place, b.place with
  | .mem (.dev p), .mem (.dev q) => Machine.meets p (atomWidth a.op a.mod) q (atomWidth b.op b.mod)
  | .mem (.peer v x o), .mem (.peer v' x' o') =>
    v == v' && x == x' && Machine.meets o (atomWidth a.op a.mod) o' (atomWidth b.op b.mod)
  | .tile k t o, .tile k' t' o' => k == k' && t == t' && Machine.meets o (atomWidth a.op a.mod) o' (atomWidth b.op b.mod)
  | _, _ => false

/-- A release of the request has failed: it stays withheld (R281). -/
def State.withheld (s : State) (a : AtomReq) : Bool :=
  a.rel.any fun r => (look s.releases r).any fun (x : Release) => x.failed.isSome

/-- A request of the same lane, of a lower lane of the instruction, or of the lower PC of the dual-issued pair comes first at
the same location (R122, R249). -/
def State.lanesFirst (s : State) (id : Nat) (a : AtomReq) (done : AtomReq → Bool) : Bool :=
  s.atoms.any fun e => decide (e.1 < id) && e.2.core == a.core && e.2.slot == a.slot &&
    (e.2.lane == a.lane || e.2.beat == a.beat) && e.2.meets a && !done e.2 && !s.withheld e.2

/-- The request has been performed, or is registered as a waiter, or waits to be so. -/
def AtomReq.past (a : AtomReq) : Bool := a.reply.isSome || a.waiting || a.retry

/-- The request may leave its lane: no release holds it there, and those before it at its location have left theirs
(R249, R255). -/
def State.mayLeave (s : State) (id : Nat) (a : AtomReq) : Bool :=
  !a.accepted && !a.retry && a.rel.isNone && a.reply.isNone && !s.lanesFirst id a fun x => x.accepted || x.past

/-- An earlier request of the VD waits in the access unit for an entry of the same Badger (R256). -/
def State.queuedAhead (s : State) (id : Nat) (a : AtomReq) : Bool :=
  s.atoms.any fun e => decide (e.1 < id) && e.2.core == a.core && s.badgerOf e.2 == s.badgerOf a &&
    s.vdOf e.2.ctx == s.vdOf a.ctx && s.mayLeave e.1 e.2

/-- A request goes to the host or to a peer (R241, R450). -/
def State.sendAtom (s : State) (id : Nat) (a : AtomReq) (loc : Loc) : State :=
  let (group, s) := s.fresh
  let (x, s) := s.fresh
  { s with atoms := put s.atoms id { a with accepted := true },
           exts := put s.exts x { agent := .atom id, ctx := a.ctx, loc,
                                  kind := .atomic a.op a.mod a.fn (operandWords a.operand), group } }

/-- A request leaves its lane, when it may: an access unit takes it, or it leaves the part, or a Badger accepts it once an
entry of its VD is free and it is the first that waits for one. It takes its place in the order of acceptance (R256). -/
def State.accept (s : State) (id : Nat) (a : AtomReq) : State :=
  let taken (s : State) : State :=
    let (order, s) := s.fresh
    { s with atoms := put s.atoms id { a with accepted := true, order, badger := s.badgerOf a } }
  if !s.mayLeave id a then { s with atoms := put s.atoms id a }
  else
    match a.place, s.badgerOf a with
    | .mem (.peer v ep o), _ => s.sendAtom id a (.peer v ep o)
    | .mem (.host p x), _ => s.sendAtom id a (.host p x)
    | _, none => taken s
    | _, some b =>
      if s.creditFree (s.vdOf a.ctx) b && !s.queuedAhead id a then taken s else { s with atoms := put s.atoms id a }

/-- Return slots of a core in use: those of producers, and of returning requests that their lanes wait for (R258). -/
def State.returnSlots (s : State) (core : Nat) : Nat :=
  let on (e : Ext) : Bool :=
    (match e.agent with | .lane c _ _ => c == core | _ => false) && match e.kind with | .atomic _ _ _ _ => true | _ => false
  s.warps.foldl (fun n e => if e.1 / 16 = core then n + (e.2.prods.filter fun p => p.replies != 0).length else n) 0 +
    (((s.exts.filter fun (e : Nat × Ext) => on e.2).map fun (e : Nat × Ext) => e.2.group).dedup).length

/-! ### FP events (R115, R213, R247) -/

/-- FP events of a request: they are counted with the last of its instruction's requests. -/
def State.fpEvents (s : State) (batch id task : Nat) (pc : Word) (ev : List Nat) : State :=
  if ev = [] then s
  else
    match s.atoms.find? fun e => e.1 != id && e.2.batch == batch && e.2.reply.isNone with
    | some e => { s with atoms := adjust s.atoms e.1 fun a => { a with ev := a.ev ++ ev } }
    | none => s.countFp task pc ev

/-- Where a lane's atomic acts and what its records name: the place, a value already returned from outside the part, the
offset, the handle or tile word, whether the grain is owned. -/
structure AtomLane where
  place : AtomAt
  back : Option (List Word)
  off : Nat
  name : Nat
  owned : Bool

/-- The sums of AFADD by element, with their events (R247). -/
def faddValue (mo rnd old c : Nat) : Nat × List Nat :=
  let fl := fltOf mo
  let mode := modeOf rnd
  let elem (p q : Nat) : Nat × List Nat :=
    let x := fl.decode p
    let y := fl.decode q
    deliverIn mo mode (x.isInf || y.isInf) (Val.add mode.down x y)
  if mo = 0 then elem old c
  else
    let lo := elem (old % 2 ^ 16) (c % 2 ^ 16)
    let hi := elem (old / 2 ^ 16) (c / 2 ^ 16 % 2 ^ 16)
    (lo.1 + hi.1 * 2 ^ 16, lo.2 ++ hi.2)

/-- The FP events that an answer from outside the part counts here (R247). -/
def Iss.backEvents (i : Iss) (at_ : Nat → AtomLane) (l : Nat) : List Nat :=
  match (at_ l).back with
  | some ws =>
    if i.atomOp = 0x0A then (faddValue i.mo (bits i.fn 2 0) (natOf (bytesOfWords ws)) (i.atomOperands l |>.headD 0).toNat).2 else []
  | none => []

/-- The requests of the lanes, made in rising order, and the producer that awaits them (R247, R249, R258). -/
def Iss.request (i : Iss) (s : State) (at_ : Nat → AtomLane) (rel : Option Nat) : State :=
  let dests := destRegs .lane i.eng i.op i.f
  let (prod, s) := s.fresh
  let away (l : Nat) : Bool := (at_ l).back.isNone
  let ls := lanesOf i.act
  let s := (ls.filter away).foldl (fun s l =>
    let (id, s) := s.fresh
    let a : AtomReq :=
      { ctx := i.w.ctx, task := i.w.task, core := i.core, slot := i.slot, lane := l,
        prod := if i.returning then some prod else none, op := i.atomOp, mod := i.mo, fn := i.fn, place := (at_ l).place,
        operand := i.atomOperands l, dest := i.f.d.toNat, pc := i.pc, off := (at_ l).off, name := (at_ l).name,
        owned := (at_ l).owned, accepted := false, order := 0, badger := none, aside := false, beat := s.beat,
        batch := prod, ev := [], rel, waiting := false, retry := false, reply := none }
    s.accept id a) s
  let s := s.fpEvents prod 0 i.w.task i.pc (ls.flatMap (i.backEvents at_))
  if !i.returning then i.done s
  else
    let vals := (ls.filter fun l => !away l).flatMap fun l =>
      mapIx (fun n x => (l, i.f.d.toNat + n, (x.setWidth 64 : DWord))) 0 (((at_ l).back).getD [])
    let p : Producer := { id := prod, regs := dests, vals, replies := (ls.filter away).length, flags := [] }
    let s := if i.op = 0x0E then i.await s (i.act &&& maskOf away) fun _ => .reply prod else i.done s
    s.onWarp i.core i.slot fun w =>
      let w := w.markAll i.act dests
      { w with empty := (w.empty ++ dests).dedup, prods := w.prods ++ [p] }

/-- Counts that BINIT and ARRIVE refuse (R245). -/
def Iss.badCount (i : Iss) : Word :=
  let n (l : Nat) : Nat := (i.w.getV l i.f.c.toNat).toNat
  i.act &&& maskOf fun l =>
    (i.op == 0x0C && (n l == 0 || decide (n l ≥ 2 ^ 31))) || (i.op == 0x0D && n l == 0)

/-- ARRIVE without .rlx (R255). -/
def Iss.publishing (i : Iss) : Bool := i.op == 0x0D && i.mo == 0

/-- The lanes go on once their requests have been made: RED and BINIT have no reply, and a publishing ARRIVE leaves when its
release is complete (R248, R255). -/
def Iss.goesOn (i : Iss) : Bool := !i.returning || i.publishing

/-- What must be true before requests leave: a free return slot, a publishing ARRIVE's completion point, and no fence of
the lanes still publishing (R132, R255, R258). -/
def Caller.atomGate (c : Caller) (i : Iss) (s : State) : Except State State :=
  if i.returning && decide (s.returnSlots i.core ≥ 32) then .error (c.retry s)
  else if i.publishing then do c.performed (← c.completion s)
  else if c.unfenced s then .ok s else .error (c.behindFence s)

/-- What an atomic asks of the handle path (R244, R245). -/
def Iss.atomRef (i : Iss) (l : Nat) : Ref :=
  let w := atomWidth i.atomOp i.mo
  { h := (i.w.getV l i.f.a.toNat).toNat, o := i.offset l,
    q := { w, align := w, acc := 8, ok4 := atomOk i.atomOp i.mo (hostAtomics i.core) } }

/-- The outcome of the checks: what goes on without an answer needs none. -/
def Iss.atomOut (i : Iss) (s : State) (c : Caller) (l : Nat) : AccOut :=
  match s.access (c.who s l) (i.atomRef l).h (i.atomRef l).o (i.atomRef l).q with
  | .ext loc => if i.goesOn then .ok loc false else .ext loc
  | x => x

/-- Where the request of a lane goes, and what has already come back for it. -/
def Iss.atomLane (i : Iss) (s : State) (c : Caller) (loc : Nat → Loc) (l : Nat) : AtomLane :=
  { place := .mem (loc l), off := (i.offset l).toNat, name := c.handle l,
    owned := Entry.kind (s.entry (c.who s l) (c.handle l)) == 1,
    back := match loc l with
      | .dev _ => none
      | x => if i.goesOn then none else some (wordsOf (s.loadBytes (c.who s l) x (atomWidth i.atomOp i.mo))) }

/-- The unpublished GUARDED writes that a publishing ARRIVE of the lanes publishes (R126, R255). -/
def Iss.atomBound (i : Iss) (s : State) (c : Caller) : List Nat :=
  if i.publishing then
    c.unpublished s fun e => c.lanes.any fun l =>
      s.sameSync e.ctx e.sync c.ctx (s.syncAt (c.who s l) 2 (c.handle l) (i.offset l).toNat)
  else []

/-- The requests leave the lanes, or wait there for the release of a publishing ARRIVE (R255). -/
def Iss.atomSend (i : Iss) (s : State) (c : Caller) (at_ : Nat → AtomLane) : State :=
  match i.atomBound s c with
  | [] => i.request (if i.publishing then s.passWrites i.core else s) at_ none
  | es =>
    let (id, s) := c.release s .arrive (max 4 (if bits i.fn 2 2 = 1 then bits i.fn 5 3 else 4)) es
      (c.handle (lowest i.act)) (i.offset (lowest i.act)).toNat
    i.request s at_ (some id)

/-- The requests of an instruction on lines of memory (R239, R245, R255, R286). -/
def Iss.atomMemory (i : Iss) (s : State) (c : Caller) : State :=
  let kind (l : Nat) : ExtKind := .atomic i.atomOp i.mo i.fn (operandWords (i.atomOperands l))
  let gate (s : State) : Except State State :=
    if i.badCount ≠ 0 then .error (c.fault s Cls.bounds i.badCount 8 0 i.atomRef) else c.atomGate i s
  let loc (l : Nat) : Loc := (i.atomOut s c l).loc
  c.follow s 8 i.atomRef (i.atomOut s c) kind gate fun s =>
    let leased := i.act &&& maskOf fun l =>
      match loc l with | .dev pa => (s.leaseOf i.core i.slot (pa / 64)).isSome | _ => false
    let here := c.lanes.any fun l => match loc l with | .dev _ => true | _ => false
    if leased ≠ 0 then i.raise s Cls.lease leased (fun l => i64 (i.offset l)) fun _ => 2
    else if here && s.cutOff i.core then c.retry s
    else
      let s := c.lanes.foldl (fun s l => s.touch (c.who s l) (c.handle l) (loc l)) s
      i.atomSend s c (i.atomLane s c loc)

/-- The requests of an instruction on words of tiles (R239, R245). -/
def Iss.atomTiles (i : Iss) (s : State) (c : Caller) : State :=
  let w := atomWidth i.atomOp i.mo
  let ask := i.tileAsk w false true true
  let gate (s : State) : Except State State :=
    if i.badCount ≠ 0 then .error (i.raise s Cls.bounds i.badCount (fun l => (ask l).addr) fun l => (ask l).data)
    else c.atomGate i s
  i.tiles s ask gate fun at_ s =>
    i.request (if i.publishing then s.passWrites i.core else s) (fun l =>
      { place := .tile (at_ l).1 (at_ l).2.1 (at_ l).2.2, back := none, off := (ask l).row * 2 ^ 32 + (ask l).col.toNat,
        name := (ask l).tw.toNat, owned := false }) none

/-- Every atomic instruction (R245, R246). -/
def atomic (op : Nat) (f : Fields) (s : State) : Outcome State Fault Refusal :=
  laneInstr 6 op f s fun s i => i.acting s fun c =>
    if bits i.fn 6 6 = 1 then i.atomTiles s c else i.atomMemory s c

/-- AADD (R247). -/
def execAadd (f : Fields) (s : State) : Outcome State Fault Refusal := atomic 0x00 f s
/-- AAND (R247). -/
def execAand (f : Fields) (s : State) : Outcome State Fault Refusal := atomic 0x01 f s
/-- AOR (R247). -/
def execAor (f : Fields) (s : State) : Outcome State Fault Refusal := atomic 0x02 f s
/-- AXOR (R247). -/
def execAxor (f : Fields) (s : State) : Outcome State Fault Refusal := atomic 0x03 f s
/-- AMIN (R247). -/
def execAmin (f : Fields) (s : State) : Outcome State Fault Refusal := atomic 0x04 f s
/-- AMAX (R247). -/
def execAmax (f : Fields) (s : State) : Outcome State Fault Refusal := atomic 0x05 f s
/-- AXCHG (R247). -/
def execAxchg (f : Fields) (s : State) : Outcome State Fault Refusal := atomic 0x06 f s
/-- ACAS (R247). -/
def execAcas (f : Fields) (s : State) : Outcome State Fault Refusal := atomic 0x07 f s
/-- AINC (R247). -/
def execAinc (f : Fields) (s : State) : Outcome State Fault Refusal := atomic 0x08 f s
/-- ADEC (R247). -/
def execAdec (f : Fields) (s : State) : Outcome State Fault Refusal := atomic 0x09 f s
/-- AFADD (R247). -/
def execAfadd (f : Fields) (s : State) : Outcome State Fault Refusal := atomic 0x0A f s
/-- RED (R248). -/
def execRed (f : Fields) (s : State) : Outcome State Fault Refusal := atomic 0x0B f s
/-- BINIT (R252). -/
def execBinit (f : Fields) (s : State) : Outcome State Fault Refusal := atomic 0x0C f s
/-- ARRIVE (R252, R255). -/
def execArrive (f : Fields) (s : State) : Outcome State Fault Refusal := atomic 0x0D f s
/-- BWAIT (R253). -/
def execBwait (f : Fields) (s : State) : Outcome State Fault Refusal := atomic 0x0E f s

/-! ### Performance at the executor (R247 to R254) -/

/-- The bytes at a place. -/
def State.readPlace (s : State) (p : AtomAt) (n : Nat) : List Byte :=
  match p with
  | .mem (.dev pa) => s.mem.readN pa n
  | .mem _ => []
  | .tile k t o => s.tileNow k t o n

/-- Bytes that a request writes at its place. -/
def State.writePlace (s : State) (a : AtomReq) (bs : List Byte) : State :=
  match a.place with
  | .mem (.dev pa) => s.store pa bs
  | .mem _ => s
  | .tile k t o => s.laneTile a.core a.slot a.lane k t o bs

/-- The executor obtains the line of a request with a write: the issuing core of an owned grain, else the die of its Badger,
in whose cores no L1 then holds it (R130, R284). The words of a tile are read with their errors corrected (R238). -/
def State.takePlace (s : State) (a : AtomReq) : State :=
  match a.place with
  | .mem (.dev pa) =>
    if a.owned then s.coreOwn (pa / 64) a.core
    else
      let d := (s.badgerOf a).getD 0 / 64
      (s.dirWrite (pa / 64) d).dieTake (pa / 64) d []
  | .tile k t o => s.correct (dieOf a.core) k t o (atomWidth a.op a.mod)
  | _ => s

/-- The new pattern of a value atomic, none when it writes nothing, with its events (R247). -/
def atomValue (op mo rnd old c new : Nat) : Option Nat × List Nat :=
  let w := if op ≠ 0x0A ∧ mo ≥ 6 then 64 else 32
  let signed := decide (mo % 2 = 0)
  let a := readInt w signed old
  let b := readInt w signed c
  match op with
  | 0x00 => (some (truncN w (a + b)), [])
  | 0x01 => (some (old &&& c), [])
  | 0x02 => (some (old ||| c), [])
  | 0x03 => (some (old ^^^ c), [])
  | 0x04 => (some (truncN w (min a b)), [])
  | 0x05 => (some (truncN w (max a b)), [])
  | 0x06 => (some c, [])
  | 0x07 => (if old = c ∧ new ≠ old then some new else none, [])
  | 0x08 => (some (if old ≥ c then 0 else old + 1), [])
  | 0x09 => (some (if old = 0 ∨ old > c then c else old - 1), [])
  | _ => let r := faddValue mo rnd old c; (some r.1, r.2)

/-- The barrier object as PHASE, EXPECTED, PENDING, FLAGS (Table 10.4). -/
def barrierOf (bs : List Byte) : Nat × Nat × Nat × Nat :=
  let n := natOf bs
  (bits n 31 0, bits n 63 32, bits n 95 64, bits n 127 96)

/-- Its bytes. -/
def barrierBytes (phase expected pend flags : Nat) : List Byte :=
  bytesOf 4 phase ++ bytesOf 4 expected ++ bytesOf 4 pend ++ bytesOf 4 flags

/-- PHASE has passed a value (R253). -/
def passed (phase ph : Nat) : Bool :=
  let d := (phase + 2 ^ 32 - ph) % 2 ^ 32
  decide (1 ≤ d ∧ d ≤ 2 ^ 31 - 1)

/-- Registered waiters of an object whose condition holds complete with status 0 (R254). -/
def State.wakeBarrier (s : State) (p : AtomAt) (phase : Nat) : State :=
  { s with atoms := mapS s.atoms fun _ a =>
      if a.waiting && a.place == p && passed phase (a.operand.headD 0).toNat then
        { a with waiting := false, reply := some [0] }
      else a }

/-- A request's reply is sent, or, without one, the request is over. -/
def State.replyAtom (s : State) (id : Nat) (a : AtomReq) (v : List Word) : State :=
  match a.prod with
  | some _ => { s with atoms := adjust s.atoms id fun a => { a with reply := some v, retry := false } }
  | none => { s with atoms := drop s.atoms id }

/-- BINIT (R252). -/
def State.performBinit (s : State) (id : Nat) (a : AtomReq) : State :=
  let e := (a.operand.headD 0).toNat
  let p := (a.operand.getD 1 0).toNat
  ((s.replyAtom id a []).writePlace a (barrierBytes p e e 1)).wakeBarrier a.place p

/-- The generation of a barrier object in device memory goes up (R275). -/
def State.advancePhase (s : State) (p : AtomAt) : State :=
  match p with | .mem (.dev pa) => s.bumpGen pa | _ => s

/-- ARRIVE (R252); waiters whose condition holds complete, counted or not (R251, R254). -/
def State.performArrive (s : State) (id : Nat) (a : AtomReq) : State :=
  let (phase, expected, pend, flags) := barrierOf (s.readPlace a.place 16)
  let n := (a.operand.headD 0).toNat
  if flags ≠ 1 then (s.replyAtom id a [w32 phase, 1]).wakeBarrier a.place phase
  else if n > pend then (s.replyAtom id a [w32 phase, 2]).wakeBarrier a.place phase
  else
    let s := s.replyAtom id a [w32 phase, 0]
    if pend = n then
      let phase' := (phase + 1) % 2 ^ 32
      ((s.writePlace a (barrierBytes phase' expected expected flags)).advancePhase a.place).wakeBarrier a.place phase'
    else (s.writePlace a (barrierBytes phase expected (pend - n) flags)).wakeBarrier a.place phase

/-- Waiters registered at a Badger (R254). -/
def State.waitersAt (s : State) (b : Option Nat) : Nat :=
  (s.atoms.filter fun e => e.2.waiting && s.badgerOf e.2 == b).length

/-- BWAIT: it completes, is registered, or finds the table full (R253, R254). -/
def State.performBwait (s : State) (id : Nat) (a : AtomReq) : State :=
  let (phase, _, _, flags) := barrierOf (s.readPlace a.place 16)
  if flags ≠ 1 then s.replyAtom id a [1]
  else if passed phase (a.operand.headD 0).toNat then s.replyAtom id a [0]
  else
    let room := (s.badgerOf a).isNone || decide (s.waitersAt (s.badgerOf a) < 2048)
    { s with atoms := adjust s.atoms id fun a => { a with waiting := room, retry := !room, accepted := room } }

/-- A value atomic (R247). -/
def State.performValue (s : State) (id : Nat) (a : AtomReq) : State :=
  let w := atomWidth a.op a.mod
  let old := natOf (s.readPlace a.place w)
  let (new, ev) := atomValue a.op a.mod (bits a.fn 2 0) old (a.operand.headD 0).toNat (a.operand.getD 1 0).toNat
  let s := s.replyAtom id a (wordsOf (bytesOf w old))
  let s := match new with | none => s | some x => s.writePlace a (bytesOf w x)
  s.fpEvents a.batch id a.task a.pc (a.ev ++ ev)

/-- The line of a request. -/
def AtomReq.line (a : AtomReq) : Option Nat := match a.place with | .mem (.dev pa) => some (pa / 64) | _ => none

/-- Another request comes first: at its location under R122 and R249, or accepted before it by the same Badger from the same
core for the same VD, or set aside before it on the line (R256, R257). -/
def State.atomBehind (s : State) (id : Nat) (a : AtomReq) : Bool :=
  s.lanesFirst id a AtomReq.past ||
    s.atoms.any fun e => e.1 != id && e.2.ready && decide (e.2.order < a.order) &&
      ((!e.2.aside && a.badger.isSome && e.2.badger == a.badger && e.2.core == a.core && s.vdOf e.2.ctx == s.vdOf a.ctx) ||
        (e.2.aside && a.line.isSome && e.2.line == a.line))

/-- The writes to the bytes that the request comes after are performed first: the lane's own (R122), and the buffered ones
that its core sees (R127, R137). -/
def State.ownFirst (s : State) (a : AtomReq) : State :=
  match a.place with
  | .mem (.dev pa) =>
    let w := atomWidth a.op a.mod
    let s := s.performWhere fun p => p.agent == Agent.lane a.core a.slot a.lane && p.pa / 64 == pa / 64
    s.publishAll (s.wbuf.filter fun e => e.seenOn a.core && (match e.loc with
      | .dev q => Machine.meets q e.bytes.length pa w
      | _ => false))
  | _ => s

/-- The line check at the executor fails (R250). -/
def State.poisoned (s : State) (a : AtomReq) : Bool :=
  let secure := if 4096 ≤ a.core then (s.vd? (s.vdOf a.ctx)).any (·.config.secure) else s.worldOf a.core
  match a.place with | .mem (.dev pa) => s.lineBad pa secure | _ => false

/-- The context of a poisoned request stops; FADDR holds the offset of the instruction's lowest such lane (R250). -/
def State.stopPoisoned (s : State) (id : Nat) (a : AtomReq) : State :=
  let same := s.atoms.filter fun e =>
    e.2.core == a.core && e.2.slot == a.slot && e.2.pc == a.pc && e.2.prod == a.prod && e.2.reply.isNone && s.poisoned e.2
  let low := same.foldl (fun (b : AtomReq) e => if e.2.lane < b.lane then e.2 else b) a
  let qual := match s.warp? a.core a.slot with | some w => w.qual low.lane | none => low.lane * 2 ^ 16
  (({ s with atoms := drop s.atoms id } : State).errUp (dieOf a.core) 48 16 1).stop a.ctx Cls.dataCheck (s.taskNo a.task) qual
    a.pc (w64 low.off) (dieOf a.core)

/-- An inbound request of a peer, which has an endpoint of the part for a core (R452). -/
def AtomReq.isPeer (a : AtomReq) : Bool := decide (4096 ≤ a.core)

/-- The core number that stands for an endpoint, on the hub of the endpoint. -/
def peerCore (ep : Nat) : Nat := 4096 + ep / 256 * 1024 + ep % 256

/-- The endpoint that a core number stands for. -/
def endpointOf (core : Nat) : Nat := (core - 4096) / 1024 * 256 + (core - 4096) % 1024

def AtomReq.endpoint (a : AtomReq) : Nat := endpointOf a.core

/-- The request of a peer ends with an error response (R292, R452, R454). -/
def State.refusePeer (s : State) (id : Nat) (a : AtomReq) (status : Nat) : State :=
  let s := if status = 3 then s.errUp (dieOf a.core) 48 16 1 else s
  ({ s with atoms := drop s.atoms id } : State).emit (.peerReply a.endpoint status [])

/-- An accepted request is performed (R247, R250, R292). -/
def State.performAtom (s : State) (id : Nat) (a : AtomReq) : State :=
  if a.line.any fun n => decide (n ∈ s.lost) then
    if a.isPeer then s.refusePeer id a 1 else ({ s with atoms := drop s.atoms id } : State).stopLost a.ctx (dieOf a.core)
  else
    let s := s.ownFirst a
    if s.poisoned a then (if a.isPeer then s.refusePeer id a 3 else s.stopPoisoned id a)
    else
      let s := s.takePlace a
      match a.op with
      | 0x0C => s.performBinit id a
      | 0x0D => s.performArrive id a
      | 0x0E => s.performBwait id a
      | _ => s.performValue id a

/-! ### The order of a Badger (R249, R256, R257) -/

/-- A lease holds the line of a request. -/
def State.underLease (s : State) (a : AtomReq) : Bool := a.line.any s.leased

/-- VDs of the requests that a Badger can perform. -/
def State.servable (s : State) (b : Nat) : List Nat :=
  ((s.atoms.filter fun e => e.2.ready && e.2.badger == some b && !s.underLease e.2 && !s.atomBehind e.1 e.2).map
    fun (e : Nat × AtomReq) => s.vdOf e.2.ctx).dedup

/-- The VD that a Badger serves under deficit round robin, by rising number, and the requests left to it in its round, as many
as its grant (R256; log 59). -/
def State.drrTurn (s : State) (b : Nat) : Option (Nat × Nat) :=
  let vs := s.servable b
  let last := (look s.drr b).getD (0, 0)
  if last.2 ≠ 0 ∧ last.1 ∈ vs then some last
  else
    let after := vs.filter fun v => decide (last.1 < v)
    (minOf (if after = [] then vs else after)).map fun v => (v, s.creditsOf v)

/-- A request that nothing precedes is served: by its Badger when its VD's turn has come, by an access unit at once. One on a
line under a lease is set aside (R256, R257). -/
def State.serveAtom (s : State) (id : Nat) (a : AtomReq) : State :=
  if s.underLease a then { s with atoms := put s.atoms id { a with aside := true } }
  else
    match a.badger with
    | none => s.performAtom id a
    | some b =>
      match s.drrTurn b with
      | some (v, n) => if v = s.vdOf a.ctx then ({ s with drr := put s.drr b (v, n - 1) } : State).performAtom id a else s
      | none => s

/-- ATOMIC_REQUEST_PERFORM (R247, R249, R256, R257). -/
def execAtomicRequestPerform (id : Nat) (s : State) : Outcome State Fault Refusal :=
  match look s.atoms id with
  | none => .next s
  | some a => .next (if a.ready && !s.atomBehind id a then s.serveAtom id a else s)

/-- BWAIT_RETRY: a BWAIT that found the waiter table full is made again (R254). -/
def execBwaitRetry (id : Nat) (s : State) : Outcome State Fault Refusal :=
  match look s.atoms id with
  | none => .next s
  | some a => .next (if a.retry then s.accept id { a with retry := false } else s)

/-- BADGER_CREDIT_RELEASE: a request waiting in the access unit is accepted when an entry of its VD is free, and one that
waited for its release leaves its lane (R255, R256). -/
def execBadgerCreditRelease (id : Nat) (s : State) : Outcome State Fault Refusal :=
  match look s.atoms id with
  | none => .next s
  | some a => .next (if s.mayLeave id a then s.accept id a else s)

/-! ### Answers from outside the part (R241, R450) -/

/-- The host or a peer answers a request whose lane has gone on. An error, which no instruction waits for, stops the context
as R250 lays down (log 60). -/
def State.answerAtom (s : State) (id : Nat) (r : Except Nat (List Byte)) : State :=
  match look s.atoms id with
  | none => s
  | some a =>
    match r with
    | .ok bs =>
      let ev := if a.op = 0x0A then (faddValue a.mod (bits a.fn 2 0) (natOf bs) (a.operand.headD 0).toNat).2 else []
      (s.replyAtom id a (wordsOf bs)).fpEvents a.batch id a.task a.pc (a.ev ++ ev)
    | .error e =>
      let cls := e % 256
      let qual := match s.warp? a.core a.slot with | some w => w.qual a.lane | none => a.lane * 2 ^ 16
      let s : State := { s with atoms := drop s.atoms id }
      let s := if cls = Cls.dataCheck then s.errUp (dieOf a.core) 48 16 1 else s
      s.stop a.ctx cls (s.taskNo a.task) qual a.pc (w64 a.off) (dieOf a.core)

/-! ### Replies (R258, R271) -/

/-- A reply of an atomic is written; its register is full with the last (R258). -/
def State.deliverAtom (s : State) (id : Nat) (a : AtomReq) (v : List Word) : State :=
  let s := { s with atoms := drop s.atoms id }
  if a.isPeer then s.emit (.peerReply a.endpoint 0 (bytesOfWords v)) else
  s.onWarp a.core a.slot fun w =>
    match w.prods.find? fun p => some p.id == a.prod with
    | none => w
    | some p =>
      let w := w.onMask ((1 : Word) <<< a.lane) fun _ x =>
        let x := (mapIx (fun n y => (n, y)) 0 v).foldl (fun x e => x.fillV (a.dest + e.1) e.2) x
        if x.wait = Wait.reply p.id then x.pass else x
      if p.replies ≤ 1 then w.writeback p
      else { w with prods := w.prods.map fun q => if q.id = p.id then { q with replies := q.replies - 1 } else q }

/-- The reply of a guard request is written, and its thread goes on; that of a peer's request is sent (R271, R452). -/
def State.deliverGuard (s : State) (id : Nat) (g : GuardReq) (v : Nat) : State :=
  let s := { s with guards := drop s.guards id }
  let s := match g.thread with
    | .warp core slot =>
      if 4096 ≤ core then s.emit (.peerReply (endpointOf core) 0 (bytesOf 4 v))
      else s.onWarp core slot fun w =>
        w.onMask g.group fun l x =>
          if x.wait = Wait.reply id then (if l = g.lane then x.setV g.dest (w32 v) else x).pass else x
    | .lead core slot => s.onLead core slot fun x => if x.wait = Wait.reply id then (x.setK g.dest (w64 v)).pass else x
  s.serveGuard g.pa

/-- REPLY_ARRIVAL (R258, R271). -/
def execReplyArrival (id : Nat) (s : State) : Outcome State Fault Refusal :=
  match look s.atoms id with
  | some a => .next (match a.reply with | some v => s.deliverAtom id a v | none => s)
  | none =>
    match look s.guards id with
    | some g => .next (match g.reply with | some v => s.deliverGuard id g v | none => s)
    | none => .next s

end Sys2Proof.Machine
end

