-- ==== Sys2Proof/Machine/Digest.lean ====
section
/-! DEFINITION. Digests: CRC-32C of a byte string (R453), SHA-256 of a byte string (R396 to R398). -/

namespace Sys2Proof.Machine

/-! ### CRC-32C (R453) -/

/-- One bit shifted out of the reflected register. -/
def crcBit (r : Word) : Word := if r.getLsbD 0 then (r >>> 1) ^^^ 0x82F63B78#32 else r >>> 1

/-- One byte taken into the register. -/
def crcByte (r : Word) (b : Byte) : Word := (List.range 8).foldl (fun r _ => crcBit r) (r ^^^ b.setWidth 32)

/-- CRC-32C of bytes. -/
def crc32c (bs : List Byte) : Word := ~~~(bs.foldl crcByte 0xFFFFFFFF#32)

/-! ### SHA-256

The standard defines its constants as root fractions and its state as two registers that shift; both are written so here. -/

/-- The greatest number below `x + 2 ^ n` and not below `x`, in steps of powers of 2, whose power `k` does not pass `m`. -/
def rootFrom (k m : Nat) : Nat → Nat → Nat
  | 0, x => x
  | n + 1, x => rootFrom k m n (if (x + 2 ^ n) ^ k ≤ m then x + 2 ^ n else x)

/-- The first 32 bits of the fraction of the `k`-th root of a number below 512. -/
def rootBits (k p : Nat) : Word := w32 (rootFrom k (p * 2 ^ (32 * k)) 37 0)

/-- The primes below 312. -/
def primes : List Nat :=
  (List.range 312).filter fun n => 1 < n && (List.range 16).all fun d => d + 2 == n || n % (d + 2) != 0

/-- The exclusive or of rotations of a word. -/
def spun (rs : List Nat) (x : Word) : Word := rs.foldl (fun y r => y ^^^ x.rotateRight r) 0

/-- The state within a block: the last four values of each of the two registers, newest first, and the 16 words of the
message schedule that come next. -/
structure Mill where
  as : List Word
  es : List Word
  next : List Word
  deriving DecidableEq, Repr

/-- The word that joins the message schedule behind 16 others. -/
def Mill.joins (m : Mill) : Word :=
  let at_ (n : Nat) := m.next.getD n 0
  at_ 0 + at_ 9 + (spun [7, 18] (at_ 1) ^^^ at_ 1 >>> 3) + (spun [17, 19] (at_ 14) ^^^ at_ 14 >>> 10)

/-- One round with its constant. -/
def Mill.turn (m : Mill) (k : Word) : Mill :=
  let e := m.es.headD 0
  let chosen := m.es.getD 2 0 ^^^ e &&& (m.es.getD 1 0 ^^^ m.es.getD 2 0)
  let most := match m.as with
    | a :: b :: c :: _ => a &&& (b ||| c) ||| b &&& c
    | _ => 0
  let grist := k + m.next.headD 0 + m.es.getD 3 0 + spun [6, 11, 25] e + chosen
  { as := (grist + spun [2, 13, 22] (m.as.headD 0) + most) :: m.as.take 3,
    es := (m.as.getD 3 0 + grist) :: m.es.take 3,
    next := m.next.drop 1 ++ [m.joins] }

/-- The eight words of a hash after one more block of 16 words. -/
def shaBlock (hash block : List Word) : List Word :=
  let m := (primes.map (rootBits 3)).foldl Mill.turn { as := hash.take 4, es := hash.drop 4, next := block }
  List.zipWith (· + ·) hash (m.as ++ m.es)

/-- The bytes of a number, high byte first. -/
def bytesBig (n x : Nat) : List Byte := (bytesOf n x).reverse

/-- The number whose bytes, high byte first, are given. -/
def numBig (bs : List Byte) : Nat := bs.foldl (fun n b => n * 256 + b.toNat) 0

/-- A list cut into `n` parts of `k`. -/
def shaCut {α : Type} (k : Nat) : Nat → List α → List (List α)
  | 0, _ => []
  | n + 1, l => l.take k :: shaCut k n (l.drop k)

/-- SHA-256 of bytes, 32 bytes. -/
def sha256 (bs : List Byte) : List Byte :=
  let blocks := bs.length / 64 + if bs.length % 64 < 56 then 1 else 2
  let padded := bs ++ 0x80 :: List.replicate (64 * blocks - bs.length - 9) 0 ++ bytesBig 8 (8 * bs.length)
  let hash := (shaCut 64 blocks padded).foldl
    (fun h b => shaBlock h ((shaCut 4 16 b).map fun w => w32 (numBig w))) ((primes.take 8).map (rootBits 2))
  hash.flatMap fun w => bytesBig 4 w.toNat

end Sys2Proof.Machine
end

