-- ==== Sys2Proof/Machine/Matrix.lean ====
section
/-! DEFINITION. The matrix engine (R307 to R336): commands with the checks of their issue, fences and waits, exact block
sums, the drain, access to accumulators, and engine resets. -/

namespace Sys2Proof.Machine

open Host (Outcome)

/-! ### Commands of engines at issue -/

/-- A register as a tile word; more than 32 bits name no tile (R218). -/
def asTileWord (v : Nat) : Word := if v ≥ 2 ^ 32 then 0xFFFFFFFF#32 else w32 v

/-- Operand A as a tile word. -/
def Caller.tileWord (c : Caller) (l : Nat) : Word := asTileWord (c.reg l c.f.a.toNat)

/-- Operand B, or the immediate, as a coordinate (R321). -/
def Caller.coord (c : Caller) (l : Nat) : Nat :=
  match c with | .warp i _ => (i.b32 l).toNat | .lead i => (lo32 i.b).toNat

/-- The lane that acts. -/
def Caller.lane (c : Caller) : Nat := c.lanes.headD 0

/-- A command fails a check of its engine: TADDR and TDATA of the elected lane, or FADDR of the lead (R323, R347). -/
def Caller.refuse (c : Caller) (s : State) (cls : Nat) (addr data faddr : DWord) : State :=
  match c with
  | .warp i m => i.raise s cls m (fun _ => addr) fun _ => data
  | .lead i => i.raise s cls faddr

/-- The tile that a reference names. -/
def TileRef.tile? (r : TileRef) : Option (Nat × Nat × Tile) := match r with | .at k n t => some (k, n, t) | _ => Option.none

/-- Bytes of one row of a tile with its plane (R219). -/
def Tile.stride (t : Tile) : Nat := rowBytes t.fmt t.cols + planeBytes t.fmt t.cols

/-- The tile is neither an SCR tile of the crew nor an SCR.GANG tile. -/
def offReach (k : Nat) (r : Nat × Nat × Tile) : Bool := r.2.2.level == 1 || (r.1 != k && r.2.2.level != 2)

/-- The tile is not an ACC tile of the crew. -/
def offAcc (k : Nat) (r : Nat × Nat × Tile) : Bool := r.2.2.level != 1 || r.1 != k

/-- A block of n bytes in a row of a tile, at an aligned offset, or the class of the first check that fails (Table 13.6
steps 1 and 2). -/
def State.blockAt (s : State) (crew : Nat) (tw : Word) (coord n align : Nat) : Except Nat (List Byte) :=
  match (s.tileRef (some crew) tw).tile? with
  | none => .error Cls.bounds
  | some r =>
    let t := r.2.2
    let off := coord % 2 ^ 16
    let at_ := coord / 2 ^ 16 * t.stride + off
    if offReach crew r then .error Cls.perm
    else if off % align ≠ 0 then .error Cls.misalign
    else if coord / 2 ^ 16 ≥ t.rows ∨ off + n > rowBytes t.fmt t.cols then .error Cls.bounds
    else if t.badIn at_ n then .error Cls.dataCheck
    else .ok (s.tileNow r.1 r.2.1 at_ n)

/-- The single-bit errors of a block that has been read are corrected (R238). -/
def State.correctBlock (s : State) (die crew : Nat) (tw : Word) (coord n : Nat) : State :=
  match (s.tileRef (some crew) tw).tile? with
  | none => s
  | some r => s.correct die r.1 r.2.1 (coord / 2 ^ 16 * r.2.2.stride + coord % 2 ^ 16) n

/-- A command reads its block, or fails: the detail names the tile word, or the offset that is not aligned. -/
def Caller.block (c : Caller) (s : State) (k n align : Nat) (g : List Byte → State → State) : State :=
  let l := c.lane
  let tw := c.tileWord l
  match s.blockAt k tw (c.coord l) n align with
  | .ok b => g b (s.correctBlock (dieOf c.core) k tw (c.coord l) n)
  | .error cls =>
    let s := if cls = Cls.dataCheck then s.errUp (dieOf c.core) 24 24 1 else s
    c.refuse s cls (w64 (c.coord l)) (w64 (tw.toNat % 2 ^ 16 + 2 ^ 17))
      (if cls = Cls.misalign then w64 (c.coord l % 2 ^ 16) else tw.setWidth 64)

/-- A field of a block fails a check: its byte offset is the detail (R323). -/
def Caller.badField (c : Caller) (s : State) (cls off : Nat) : State :=
  c.refuse s cls (w64 (c.coord c.lane)) (w64 (off + 2 ^ 17)) (w64 off)

/-- The first check that fails, with its class and detail. -/
def firstBad : List (Bool × Nat × Nat) → Option (Nat × Nat)
  | [] => none
  | (b, cls, off) :: r => if b then some (cls, off) else firstBad r

/-- A little-endian field of a block. -/
def le (b : List Byte) (off n : Nat) : Nat := natOf ((b.drop off).take n)

/-- The crew of the caller, with its key. -/
def Caller.crew? (c : Caller) (s : State) : Option (Nat × Crew) :=
  c.crew.bind fun k => (look s.crews k).map fun x => (k, x)

/-! ### Formats (Tables 13.1, 13.2) -/

/-- Weight columns that a macro holds; none for an FMT of no frame. -/
def weightCols (fmt : Nat) : Option Nat :=
  match fmt with
  | 0x08 => some 64 | 0x0A => some 128 | 0x10 => some 64 | 0x11 => some 64 | 0x12 => some 128 | 0x18 => some 64
  | 0x02 => some 32
  | _ => none

/-- Bit planes of an A format. -/
def planesOf (fmt : Nat) : Option Nat :=
  match fmt with
  | 0x08 => some 8 | 0x09 => some 8 | 0x0A => some 4 | 0x0B => some 4 | 0x10 => some 8 | 0x11 => some 6 | 0x12 => some 4
  | 0x18 => some 8 | 0x02 => some 16
  | _ => none

/-- Macros of a frame (R308). -/
def macrosOf (fmt k n : Nat) : Nat :=
  let cols := (weightCols fmt).getD 64
  (k + 255) / 256 * ((n + cols - 1) / cols)

/-- Exponent or scale bytes of one block (R220). -/
def expBytes (fmt : Nat) : Nat := if !isBlock fmt then 0 else if fmt ≤ 0x12 then 2 else 1

/-! ### The queue -/

/-- A command enters the crew's queue; the tiles it writes and the registers it reads are unpredictable to others until a
wait observes it (R317, R318, R136). -/
def State.enqueueMx (s : State) (k : Nat) (x : MxCmd) (written : List (Nat × Nat)) : State :=
  let (st, s) := s.draw
  s.onCrewKey k fun c => { c with
    mx := c.mx ++ [{ x with id := st }],
    veils := c.veils ++ written.map fun t => { stamp := st, q := x.q.getD 0, done := false, first := t.1, count := t.2 } }

/-- A command of its parts. -/
def MxCmd.make (op : Nat) (words : List Word) (tiles : List (Nat × Nat)) (frame : Nat) (block : List Byte)
    (q : Option Nat) (dest : Nat) (fences : List (Nat × Nat)) : MxCmd :=
  { id := 0, op, words, tiles, frame, block, q, dest, fences, started := false, regs := [], dirty := [], row := 0, ev := [] }

/-- A lead command on the tile that k[A] names, which waits while the queue is full; its detail is the tile word. -/
def tileCommand (op : Nat) (f : Fields) (s : State)
    (k : State → LIss → Option (Nat × Nat × Tile) → (Nat → State) → State) : Outcome State Fault Refusal :=
  leadInstr 9 op f s fun s i =>
    let tw := asTileWord i.a.toNat
    if i.c.mx.length ≥ 8 then i.retry s
    else k s i (s.tileRef (some (crewKey i.core i.slot)) tw).tile? fun cls =>
      i.raise s cls (if cls = Cls.illegal then (encodeW0 9 op f).setWidth 64 else (lo32 i.a).setWidth 64)

/-- Macros of a crew's frames as issue sees them, but for one. -/
def Crew.macrosBut (c : Crew) (fr : Nat) : Nat :=
  c.frames.foldl (fun n e => if e.1 = fr then n else n + macrosOf e.2.fmt e.2.k e.2.n) 0

/-- WLOAD (R325). -/
def execWload (f : Fields) (s : State) : Outcome State Fault Refusal :=
  tileCommand 0x00 f s fun s i r fail =>
    let key := crewKey i.core i.slot
    match r with
    | none => fail Cls.bounds
    | some (o, n, t) =>
      let fr := i.f.d.toNat
      let m := macrosOf t.fmt t.cols t.rows
      if offReach key (o, n, t) then fail Cls.perm
      else if (weightCols t.fmt).isNone then fail Cls.illegal
      else if t.cols % 32 ≠ 0 ∨ m > 16 then fail Cls.bounds
      else if i.c.macrosBut fr + m > i.c.macros then fail Cls.quota
      else
        let s := s.onCrewKey key fun c =>
          { c with frames := put c.frames fr { fmt := t.fmt, k := t.cols, n := t.rows, lost := false } }
        i.done (s.enqueueMx key (.make 0 [asTileWord i.a.toNat] [(o, n)] fr [] (some i.f.b.toNat) 0 []) [])

/-- WDROP (R326). -/
def execWdrop (f : Fields) (s : State) : Outcome State Fault Refusal :=
  leadInstr 9 0x01 f s fun s i =>
    let key := crewKey i.core i.slot
    if i.c.mx.length ≥ 8 then i.retry s
    else
      let s := s.onCrewKey key fun c => { c with frames := drop c.frames i.f.a.toNat }
      i.done (s.enqueueMx key (.make 1 [] [] i.f.a.toNat [] none 0 []) [])

/-- WCHECK: the lead thread waits for its result (R327). -/
def execWcheck (f : Fields) (s : State) : Outcome State Fault Refusal :=
  leadInstr 9 0x02 f s fun s i =>
    let key := crewKey i.core i.slot
    if i.c.mx.length ≥ 8 then i.retry s
    else
      let s := s.onLead i.core i.slot fun x => { x with wait := .reply s.stamp, adv := i.f.len, instr := x.instr + 1, sp := i.f.live,
                                                        lastSp := if i.f.live.isSome then i.f.live else x.lastSp }
      s.enqueueMx key (.make 2 [] [] i.f.a.toNat [] none i.f.d.toNat []) []

/-- MXFENCE (R319); a release (R123). -/
def execMxfence (f : Fields) (s : State) : Outcome State Fault Refusal :=
  laneInstr 9 0x03 f s fun s i =>
    match (Caller.warp i i.act).performed s with
    | .error s => s
    | .ok s => i.commit s fun _ x => { x with fences := x.fences + 1 }

/-- ACCZERO (R328). -/
def execAcczero (f : Fields) (s : State) : Outcome State Fault Refusal :=
  tileCommand 0x06 f s fun s i r fail =>
    let key := crewKey i.core i.slot
    match r with
    | none => fail Cls.bounds
    | some (o, n, t) =>
      if offAcc key (o, n, t) then fail Cls.perm
      else i.done (s.enqueueMx key (.make 6 [asTileWord i.a.toNat] [(o, n)] 0 [] (some i.f.b.toNat) 0 []) [(o, n)])

/-! ### MXISSUE (R322 to R324) -/

/-- The parameter block (Table 13.5). -/
structure MxParams where
  asource : Nat
  acct : Nat
  arow0 : Nat
  acol0 : Nat
  m : Nat
  k : Nat
  frow0 : Nat
  n0 : Nat
  ncnt : Nat
  accrow0 : Nat
  acccol0 : Nat
  wmask : Nat
  afmt : Nat
  frame : Nat
  /-- ASRC, ACCUM. -/
  regs : Bool
  accum : Bool
  qc : Nat

/-- The parameter block in its bytes. -/
def MxParams.of (b : List Byte) : MxParams :=
  { asource := le b 0 4, acct := le b 4 4, arow0 := le b 8 2, acol0 := le b 10 2, m := le b 12 2, k := le b 14 2,
    frow0 := le b 16 2, n0 := le b 18 2, ncnt := le b 20 2, accrow0 := le b 22 2, acccol0 := le b 24 2,
    wmask := le b 26 2, afmt := le b 28 1 % 32, frame := le b 29 1 % 16, regs := decide (le b 30 1 % 2 = 1),
    accum := decide (bits (le b 30 1) 1 1 = 1), qc := le b 31 1 % 8 }

/-- The participating warps by rank. -/
def MxParams.parts (p : MxParams) : List Nat := (List.range 16).filter fun r => bits p.wmask r r = 1

/-- The warp of a crew by its rank, while it has not completed. -/
def State.rankWarp (s : State) (k r : Nat) : Option (Nat × Warp) :=
  s.warps.find? fun e => e.2.crew == some k && e.2.rank == r

/-- The checks of Table 13.6 from step 3, in order: those of a step by rising offset. -/
def MxParams.checks (p : MxParams) (s : State) (k : Nat) (c : Crew) (b : List Byte) : List (Bool × Nat × Nat) :=
  let acct := (s.tileRef (some k) (w32 p.acct)).tile?
  let a := if p.regs then none else (s.tileRef (some k) (w32 p.asource)).tile?
  let fr := look c.frames p.frame
  let bad (r : Option (Nat × Nat × Tile)) (g : Nat × Nat × Tile → Bool) : Bool := r.any g
  let intA := decide (0x08 ≤ p.afmt ∧ p.afmt ≤ 0x0B)
  let ws := p.parts.filterMap fun r => (s.rankWarp k r).map (·.2)
  let top := p.asource % 2 ^ 11 + p.k * fmtBits p.afmt / 32
  [ (p.regs && decide (p.asource ≥ 2 ^ 11) || bad a fun r => r.2.2.fmt != p.afmt, Cls.illegal, 0),
    (bad acct fun r => r.2.2.fmt == 0x0E && (!intA || fr.any fun x => x.fmt != 0x08 && x.fmt != 0x0A), Cls.illegal, 4),
    (p.regs && p.arow0 != 0, Cls.illegal, 8),
    (p.regs && p.acol0 != 0, Cls.illegal, 10),
    (decide (le b 28 1 ≥ 32) || (planesOf p.afmt).isNone || p.regs && isBlock p.afmt, Cls.illegal, 28),
    (decide (le b 29 1 ≥ 16), Cls.illegal, 29),
    (decide (le b 30 1 ≥ 4), Cls.illegal, 30),
    (decide (le b 31 1 ≥ 8), Cls.illegal, 31),
    ((b.drop 32).any (· != 0), Cls.illegal, 32) ] ++
  [ (fr.isNone, Cls.bounds, 29),
    (fr.any (·.lost), Cls.weightsLost, 29),
    (!p.regs && a.isNone, Cls.bounds, 0),
    (acct.isNone, Cls.bounds, 4),
    (decide (p.wmask ≥ 2 ^ c.warps.length), Cls.bounds, 26),
    (bad a (offReach k), Cls.perm, 0),
    (bad acct (offAcc k), Cls.perm, 4) ] ++
  [ (p.regs && ws.any (fun w => decide (top > w.regs)) ||
      bad a fun r => decide (p.arow0 + p.m > r.2.2.rows ∨ p.acol0 + p.k > r.2.2.cols), Cls.bounds, 0),
    (bad acct fun r => decide (p.accrow0 + p.m > r.2.2.rows ∨ p.acccol0 + p.ncnt > r.2.2.cols), Cls.bounds, 4),
    (decide (p.acol0 % 32 ≠ 0), Cls.bounds, 10),
    (decide (p.m = 0) || p.regs && decide (p.m > 32 * p.parts.length), Cls.bounds, 12),
    (decide (p.k = 0 ∨ p.k % 32 ≠ 0 ∨ p.k * (planesOf p.afmt).getD 0 / 8 > 4096) ||
      fr.any fun x => decide (p.frow0 + p.k > x.k), Cls.bounds, 14),
    (decide (p.frow0 % 32 ≠ 0), Cls.bounds, 16),
    (fr.any fun x => decide (p.n0 + p.ncnt > x.n), Cls.bounds, 18),
    (decide (p.ncnt = 0), Cls.bounds, 20) ]

/-- The operation is counted in the warps it names, and their operand registers are unpredictable until it is observed
(R319, R136). -/
def State.nameWarps (s : State) (k : Nat) (p : MxParams) (stamp : Nat) : State :=
  { s with warps := mapS s.warps fun _ w =>
      if w.crew == some k && p.parts.contains w.rank then
        let v : Veil := { stamp, q := p.qc, done := false, first := p.asource % 2 ^ 11,
                          count := p.k * fmtBits p.afmt / 32 }
        { w with named := w.named + 1, veils := if p.regs then v :: w.veils else w.veils }
      else w }

/-- The operation takes one fence of each warp it names. What their lanes wrote to its tiles after those fences it may or may
not see; a fence taken is not waited for again (R136, R319). -/
def Crew.takeFences (c : Crew) (fences : List (Nat × Nat)) (tiles : List (Nat × Nat)) :
    Crew × List ((Nat × Nat) × Nat × Nat) :=
  let of (e : EarlyWrite) : Option Nat := (fences.find? fun f => f.1 == e.rank).map (·.2)
  ({ c with early := c.early.filter fun e => match of e with | some n => decide (n < e.fences) | none => true },
   (c.early.filter fun e => tiles.contains e.tile && match of e with | some n => decide (n ≤ e.fences) | none => false).map
     fun e => (e.tile, e.off, e.len))

/-- MXISSUE of one thread (R323). -/
def Caller.mxissue (c : Caller) (s : State) : State :=
  match c.crew? s with
  | none => c.retry s
  | some (k, x) =>
    if x.mx.length ≥ 8 then c.retry s
    else c.block s k 64 64 fun b s =>
      let p := MxParams.of b
      match firstBad (p.checks s k x b) with
      | some (cls, off) => c.badField s cls off
      | none =>
        let tiles := ((s.tileRef (some k) (w32 p.acct)).tile?.toList ++
          if p.regs then [] else (s.tileRef (some k) (w32 p.asource)).tile?.toList).map fun r => (r.1, r.2.1)
        let fences := p.parts.filterMap fun r => (s.rankWarp k r).map fun e => (r, e.2.named + 1)
        let words := w32 p.acct :: if p.regs then [] else [w32 p.asource]
        let (x', dirty) := x.takeFences fences tiles
        let cmd : MxCmd := { MxCmd.make 4 words tiles p.frame b (some p.qc) 0 fences with dirty }
        let s' := (s.onCrewKey k fun c => { c with early := x'.early }).enqueueMx k cmd (tiles.take 1)
        c.done (s'.nameWarps k p s.stamp)

/-- MXISSUE (R322, R323). -/
def execMxissue (f : Fields) (s : State) : Outcome State Fault Refusal :=
  issue 9 0x04 f s anyway (fun s i => i.elected s fun c => c.mxissue s) fun s i => (Caller.lead i).mxissue s

/-- MXWAIT: it waits until the counter has reached the value, and acquires (R318, R320). -/
def execMxwait (f : Fields) (s : State) : Outcome State Fault Refusal :=
  issue 9 0x05 f s anyway
    (fun s i => i.perWarp s fun s =>
      match i.w.crew.bind fun k => (look s.crews k).map fun c => (k, c) with
      | none => i.retry s
      | some (k, c) =>
        if (c.q.getD i.f.a.toNat 0).toNat ≥ (i.b false (lowest i.w.live)).toNat then i.done (s.observe k i.f.a.toNat)
        else i.block s)
    fun s i =>
      if (i.c.q.getD i.f.a.toNat 0).toNat ≥ i.b.toNat then i.done (s.observe (crewKey i.core i.slot) i.f.a.toNat)
      else i.retry s

/-! ### ACCRD and ACCWR (R329) -/

/-- The checks of R329; the offset in the tile stands as a device location. -/
def State.accAccess (s : State) (crew : Option Nat) (q : TileAsk) (n : Nat) : AccOut :=
  match (s.tileRef crew q.tw).tile? with
  | none => .fail 1 Cls.bounds false
  | some (o, _, t) =>
    let off := q.row * t.stride + 4 * q.col.toNat
    if t.level ≠ 1 ∨ crew ≠ some o then .fail 2 Cls.perm false
    else if n = 4 ∧ q.col % 4 ≠ 0 then .fail 3 Cls.misalign false
    else if q.row ≥ t.rows ∨ q.col < 0 ∨ q.col + (n : Int) > (t.cols : Int) then .fail 4 Cls.bounds false
    else if q.ecc && t.badIn off (4 * n) then .fail 5 Cls.dataCheck false
    else .ok (.dev off) false

/-- Elements that ACCRD or ACCWR moves. -/
def Iss.accCount (i : Iss) : Nat := if i.mo = 1 then 4 else 1

/-- An access to accumulators in every active lane. -/
def Iss.accTiles (i : Iss) (s : State) (store : Bool) (gate : State → Except State State)
    (k : (Nat → Nat × Nat × Nat) → State → State) : State :=
  let ask := i.tileAsk (4 * i.accCount) false (!store) store
  i.tilesBy s ask (fun l => s.accAccess i.w.crew (ask l) i.accCount) gate k

/-- ACCRD. -/
def execAccrd (f : Fields) (s : State) : Outcome State Fault Refusal :=
  laneInstr 9 0x07 f s fun s i => i.acting s fun _ =>
    i.accTiles s false open_ fun at_ s =>
      i.produce (i.corrected s at_ (4 * i.accCount)) ((lanesOf i.act).flatMap fun l =>
        mapIx (fun n x => (l, i.f.d.toNat + n, x.setWidth 64)) 0
          (wordsOf (s.tileBytes i.w l (at_ l).1 (at_ l).2.1 (at_ l).2.2 (4 * i.accCount)))) []

/-- ACCWR: the highest lane that stores to a word decides it (R134). -/
def execAccwr (f : Fields) (s : State) : Outcome State Fault Refusal :=
  laneInstr 9 0x08 f s fun s i => i.acting s fun c =>
    i.accTiles s true (fun s => if c.unfenced s then .ok s else .error (c.behindFence s)) fun at_ s =>
      i.done (i.storeTiles s at_ (4 * i.accCount))

/-! ### ACCDRAIN (R330, R331) -/

/-- The drain block (Table 13.8). -/
structure Drain where
  src : Nat
  dst : Nat
  sdst : Nat
  row0 : Nat
  col0 : Nat
  rows : Nat
  cols : Nat
  drow0 : Nat
  dcol0 : Nat
  srow0 : Nat
  scol0 : Nat
  dfmt : Nat
  rnd : Nat
  zero : Bool
  qc : Nat

/-- The drain block in its bytes. -/
def Drain.of (b : List Byte) : Drain :=
  { src := le b 0 4, dst := le b 4 4, sdst := le b 8 4, row0 := le b 12 2, col0 := le b 14 2, rows := le b 16 2,
    cols := le b 18 2, drow0 := le b 20 2, dcol0 := le b 22 2, srow0 := le b 24 2, scol0 := le b 26 2,
    dfmt := le b 28 1 % 32, rnd := le b 29 1 % 8, zero := decide (bits (le b 29 1) 3 3 = 1), qc := le b 30 1 % 8 }

/-- The destination is a block format, and its exponents or scales go to a tile of their own. -/
def Drain.blocky (p : Drain) : Bool := p.dfmt != 0 && p.dfmt != 2
def Drain.apart (p : Drain) : Bool := p.blocky && p.sdst != 0xFFFFFFFF

/-- Columns written: whole blocks for a block format. -/
def Drain.width (p : Drain) : Nat := if p.blocky then (p.cols + 31) / 32 * 32 else p.cols

/-- The checks of R331 in order: reserved fields and FMT rules, tiles, regions. -/
def Drain.checks (p : Drain) (s : State) (k : Nat) (b : List Byte) : List (Bool × Nat × Nat) :=
  let ref (w : Nat) : Option (Nat × Nat × Tile) := (s.tileRef (some k) (w32 w)).tile?
  let src := ref p.src
  let dst := ref p.dst
  let sd := if p.apart then ref p.sdst else none
  let okFmt := p.dfmt == 0 || p.dfmt == 2 || isBlock p.dfmt
  let elemOk (fmt : Nat) : Bool := fmt == p.dfmt || (p.apart && decide (p.dfmt ≥ 0x13) && fmt == mxElem p.dfmt)
  let scaleFmt := if p.dfmt ≤ 0x12 then 0x0D else 0x09
  [ (dst.any fun r => !elemOk r.2.2.fmt, Cls.illegal, 4),
    (!p.blocky && p.sdst != 0 || sd.any fun r => r.2.2.fmt != scaleFmt, Cls.illegal, 8),
    (!p.apart && p.srow0 != 0, Cls.illegal, 24),
    (!p.apart && p.scol0 != 0, Cls.illegal, 26),
    (decide (le b 28 1 ≥ 32) || !okFmt, Cls.illegal, 28),
    (decide (le b 29 1 ≥ 16 ∨ p.rnd > 3) || p.blocky && p.rnd != 0, Cls.illegal, 29),
    (decide (le b 30 1 ≥ 8), Cls.illegal, 30),
    (decide (le b 31 1 ≠ 0), Cls.illegal, 31) ] ++
  [ (src.isNone, Cls.bounds, 0),
    (dst.isNone, Cls.bounds, 4),
    (p.apart && sd.isNone, Cls.bounds, 8),
    (src.any (offAcc k), Cls.perm, 0),
    (dst.any (offReach k), Cls.perm, 4),
    (sd.any (offReach k), Cls.perm, 8) ] ++
  [ (src.any fun r => decide (p.row0 + p.rows > r.2.2.rows), Cls.bounds, 12),
    (src.any fun r => decide (p.col0 + p.cols > r.2.2.cols), Cls.bounds, 14),
    (decide (p.rows = 0 ∨ p.rows > 4096), Cls.bounds, 16),
    (decide (p.cols = 0 ∨ p.cols > 4096), Cls.bounds, 18),
    (dst.any fun r => decide (p.drow0 + p.rows > r.2.2.rows), Cls.bounds, 20),
    (p.blocky && decide (p.dcol0 % 32 ≠ 0) || dst.any fun r => decide (p.dcol0 + p.width > r.2.2.cols), Cls.bounds, 22),
    (sd.any fun r => decide (p.srow0 + p.rows > r.2.2.rows), Cls.bounds, 24),
    (sd.any fun r => decide (p.scol0 + (p.cols + 31) / 32 > r.2.2.cols), Cls.bounds, 26) ]

/-- ACCDRAIN (R331). -/
def execAccdrain (f : Fields) (s : State) : Outcome State Fault Refusal :=
  leadInstr 9 0x09 f s fun s i =>
    let c := Caller.lead i
    let k := crewKey i.core i.slot
    if i.c.mx.length ≥ 8 then i.retry s
    else c.block s k 32 32 fun b s =>
      let p := Drain.of b
      match firstBad (p.checks s k b) with
      | some (cls, off) => c.badField s cls off
      | none =>
        let words := [w32 p.src, w32 p.dst] ++ if p.apart then [w32 p.sdst] else []
        let tiles := words.filterMap fun w => (s.tileRef (some k) w).tile?.map fun r => (r.1, r.2.1)
        i.done (s.enqueueMx k (.make 9 words tiles 0 b (some p.qc) 0 []) tiles)

/-- MXSTAT (Table 13.9). -/
def Crew.mxstat (c : Crew) : DWord :=
  let busy := c.mx.any (·.started)
  w64 (c.frames.foldl (fun n e => n + (if e.2.lost then 2 ^ (48 + e.1) else 0) + 2 ^ (32 + e.1)) 0 + c.macros * 2 ^ 22 +
    (c.weights.foldl (fun n e => n + macrosOf e.2.fmt e.2.k e.2.n) 0) * 2 ^ 17 +
    (c.mx.length - if busy then 1 else 0) * 2 ^ 13 + (if busy then 2 ^ 12 else 0) + c.resets * 2 ^ 8)

/-- MXSTAT (R332). -/
def execMxstat (f : Fields) (s : State) : Outcome State Fault Refusal :=
  leadInstr 9 0x0A f s fun s i => i.write s i.c.mxstat

/-! ### What a command reads (R318, R324, R136) -/

/-- A byte range of a tile that has been written since the fences of a command. -/
def MxCmd.isDirty (x : MxCmd) (t : Nat × Nat) (off : Nat) : Bool :=
  x.dirty.any fun d => d.1 == t && decide (d.2.1 ≤ off ∧ off < d.2.1 + d.2.2)

/-- Bytes of a tile as a command reads them; a byte written since its fences is free. -/
def State.mxRead (s : State) (x : MxCmd) (t : Nat × Nat) (off n : Nat) : List Byte :=
  match s.tile? t.1 t.2 with
  | none => List.replicate n 0
  | some tile => (List.range n).map fun i =>
      if x.isDirty t (off + i) then (Config.freeWord x.id (off + i)).setWidth 8 else tile.read (off + i)

/-- A register of a lane as an operation reads it; one written since the lane's fence is free. -/
def Warp.mxReg (w : Warp) (id need l r : Nat) : Word :=
  if count (w.lane l).marks r ≥ need then Config.freeVeil id 0 r l else w.stored l r

/-- Bit patterns of `n` elements of `w` bits in a byte string (R95). -/
def elemsOf (w n : Nat) (bs : List Byte) : List Nat :=
  let x := natOf bs
  (List.range n).map fun i => x / 2 ^ (w * i) % 2 ^ w

/-- Bytes of elements of `w` bits (R95). -/
def packElems (w : Nat) (es : List Nat) : List Byte :=
  bytesOf ((w * es.length + 7) / 8) (es.foldr (fun e x => e % 2 ^ w + x * 2 ^ w) 0)

/-- The aligned values of a bf16 block (R310). -/
def alignBlock (es : List Nat) : List Val :=
  if es.any fun e => decide (e / 2 ^ 7 % 256 = 255) then es.map fun _ => .nan
  else
    let expo (e : Nat) : Nat := max (e / 2 ^ 7 % 256) 1
    let top := es.foldl (fun t e => max t (expo e)) 0
    es.map fun e =>
      let m := e % 2 ^ 7 + if e / 2 ^ 7 % 256 = 0 then 0 else 128
      .fin (decide (e / 2 ^ 15 % 2 = 1)) (m * 2 ^ 7 / 2 ^ (top - expo e)) ((top : Int) - 141)

/-- The exact values of a block of elements with its exponent or scale bytes; bf16 of A is aligned first. -/
def blockValues (fmt : Nat) (aSide : Bool) (es exps : List Nat) : List Val :=
  if isBlock fmt then decodeBlock fmt es exps
  else if fmt = 2 ∧ aSide then alignBlock es
  else es.map (decodeElem fmt)

/-- The exact block sum, or NaN (R311, R312). -/
def blockSum (a w : List Val) : Val :=
  if (a ++ w).any fun x => x.isNan || x.isInf then .nan
  else
    match (List.zipWith Val.mul a w).foldl (Val.add false) (.zero false) with
    | .fin n m e => if m = 0 then .zero false else .fin n m e
    | x => x

/-- The whole value of an exact integer sum. -/
def Val.int (x : Val) : Int := match x with | .fin n m e => intAt n m e 0 | _ => 0

/-- Block `b` of a row of elements and a plane. -/
def rowBlock (fmt : Nat) (aSide : Bool) (row plane : List Byte) (b : Nat) : List Val :=
  let w := fmtBits fmt
  blockValues fmt aSide (elemsOf w 32 ((row.drop (4 * w * b)).take (4 * w)))
    (((plane.drop (expBytes fmt * b)).take (expBytes fmt)).map (·.toNat))

/-- Row `m` of A as blocks (R322, R324). -/
def State.aRow (s : State) (k : Nat) (x : MxCmd) (p : MxParams) (m : Nat) : List (List Val) :=
  let w := fmtBits p.afmt
  let (row, plane) : List Byte × List Byte :=
    if p.regs then
      let r := p.parts.getD (m / 32) 16
      let l := m % 32
      let ws := ((x.regs.find? fun e => e.1 == r && e.2.1 == l).map (·.2.2)).getD []
      let ws := match s.rankWarp k r with
        | some (_, wp) =>
          let need := ((x.fences.find? fun e => e.1 == r).map (·.2)).getD 0
          mapIx (fun n v =>
            let reg := p.asource % 2 ^ 11 + n
            if count (wp.lane l).marks reg ≥ need then Config.freeVeil x.id 0 reg l else v) 0 ws
        | none => ws
      (bytesOfWords ws, [])
    else
      let t := x.tiles.getD 1 (0, 0)
      match s.tile? t.1 t.2 with
      | none => ([], [])
      | some tile =>
        let base := (p.arow0 + m) * tile.stride
        (s.mxRead x t (base + p.acol0 * w / 8) (p.k * w / 8),
         s.mxRead x t (base + rowBytes tile.fmt tile.cols + p.acol0 / 32 * expBytes p.afmt) (p.k / 32 * expBytes p.afmt))
  (List.range (p.k / 32)).map (rowBlock p.afmt true row plane)

/-- One accumulator element of an f32 tile: every block sum rounded once and added in order, with events (R313). -/
def accFloat (x0 : Nat) (sums : List Val) : Nat × Events :=
  sums.foldl (fun (x, ev) v =>
    let f := fltOf 0
    let (c, e1) := f.deliver .rne false v
    let xv := f.decode x
    let cv := f.decode c
    let (y, e2) := f.deliver .rne (xv.isInf || cv.isInf) (Val.add false xv cv)
    (y, ev ++ e1 ++ e2)) (x0, [])

/-- One accumulator element of an s32 tile (R313, R98). -/
def accInt (x0 : Nat) (sums : List Val) : Nat :=
  truncN 32 (sums.foldl (fun (x : Int) v => satInt 32 true (x + v.int)) (signedOf 32 x0))

/-- What a command does to its tiles: bytes written, and events by counter. -/
abbrev MxEffect := List ((Nat × Nat) × Nat × List Byte) × List Nat

/-- The rows from `lo` to before `hi`. -/
def rowsFrom (lo hi : Nat) : List Nat := (List.range (hi - lo)).map (lo + ·)

/-- Effects one after the other. -/
def mxJoin (es : List MxEffect) : MxEffect := (es.flatMap (·.1), es.flatMap (·.2))

/-- Rows `lo` to before `hi` of an operation (R313). -/
def State.product (s : State) (k : Nat) (x : MxCmd) (w : Weights) (lo hi : Nat) : MxEffect :=
  let p := MxParams.of x.block
  let t := x.tiles.getD 0 (0, 0)
  match s.tile? t.1 t.2 with
  | none => ([], [])
  | some acc =>
    let cols := ((w.cols.drop p.n0).take p.ncnt).map fun c =>
      (List.range (p.k / 32)).map fun b => rowBlock w.fmt false c.1 c.2 (p.frow0 / 32 + b)
    let row (m : Nat) : MxEffect :=
      let a := s.aRow k x p m
      let off := (p.accrow0 + m) * acc.stride + 4 * p.acccol0
      let old := elemsOf 32 p.ncnt (if p.accum then s.mxRead x t off (4 * p.ncnt) else List.replicate (4 * p.ncnt) 0)
      let es := List.zipWith (fun o c =>
        let sums := List.zipWith blockSum a c
        if acc.fmt = 0 then accFloat o sums else (accInt o sums, [])) old cols
      ([(t, off, packElems 32 (es.map (·.1)))], counters 0 (es.flatMap (·.2)))
    mxJoin ((rowsFrom lo hi).map row)

/-- One drained row: elements, and exponent or scale bytes, with events (R331). -/
def Drain.row (p : Drain) (xs : List Val) : List Nat × List Nat × List Nat :=
  if p.blocky then
    (List.range ((xs.length + 31) / 32)).foldl (fun r j =>
      let block := (xs.drop (32 * j)).take 32
      let (es, exps, ev) := encodeBlock p.dfmt block
      (r.1 ++ es ++ List.replicate (32 - es.length) 0, r.2.1 ++ exps, r.2.2 ++ ev)) ([], [], [])
  else
    let es := xs.map (convert 0 p.dfmt (modeOf p.rnd) false)
    (es.map (·.1), [], es.flatMap (·.2))

/-- Rows `lo` to before `hi` of a drain (R331). -/
def State.drainRows (s : State) (x : MxCmd) (lo hi : Nat) : MxEffect :=
  let p := Drain.of x.block
  let src := x.tiles.getD 0 (0, 0)
  let dst := x.tiles.getD 1 (0, 0)
  match s.tile? src.1 src.2, s.tile? dst.1 dst.2 with
  | some a, some d =>
    let row (r : Nat) : MxEffect :=
      let off := (p.row0 + r) * a.stride + 4 * p.col0
      let xs := (elemsOf 32 p.cols (s.mxRead x src off (4 * p.cols))).map (decodeElem a.fmt)
      let (es, exps, ev) := p.row xs
      let w := fmtBits d.fmt
      let base := (p.drow0 + r) * d.stride
      let scales : List ((Nat × Nat) × Nat × List Byte) :=
        if !p.blocky then []
        else if p.apart then
          let t := x.tiles.getD 2 (0, 0)
          match s.tile? t.1 t.2 with
          | none => []
          | some sd => [(t, (p.srow0 + r) * sd.stride + p.scol0 * expBytes p.dfmt, exps.map (BitVec.ofNat 8))]
        else [(dst, base + rowBytes d.fmt d.cols + p.dcol0 / 32 * expBytes p.dfmt, exps.map (BitVec.ofNat 8))]
      let cleared : List ((Nat × Nat) × Nat × List Byte) :=
        if p.zero then [(src, off, List.replicate (4 * p.cols) 0)] else []
      ([(dst, base + p.dcol0 * w / 8, packElems w es)] ++ scales ++ cleared, ev)
    mxJoin ((rowsFrom lo hi).map row)
  | _, _ => ([], [])

/-- The writes of a command take place. -/
def State.mxWrites (s : State) (ws : List ((Nat × Nat) × Nat × List Byte)) : State :=
  ws.foldl (fun s (w : (Nat × Nat) × Nat × List Byte) => s.writeTile w.1.1 w.1.2 w.2.1 w.2.2) s

/-- The effect of the rows that a command ends with takes place, and the events of all of its rows count for its task
(R315). -/
def State.mxApply (s : State) (task : Nat) (x : MxCmd) (e : MxEffect) : State :=
  (s.mxWrites e.1).countFp task 0xFFFFFFFF#32 (x.ev ++ e.2)

/-! ### Start and completion -/

/-- Bytes of a tile that a row of a command reads. -/
structure MxRead where
  row : Nat
  word : Word
  /-- Row of the tile. -/
  at_ : Nat
  tile : Nat × Nat
  off : Nat
  len : Nat

/-- Rows of a command that it does one after the other. -/
def MxCmd.rows (x : MxCmd) : Nat :=
  match x.op with | 4 => (MxParams.of x.block).m | 9 => (Drain.of x.block).rows | _ => 0

/-- What a command reads of its tiles in rows `lo` to before `hi`, and a WLOAD of its whole tile. -/
def State.mxReads (s : State) (x : MxCmd) (lo hi : Nat) : List MxRead :=
  let t0 := x.tiles.getD 0 (0, 0)
  let t1 := x.tiles.getD 1 (0, 0)
  let w0 := x.words.getD 0 0
  match x.op, s.tile? t0.1 t0.2 with
  | 0, some t => (List.range t.rows).map fun r => ⟨r, w0, r, t0, r * t.stride, t.stride⟩
  | 4, some acc =>
    let p := MxParams.of x.block
    (rowsFrom lo hi).flatMap fun m =>
      (if p.accum then [⟨m, w0, p.accrow0 + m, t0, (p.accrow0 + m) * acc.stride + 4 * p.acccol0, 4 * p.ncnt⟩] else []) ++
      match if p.regs then none else s.tile? t1.1 t1.2 with
      | none => []
      | some a =>
        let r := p.arow0 + m
        [⟨m, x.words.getD 1 0, r, t1, r * a.stride + p.acol0 * fmtBits p.afmt / 8, p.k * fmtBits p.afmt / 8⟩,
         ⟨m, x.words.getD 1 0, r, t1, r * a.stride + rowBytes a.fmt a.cols + p.acol0 / 32 * expBytes p.afmt, p.k / 32 * expBytes p.afmt⟩]
  | 9, some a =>
    let p := Drain.of x.block
    (rowsFrom lo hi).map fun r => ⟨r, w0, p.row0 + r, t0, (p.row0 + r) * a.stride + 4 * p.col0, 4 * p.cols⟩
  | _, _ => []

/-- The first row in which a command reads a word with an uncorrectable error (R317). -/
def State.mxError (s : State) (x : MxCmd) : Option MxRead :=
  (s.mxReads x 0 x.rows).find? fun r => (s.tile? r.tile.1 r.tile.2).any fun t => t.badIn r.off r.len

/-- The single-bit errors that a command has met are corrected (R238, R455). -/
def State.mxCorrect (s : State) (die : Nat) (rs : List MxRead) : State :=
  rs.foldl (fun s r => s.correct die r.tile.1 r.tile.2 r.off r.len) s

/-- The effect of rows `lo` to before `hi` of a command; a frame lost or not there gives none (R336). -/
def State.mxEffect (s : State) (k : Nat) (c : Crew) (x : MxCmd) (lo hi : Nat) : MxEffect :=
  match x.op with
  | 4 =>
    match look c.weights x.frame with
    | some w => if w.lost then ([], []) else s.product k x w lo hi
    | none => ([], [])
  | 6 =>
    let t := x.tiles.getD 0 (0, 0)
    match s.tile? t.1 t.2 with
    | none => ([], [])
    | some tile => ([(t, 0, List.replicate (tile.rows * tile.stride) 0)], [])
  | 9 => s.drainRows x lo hi
  | _ => ([], [])

/-- The operand registers of a command as they stand at its start (R318, R324). -/
def State.mxRegs (s : State) (k : Nat) (x : MxCmd) : List (Nat × Nat × List Word) :=
  let p := MxParams.of x.block
  if x.op = 4 ∧ p.regs then
    x.fences.flatMap fun e =>
      match s.rankWarp k e.1 with
      | none => []
      | some (_, w) => (lanesOf w.live).map fun l =>
          (e.1, l, (List.range (p.k * fmtBits p.afmt / 32)).map fun n => w.mxReg x.id e.2 l (p.asource % 2 ^ 11 + n))
  else []

/-- The first command of a crew, when nothing has started. -/
def State.mxHead (s : State) (core slot : Nat) (started : Bool) : Option (Crew × MxCmd × List MxCmd) :=
  match s.crew? core slot with
  | none => none
  | some c =>
    match c.mx with
    | x :: r => if x.started == started && s.runs c.ctx && !c.done then some (c, x, r) else none
    | [] => none

/-- A producer issued before has an operand register of a command still to write (R68, R318). -/
def State.operandsDue (s : State) (k : Nat) (x : MxCmd) : Bool :=
  let p := MxParams.of x.block
  let first := p.asource % 2 ^ 11
  x.op == 4 && p.regs && x.fences.any fun e =>
    match s.rankWarp k e.1 with
    | none => false
    | some (_, w) => w.empty.any fun r => decide (first ≤ r ∧ r < first + p.k * fmtBits p.afmt / 32)

/-- MATRIX_COMMAND_START: the next command starts once its fences stand; an uncorrectable error in a word it reads stops
it at that row, and its context (R317, R318, R319). -/
def execMatrixCommandStart (core slot : Nat) (s : State) : Outcome State Fault Refusal :=
  match s.mxHead core slot false with
  | none => .next s
  | some (c, x, r) =>
    let k := crewKey core slot
    if !s.fencesMet k x || s.operandsDue k x then .next s
    else
      let lost := x.op == 4 && (look c.weights x.frame).all fun (w : Weights) => w.lost
      match if lost then none else s.mxError x with
      | some e =>
        let s := (s.mxApply c.task x (s.mxEffect k c { x with regs := s.mxRegs k x } 0 e.row)).errUp (dieOf core) 24 24 1
        let s := s.onCrewKey k fun c => { c with mx := r }
        .next (s.stop c.ctx Cls.dataCheck (s.taskNo c.task) (slot * 2 ^ 9) 0xFFFFFFFF#32
          (w64 (e.word.toNat + e.at_ % 2 ^ 16 * 2 ^ 32)) (dieOf core))
      | none =>
        let tile := (x.tiles.head?).bind fun t => s.tile? t.1 t.2
        let weights := match x.op, tile with
          | 0, some t => put c.weights x.frame { fmt := t.fmt, k := t.cols, n := t.rows, cols := [], crc := [], lost := false }
          | 0, none => drop c.weights x.frame
          | 1, _ => drop c.weights x.frame
          | _, _ => c.weights
        .next (s.onCrewKey k fun c =>
          { c with weights, mx := { x with started := true, regs := s.mxRegs k x } :: r })

/-- The bytes that one macro of a frame holds (R308). -/
def Weights.macro (w : Weights) (strip stack : Nat) : List Byte :=
  let cols := (weightCols w.fmt).getD 64
  let n := 32 * fmtBits w.fmt
  ((w.cols.drop (strip * cols)).take cols).flatMap fun c => (c.1.drop (stack * n)).take n

/-- CRC-32C of every macro (R325). -/
def Weights.crcs (w : Weights) : List Word :=
  let cols := (weightCols w.fmt).getD 64
  (List.range ((w.n + cols - 1) / cols)).flatMap fun t =>
    (List.range ((w.k + 255) / 256)).map fun u => crc32c (w.macro t u)

/-- The frame that a WLOAD reads from its tile (R325). -/
def State.loadWeights (s : State) (x : MxCmd) : Option Weights :=
  let t := x.tiles.getD 0 (0, 0)
  (s.tile? t.1 t.2).map fun tile =>
    let rb := rowBytes tile.fmt tile.cols
    let w : Weights :=
      { fmt := tile.fmt, k := tile.cols, n := tile.rows, crc := [], lost := false,
        cols := (List.range tile.rows).map fun r =>
          (s.mxRead x t (r * tile.stride) rb, s.mxRead x t (r * tile.stride + rb) (planeBytes tile.fmt tile.cols)) }
    { w with crc := w.crcs }

/-- A frame is found lost: its macros, and its mark unless a WLOAD of it waits (R327, R336). -/
def Crew.loseFrame (c : Crew) (fr : Nat) : Crew :=
  { c with
    weights := adjust c.weights fr fun w => { w with lost := true },
    frames := if c.mx.any fun x => x.op == 0 && x.frame == fr then c.frames
              else adjust c.frames fr fun x => { x with lost := true } }

/-- A frame whose macros no longer match is lost (R327). -/
def Crew.checkFrame (c : Crew) (fr : Nat) : Crew :=
  if (look c.weights fr).any fun (w : Weights) => w.crc != w.crcs then c.loseFrame fr else c

/-- The result of a WCHECK (Table 13.7). -/
def Crew.checkWord (c : Crew) (fr : Nat) : DWord :=
  match look c.weights fr with
  | none => 1
  | some w => w64 (w.n * 2 ^ 32 + w.k * 2 ^ 16 + w.fmt * 2 ^ 8 + if w.lost then 2 else 0)

/-- What a completed command used reads as it stands once a wait observes its counter (R136). -/
def State.unveil (s : State) (stamp : Nat) : State :=
  let mark (vs : List Veil) : List Veil := vs.map fun v => if v.stamp = stamp then { v with done := true } else v
  { s with crews := mapS s.crews fun _ c => { c with veils := mark c.veils },
           warps := mapS s.warps fun _ w => { w with veils := mark w.veils } }

/-- A completion counter of a crew goes up by 1 (R156). -/
def State.countUp (s : State) (k : Nat) (q : Option Nat) : State :=
  match q with
  | none => s
  | some q => s.onCrewKey k fun c => { c with q := setNth c.q q (c.q.getD q 0 + 1) }

/-- A waiting WCHECK ends with its result (R327). -/
def Lead.checked (x : Lead) (cmd : MxCmd) (v : DWord) : Lead :=
  if x.wait = Wait.reply cmd.id then
    { x.setK cmd.dest v with pc := x.pc + w32 x.adv, wait := .none, answers := [], extData := [], extErr := [] }
  else x

/-- MATRIX_COMMAND_COMPLETE: the results are written, and the counter goes up (R318). -/
def execMatrixCommandComplete (core slot : Nat) (s : State) : Outcome State Fault Refusal :=
  match s.mxHead core slot true with
  | none => .next s
  | some (c, x, r) =>
    let k := crewKey core slot
    let s := (s.mxCorrect (dieOf core) (s.mxReads x x.row x.rows)).mxApply c.task x (s.mxEffect k c x x.row x.rows)
    let s := match x.op, s.loadWeights x with
      | 0, some w => s.onCrewKey k fun c => { c with weights := put c.weights x.frame w }
      | 2, _ =>
        let s := s.onCrewKey k fun c => c.checkFrame x.frame
        s.onCrewKey k fun c => { c with lead := c.lead.checked x (c.checkWord x.frame) }
      | _, _ => s
    .next ((((s.onCrewKey k fun c => { c with mx := r }).countUp k x.q).unveil x.id).checkCrew k)

/-- A command in progress stops at the end of a row; which one is left open (R333). -/
def State.mxPause (s : State) (core slot : Nat) : State :=
  match s.mxHead core slot true with
  | none => s
  | some (c, x, r) =>
    if x.rows ≤ x.row then s
    else
      let k := crewKey core slot
      let (st, s) := s.draw
      let row := x.row + 1 + Config.freeChoice st % (x.rows - x.row)
      let e := s.mxEffect k c x x.row row
      ((s.mxCorrect (dieOf core) (s.mxReads x x.row row)).mxWrites e.1).onCrewKey k fun c =>
        { c with mx := { x with row, ev := x.ev ++ e.2 } :: r }

/-! ### Resets and scrubs -/

/-- Crews on a core. -/
def State.crewsOn (s : State) (core : Nat) : List Nat := (s.crews.filter fun e => e.1 / 4 == core).map (·.1)

/-- The commands, frames and ACC tiles of a crew are gone (R334, R335). -/
def Crew.dropMatrix (c : Crew) : Crew :=
  { c with mx := [], frames := [], weights := [], veils := [], early := [], tiles := keep c.tiles fun _ t => t.level != 1 }

/-- The matrix engine of a core is reset for a context (Table 13.10). -/
def State.resetMatrix (s : State) (core ctx : Nat) : State :=
  (s.crewsOn core).foldl (fun s k => s.onCrewKey k fun c =>
    if c.ctx = ctx then c.dropMatrix
    else (List.range 16).foldl Crew.checkFrame { c with resets := min 15 (c.resets + 1) }) s

/-- MATRIX_ENGINE_HANG: the engine of the core is reset, and the context of the hung operation stops (R335). -/
def execMatrixEngineHang (core slot : Nat) (s : State) : Outcome State Fault Refusal :=
  match s.mxHead core slot true with
  | none => .next s
  | some (c, _, _) =>
    .next ((s.resetMatrix core c.ctx).stop c.ctx Cls.engineReset (s.taskNo c.task) (slot * 2 ^ 9) 0xFFFFFFFF#32 0
      (dieOf core))

/-- MACRO_CRC_SCRUB: the frames named, by crew slot and number, do not match and are lost (R455). -/
def execMacroCrcScrub (core : Nat) (bad : List (Nat × Nat)) (s : State) : Outcome State Fault Refusal :=
  .next (bad.foldl (fun s e =>
    let k := crewKey core e.1
    if (look s.crews k).any fun (c : Crew) => (look c.weights e.2).any fun (w : Weights) => !w.lost then
      (s.errUp (dieOf core) 24 24 1).onCrewKey k fun c => c.loseFrame e.2
    else s) s)

end Sys2Proof.Machine
end

