-- ==== Sys2Proof/Machine/Copy.lean ====
section
/-! DEFINITION. The copy engine (R337 to R356): descriptors and the checks of issue, tickets, the movement and conversion
of elements, gather and scatter, fills, checkpoint shards, completion, query and cancel; and TFREE (R232). -/

namespace Sys2Proof.Machine

open Host (Outcome)

/-! ### Descriptors (Tables 14.2, 14.3) -/

/-- One side of a copy. -/
structure Side where
  h : Nat
  tile : Bool
  off : Nat
  poff : Nat
  /-- Strides of dims 1 to 3. -/
  str : List Int
  fmt : Nat

/-- A copy descriptor with its checkpoint tail. -/
structure CpDesc where
  src : Side
  dst : Side
  dims : Nat
  rnd : Nat
  onan : Bool
  qen : Bool
  qc : Nat
  rsv : Nat
  /-- Extents of dims 0 to 3. -/
  ext : List Nat
  ctile : Nat
  ccoord : Nat
  aux : Nat
  gshape : List Nat
  origin : List Nat
  step : Nat
  list : Nat
  lcoord : Nat
  nshard : Nat
  rsv2 : Nat

/-- The descriptor in its bytes. -/
def CpDesc.of (b : List Byte) : CpDesc :=
  let c := le b 0 8
  let strides (o : Nat) : List Int := (List.range 3).map fun i => signedOf 64 (le b (o + 8 * i) 8)
  let words (o : Nat) : List Nat := (List.range 4).map fun i => le b (o + 4 * i) 4
  { src := { h := le b 8 4, tile := decide (bits c 12 12 = 1), off := le b 16 8, poff := le b 32 8, str := strides 64,
             fmt := bits c 4 0 },
    dst := { h := le b 12 4, tile := decide (bits c 13 13 = 1), off := le b 24 8, poff := le b 40 8, str := strides 88,
             fmt := bits c 9 5 },
    dims := bits c 11 10, rnd := bits c 16 14, onan := decide (bits c 17 17 = 1), qen := decide (bits c 18 18 = 1),
    qc := bits c 21 19, rsv := bits c 63 22, ext := words 48, ctile := le b 112 4, ccoord := le b 116 4,
    aux := le b 120 8, gshape := words 128, origin := words 144, step := le b 160 8, list := le b 168 4,
    lcoord := le b 172 4, nshard := le b 176 4, rsv2 := le b 180 12 }

def CpDesc.e (d : CpDesc) (n : Nat) : Nat := d.ext.getD n 1

/-- Number of runs. -/
def CpDesc.runs (d : CpDesc) : Nat := d.e 1 * d.e 2 * d.e 3

/-- The run's place in dims 1 to 3 (R343, R344). -/
def CpDesc.run (d : CpDesc) (r : Nat) : List Nat := [r % d.e 1, r / d.e 1 % d.e 2, r / (d.e 1 * d.e 2)]

/-- Where a run starts on a side: bytes of a handle, elements of a tile. -/
def Side.start (x : Side) (at_ : List Nat) : Int :=
  x.off + (List.zipWith (fun (i : Nat) (t : Int) => (i : Int) * t) at_ x.str).foldl (· + ·) 0

/-- Elements moved together: a block, or four. -/
def CpDesc.unit (d : CpDesc) : Nat := if isBlock d.src.fmt || isBlock d.dst.fmt then 32 else 4

/-- Units of a run. -/
def CpDesc.perRun (d : CpDesc) : Nat := (d.e 0 + d.unit - 1) / d.unit

/-- Blocks of a run. -/
def CpDesc.blocks (d : CpDesc) : Nat := (d.e 0 + 31) / 32

/-- Elements of a run at the destination: whole blocks for a converted block format (R345). -/
def CpDesc.width (d : CpDesc) : Nat :=
  if isBlock d.dst.fmt && d.src.fmt != d.dst.fmt then 32 * d.blocks else d.e 0

/-- Bytes of elements and of planes of a shard whose runs are `n` long (R355). -/
def shardSizes (fmt n runs : Nat) : Nat × Nat :=
  let blocks := (n + 31) / 32
  if isBlock fmt then (runs * (32 * blocks * fmtBits fmt / 8), runs * blocks * expBytes fmt)
  else ((runs * n * fmtBits fmt + 7) / 8, 0)

/-- Bytes of a shard from offset 128: elements, padding, planes. -/
def shardBody (eb pb : Nat) : Nat := if pb = 0 then eb else (eb + 63) / 64 * 64 + pb

/-! ### Checks at issue (Table 14.5) -/

/-- Least and greatest start of a run on a side, over every run. -/
def CpDesc.corners (d : CpDesc) (x : Side) : Int × Int :=
  (List.zipWith (fun (n : Nat) (t : Int) => (n, t)) (d.ext.drop 1) x.str).foldl
    (fun (lo, hi) (n, t) =>
      let m := t * ((n : Int) - 1)
      (lo + min 0 m, hi + max 0 m)) ((x.off : Int), (x.off : Int))

/-- A run lies in one row of a tile and begins at a multiple of 32 columns (R344). -/
def blockRunOk (t : Tile) (e : Int) (n : Nat) : Bool :=
  decide (e % (t.cols : Int) % 32 = 0 ∧ e % (t.cols : Int) + n ≤ t.cols)

/-- The form reads a source that its descriptor names. -/
def hasSrc (op : Nat) : Bool := op != 3 && op != 5

/-- Step 3 of Table 14.5. -/
def CpDesc.step3 (d : CpDesc) (op : Nat) : List (Bool × Nat × Nat) :=
  let f := d.src.fmt
  let g := d.dst.fmt
  let above := ([1, 2, 3].filter fun n => decide (n > d.dims)).any fun n =>
    d.e n != 1 || d.src.str.getD (n - 1) 0 != 0 || d.dst.str.getD (n - 1) 0 != 0 ||
      (decide (op ≥ 4) && (d.gshape.getD n 1 != 1 || d.origin.getD n 0 != 0))
  let ill (off : Nat) (b : Bool) : Bool × Nat × Nat := (b, Cls.illegal, off)
  [ ill 0 (decide (f > 0x18 ∨ g > 0x18) || (d.onan && g != 3) || (op == 3 && (isBlock g || f != g)) ||
      (op == 5 && isBlock g && f != g) || (hasSrc op && d.src.poff != 0 && (!isBlock f || d.src.tile)) ||
      (op != 4 && d.dst.poff != 0 && (!isBlock g || d.dst.tile))),
    ill 1 (decide (d.rnd > 3) || above || ((op == 1 || op == 2) && d.dims != 1) || (!hasSrc op && d.src.tile) ||
      (op == 4 && d.dst.tile)),
    ill 2 (d.rsv != 0 || (!d.qen && d.qc != 0)),
    ill 8 (!hasSrc op && d.src.h != 0),
    ill 16 (!hasSrc op && d.src.off != 0),
    ill 32 (!hasSrc op && d.src.poff != 0),
    ill 40 (op == 4 && d.dst.poff != 0) ] ++
  ((List.range 3).map fun i => ill (64 + 8 * i) (!hasSrc op && d.src.str.getD i 0 != 0)) ++
  ((List.range 3).map fun i => ill (88 + 8 * i) (op == 4 && d.dst.str.getD i 0 != 0)) ++
  [ ill 120 ((op == 0 || decide (op ≥ 4)) && d.aux != 0),
    ill 168 (op == 4 && d.list != 0),
    ill 172 (op == 4 && d.lcoord != 0),
    ill 176 (op == 4 && d.nshard != 0),
    ill 180 (decide (op ≥ 4) && d.rsv2 != 0) ]

/-- A tile word as a crew's commands see it. -/
def State.named (s : State) (k w : Nat) : Option (Nat × Nat × Tile) := (s.tileRef (some k) (w32 w)).tile?

/-- The tile is a peer's, and not at level SCR.GANG. -/
def foreign (k : Nat) (r : Nat × Nat × Tile) : Bool := r.1 != k && r.2.2.level != 2

/-- An endpoint's tile. -/
def State.sideTile (s : State) (k : Nat) (x : Side) : Option (Nat × Nat × Tile) := if x.tile then s.named k x.h else none

/-- Steps 4 to 6 of Table 14.5. -/
def CpDesc.step456 (d : CpDesc) (op : Nat) (s : State) (who : Who) (k : Nat) : List (Bool × Nat × Nat) :=
  let absent (x : Side) : Bool := if x.tile then (s.named k x.h).isNone else decide (x.h ≥ 4096)
  let entry (x : Side) : BitVec 256 := s.entry who x.h
  let barred (x : Side) (acc : Nat) : Bool :=
    if x.tile then (s.named k x.h).any (foreign k)
    else !Entry.valid (entry x) || !permits acc (entry x) || !Entry.combined (entry x)
  let other (x : Side) : Bool := !x.tile && Entry.secure (entry x) != who.secure
  let indexed := op == 1 || op == 2
  [ (hasSrc op && absent d.src, Cls.bounds, 8),
    (absent d.dst, Cls.bounds, 12),
    ((s.named k d.ctile).isNone, Cls.bounds, 112),
    (indexed && (s.named k (d.aux % 2 ^ 32)).isNone, Cls.bounds, 120),
    (op == 5 && (s.named k d.list).isNone, Cls.bounds, 168) ] ++
  [ (hasSrc op && barred d.src 1, Cls.perm, 8),
    (barred d.dst 2 || (op == 4 && decide (Entry.space (entry d.dst) > 1)), Cls.perm, 12),
    ((s.named k d.ctile).any (offReach k), Cls.perm, 112),
    (indexed && (s.named k (d.aux % 2 ^ 32)).any (foreign k), Cls.perm, 120),
    (op == 5 && (s.named k d.list).any (foreign k), Cls.perm, 168) ] ++
  [ (hasSrc op && other d.src, Cls.world, 8),
    (other d.dst, Cls.world, 12) ]

/-- Step 7 of Table 14.5. -/
def CpDesc.step7 (d : CpDesc) (op : Nat) : List (Bool × Nat × Nat) :=
  let size (x : Side) : Nat := if x.tile ∨ fmtBits x.fmt < 16 then 1 else fmtBits x.fmt / 8
  let uneven (x : Side) : Bool := !x.tile && decide (d.e 0 * fmtBits x.fmt % 8 ≠ 0)
  let mis (off : Nat) (b : Bool) : Bool × Nat × Nat := (b, Cls.misalign, off)
  [ mis 16 (hasSrc op && decide (d.src.off % size d.src ≠ 0)),
    mis 24 (decide (d.dst.off % size d.dst ≠ 0) || (op == 4 && decide (d.dst.off % 64 ≠ 0))),
    mis 48 ((hasSrc op && uneven d.src) || uneven d.dst) ] ++
  ((List.range 3).map fun i => mis (64 + 8 * i) (hasSrc op && decide (d.src.str.getD i 0 % (size d.src : Int) ≠ 0))) ++
  ((List.range 3).map fun i => mis (88 + 8 * i) (decide (d.dst.str.getD i 0 % (size d.dst : Int) ≠ 0))) ++
  [ mis 116 (decide (d.ccoord % 2 ^ 16 % 8 ≠ 0)),
    mis 120 ((op == 1 || op == 2) && decide (d.aux / 2 ^ 32 % 2 ^ 16 % 4 ≠ 0)) ]

/-- Elements of a side that lie outside its handle or tile, or a block run that breaks R344; `n` elements a run. The runs
that an index list places are looked at when they start (R346). -/
def CpDesc.outside (d : CpDesc) (s : State) (who : Who) (k : Nat) (x : Side) (indexed : Bool) (n : Nat) : Bool :=
  let c := d.corners x
  if indexed then false
  else if x.tile then
    (s.named k x.h).any fun r =>
      decide (c.1 < 0 ∨ c.2 + n > r.2.2.rows * r.2.2.cols) ||
        (isBlock x.fmt && !((List.range d.runs).all fun i => blockRunOk r.2.2 (x.start (d.run i)) n))
  else decide (c.1 < 0 ∨ c.2 + n * fmtBits x.fmt / 8 > Entry.length (s.entry who x.h))

/-- Plane bytes of a side that lie outside its handle. -/
def CpDesc.planeOut (d : CpDesc) (s : State) (who : Who) (x : Side) : Bool :=
  isBlock x.fmt && !x.tile &&
    decide (x.poff + d.runs * d.blocks * expBytes x.fmt > Entry.length (s.entry who x.h))

/-- `n` bytes at a coordinate do not lie in one row of a tile. -/
def offRow (r : Nat × Nat × Tile) (coord n : Nat) : Bool :=
  decide (coord / 2 ^ 16 ≥ r.2.2.rows ∨ coord % 2 ^ 16 + n > rowBytes r.2.2.fmt r.2.2.cols)

/-- Origin and extent of a shard or region break a limit of R355 in a dimension. -/
def shardDimBad (fmt : Nat) (origin extent gshape : List Nat) (n : Nat) : Bool :=
  let o := origin.getD n 0
  let e := extent.getD n 1
  let g := gshape.getD n 1
  decide (o + e > g) || (n == 0 && isBlock fmt && decide (o % 32 ≠ 0 ∨ (e % 32 ≠ 0 ∧ o + e ≠ g)))

/-- They break one in some dimension. -/
def shardLimit (fmt : Nat) (origin extent gshape : List Nat) : Bool :=
  (List.range 4).any (shardDimBad fmt origin extent gshape)

/-- Step 8 of Table 14.5; each condition stands at the lowest field that its words name (R323, R347; log 61). -/
def CpDesc.step8 (d : CpDesc) (op : Nat) (s : State) (who : Who) (k : Nat) : List (Bool × Nat × Nat) :=
  let inRange (n : Nat) : Bool := decide (1 ≤ d.e n ∧ d.e n ≤ 2 ^ 24)
  let okExt := (List.range (d.dims + 1)).all inRange
  let fmtOff (x : Side) : Bool := (s.sideTile k x).any fun r => r.2.2.fmt != x.fmt
  let both := d.src.fmt == d.dst.fmt
  let out (b : Nat) (c : Bool) : Bool × Nat × Nat := (c, Cls.bounds, b)
  let ck := decide (op ≥ 4)
  let fmt := if op = 4 then d.dst.fmt else d.src.fmt
  let whole := shardSizes d.dst.fmt (d.e 0) d.runs
  [ out 0 ((hasSrc op && fmtOff d.src) || fmtOff d.dst),
    out 8 (okExt && hasSrc op && (d.outside s who k d.src (op == 1) (d.e 0) || d.planeOut s who d.src)),
    out 12 (okExt &&
      if op = 4 then decide (d.dst.off + 128 + shardBody whole.1 whole.2 > Entry.length (s.entry who d.dst.h))
      else d.outside s who k d.dst (op == 2) d.width || d.planeOut s who d.dst),
    out 48 (!inRange 0 || (both && isBlock d.dst.fmt && decide (d.e 0 % 32 ≠ 0)) ||
      (ck && shardDimBad fmt d.origin d.ext d.gshape 0)) ] ++
  ([1, 2, 3].map fun n => out (48 + 4 * n)
    (decide (n ≤ d.dims) && (!inRange n || (ck && shardDimBad fmt d.origin d.ext d.gshape n)))) ++
  [ out 112 ((s.named k d.ctile).any fun r => offRow r d.ccoord 8),
    out 120 ((op == 1 || op == 2) && (s.named k (d.aux % 2 ^ 32)).any fun r => offRow r (d.aux / 2 ^ 32) (4 * d.e 1)),
    out 168 (op == 5 && (s.named k d.list).any fun r => offRow r d.lcoord (16 * d.nshard)),
    out 176 (op == 5 && decide (d.nshard < 1 ∨ d.nshard > 256)) ]

/-! ### Issue and tickets (R338, R339) -/

/-- Tiles that a copy names. -/
def CpDesc.tiles (d : CpDesc) (op : Nat) (s : State) (k : Nat) : List (Nat × Nat) :=
  ([s.named k d.ctile, if hasSrc op then s.sideTile k d.src else none, s.sideTile k d.dst,
    if op = 1 ∨ op = 2 then s.named k (d.aux % 2 ^ 32) else none,
    if op = 5 then s.named k d.list else none].filterMap id).map fun r => (r.1, r.2.1)

/-- A ticket is among the last 64 of a crew. -/
def Crew.recent (c : Crew) (t : Nat) : Bool :=
  t != 0 && decide (t < 2 ^ 32 ∧ (c.ticket + (2 ^ 32 - 1) - t) % (2 ^ 32 - 1) < 64)

/-- The next ticket, and the crew that remembers the last 64. -/
def Crew.nextTicket (c : Crew) : Nat × Crew :=
  let t := if c.ticket = 2 ^ 32 - 1 then 1 else c.ticket + 1
  let c := { c with ticket := t }
  (t, { c with tickets := keep c.tickets fun n _ => c.recent n && n != t })

/-- The issue of a copy (R337, R347): what the thread wrote before is performed first (R135). -/
def Caller.copy (c : Caller) (s : State) : State :=
  match c.crew? s with
  | none => c.retry s
  | some (k, x) =>
    let n := if c.op ≥ 4 then 192 else 128
    if x.copies.length ≥ 16 then c.retry s
    else c.block s k n 64 fun b s =>
      let d := CpDesc.of b
      let who := c.who s c.lane
      match firstBad (d.step3 c.op ++ d.step456 c.op s who k ++ d.step7 c.op ++ d.step8 c.op s who k) with
      | some (cls, off) => c.badField s cls off
      | none =>
        if !c.unfenced s then c.behindFence s
        else
          match c.performed s with
          | .error s => s
          | .ok s =>
            let t := x.nextTicket.1
            let job : Copy :=
              { ticket := t, op := c.op, desc := b, value := w32 (c.reg c.lane c.f.c.toNat), issuer := c.agent c.lane,
                tiles := d.tiles c.op s k, started := false, done := 0, out := 0, ix := 0, shard := 0, buf := [],
                plane := [], taken := [], wait := .none, answers := [], extData := [], extErr := [], wrote := [], ev := [] }
            c.status (s.onCrewKey k fun c => let c := c.nextTicket.2; { c with copies := c.copies ++ [job] }) t

/-- A copy form in either stream. -/
def copyForm (op : Nat) (f : Fields) (s : State) (g : Caller → State → State) : Outcome State Fault Refusal :=
  issue 10 op f s anyway (fun s i => i.elected s fun c => g c s) fun s i => g (.lead i) s

/-- CPY (R343). -/
def execCpy (f : Fields) (s : State) : Outcome State Fault Refusal := copyForm 0x00 f s Caller.copy
/-- CPYG (R346). -/
def execCpyg (f : Fields) (s : State) : Outcome State Fault Refusal := copyForm 0x01 f s Caller.copy
/-- CPYS (R346). -/
def execCpys (f : Fields) (s : State) : Outcome State Fault Refusal := copyForm 0x02 f s Caller.copy
/-- CPYF (R345). -/
def execCpyf (f : Fields) (s : State) : Outcome State Fault Refusal := copyForm 0x03 f s Caller.copy
/-- CKPT (R355). -/
def execCkpt (f : Fields) (s : State) : Outcome State Fault Refusal := copyForm 0x04 f s Caller.copy
/-- CKLOAD (R356). -/
def execCkload (f : Fields) (s : State) : Outcome State Fault Refusal := copyForm 0x05 f s Caller.copy

/-! ### Completion, query and cancel (R349, R352) -/

/-- A copy of a crew changed. -/
def State.onCopy (s : State) (k ticket : Nat) (g : Copy → Copy) : State :=
  s.onCrewKey k fun c => { c with copies := c.copies.map fun x => if x.ticket = ticket then g x else x }

/-- A copy ends: its conversions' events have counted (R213), then status, then completion value, then counter (R349); a
page it is parked on is withdrawn. -/
def State.copyEnd (s : State) (k : Nat) (x : Copy) (status : Nat) : State :=
  let d := CpDesc.of x.desc
  let agent := Agent.copy (k / 4) (k % 4) x.ticket
  let ctx := (look s.crews k).elim 0 (·.ctx)
  let s := s.onVd (s.vdOf ctx) fun v => { v with waiting := v.waiting.filter fun e => e.1 != agent }
  let s : State := { s with exts := keep s.exts fun _ e => e.agent != agent }
  let s := s.countFp ((look s.crews k).elim 0 (·.task)) 0xFFFFFFFF#32 (x.ev.map (·.2))
  let s := match s.named k d.ctile with
    | some (o, n, t) =>
      let off := d.ccoord / 2 ^ 16 * t.stride + d.ccoord % 2 ^ 16
      (s.storeTile o n (off + 4) (bytesOf 4 status)).storeTile o n off (bytesOf 4 x.value.toNat)
    | none => s
  let s := s.onCrewKey k fun c => { c with
    copies := c.copies.filter fun y => y.ticket != x.ticket,
    tickets := if c.recent x.ticket then put c.tickets x.ticket status else c.tickets }
  (s.countUp k (if d.qen then some d.qc else none)).checkCrew k

/-- The state word of a ticket (Table 14.7). -/
def Crew.copyState (c : Crew) (t : Nat) : Nat :=
  if !c.recent t then 4 * 2 ^ 29
  else
    match c.copies.find? fun x => x.ticket == t with
    | some x => (if !x.started then 0 else match x.wait with | .park _ _ => 2 | _ => 1) * 2 ^ 29
    | none =>
      match look c.tickets t with
      | some status => 3 * 2 ^ 29 + status % 2 ^ 25
      | none => 4 * 2 ^ 29

/-- CPYQ (R352). -/
def execCpyq (f : Fields) (s : State) : Outcome State Fault Refusal :=
  copyForm 0x06 f s fun c s =>
    match c.crew? s with
    | none => c.retry s
    | some (_, x) => c.status s (x.copyState (c.reg c.lane c.f.a.toNat % 2 ^ 32))

/-- CPYCAN: the state word as it stood, and the end of a copy that is not complete (R352). -/
def execCpycan (f : Fields) (s : State) : Outcome State Fault Refusal :=
  copyForm 0x07 f s fun c s =>
    match c.crew? s with
    | none => c.retry s
    | some (k, x) =>
      let t := c.reg c.lane c.f.a.toNat % 2 ^ 32
      let word := x.copyState t
      match if x.recent t then x.copies.find? fun y => y.ticket == t else none with
      | some y => c.status (s.copyEnd k y (1 * 2 ^ 8)) word
      | none => c.status s word

/-- COPY_START: the crew's next queued copy starts (R337). -/
def execCopyStart (core slot : Nat) (s : State) : Outcome State Fault Refusal :=
  match s.crew? core slot with
  | none => .next s
  | some c =>
    match c.copies.find? fun x => !x.started with
    | some x => .next (if s.runs c.ctx then s.onCopy (crewKey core slot) x.ticket fun x => { x with started := true } else s)
    | none => .next s

/-! ### What a running copy reaches (R348, R350, R351) -/

/-- A copy as it runs. -/
structure CpRun where
  core : Nat
  slot : Nat
  c : Crew
  x : Copy
  d : CpDesc

def CpRun.k (r : CpRun) : Nat := crewKey r.core r.slot

/-- The copy as an accessor: it sees memory as its issuing thread does. -/
def CpRun.who (r : CpRun) (s : State) : Who :=
  { agent := r.x.issuer, ctx := r.c.ctx, core := some r.core, slot := r.slot, loose := false, secure := s.worldOf r.core,
    answers := r.x.answers, extData := r.x.extData, extErr := r.x.extErr, args := s.argsOf r.c.task, waits := true }

/-- What a try of one unit gives. -/
inductive CpOut where
  /-- The unit is done. -/
  | next (s : State)
  /-- The copy waits, or has ended. -/
  | halt (s : State)

/-- The copy ends on a fault; WORLD and a lost line stop its context too (R350). -/
def CpRun.fail (r : CpRun) (s : State) (cls h off : Nat) : State :=
  let unit := dieOf r.core
  if cls = Cls.coherenceLost then s.stopLost r.c.ctx unit
  else if cls = Cls.world then
    let lead := match r.x.issuer with | .lead _ _ => 2 ^ 8 | _ => 0
    (s.copyEnd r.k r.x (2 * 2 ^ 8 + cls)).stop r.c.ctx cls (s.taskNo r.c.task) (lead + r.slot * 2 ^ 9) 0xFFFFFFFF#32
      (w64 (h % 4096 * 2 ^ 52 + off % 2 ^ 52)) unit
  else (s.countFault r.c.ctx cls).copyEnd r.k r.x (2 * 2 ^ 8 + cls)

/-- The copy ends on an uncorrectable error of a tile word (R351). -/
def CpRun.failTile (r : CpRun) (s : State) : State :=
  r.fail (s.errUp (dieOf r.core) 24 24 1) Cls.dataCheck 0 0

/-- Pieces of a byte range that lie in one line each. -/
def cutLines : Nat → Nat → Nat → Nat → List (Nat × Nat)
  | 0, _, _, _ => []
  | fuel + 1, base, o, n =>
    if n = 0 then []
    else
      let m := min n (64 - (base + o) % 64)
      (o, m) :: cutLines fuel base (o + m) (n - m)

/-- The checks of a byte range of a handle, line by line: offset, length, outcome. -/
def CpRun.look (r : CpRun) (s : State) (h o n acc : Nat) : List (Nat × Nat × AccOut) :=
  let who := r.who s
  (cutLines n (Entry.base (s.entry who h)) o n).map fun p =>
    (p.1, p.2, s.access who h p.1 { w := p.2, align := 1, acc, ok4 := permits acc, check := acc == 1 })

/-- Offsets and lengths of the destination in its handle: each run with its plane bytes, or the shard of a CKPT. -/
def CpRun.spans (r : CpRun) (index : Nat → Nat) : List (Nat × Nat) :=
  let d := r.d
  let x := d.dst
  let eb := expBytes x.fmt
  if r.x.op = 4 then
    let whole := shardSizes x.fmt (d.e 0) d.runs
    [(x.off, 128 + shardBody whole.1 whole.2)]
  else
    (List.range d.runs).flatMap fun run =>
      let at_ := d.run run
      let at_ := if r.x.op = 2 then index (at_.getD 0 0) :: at_.drop 1 else at_
      [((x.start at_).toNat, d.width * fmtBits x.fmt / 8), (x.poff + run * d.blocks * eb, d.blocks * eb)]

/-- The entry of the index list for run i1 as it stands (R346). -/
def CpRun.indexNow (r : CpRun) (s : State) (i1 : Nat) : Nat :=
  match s.named r.k (r.d.aux % 2 ^ 32) with
  | none => 0
  | some (o, n, t) =>
    let c := r.d.aux / 2 ^ 32
    (s.tileWord o n (c / 2 ^ 16 * t.stride + c % 2 ^ 16 + 4 * i1)).toNat

/-- The cores that own claimed grains of the destination. -/
def CpRun.ownersOf (r : CpRun) (s : State) : List Nat :=
  let base := Entry.base (s.entry (r.who s) r.d.dst.h)
  let grains := (r.spans (r.indexNow s)).flatMap fun p =>
    if p.2 = 0 then []
    else (List.range (p.2 / 512 + 2)).filterMap fun i =>
      let va := base + p.1 + min (512 * i) (p.2 - 1)
      match s.walkRaw r.c.ctx (va / 4096) with
      | .ok t => some ((t.frame * 4096 + va % 4096) / 512)
      | .error _ => none
  (grains.dedup.filterMap fun g => if Owner.claimed (s.ownerOf g) then some (Owner.core (s.ownerOf g)) else none).dedup

/-- The class with which a copy ends at a grain that is another's: GRAIN when its destination covers claimed grains of two
different cores (R266, R350; log 62). -/
def CpRun.grainClass (r : CpRun) (s : State) (acc cls : Nat) : Nat :=
  if cls = Cls.owner ∧ acc = 2 ∧ 2 ≤ (r.ownersOf s).length then Cls.grain else cls

/-- The copy waits for a page, pauses on one, asks the host or a peer, or ends, by the outcome that decides; none when
every piece may be reached. -/
def CpRun.blockedBy (r : CpRun) (s : State) (h acc : Nat) (ps : List (Nat × Nat × AccOut))
    (kind : Nat × Nat → ExtKind) : Option State :=
  let agent := Agent.copy r.core r.slot r.x.ticket
  let hub := hubOfDie (dieOf r.core)
  let hold (s : State) (w : Wait) : State := s.onCopy r.k r.x.ticket fun x => { x with wait := w }
  match AccOut.decide (ps.map (·.2.2)) with
  | .miss page host =>
    let (id, s) := s.requestWalk r.c.ctx page acc hub host
    some (hold s (.walk [id]))
  | .page va cause =>
    let (ids, s) := s.postFaults agent r.c.ctx acc 10 r.core [(va, cause)]
    some (hold (s.countFault r.c.ctx Cls.page) (.park ids []))
  | .hostBacked page =>
    let (id, s) := s.requestService r.c.ctx page acc hub
    some (hold (s.countFault r.c.ctx Cls.page) (.park [] [id]))
  | .fail n cls far =>
    let off := ((ps.find? fun p => p.2.2 == .fail n cls far).map (·.1)).getD 0
    let s := if cls = Cls.dataCheck then s.errUp (dieOf r.core) 48 16 1 else s
    some (r.fail s (r.grainClass s acc cls) h off)
  | .ext _ =>
    let (group, s) := s.fresh
    let s := ps.foldl (fun s p =>
      match p.2.2 with
      | .ext loc =>
        let (id, s) := s.fresh
        { s with exts := put s.exts id { agent, ctx := r.c.ctx, loc, kind := kind (p.1, p.2.1), group } }
      | _ => s) s
    some (hold s (.ext group))
  | .ok _ _ =>
    let lines := ps.filterMap fun p => match p.2.2.loc with | .dev pa => some (pa / 64) | _ => none
    match lines.filter s.leased with
    | [] => if lines != [] && s.cutOff r.core then some s else none
    | ls => some (ls.foldl (fun s l => s.probe l (some agent)) s)

/-- Bytes of a handle, or what stops the copy. -/
def CpRun.readHandle (r : CpRun) (s : State) (h o n : Nat) : Except State (List Byte × State) :=
  let ps := r.look s h o n 1
  match r.blockedBy s h 1 ps fun p => .read p.2 with
  | some s => .error s
  | none =>
    let who := r.who s
    .ok (ps.flatMap fun p => s.loadBytes who p.2.2.loc p.2.1,
      ps.foldl (fun s p => (s.touch who h p.2.2.loc).filled r.core p.2.2.loc) s)

/-- A copy has written bytes of a line whose check value does not match: once it has written the whole line, the line takes
a fresh one (R351, R453). -/
def CpRun.freshLine (r : CpRun) (s : State) (pa n : Nat) : State :=
  let l := pa / 64
  if (Machine.look s.syndrome l).isNone then s
  else
    let old := ((((s.crew? r.core r.slot).bind fun c => c.copies.find? fun (x : Copy) => x.ticket == r.x.ticket).bind fun x =>
      Machine.look x.wrote l)).getD 0
    let m := old ||| byteBits pa n
    if m = ~~~(0 : DWord) then { s with syndrome := drop s.syndrome l, patched := drop s.patched l }
    else s.onCopy r.k r.x.ticket fun x => { x with wrote := put x.wrote l m }

/-- Bytes of one line written (R348): they are performed at DEVICE at once, so that the completion finds them there (R349);
those of a GUARDED region are seen no earlier for it than R127 allows (R135). -/
def CpRun.put1 (r : CpRun) (s : State) (h : Nat) (loc : Loc) (bs : List Byte) : State :=
  let who := r.who s
  match loc with
  | .host pasid a => s.emit (.hostWrite pasid a bs)
  | .peer _ _ _ => s
  | .dev pa =>
    let s := if Entry.kind (s.entry who h) = 1 then s.claim who (pa / 512) else s
    r.freshLine ((s.coreOwn (pa / 64) r.core).store pa bs) pa bs.length

/-- Bytes written to a handle, or what stops the copy. -/
def CpRun.writeHandle (r : CpRun) (s : State) (h o : Nat) (bs : List Byte) : Except State State :=
  let ps := r.look s h o bs.length 2
  match r.blockedBy s h 2 ps fun p => .write ((bs.drop (p.1 - o)).take p.2) with
  | some s => .error s
  | none => .ok (ps.foldl (fun s p => r.put1 s h p.2.2.loc ((bs.drop (p.1 - o)).take p.2.1)) s)

/-! ### Elements of tiles -/

/-- Byte offset, bytes and bit of element `e` of a tile (R343). -/
def Tile.elemAt (t : Tile) (e : Nat) : Nat × Nat × Nat :=
  let w := fmtBits t.fmt
  let bit := e % t.cols * w
  (e / t.cols * t.stride + bit / 8, (bit % 8 + w + 7) / 8, bit % 8)

/-- The pattern of element `e`, of bytes read so. -/
def Tile.getElem (t : Tile) (read : Nat → Nat → List Byte) (e : Nat) : Nat :=
  let a := t.elemAt e
  natOf (read a.1 a.2.1) / 2 ^ a.2.2 % 2 ^ fmtBits t.fmt

/-- Element `e` of a tile of a crew written. -/
def State.putElem (s : State) (k n : Nat) (e pat : Nat) : State :=
  match s.tile? k n with
  | none => s
  | some t =>
    let a := t.elemAt e
    let w := fmtBits t.fmt
    let old := natOf (t.readN a.1 a.2.1)
    s.storeTile k n a.1 (bytesOf a.2.1 (old - old / 2 ^ a.2.2 % 2 ^ w * 2 ^ a.2.2 + pat % 2 ^ w * 2 ^ a.2.2))

/-- Offset of the plane bytes of the block that begins at element `e` of a tile (R220). -/
def Tile.planeAt (t : Tile) (e : Nat) : Nat :=
  e / t.cols * t.stride + rowBytes t.fmt t.cols + e % t.cols / 32 * expBytes t.fmt

/-- Byte ranges of `n` elements from element `e`, and of the plane bytes of their block. -/
def Tile.unitBytes (t : Tile) (e n : Nat) : List (Nat × Nat) :=
  ((List.range n).map fun i => ((t.elemAt (e + i)).1, (t.elemAt (e + i)).2.1)) ++
    if isBlock t.fmt then [(t.planeAt e, expBytes t.fmt)] else []

/-- Byte ranges of the tile, from and to before, that a run of elements `lo` to before `hi` writes whole, with its planes. -/
def Tile.runBytes (t : Tile) (lo hi : Nat) : List (Nat × Nat) :=
  let last := t.elemAt (hi - 1)
  ((t.elemAt lo).1, last.1 + last.2.1) ::
    if isBlock t.fmt then [(t.planeAt lo, t.planeAt (hi - 1) + expBytes t.fmt)] else []

/-- A word lies whole in one of some byte ranges. -/
def wholeIn (rs : List (Nat × Nat)) (w : Nat) : Bool := rs.any fun r => decide (r.1 ≤ w * 4 ∧ w * 4 + 4 ≤ r.2)

/-- A word of the byte ranges holds an uncorrectable error, and satisfies a test. -/
def Tile.badWord (t : Tile) (rs : List (Nat × Nat)) (p : Nat → Bool) : Bool :=
  t.bad.any fun w => p w && rs.any fun r => meets (w * 4) 4 r.1 r.2

/-- The words that a run stores whole take fresh ECC; the others of the unit are read, and corrected (R238, R351). -/
def State.freshWords (s : State) (die k n : Nat) (unit whole : List (Nat × Nat)) : State :=
  let old (w : Nat) : Bool := !(wholeIn whole w && unit.any fun r => meets (w * 4) 4 r.1 r.2)
  let s := s.onCrewKey k fun c => { c with tiles := adjust c.tiles n fun t =>
    { t with bad := t.bad.filter old, single := t.single.filter old } }
  unit.foldl (fun s r => s.correct die k n r.1 r.2) s

/-! ### One unit of elements -/

/-- Conversion of a unit: patterns and plane bytes of the destination, with events (R345). -/
def CpDesc.convert (d : CpDesc) (pats exps : List Nat) : List Nat × List Nat × List Nat :=
  let f := d.src.fmt
  let g := d.dst.fmt
  if f = g then (pats, exps, [])
  else
    let vals := if isBlock f then decodeBlock f pats exps else pats.map (decodeElem f)
    if isBlock g then
      let (es, xs, ev) := encodeBlock g vals
      (es ++ List.replicate (32 - es.length) 0, xs, ev)
    else
      let es := vals.map (Machine.convert f g (modeOf d.rnd) d.onan)
      (es.map (·.1), [], es.flatMap (·.2))

/-- A unit of the source: `n` elements from element `i0` of run `r` that starts at `start`. -/
def CpRun.readUnit (r : CpRun) (s : State) (run : Nat) (start : Int) (i0 n : Nat) :
    Except State (List Nat × List Nat × State) :=
  let x := r.d.src
  let w := fmtBits x.fmt
  let eb := expBytes x.fmt
  if x.tile then
    match s.named r.k x.h with
    | none => .error (r.fail s Cls.bounds 0 0)
    | some (o, m, t) =>
      let e := start.toNat + i0
      let read := s.tileNow o m
      let unit := t.unitBytes e n
      if t.badWord unit fun _ => true then .error (r.failTile s)
      else .ok ((List.range n).map fun i => t.getElem read (e + i), (read (t.planeAt e) eb).map (·.toNat),
        unit.foldl (fun s p => s.correct (dieOf r.core) o m p.1 p.2) s)
  else
    match r.readHandle s x.h (start.toNat + i0 * w / 8) (n * w / 8) with
    | .error s => .error s
    | .ok (bs, s) =>
      if eb = 0 then .ok (elemsOf w n bs, [], s)
      else
        match r.readHandle s x.h (x.poff + (run * r.d.blocks + i0 / 32) * eb) eb with
        | .error s => .error s
        | .ok (ps, s) => .ok (elemsOf w n bs, ps.map (·.toNat), s)

/-- A unit of the destination: elements from `i0` of a run, with their plane bytes; of the run this copy writes the elements
`lo` to before `hi`. The b0 and b1 of a TXB block are written modulo 256, also where the source is itself a block format whose
values R108 does not bound (DESIGN CHOICE, log 63). -/
def CpRun.writeUnit (r : CpRun) (s : State) (run : Nat) (start : Int) (lo hi i0 : Nat) (pats exps : List Nat) :
    Except State State :=
  let x := r.d.dst
  let w := fmtBits x.fmt
  let eb := expBytes x.fmt
  if x.tile then
    match s.named r.k x.h with
    | none => .error (r.fail s Cls.bounds 0 0)
    | some (o, n, t) =>
      let e := start.toNat + i0
      let unit := t.unitBytes e pats.length
      let whole := t.runBytes (start.toNat + lo) (start.toNat + hi)
      if t.badWord unit fun w => !wholeIn whole w then .error (r.failTile s)
      else
        let s := s.freshWords (dieOf r.core) o n unit whole
        let s := (mapIx (fun i p => (e + i, p)) 0 pats).foldl (fun s (p : Nat × Nat) => s.putElem o n p.1 p.2) s
        .ok (if exps = [] then s else s.storeTile o n (t.planeAt e) (exps.map (BitVec.ofNat 8)))
  else
    match r.writeHandle s x.h (start.toNat + i0 * w / 8) (packElems w pats) with
    | .error s => .error s
    | .ok s =>
      if exps = [] then .ok s
      else r.writeHandle s x.h (x.poff + (run * r.d.blocks + i0 / 32) * eb) (exps.map (BitVec.ofNat 8))

/-- Number of the unit that the copy is at. -/
def CpRun.unitNo (r : CpRun) : Nat := if r.x.op = 5 then r.x.shard * (r.d.runs * r.d.perRun) + r.x.out else r.x.done

/-- The unit is done: the answers it used are gone; the events of its conversion count at the end (R345, R213). -/
def CpRun.advance (r : CpRun) (s : State) (ev : List Nat) (g : Copy → Copy) : State :=
  s.onCopy r.k r.x.ticket fun x =>
    { g x with answers := [], extData := [], extErr := [], ev := x.ev ++ ev.map fun e => (r.unitNo, e) }

/-! ### CPY, CPYG, CPYS, CPYF -/

/-- The entry of the index list for run i1, read from its tile (R346). -/
def CpRun.index (r : CpRun) (s : State) (i1 : Nat) : Except State Nat :=
  match s.named r.k (r.d.aux % 2 ^ 32) with
  | none => .error (r.fail s Cls.bounds 0 0)
  | some (_, _, t) =>
    let c := r.d.aux / 2 ^ 32
    if t.badIn (c / 2 ^ 16 * t.stride + c % 2 ^ 16 + 4 * i1) 4 then .error (r.failTile s) else .ok (r.indexNow s i1)

/-- A run placed by an index lies outside its handle or tile (R346). -/
def CpRun.astray (r : CpRun) (s : State) (x : Side) (start : Int) (n : Nat) : Bool :=
  if x.tile then
    (s.named r.k x.h).all fun t =>
      decide (start < 0 ∨ start + n > t.2.2.rows * t.2.2.cols) || (isBlock x.fmt && !blockRunOk t.2.2 start n)
  else decide (start < 0 ∨ start + n * fmtBits x.fmt / 8 > Entry.length (s.entry (r.who s) x.h))

/-- One unit of CPY, CPYG, CPYS or CPYF. -/
def CpRun.move (r : CpRun) (s : State) : CpOut :=
  let d := r.d
  let run := r.x.done / d.perRun
  let i0 := r.x.done % d.perRun * d.unit
  let n := min d.unit (d.e 0 - i0)
  let at_ := d.run run
  let indexed := r.x.op == 1 || r.x.op == 2
  match if indexed ∧ i0 = 0 then r.index s (at_.getD 0 0) else .ok r.x.ix with
  | .error s => .halt s
  | .ok ix =>
    let ats (b : Bool) : List Nat := if b then ix :: at_.drop 1 else at_
    let src := d.src.start (ats (r.x.op == 1))
    let dst := d.dst.start (ats (r.x.op == 2))
    if r.x.op = 1 ∧ r.astray s d.src src (d.e 0) ∨ r.x.op = 2 ∧ r.astray s d.dst dst d.width then
      .halt (r.fail s Cls.bounds 0 0)
    else
      let got := if r.x.op = 3 then .ok (List.replicate n (d.aux % 2 ^ fmtBits d.dst.fmt), [], s)
                 else r.readUnit s run src i0 n
      match got with
      | .error s => .halt s
      | .ok (pats, exps, s) =>
        let (es, xs, ev) := d.convert pats exps
        match r.writeUnit s run dst 0 d.width i0 es xs with
        | .error s => .halt s
        | .ok s => .next (r.advance s ev fun x => { x with done := x.done + 1, ix })

/-! ### CKPT (R355) -/

/-- The bytes of a shard from offset 128. -/
def CpRun.body (r : CpRun) : List Byte :=
  if r.x.plane = [] then r.x.buf
  else r.x.buf ++ List.replicate ((64 - r.x.buf.length % 64) % 64) 0 ++ r.x.plane

/-- The header of the shard (Table 14.8). -/
def CpRun.header (r : CpRun) : List Byte :=
  let d := r.d
  let words (l : List Nat) : List Byte := l.flatMap (bytesOf 4)
  let h := bytesOf 4 0x31534B43 ++ bytesOf 2 1 ++ bytesOf 1 d.dst.fmt ++ bytesOf 1 (d.dims + 1) ++ words d.gshape ++
    words d.origin ++ words d.ext ++ bytesOf 8 d.step ++ bytesOf 8 r.x.buf.length ++ bytesOf 8 r.x.plane.length ++
    List.replicate 44 0
  h ++ bytesOf 4 (crc32c (h ++ r.body)).toNat

/-- One unit of CKPT: a unit read and converted, or 64 bytes of the shard written, its header last. -/
def CpRun.save (r : CpRun) (s : State) : CpOut :=
  let d := r.d
  if r.x.done < d.runs * d.perRun then
    let run := r.x.done / d.perRun
    let i0 := r.x.done % d.perRun * d.unit
    match r.readUnit s run (d.src.start (d.run run)) i0 (min d.unit (d.e 0 - i0)) with
    | .error s => .halt s
    | .ok (pats, exps, s) =>
      let (es, xs, ev) := d.convert pats exps
      .next (r.advance s ev fun x => { x with
        done := x.done + 1, buf := x.buf ++ packElems (fmtBits d.dst.fmt) es, plane := x.plane ++ xs.map (BitVec.ofNat 8) })
  else
    let n := (r.body.length + 63) / 64
    let o := if r.x.out < n then 128 + 64 * r.x.out else 64 * (r.x.out - n)
    let bs := if r.x.out < n then r.body else r.header
    let piece := (bs.drop (if r.x.out < n then 64 * r.x.out else o)).take 64
    match r.writeHandle s d.dst.h (d.dst.off + o) piece with
    | .error s => .halt s
    | .ok s => .next (r.advance s [] fun x => { x with out := x.out + 1 })

/-! ### CKLOAD (R356) -/

/-- The header of a shard. -/
structure Shard where
  gshape : List Nat
  origin : List Nat
  extent : List Nat
  step : Nat
  eb : Nat
  pb : Nat

/-- The header in its bytes. -/
def Shard.of (b : List Byte) : Shard :=
  let words (o : Nat) : List Nat := (List.range 4).map fun i => le b (o + 4 * i) 4
  { gshape := words 8, origin := words 24, extent := words 40, step := le b 56 8, eb := le b 64 8, pb := le b 72 8 }

def Shard.e (h : Shard) (n : Nat) : Nat := h.extent.getD n 1

/-- Runs of a shard. -/
def Shard.runs (h : Shard) : Nat := h.e 1 * h.e 2 * h.e 3

/-- The first of the reasons 1 to 4 for which a header is rejected; `room` is what is left of its handle. -/
def CpDesc.reject (d : CpDesc) (b : List Byte) (room : Nat) : Option Nat :=
  let h := Shard.of b
  let sizes := shardSizes d.src.fmt (h.e 0) h.runs
  if le b 0 4 ≠ 0x31534B43 ∨ le b 4 2 ≠ 1 then some 1
  else if le b 6 1 ≠ d.src.fmt ∨ le b 7 1 ≠ d.dims + 1 ∨ h.gshape ≠ d.gshape then some 2
  else if d.step ≠ 2 ^ 64 - 1 ∧ h.step ≠ d.step then some 3
  else if ((b.drop 80).take 44).any (· != 0) || h.extent.any (· == 0) ||
      shardLimit d.src.fmt h.origin h.extent d.gshape || (h.eb, h.pb) != sizes ||
      decide (128 + shardBody h.eb h.pb > room) then some 4
  else none

/-- The shard does not match its CRC. -/
def shardCrcBad (b : List Byte) : Bool :=
  le b 124 4 != (crc32c (b.take 124 ++ b.drop 128)).toNat

/-- Entry `n` of the shard list: handle and offset; none when it breaks R356. -/
def CpRun.entry (r : CpRun) (s : State) : Except State (Nat × Nat) :=
  match s.named r.k r.d.list with
  | none => .error (r.fail s Cls.bounds 0 0)
  | some (o, n, t) =>
    let off := r.d.lcoord / 2 ^ 16 * t.stride + r.d.lcoord % 2 ^ 16 + 16 * r.x.shard
    if t.badIn off 16 then .error (r.failTile s)
    else
      let b := s.tileNow o n off 16
      if le b 0 4 ≥ 4096 ∨ le b 4 4 ≠ 0 ∨ le b 8 8 % 64 ≠ 0 then .error (r.fail s Cls.bounds 0 0)
      else .ok (le b 0 4, le b 8 8)

/-- The copy rejects the shard it is at. -/
def CpRun.rejected (r : CpRun) (s : State) (reason : Nat) : State :=
  s.copyEnd r.k r.x (reason + 3 * 2 ^ 8 + r.x.shard * 2 ^ 17)

/-- The part of a unit of the region that a shard holds: elements skipped, patterns and plane bytes. -/
def CpDesc.overlap (d : CpDesc) (h : Shard) (b : List Byte) (at_ : List Nat) (i0 n : Nat) : Nat × List Nat × List Nat :=
  let f := d.src.fmt
  let w := fmtBits f
  let g (k i : Nat) : Nat := d.origin.getD k 0 + i
  let inner := (List.range 3).all fun k =>
    decide (h.origin.getD (k + 1) 0 ≤ g (k + 1) (at_.getD k 0) ∧
      g (k + 1) (at_.getD k 0) < h.origin.getD (k + 1) 0 + h.e (k + 1))
  let o0 := h.origin.getD 0 0
  let mine := (List.range n).filter fun i => decide (o0 ≤ g 0 (i0 + i) ∧ g 0 (i0 + i) < o0 + h.e 0)
  match inner, mine with
  | true, first :: _ =>
    let l (k : Nat) : Nat := g (k + 1) (at_.getD k 0) - h.origin.getD (k + 1) 0
    let run := l 0 + h.e 1 * (l 1 + h.e 2 * l 2)
    let blocks := (h.e 0 + 31) / 32
    let long := if isBlock f then 32 * blocks else h.e 0
    let l0 := g 0 (i0 + first) - o0
    let take := if isBlock f && f == d.dst.fmt then n else mine.length
    let bit := (run * long + l0) * w
    let bytes := (b.drop (128 + bit / 8)).take ((bit % 8 + take * w + 7) / 8)
    let pats := (List.range take).map fun i => natOf bytes / 2 ^ (bit % 8 + i * w) % 2 ^ w
    let plane := 128 + (h.eb + 63) / 64 * 64 + (run * blocks + l0 / 32) * expBytes f
    (first, pats, ((b.drop plane).take (expBytes f)).map (·.toNat))
  | _, _ => (0, [], [])

/-- Elements of a run of the region, from and to before, that a shard writes: whole blocks of a converted block format. -/
def CpDesc.share (d : CpDesc) (h : Shard) : Nat × Nat :=
  let o := d.origin.getD 0 0
  let hi := min (d.e 0) (h.origin.getD 0 0 + h.e 0 - o)
  (h.origin.getD 0 0 - o, if isBlock d.dst.fmt then (hi + 31) / 32 * 32 else hi)

/-- Elements written to a handle from a bit that need not begin a byte: the rest of the bytes is kept. -/
def CpRun.writeBits (r : CpRun) (s : State) (h start bit : Nat) (w : Nat) (pats : List Nat) : Except State State :=
  let o := start + bit / 8
  let n := (bit % 8 + w * pats.length + 7) / 8
  let old := if w < 8 then
      let ps := r.look s h o n 2
      natOf (ps.flatMap fun p => match p.2.2.loc with
        | .dev pa => s.seeN r.core r.x.issuer pa p.2.1
        | _ => List.replicate p.2.1 0)
    else 0
  let lo := old % 2 ^ (bit % 8)
  let len := bit % 8 + w * pats.length
  let new := lo + 2 ^ (bit % 8) * pats.foldr (fun e x => e % 2 ^ w + x * 2 ^ w) 0 + old / 2 ^ len * 2 ^ len
  r.writeHandle s h o (bytesOf n new)

/-- One unit of CKLOAD: 64 bytes of a shard read, or a unit of the region written from a verified shard. -/
def CpRun.load (r : CpRun) (s : State) : CpOut :=
  let d := r.d
  match r.entry s with
  | .error s => .halt s
  | .ok (h, off) =>
    let room := Entry.length (s.entry (r.who s) h) - off
    let b := r.x.buf
    let total := 128 + if b.length < 128 then 0 else shardBody (Shard.of b).eb (Shard.of b).pb
    match if b.length < 128 then none else d.reject b room with
    | some reason => .halt (r.rejected s reason)
    | none =>
      if Entry.valid (s.entry (r.who s) h) && decide (room < 128) then .halt (r.rejected s 4)
      else if b.length < 128 ∨ b.length < total then
        match r.readHandle s h (off + b.length) (min 64 (total - b.length)) with
        | .error s => .halt s
        | .ok (bs, s) => .next (r.advance s [] fun x => { x with buf := x.buf ++ bs })
      else if shardCrcBad b then .halt (r.rejected s 5)
      else if r.x.out < d.runs * d.perRun then
        let run := r.x.out / d.perRun
        let i0 := r.x.out % d.perRun * d.unit
        let at_ := d.run run
        let (skip, pats, exps) := d.overlap (Shard.of b) b at_ i0 (min d.unit (d.e 0 - i0))
        let (es, xs, ev) := d.convert pats exps
        let start := d.dst.start at_
        let w := fmtBits d.dst.fmt
        let done (s : State) : CpOut := .next (r.advance s ev fun x => { x with out := x.out + 1 })
        let (lo, hi) := d.share (Shard.of b)
        if pats = [] then .next (r.advance s [] fun x => { x with out := x.out + 1 })
        else if d.dst.tile ∨ isBlock d.dst.fmt then
          match r.writeUnit s run start lo hi (i0 + skip) es xs with
          | .error s => .halt s
          | .ok s => done s
        else
          match r.writeBits s d.dst.h start.toNat ((i0 + skip) * w) w es with
          | .error s => .halt s
          | .ok s => done s
      else
        .next (r.advance s [] fun x => { x with
          shard := x.shard + 1, buf := [], out := 0,
          taken := x.taken ++ [((Shard.of b).origin, (Shard.of b).extent)] })

/-- Some element of the region lay in no shard. -/
def CpRun.partly (r : CpRun) : Bool :=
  let d := r.d
  !((List.range d.runs).all fun run => (List.range (d.e 0)).all fun i0 => r.x.taken.any fun t =>
    (List.range 4).all fun k =>
      let g := d.origin.getD k 0 + (i0 :: d.run run).getD k 0
      decide (t.1.getD k 0 ≤ g ∧ g < t.1.getD k 0 + t.2.getD k 1))

/-! ### Running -/

/-- Every unit is done. -/
def CpRun.over (r : CpRun) : Bool :=
  match r.x.op with
  | 4 => decide (r.x.done ≥ r.d.runs * r.d.perRun ∧ r.x.out ≥ (r.body.length + 63) / 64 + 2)
  | 5 => decide (r.x.shard ≥ r.d.nshard)
  | _ => decide (r.x.done ≥ r.d.runs * r.d.perRun)

/-- A copy as it stands. -/
def State.cpRun (s : State) (core slot ticket : Nat) : Option CpRun :=
  (s.crew? core slot).bind fun c => (c.copies.find? fun x => x.ticket == ticket).map fun x =>
    { core, slot, c, x, d := CpDesc.of x.desc }

/-- Address of the destination, or byte offset in its tile, at which a unit begins; the unit of a CKPT is 64 bytes of its
shard, and it has none while it still reads. -/
def CpRun.unitAt (r : CpRun) (s : State) (u : Nat) : Nat :=
  let d := r.d
  let x := d.dst
  let base := if x.tile then 0 else Entry.base (s.entry (r.who s) x.h)
  if r.x.op = 4 then base + x.off + 128 + 64 * u
  else
    let at_ := d.run (u / d.perRun)
    let at_ := if r.x.op = 2 then r.indexNow s (at_.getD 0 0) :: at_.drop 1 else at_
    let start := (x.start at_).toNat
    let i0 := u % d.perRun * d.unit
    if x.tile then (s.named r.k x.h).elim 0 fun t => (t.2.2.elemAt (start + i0)).1
    else base + start + i0 * fmtBits x.fmt / 8

/-- Units of the destination that have been written, of those that the copy is in the middle of. -/
def CpRun.written (r : CpRun) : Nat := if r.x.op = 4 ∨ r.x.op = 5 then r.x.out else r.x.done

/-- A unit begins at a 4 KiB boundary of the destination (R353): it is the first, or lies in another page than the one
before. -/
def CpRun.edge (r : CpRun) (s : State) (u : Nat) : Bool := u == 0 || r.unitAt s u / 4096 != r.unitAt s (u - 1) / 4096

/-- A save of the gang is pending (R353). -/
def CpRun.pausing (r : CpRun) (s : State) : Bool :=
  s.preempts.any fun p => p.unit == .gang r.c.gang && (p.option == 1 || p.full)

/-- The copy stands where a save may take it: it is not running, or parked on a page, or at a 4 KiB boundary of its
destination (R353). -/
def CpRun.paused (r : CpRun) (s : State) : Bool :=
  !r.x.started || (match r.x.wait with | .park _ _ => true | _ => false) || (r.x.wait == .none && r.edge s r.written)

/-- The copy goes back to the last 4 KiB page of its destination that it has begun (Table 18.10). -/
def CpRun.backed (r : CpRun) (s : State) : Copy :=
  let u := (((List.range (r.written + 1)).filter (r.edge s)).getLast?).getD 0
  let before := if r.x.op = 5 then r.x.shard * (r.d.runs * r.d.perRun) + u else u
  let ev := if r.x.op = 4 then r.x.ev else r.x.ev.filter fun e => decide (e.1 < before)
  let x := { r.x with ev, wait := .none, answers := [], extData := [], extErr := [], started := false }
  if r.x.op = 4 ∨ r.x.op = 5 then { x with out := u } else { x with done := u }

/-- Units one after the other, until the copy ends, waits, or pauses for a save; at most `n`. -/
def State.copyOn : Nat → State → Nat → Nat → Nat → State
  | 0, s, _, _, _ => s
  | n + 1, s, core, slot, ticket =>
    match s.cpRun core slot ticket with
    | none => s
    | some r =>
      if r.over then s.copyEnd r.k r.x (if r.x.op = 5 ∧ r.partly then 2 ^ 16 else 0)
      else if r.pausing s && r.paused s then s
      else
        match (match r.x.op with | 4 => r.save s | 5 => r.load s | _ => r.move s) with
        | .halt s => s
        | .next s => State.copyOn n s core slot ticket

/-- A bound on the units of a copy. -/
def CpRun.bound (r : CpRun) : Nat :=
  let units := r.d.runs * r.d.perRun
  match r.x.op with
  | 4 => 4 * units + 8
  | 5 => (r.d.nshard + 1) * (units + 2 ^ 64)
  | _ => units + 2

/-- COPY_COMPLETE: a running copy goes on, and completes once nothing stops it (R348 to R351). -/
def execCopyComplete (core slot ticket : Nat) (s : State) : Outcome State Fault Refusal :=
  match s.cpRun core slot ticket with
  | none => .next s
  | some r =>
    if r.x.started && r.x.wait == Wait.none && s.runs r.c.ctx then .next (State.copyOn r.bound s core slot ticket)
    else .next s

/-- The copy engine of a core is reset for a context: the running copies of other crews go back to the last 4 KiB page they
have completed, and start again from there (Table 18.10). -/
def State.resetCopies (s : State) (core ctx : Nat) : State :=
  (s.crewsOn core).foldl (fun s k =>
    match look s.crews k with
    | none => s
    | some c =>
      if c.ctx = ctx then s
      else (c.copies.filter (·.started)).foldl (fun s x =>
        match s.cpRun (k / 4) (k % 4) x.ticket with
        | none => s
        | some r =>
          let agent := Agent.copy (k / 4) (k % 4) x.ticket
          let s : State := { s with exts := keep s.exts fun _ e => e.agent != agent }
          let s := s.onVd (s.vdOf c.ctx) fun v => { v with waiting := v.waiting.filter fun e => e.1 != agent }
          s.onCopy k x.ticket fun _ => r.backed s) s) s

/-! ### TFREE (R232) -/

/-- A tile that lanes free: what a wait would still hide of it is gone with it. A lane that waits at WAITA for a word of it
waits on (log 77). -/
def State.freeTile (s : State) (k n : Nat) : State :=
  s.onCrewKey k fun c => { c with tiles := drop c.tiles n, veils := c.veils.filter fun v => !(v.first == k && v.count == n) }

/-- A copy or a matrix command of the crew names the tile. -/
def Crew.names (c : Crew) (t : Nat × Nat) : Bool :=
  c.mx.any (fun x => x.tiles.contains t) || c.copies.any fun x => x.tiles.contains t

/-- An atomic on a tile has not been performed; a BWAIT that waits there is none (R232). -/
def State.atomsOn (s : State) (k n : Nat) : Bool :=
  s.atoms.any fun e => e.2.reply.isNone && !e.2.waiting && !e.2.retry &&
    match e.2.place with | .tile k' n' _ => k' == k && n' == n | _ => false

/-- TFREE (R232). -/
def execTfree (f : Fields) (s : State) : Outcome State Fault Refusal :=
  laneInstr 5 0x05 f s fun s i => i.acting s fun c =>
    match c.crew? s with
    | none => i.retry s
    | some (k, x) =>
      let tw (l : Nat) : Word := i.w.getV l i.f.a.toNat
      let ref (l : Nat) : TileRef := s.tileRef (some k) (tw l)
      let at1 := i.act &&& maskOf fun l => match ref l with | .bad => true | _ => false
      let at2 := i.act &&& maskOf fun l => bits (tw l).toNat 12 12 = 1 && bits (tw l).toNat 11 8 != x.rank
      let at3 := i.act &&& maskOf fun l => match ref l with | .none => true | _ => false
      if at1 ≠ 0 then i.tileFault s Cls.bounds at1
      else if at2 ≠ 0 then i.tileFault s Cls.perm at2
      else if at3 ≠ 0 then i.tileFault s Cls.bounds at3
      else
        let ts := ((lanesOf i.act).filterMap fun l => (ref l).tile?).map fun r => r.2.1
        if ts.any (fun n => x.names (k, n) || s.atomsOn k n) then i.retry s
        else i.done (ts.foldl (fun s n => s.freeTile k n) s)

end Sys2Proof.Machine
end

