-- ==== Sys2Proof/Machine/Chain.lean ====
section
/-! DEFINITION. The chain unit (R293 to R306): binding, long-integer arithmetic over bound tiles, and the flags. -/

namespace Sys2Proof.Machine

open Host (Outcome)

/-! ### Bound tiles (R293, R296) -/

/-- Numbers of the partition tiles that have a lane in a mask. -/
def Warp.tilesIn (w : Warp) (m : Word) : List Nat :=
  (List.range (32 / w.tileSize)).filter fun t => m &&& w.tileOf (t * w.tileSize) != 0

/-- The width in bits of a limb, and of an integer of a tile. -/
def Iss.limbBits (i : Iss) : Nat := if bits i.mo 0 0 = 1 then 64 else 32
def Iss.intBits (i : Iss) : Nat := i.w.tileSize * i.limbBits

/-- The lowest lane of tile t. -/
def Iss.baseOf (i : Iss) (t : Nat) : Nat := t * i.w.tileSize

/-- Limbs are pairs. -/
def Iss.wideLimb (i : Iss) : Bool := decide (bits i.mo 0 0 = 1)

/-- A limb of a lane. -/
def Iss.limb (i : Iss) (r l : Nat) : Nat := (i.w.getW i.wideLimb l r).toNat

/-- The integer that a register of a tile holds (R293). -/
def Iss.val (i : Iss) (r t : Nat) : Nat :=
  (List.range i.w.tileSize).foldl (fun n k => n + i.limb r (i.baseOf t + k) * 2 ^ (i.limbBits * k)) 0

/-- The instruction issues with PM = m0 and PN = 0. -/
def Iss.unpredicated (i : Iss) : Bool := i.f.pm == 0 && !i.f.pn

/-- The rules of R296; `width` when the instruction carries one. The answer is the issuing group when one is broken. -/
def chainDiv (width : Bool) (_ : State) (i : Iss) : Option Word :=
  let ok := i.w.chain.bound.isSome && (!width || i.w.chain.bound == some i.limbBits) && i.unpredicated &&
    ((i.w.tilesIn i.grp).all fun t => i.w.tileOf (i.baseOf t) &&& i.w.live &&& ~~~i.grp == 0)
  if ok then none else some i.grp

/-- Chain instructions of some tiles have not completed (R295, R298, R303). -/
def Warp.chainBusy (w : Warp) (ts : List Nat) : Bool := w.prods.any fun p => p.chain.any ts.contains

/-- The flags of a tile (R294). -/
def Warp.carry (w : Warp) (t : Nat) : Bool := bitOf w.chain.c t
def Warp.overflow (w : Warp) (t : Nat) : Bool := bitOf w.chain.o t

/-- The result of a tile and its flags. -/
structure TileResult where
  r : Nat
  c : Bool
  v : Bool
  /-- The carry-out limb of LMULW. -/
  co : Option Nat := none

/-- A limb of a result as a register value. -/
def Iss.limbOf (i : Iss) (r k : Nat) : DWord := w64 (r / 2 ^ (i.limbBits * k) % 2 ^ i.limbBits)

/-- A register or pair as writes of a producer. -/
def Iss.writes (i : Iss) (l r : Nat) (x : DWord) : List (Nat × Nat × DWord) :=
  if i.wideLimb then [(l, r, (lo32 x).setWidth 64), (l, r + 1, (hi32 x).setWidth 64)] else [(l, r, x)]

/-- An arithmetic instruction: each tile's result is written by limbs, with its flags (R301, R302, R304). -/
def chainOp (op : Nat) (f : Fields) (s : State) (g : Iss → Nat → TileResult) : Outcome State Fault Refusal :=
  issue 8 op f s (chainDiv true) (fun s i =>
    let ts := i.w.tilesIn i.grp
    if (op = 0x02 ∨ op = 0x03 ∨ op = 0x0A) ∧ i.fn % 2 = 1 ∧ i.w.chainBusy ts then i.retry s
    else
      let out := ts.map fun t => (t, g i t)
      let vals := out.flatMap fun e =>
        ((List.range i.w.tileSize).flatMap fun k => i.writes (i.baseOf e.1 + k) i.f.d.toNat (i.limbOf e.2.r k)) ++
          (match e.2.co with | some x => i.writes (i.baseOf e.1) (bits i.fn 6 0) (w64 x) | none => [])
      i.produce s vals (out.map fun e => (e.1, e.2.c, e.2.v)) ts) fun s _ => s

/-- The signed reading of N bits. -/
def sgn (n x : Nat) : Int := signedOf n x

/-- A signed value lies outside N bits. -/
def outside (n : Nat) (x : Int) : Bool := decide (x < -(2 ^ (n - 1) : Nat) ∨ x > (2 ^ (n - 1) : Nat) - 1)

/-- The integer operand B of a tile: a register, or the immediate modulo 2^N (R297). -/
def Iss.intB (i : Iss) (t : Nat) : Nat :=
  if i.f.immB then truncN i.intBits i.f.immValue.toInt else i.val i.f.b.toNat t

/-- The shift count of a tile (R301). -/
def Iss.chainCount (i : Iss) (t : Nat) : Nat := (i.b32 (i.baseOf t)).toNat

/-- The carry-in of LADD and LSUB. -/
def Iss.carryIn (i : Iss) (t : Nat) : Nat := if i.fn = 1 then (if i.w.carry t then 1 else 0) else if i.fn = 2 then 1 else 0

/-- The sum of a tile. -/
def Iss.laddTile (i : Iss) (t : Nat) : TileResult :=
  let n := i.intBits
  let (a, b, ci) := (i.val i.f.a.toNat t, i.intB t, i.carryIn t)
  { r := (a + b + ci) % 2 ^ n, c := decide (a + b + ci ≥ 2 ^ n), v := outside n (sgn n a + sgn n b + ci) }

/-- The difference of a tile. -/
def Iss.lsubTile (i : Iss) (t : Nat) : TileResult :=
  let n := i.intBits
  let (a, b, bi) := (i.val i.f.a.toNat t, i.intB t, i.carryIn t)
  { r := truncN n ((a : Int) - b - bi), c := decide (a < b + bi), v := outside n (sgn n a - sgn n b - bi) }

/-- The negation of a tile. -/
def Iss.lnegTile (i : Iss) (t : Nat) : TileResult :=
  let n := i.intBits
  let a := i.val i.f.a.toNat t
  { r := truncN n (-(a : Int)), c := a != 0, v := a == 2 ^ (n - 1) }

/-- The left shift of a tile. -/
def Iss.lshlTile (i : Iss) (t : Nat) : TileResult :=
  let n := i.intBits
  let (a, k) := (i.val i.f.a.toNat t, i.chainCount t)
  let fits := if k ≥ n then a == 0 else !outside n (sgn n a * (2 ^ k : Nat))
  { r := if k ≥ n then 0 else a * 2 ^ k % 2 ^ n, c := decide (1 ≤ k ∧ k ≤ n) && a.testBit (n - k),
    v := decide (k ≥ 1) && !fits }

/-- The logical right shift of a tile. -/
def Iss.lshrTile (i : Iss) (t : Nat) : TileResult :=
  let n := i.intBits
  let (a, k) := (i.val i.f.a.toNat t, i.chainCount t)
  { r := if k ≥ n then 0 else a / 2 ^ k, c := decide (1 ≤ k ∧ k ≤ n) && a.testBit (k - 1), v := false }

/-- The arithmetic right shift of a tile. -/
def Iss.lsraTile (i : Iss) (t : Nat) : TileResult :=
  let n := i.intBits
  let (a, k) := (i.val i.f.a.toNat t, min (i.chainCount t) n)
  { r := truncN n (sgn n a / (2 ^ k : Nat)), c := decide (k ≥ 1) && a.testBit (k - 1), v := false }

/-- The product and sum of a tile, with the carry-out limb. -/
def Iss.lmulwTile (i : Iss) (t : Nat) : TileResult :=
  let n := i.intBits
  let w := if i.f.immB then i.f.immValue.toNat % 2 ^ i.limbBits else i.limb i.f.b.toNat (i.baseOf t)
  let x := i.val i.f.a.toNat t * w + i.val i.f.c.toNat t
  { r := x % 2 ^ n, c := x / 2 ^ n != 0, v := false, co := if bits i.fn 7 7 = 1 then some (x / 2 ^ n) else none }

/-- The Montgomery step of a tile. -/
def Iss.lmontTile (i : Iss) (t : Nat) : TileResult :=
  let n := i.intBits
  let w := i.limbBits
  let x := i.val i.f.a.toNat t + if i.fn % 2 = 1 ∧ i.w.carry t then 2 ^ n else 0
  let u := x % 2 ^ w * i.limb i.f.c.toNat (i.baseOf t) % 2 ^ w
  let y := (x + u * i.val i.f.b.toNat t) / 2 ^ w
  { r := y % 2 ^ n, c := y.testBit n, v := false }

/-- LADD (R301). -/
def execLadd (f : Fields) (s : State) : Outcome State Fault Refusal := chainOp 0x02 f s Iss.laddTile
/-- LSUB (R301). -/
def execLsub (f : Fields) (s : State) : Outcome State Fault Refusal := chainOp 0x03 f s Iss.lsubTile
/-- LNEG (R301). -/
def execLneg (f : Fields) (s : State) : Outcome State Fault Refusal := chainOp 0x04 f s Iss.lnegTile
/-- LSHL (R301). -/
def execLshl (f : Fields) (s : State) : Outcome State Fault Refusal := chainOp 0x05 f s Iss.lshlTile
/-- LSHR (R301). -/
def execLshr (f : Fields) (s : State) : Outcome State Fault Refusal := chainOp 0x06 f s Iss.lshrTile
/-- LSRA (R301). -/
def execLsra (f : Fields) (s : State) : Outcome State Fault Refusal := chainOp 0x07 f s Iss.lsraTile
/-- LMULW (R301). -/
def execLmulw (f : Fields) (s : State) : Outcome State Fault Refusal := chainOp 0x09 f s Iss.lmulwTile
/-- LMONT (R301). -/
def execLmont (f : Fields) (s : State) : Outcome State Fault Refusal := chainOp 0x0A f s Iss.lmontTile

/-- The comparison of a tile (R301). -/
def Iss.lcmpTile (i : Iss) (t : Nat) : Word :=
  let n := i.intBits
  let rd (x : Nat) : Int := if bits i.mo 1 1 = 1 then (x : Int) else sgn n x
  let (p, q) := (rd (i.val i.f.a.toNat t), rd (i.intB t))
  if p < q then 0xFFFFFFFF#32 else if p = q then 0 else 1

/-- LCMP writes every lane of a tile alike and leaves the flags (R301). -/
def execLcmp (f : Fields) (s : State) : Outcome State Fault Refusal :=
  issue 8 0x08 f s (chainDiv true) (fun s i =>
    i.produce s ((lanesOf i.act).map fun l => (l, i.f.d.toNat, (i.lcmpTile (l / i.w.tileSize)).setWidth 64)) []
      (i.w.tilesIn i.grp)) fun s _ => s

/-! ### Flags (R303) -/

/-- LCARRY: bit `base` of each tile takes its flag, the group's other bits 0. -/
def execLcarry (f : Fields) (s : State) : Outcome State Fault Refusal :=
  issue 8 0x0B f s (chainDiv false) (fun s i =>
    if i.w.chainBusy (i.w.tilesIn i.grp) then i.retry s
    else i.writeMask s fun l =>
      l % i.w.tileSize == 0 && (if i.fn = 1 then i.w.overflow (l / i.w.tileSize) else i.w.carry (l / i.w.tileSize)))
    fun s _ => s

/-- LSTAT follows R296 on a bound warp only. -/
def lstatDiv (s : State) (i : Iss) : Option Word := if i.w.chain.bound.isNone then none else chainDiv false s i

/-- The word of LSTAT. -/
def Warp.flagWord (w : Warp) : Word :=
  if w.chain.bound.isNone then 0
  else (List.range (32 / w.tileSize)).foldl (fun x t =>
    x ||| (if w.carry t then (1 : Word) <<< t else 0) ||| (if w.overflow t then (1 : Word) <<< (16 + t) else 0)) 0

/-- LSTAT; with .clr the flags of the group's tiles become 0. -/
def execLstat (f : Fields) (s : State) : Outcome State Fault Refusal :=
  issue 8 0x0C f s lstatDiv (fun s i =>
    let ts := i.w.tilesIn i.grp
    if i.w.chainBusy ts then i.retry s
    else
      let x : DWord := i.w.flagWord.setWidth 64
      i.produce s ((lanesOf i.act).map fun l => (l, i.f.d.toNat, x))
        (if bits i.mo 1 1 = 1 ∧ i.w.chain.bound.isSome then ts.map fun t => (t, false, false) else []) ts) fun s _ => s

/-! ### Binding (R298, R299) -/

/-- LBIND asks for convergence, 32 live lanes and no predicate. -/
def lbindDiv (s : State) (i : Iss) : Option Word :=
  match converged s i with
  | some m => some m
  | none => if i.w.live ≠ 0xFFFFFFFF#32 then some (~~~i.w.live) else if i.unpredicated then none else some i.grp

/-- The task descriptor's limbs flag (Table 16.6). -/
def State.limbs (s : State) (task : Nat) : Bool := (s.task? task).any fun (t : Task) => descField t.desc 29 1 / 2 % 2 == 1

/-- LBIND (R298). -/
def execLbind (f : Fields) (s : State) : Outcome State Fault Refusal :=
  issue 8 0x00 f s lbindDiv (fun s i =>
    if !s.limbs i.w.task then i.raise s Cls.quota i.act (fun _ => 0) fun _ => 0
    else if i.w.chainBusy (List.range 32) then i.retry s
    else i.commitWarp s fun w => { w with chain := { bound := some i.limbBits, c := 0, o := 0 } }) fun s _ => s

/-- LUNBIND asks for convergence on a bound warp, and follows R296 there. -/
def lunbindDiv (s : State) (i : Iss) : Option Word :=
  if i.w.chain.bound.isNone then none
  else match converged s i with
    | some m => some m
    | none => chainDiv false s i

/-- LUNBIND (R299). -/
def execLunbind (f : Fields) (s : State) : Outcome State Fault Refusal :=
  issue 8 0x01 f s lunbindDiv (fun s i =>
    if i.w.chain.bound.isNone then i.done s
    else if i.w.chainBusy (List.range 32) then i.retry s
    else i.commitWarp s fun w => { w with chain := { bound := none, c := 0, o := 0 } }) fun s _ => s

end Sys2Proof.Machine
end

