-- ==== Sys2Proof/Machine/Schedule.lean ====
section
/-! DEFINITION. One step of the machine around the meaning of an instruction: the passing of time, the choice of the
warp, group or lead thread that issues (R142, R164, R165, R359), fetch and decoding (R58, R82), and the turns taken
when nothing is scheduled. -/

namespace Sys2Proof.Machine

open Host (Outcome)

/-- Warps and lead threads of a VD that stand on a cluster (R360). -/
def State.slotsHeld (s : State) (cluster vd : Nat) : Nat :=
  (s.warps.filter fun e => clusterOf (e.1 / 16) == cluster && s.vdOf e.2.ctx == vd).length +
    (s.crews.filter fun e => clusterOf (e.1 / 4) == cluster && s.vdOf e.2.ctx == vd).length

/-- Clusters with work, and the VDs it belongs to. -/
def State.holders (s : State) : List (Nat × Nat) :=
  ((s.warps.map fun (e : Nat × Warp) => (clusterOf (e.1 / 16), s.vdOf e.2.ctx)) ++
    s.crews.map fun (e : Nat × Crew) => (clusterOf (e.1 / 4), s.vdOf e.2.ctx)).dedup

/-- A stretch of service is added, to the one that it continues if there is one. -/
def addServed (x : Served) : List Served → List Served
  | [] => [x]
  | y :: r => if y.cluster = x.cluster ∧ y.vd = x.vd ∧ y.slots = x.slots ∧ y.till = x.since then { y with till := x.till } :: r
    else y :: addServed x r

/-- What was served up to the given counts of the dies, as far back as the window reaches (R360). -/
def State.serve (s : State) (dies : List Die) : List Served :=
  let now (k : Nat) : Nat := (dies.map (·.cycle)).getD (k / 64) 0
  s.holders.foldl (fun l k => addServed { cluster := k.1, vd := k.2, since := s.cycleOf (k.1 * 16), till := now k.1,
                                          slots := s.slotsHeld k.1 k.2 } l)
    (s.served.filter fun x => decide (x.till ≤ now x.cluster) && decide (now x.cluster < x.till + 2 ^ 20))

/-- Time passes: every die that is up counts core cycles, TIME counts nanoseconds, and what the VDs occupy is measured
(R17, R360; log 1). -/
def State.tick (s : State) : State :=
  let dies := s.dies.map fun d => if d.up ∨ (1 ≤ d.step ∧ d.step ≤ 5) then { d with cycle := d.cycle + 1 + Config.freeCycles s.stamp } else d
  { s with time := s.time + w64 (Config.freeTime s.stamp), served := s.serve dies, dies, cur := .none, stamp := s.stamp + 1,
           beat := if s.second.isSome then s.beat else s.beat + 1 }

/-- What an attempt to issue gives before the instruction acts. -/
inductive Due where
  /-- Nothing issues; the state after it. -/
  | idle (s : State)
  | run (i : Instr) (s : State)

/-- The meaning applied to what is due. -/
def Due.go (d : Due) (ex : Instr → State → Outcome State Fault Refusal) : Outcome State Fault Refusal :=
  match d with
  | .idle s => .next s
  | .run i s => ex i s

/-! ### Groups -/

/-- A lane does not wait but for a repeated attempt. -/
def Lane.goes (x : Lane) : Bool := match x.wait with | .none => true | .retry => true | .poll _ => true | _ => false

/-- The bound tile of a lane stands whole at one PC; outside a handler it issues in one group or not at all (R180). -/
def Warp.tileWhole (w : Warp) (l : Nat) : Bool :=
  w.chain.bound.isNone || w.handler != 0 ||
    (lanesOf (w.tileOf l &&& w.live)).all fun k => (w.lane k).goes && (w.lane k).pc == (w.lane l).pc

/-- A lane may issue: live, not waiting but for a repeated attempt, not kept out of a handler, and with the whole of its bound
tile (R164, R180, R181). -/
def Warp.may (w : Warp) (l : Nat) : Bool :=
  bitOf w.live l && (w.handler == 0 || bitOf w.handler l) && (w.lane l).goes && w.tileWhole l

/-- A number into a rising list without repeats. -/
def insertNat (n : Nat) : List Nat → List Nat
  | [] => [n]
  | x :: r => if n < x then n :: x :: r else if n = x then x :: r else x :: insertNat n r

/-- The groups of a warp by rising PC (R164). -/
def Warp.groups (w : Warp) : List Word :=
  (((List.range 32).filter w.may).foldl (fun ps l => insertNat (w.lane l).pc.toNat ps) []).map fun p =>
    maskOf fun l => w.may l && (w.lane l).pc.toNat == p

/-- The age of a group: the largest of its lanes' (R165). -/
def Warp.ageOf (w : Warp) (g : Word) : Nat := (lanesOf g).foldl (fun a l => max a (w.lane l).age) 0

/-- A group whose attempt is not a repeated one. -/
def Warp.free (w : Warp) (g : Word) : Bool := (lanesOf g).all fun l => (w.lane l).wait == Wait.none

/-- A group that has issued, or failed, without being held at its PC by R70. -/
def Warp.held (w : Warp) (g : Word) : Bool := (lanesOf g).all fun l =>
  match (w.lane l).wait with | .retry => true | .poll _ => true | _ => false

/-- Another warp-issue cycle passes for the groups that could issue (R165). -/
def Warp.aged (w : Warp) (can : Word → Bool) : Warp :=
  w.groups.foldl (fun w g => if can g then
    let a := w.ageOf g + 1
    w.onMask g fun _ x => { x with age := a } else w) w

/-- Into a list by falling age, ties after those already there. -/
def insertAged (w : Warp) (g : Word) : List Word → List Word
  | [] => [g]
  | x :: r => if w.ageOf g > w.ageOf x then g :: x :: r else x :: insertAged w g r

/-- Candidates for the second slot: aged groups by falling age, then the others by rising PC (R164, R165). -/
def Warp.seconds (w : Warp) (rest : List Word) : List Word :=
  let old := rest.filter fun g => decide (w.ageOf g ≥ 224)
  (old.foldl (fun l g => insertAged w g l) []) ++ rest.filter fun g => decide (w.ageOf g < 224)

/-! ### Fetching and decoding -/

/-- CODE handle and bounds in force for a warp (R58, R181). -/
def State.codeOf (s : State) (w : Warp) : Nat × Nat × Nat :=
  if w.handler = 0 then (w.code, w.codeLo, w.codeHi)
  else
    match s.ctx? w.ctx with
    | none => (0, 0, 0)
    | some x => let b := x.trapBounds.getD (0, 0); (x.trapCode, b.1, b.2)

/-- A fault of a fetch or of words that are no instruction, in every lane of the group (R58, R82; log 12). -/
def State.groupFault (s : State) (core slot : Nat) (g : Word) (pc : Word) (eng op ilen cls : Nat) (addr data : DWord) :
    State :=
  s.trap core slot { pc, eng, op, ilen } { cls, lanes := g, active := g, addr := fun _ => addr, data := fun _ => data }

/-- The words of the next instruction of a group, decoded. -/
def State.fetchGroup (s : State) (core slot : Nat) (g : Word) : Due :=
  match s.warp? core slot with
  | none => .idle s
  | some w =>
    let pc := (w.lane (lowest g)).pc
    let (h, lo, hi) := s.codeOf w
    match s.fetch (s.laneWho core slot w (lowest g)) h lo hi pc.toNat with
    | .ok ws =>
      match decodeWords .lane w.crew.isNone ws with
      | .ok i => .run i { s with cur := .lanes core slot g }
      | .error _ =>
        let w0 := ws.getD 0 0
        .idle (s.groupFault core slot g pc (w0.extractLsb' 3 4).toNat (w0.extractLsb' 7 6).toNat ws.length Cls.illegal 0
          (w0.setWidth 64))
    | .fault cls at_ far =>
      .idle (s.groupFault core slot g pc 0 0 1 cls (w64 at_)
        (if cls = Cls.bounds ∨ cls = Cls.misalign then 0 else w64 (h + if far then 2 ^ 63 else 0)))
    | .out (.page va cause) => .idle (s.parkLanes core slot g w.ctx 4 1 [(va, cause)] [])
    | .out (.hostBacked p) => .idle (s.parkLanes core slot g w.ctx 4 1 [] [p])
    | .out (.miss p b) => .idle (s.waitWalks core slot g w.ctx 4 [(p, b)])
    | .out _ => .idle s

/-- The words of the next instruction of a lead thread, decoded. -/
def State.fetchLead (s : State) (core slot : Nat) : Due :=
  match s.crew? core slot with
  | none => .idle s
  | some c =>
    let pc := c.lead.pc
    match s.fetch (s.leadWho core slot c) c.code c.codeLo c.codeHi pc.toNat with
    | .ok ws =>
      match decodeWords .lead false ws with
      | .ok i => .run i { s with cur := .lead core slot }
      | .error _ => .idle (s.trapLead core slot Cls.illegal ((ws.getD 0 0).setWidth 64))
    | .fault cls at_ _ =>
      .idle (s.trapLead core slot cls
        (if cls = Cls.bounds ∨ cls = Cls.misalign then w64 at_ else w64 (c.code * 2 ^ 52 + at_)))
    | .out (.page va cause) =>
      let s := s.countFault c.ctx Cls.page
      let (fids, s) := s.postFault (.lead core slot) c.ctx va 4 cause 0 core
      .idle (s.onLead core slot fun x => { x with wait := .park fids.toList [], sp := none })
    | .out (.hostBacked p) =>
      let (id, s) := s.requestService c.ctx p 4 (hubOfDie (dieOf core))
      .idle ((s.countFault c.ctx Cls.page).onLead core slot fun x => { x with wait := .park [] [id], sp := none })
    | .out (.miss p b) =>
      let (id, s) := s.requestWalk c.ctx p 4 (hubOfDie (dieOf core)) b
      .idle (s.onLead core slot fun x => { x with wait := .walk [id] })
    | .out _ => .idle s

/-! ### The sequencer's cycle -/

/-- The instruction that a group would issue. -/
def State.peek (s : State) (core slot : Nat) (g : Word) : Option (Nat × Nat × Fields) :=
  match s.fetchGroup core slot g with
  | .run i _ => isaOf i
  | .idle _ => none

/-- A group that has attempted its instruction stands there in a wait of R40: for a register, an entry of the decision queue or
a counter. -/
def State.waits40 (s : State) (core slot : Nat) (w : Warp) (g : Word) : Bool :=
  match s.peek core slot g with
  | none => false
  | some (eng, op, f) =>
    let held := (lanesOf (activeOf w g f)).any fun l => (w.lane l).hold
    ready .lane eng op f w.empty held == .wait || [(1, 5), (1, 6), (9, 5), (11, 1)].contains (eng, op)

/-- A group can issue (R164). -/
def State.canGo (s : State) (core slot : Nat) (w : Warp) (g : Word) : Bool := w.free g || !s.waits40 core slot w g

/-- The groups of a warp that can issue grow older (R165). -/
def State.ageGroups (s : State) (core slot : Nat) : State := s.onWarp core slot fun w => w.aged (s.canGo core slot w)

/-- No instruction of the warp has issued: the groups have not grown older, and those that began to wait have no age (R165). -/
def State.unage (s : State) (core slot : Nat) (w : Warp) : State :=
  s.onWarp core slot fun x => x.onLanes fun l y => { y with age := min y.age (w.lane l).age }

/-- The instructions of two groups need the same single-ported resource (R164; log 64). -/
def State.clash (s : State) (core slot : Nat) (g h : Word) : Bool :=
  match s.peek core slot g, s.peek core slot h with
  | some (e, o, _), some (e', o', _) => Config.samePort (64 * e + o) (64 * e' + o')
  | _, _ => false

/-- One group attempts its instruction, with the candidates for the second slot after it. The answer says whether it has gone,
and is not held at its PC. -/
def issueGroup (ex : Instr → State → Outcome State Fault Refusal) (core slot : Nat) (g : Word) (after : List Word) (s : State) :
    Bool × Outcome State Fault Refusal :=
  let s := { s with second := if after = [] then none else some (core, slot, after) }
  match (s.fetchGroup core slot g).go ex with
  | .next t =>
    if (t.warp? core slot).any fun (x : Warp) => x.held g then (false, .next { t with second := none }) else (true, .next t)
  | o => (true, o)

/-- The candidates for the second slot that may issue beside a group: one that needs the same resource issues in a later cycle
(R164). -/
def State.beside (s : State) (core slot : Nat) (g : Word) (cand : List Word) : List Word :=
  if s.clash core slot g (cand.headD 0) then [] else cand.filter fun h => !s.clash core slot g h

/-- The groups of a warp in order, until one does not end held at its PC; the groups after it may take the second slot
(R70, R164), and an aged one that cannot issue beside the first takes its place (R165). The answer says whether one
issued. -/
def issueFirst (ex : Instr → State → Outcome State Fault Refusal) (w : Warp) (core slot : Nat) :
    List Word → State → Bool × Outcome State Fault Refusal
  | [], s => (false, .next s)
  | g :: r, s =>
    let cand := w.seconds r
    let first (s : State) : Bool × Outcome State Fault Refusal :=
      match issueGroup ex core slot g (s.beside core slot g cand) s with
      | (false, .next t) => issueFirst ex w core slot r t
      | x => x
    match cand with
    | h :: _ =>
      if w.ageOf h ≥ 224 ∧ s.clash core slot g h then
        match issueGroup ex core slot h [] s with
        | (false, .next t) => first t
        | x => x
      else first s
    | [] => first s

/-- Into a list of warp slots by falling age, ties after those already there. -/
def insertSlot (age : Nat → Nat) (k : Nat) : List Nat → List Nat
  | [] => [k]
  | x :: r => if age k > age x then k :: x :: r else x :: insertSlot age k r

/-- The warp slots of a core that hold a warp with a group, by falling age, ties in rotation (R359). -/
def State.warpOrder (s : State) (core : Nat) : List Nat :=
  let last := ((look s.rot core).getD (15, 3)).1
  let slots := (((List.range 16).map fun n => (last + 1 + n) % 16).filter fun k =>
    (s.warp? core k).any fun (w : Warp) => s.runs w.ctx && w.groups != [])
  slots.foldl (fun l k => insertSlot (fun k => (s.warp? core k).elim 0 fun w => w.age) k l) []

/-- Ready warps of a core that did not issue grow older, and the one that issued starts again (R359). -/
def State.ageWarps (s : State) (core slot : Nat) : State :=
  { s with
    rot := put s.rot core (slot, ((look s.rot core).getD (15, 3)).2),
    warps := mapS s.warps fun k w =>
      if k = warpKey core slot then { w with age := 0 }
      else if k / 16 = core ∧ w.groups.any (s.canGo core (k % 16) w) then { w with age := w.age + 1 } else w }

/-- The first slot of a cycle of a core's sequencer: the warps in order, until one issues (R164, R359). -/
def issueWarps (ex : Instr → State → Outcome State Fault Refusal) (core : Nat) :
    List Nat → State → Outcome State Fault Refusal
  | [], s => .next s
  | slot :: r, s =>
    match s.warp? core slot with
    | none => issueWarps ex core r s
    | some w =>
      match issueFirst ex w core slot w.groups (s.ageGroups core slot) with
      | (false, .next t) => issueWarps ex core r (t.unage core slot w)
      | (true, .next t) => .next (t.ageWarps core slot)
      | (_, o) => o

/-- The second slot: the first candidate whose lanes may still issue and that does not end held (R164). -/
def issueSecond (ex : Instr → State → Outcome State Fault Refusal) (core slot : Nat) :
    List Word → State → Outcome State Fault Refusal
  | [], s => .next s
  | g :: r, s =>
    match s.warp? core slot with
    | none => .next s
    | some w =>
      if s.runs w.ctx && (lanesOf g).all w.may then
        match (s.fetchGroup core slot g).go ex with
        | .next t =>
          if (t.warp? core slot).any fun (x : Warp) => x.held g then issueSecond ex core slot r t else .next t
        | o => o
      else issueSecond ex core slot r s

/-! ### The lead engine's cycle -/

/-- A lead thread may issue. At an instruction that waits it has stopped for a save that is pending (R47, R161). -/
def State.leadMay (s : State) (core slot : Nat) : Bool :=
  (s.crew? core slot).any fun (c : Crew) => s.runs c.ctx && !c.lead.ended &&
    (match c.lead.wait with | .none => true | .retry => !s.stopping (.gang c.gang) | _ => false)

/-- The lead threads of a core in rotation, until one issues (R142). -/
def issueLeads (ex : Instr → State → Outcome State Fault Refusal) (core : Nat) :
    List Nat → State → Outcome State Fault Refusal
  | [], s => .next s
  | slot :: r, s =>
    if s.leadMay core slot then
      match (s.fetchLead core slot).go ex with
      | .next t =>
        if (t.crew? core slot).any fun (c : Crew) => c.lead.wait == Wait.retry then issueLeads ex core r t
        else .next { t with rot := put t.rot core (((look t.rot core).getD (15, 3)).1, slot) }
      | o => o
    else issueLeads ex core r s

/-! ### Turns -/

/-- Element `n` of a list, counted round it. -/
def roundRobin {α : Type} (l : List α) (n : Nat) : Option α := l[n % l.length]?

/-- The turn taken when none is scheduled: boot goes on; then the sequencers and the lead engines of the cores that hold
work, the events that are due and the timers take turns (log 4). -/
def State.defaultTurn (s : State) (due : List Instr) : Option Turn :=
  if !s.pkg.ready then some (.event (.bootStageComplete { fails := [] }))
  else
    let cores := ((s.warps.map fun (e : Nat × Warp) => e.1 / 16) ++ (s.crews.map fun (e : Nat × Crew) => e.1 / 4)).dedup
    match s.turn % 4 with
    | 0 => (roundRobin cores (s.turn / 4)).map .warp
    | 1 => (roundRobin cores (s.turn / 4)).map .lead
    | _ => (roundRobin due (s.turn / 4)).map .event

/-! ### The Badger's cycles (R359) -/

/-- A tenant warp of a core is ready (R359). -/
def State.tenantReady (s : State) (core : Nat) : Bool :=
  (List.range 16).any fun k => (s.warp? core k).any fun (w : Warp) => s.runs w.ctx && w.groups.any (s.canGo core k w)

/-- A request that the Badger of a cluster has to perform now. -/
def State.badgerNext (s : State) (k : Nat) : Option Nat :=
  (s.atoms.find? fun (e : Nat × AtomReq) => e.2.ready && e.2.badger == some k && !s.underLease e.2 && !s.atomBehind e.1 e.2 &&
    (s.drrTurn k).any fun (v : Nat × Nat) => v.1 == s.vdOf e.2.ctx).map fun (e : Nat × AtomReq) => e.1

/-- The Badger's warp must leave this cycle of core 0 to a tenant warp that is ready: it issued in the one before, while one
was (R359). -/
def State.badgerYields (s : State) (k : Nat) : Bool := s.badgers.contains k && s.tenantReady (k * 16)

/-- The Badger's warp, slot 15 of core 0, issues: it performs a request (R359). -/
def badgerIssue (ex : Instr → State → Outcome State Fault Refusal) (k id : Nat) (s : State) : Outcome State Fault Refusal :=
  let others := s.badgers.filter (· != k)
  match ex (.atomicRequestPerform id) { s with badgers := if s.tenantReady (k * 16) then k :: others else others } with
  | .next t => .next (t.ageWarps (k * 16) 15)
  | o => o

/-- A cycle of a core's sequencer: on core 0 of a cluster the Badger's warp comes first, when it has a request and may
(R359). -/
def issueCore (ex : Instr → State → Outcome State Fault Refusal) (core : Nat) (s : State) : Outcome State Fault Refusal :=
  let k := core / 16
  match if core % 16 = 0 ∧ s.badgerYields k = false then s.badgerNext k else none with
  | some id => badgerIssue ex k id s
  | none => issueWarps ex core (s.warpOrder core) { s with badgers := if core % 16 = 0 then s.badgers.filter (· != k) else s.badgers }

/-- A turn taken. An instruction of a stream is no event; the performance of a request at a Badger is a cycle of its warp. -/
def takeTurn (ex : Instr → State → Outcome State Fault Refusal) (t : Turn) (s : State) :
    Outcome State Fault Refusal :=
  match t with
  | .warp core => issueCore ex core s
  | .lead core =>
    let last := ((look s.rot core).getD (15, 3)).2
    issueLeads ex core ((List.range 4).map fun n => (last + 1 + n) % 4) s
  | .event (.atomicRequestPerform id) =>
    match (look s.atoms id).bind (·.badger) with
    | some k => if s.badgerYields k then .next s else badgerIssue ex k id s
    | none => ex (.atomicRequestPerform id) s
  | .event i => if (isaOf i).isSome then .next s else ex i s

/-- A step with every clock stopped: nothing but a cold reset has an effect (R12). -/
def stepTripped (ex : Instr → State → Outcome State Fault Refusal) (s : State) : Outcome State Fault Refusal :=
  match s.inbox with
  | .event .coldReset :: r => ex .coldReset { s with inbox := r }
  | _ => .next { s with inbox := s.inbox.drop 1 }

/-- One step, given the meaning of instructions, the events that are due and the timers: time passes; then the second slot
of the cycle that stands open, else the turn scheduled, else the default turn. -/
def stepWith (ex : Instr → State → Outcome State Fault Refusal) (due : State → List Instr)
    (timers : State → List (State → Outcome State Fault Refusal)) (s : State) : Outcome State Fault Refusal :=
  if s.pkg.tripped then stepTripped ex s
  else
  let s := s.tick
  match s.second with
  | some (core, slot, gs) => issueSecond ex core slot gs { s with second := none }
  | none =>
    match s.inbox with
    | t :: r => takeTurn ex t { s with inbox := r }
    | [] =>
      let next : State := { s with turn := s.turn + 1 }
      if s.pkg.ready ∧ s.turn % 4 = 3 then
        match roundRobin (timers s) (s.turn / 4) with
        | none => .next next
        | some t => t next
      else
        match s.defaultTurn (due s) with
        | none => .next next
        | some t => takeTurn ex t next

end Sys2Proof.Machine
end

