-- ==== Sys2Proof/Machine/Place.lean ====
section
/-! DEFINITION. Threads as placement makes them (R33, R141, R358, R368), and the placing of one instruction where the
next step fetches it. -/

namespace Sys2Proof.Machine

/-- A warp at placement: all lanes at the entry, registers full, masks 0, tiles of 32 lanes, unbound (R33, R358). -/
def Warp.placed (ctx task : Nat) (crew : Option Nat) (code lo hi regs rank : Nat) (entry : Word) (live : Word)
    (cycle : Nat) : Warp :=
  { ctx, task, crew, code, codeLo := lo, codeHi := hi, regs, rank, lanes := List.replicate 32 (Lane.fresh entry), live,
    empty := [], vfree := [], m := List.replicate 16 0, j := List.replicate 12 0, jtimer := [], partLog := 5,
    chain := { bound := none, c := 0, o := 0 }, tcause := 0, tpc := 0, tlanes := 0, handler := 0, instr := 0,
    dqRead := 0, age := 0, prods := [], leases := [], named := 0, veils := [],
    since := cycle, elapsed := 0, scan := 4096, overrun := false }

/-- A lead thread at placement (Table 6.1); an entry of 0xFFFFFFFF is no lead program (R33). -/
def Lead.placed (entry : Word) : Lead :=
  { ended := entry == 0xFFFFFFFF#32, pc := entry, k := [], bad := [], empty := [], stack := [], wait := .none, hold := false,
    adv := 0, answers := [], extData := [], extErr := [], lastSp := none, sp := none, swaits := false, instr := 0, prods := [] }

/-- A crew at placement (R141, R358). -/
def Crew.placed (ctx task gang rank code lo hi : Nat) (warps : List Nat) (entry : Word) (scr acc macros : Nat) : Crew :=
  { ctx, task, gang, rank, code, codeLo := lo, codeHi := hi, warps, doneWarps := [], lead := Lead.placed entry,
    q := List.replicate 8 0, tiles := [], scr, acc, macros, dq := [], dqBase := 0, bars := [], mx := [], copies := [],
    ticket := 0, tickets := [], frames := [], weights := [], resets := 0, veils := [], early := [],
    done := false }

/-- A context as CTX_CREATE leaves it, with a handle table (R37, R396). -/
def Ctx.bare (vd num pasid : Nat) (handles : SMap (BitVec 256)) : Ctx :=
  { vd, num, pasid, root := none, trapCode := 0, trapOff := 0, trapBounds := none, handles, chain := 0, ext := 0,
    faults := [], fpCum := [], fpThr := [], quota := 0, ovCap := 0, overflow := [], kill := none }

/-- A CODE handle of 128 bytes at address 0: valid, space 2, readable (Table 9.1). -/
def probeHandle : BitVec 256 := BitVec.ofNat 256 (2 ^ 255 + 2 * 2 ^ 252 + 2 ^ 248 + 128 * 2 ^ 64)

/-- A machine in which one crew of one warp of context 0 is placed on core 0, its code section the bytes 0 to 127 of
handle 1, both threads at offset 0, and the turn is that of the given stream. -/
def State.withCode (s : State) (code : List Byte) (st : Stream) : State :=
  { s with
    mem := s.mem.writeN 0 code, ctxs := put s.ctxs 0 (Ctx.bare 0 0 0 [(1, probeHandle)]),
    tlb := { ctx := 0, page := 0, host := false, frame := 0, secure := false, rights := 5 } :: s.tlb,
    warps := put s.warps 0 (Warp.placed 0 0 (some 0) 1 0 128 128 0 0 0xFFFFFFFF#32 0),
    crews := put s.crews 0 (Crew.placed 0 0 0 0 1 0 128 [0] 0 0 0 0), second := none,
    inbox := [match st with | .lane => .warp 0 | .lead => .lead 0] }

end Sys2Proof.Machine
end

