-- ==== Sys2Proof/Machine/Continue.lean ====
section
/-! DEFINITION. Identification, yielding, exit and continuations: GETID, YIELD, EXIT, CONT and CWAIT, the gather store
and the overflow area (R175, R362 to R372). -/

namespace Sys2Proof.Machine

open Host (Outcome)

/-! ### GETID (R363) -/

/-- PART of a lane (Table 7.2). -/
def Warp.part (w : Warp) (l : Nat) : Nat := l % w.tileSize * 256 + l / w.tileSize * 8 + w.partLog

/-- LIMB of a lane (Table 12.1). -/
def Warp.limb (w : Warp) (l : Nat) : Nat :=
  match w.chain.bound with
  | none => 0
  | some n =>
    let t := l / w.tileSize
    (if w.overflow t then 2 ^ 7 else 0) + (if w.carry t then 2 ^ 6 else 0) + (if n = 64 then 2 ^ 4 else 0) + 2 ^ 3 +
      w.partLog

/-- A special register of the crew as a lane reads it: all ones of its width in a continuation warp. -/
def State.crewSpecial (s : State) (w : Warp) (sel : Nat) : Nat :=
  match w.crew with
  | none => match sel with | 0x02 => 31 | 0x03 => 3 | 0x04 => 15 | _ => 0xFFFF
  | some k =>
    let g := (look s.crews k).bind fun c => look s.gangs c.gang
    match sel with
    | 0x02 => w.rank
    | 0x03 => k % 4
    | 0x04 => (look s.crews k).elim 0 (·.rank)
    | 0x05 => g.elim 0 (·.x)
    | 0x06 => g.elim 0 (·.y)
    | _ => g.elim 0 (·.z)

/-- What GETID reads in a lane (Table 3.7). -/
def Iss.ident (i : Iss) (s : State) (l : Nat) : Nat :=
  match i.f.a.toNat with
  | 0x00 => l
  | 0x01 => i.slot
  | 0x0E => i.w.part l
  | 0x0F => i.w.limb l
  | sel => if sel ≤ 0x07 then s.crewSpecial i.w sel else s.special sel i.core i.w.task i.w.ctx

/-- GETID: a read of LIMB waits for the chain instructions of its tiles (R295, R363). -/
def execGetid (f : Fields) (s : State) : Outcome State Fault Refusal :=
  issue 11 0x03 f s anyway
    (fun s i =>
      if i.f.a = 0x0F ∧ i.w.chainBusy (i.w.tilesIn i.act) then i.retry s
      else i.write s false fun l => w64 (i.ident s l))
    fun s i => i.write s (i.special s i.f.a.toNat)

/-! ### YIELD (R372) -/

/-- YIELD: a stopping point when a pre-emption is pending; otherwise the thread is last in its rotation. A YIELD with
SP has stopped at the issue. -/
def execYield (f : Fields) (s : State) : Outcome State Fault Refusal :=
  issue 11 0x02 f s anyway
    (fun s i => i.perWarp s fun s =>
      if s.stopping (i.w.unit s i.core i.slot) && i.w.unleased then
        s.onWarp i.core i.slot fun w => w.onMask i.grp fun _ x => { x with wait := .stopped, sp := none }
      else i.commitWarp s fun w => { w with age := 0 })
    fun s i =>
      if s.stopping (.gang i.c.gang) then
        s.onLead i.core i.slot fun x => { x with wait := .stopped, sp := none }
      else i.done { s with rot := put s.rot i.core (((look s.rot i.core).getD (15, 3)).1, i.slot) }

/-! ### Join counters (R365, R366) -/

/-- A join counter's entry (step 8 of R365). -/
def joinOk (e : BitVec 256) : Bool :=
  Entry.space e == 0 && Entry.kind e == 3 && Entry.pr e && Entry.pw e && Entry.pa e

/-- What is asked of a join counter. -/
def joinAsk : Ask := { w := 4, align := 4, acc := 8, ok4 := joinOk, own := false }

/-- A join counter changes at its Badger, modulo 2^32; the Badger's die obtains the line (R284). -/
def State.countJoin (s : State) (pa : Nat) (d : Int) : State :=
  let v := natOf (s.mem.readN pa 4)
  let die := s.badgerDie pa
  ((s.dirWrite (pa / 64) die).dieTake (pa / 64) die []).store pa (bytesOf 4 (((v : Int) + d) % 2 ^ 32).toNat)

/-- The lanes whose requests to a join counter are set aside at its Badger, behind a lease of the line (R257, R286). -/
def State.countersLeased (s : State) (lanes : List Nat) (loc : Nat → Loc) : Bool :=
  lanes.any fun l => match loc l with | .dev pa => s.leased (pa / 64) | _ => false

/-! ### EXIT (R175, R366) -/

/-- The lanes whose EXIT is a completion point or a release: the whole warp when its last lanes exit, otherwise those
with a join counter (R280, R366). -/
def Iss.exiting (i : Iss) : Word :=
  if i.act = i.w.live then 0xFFFFFFFF#32
  else i.act &&& maskOf fun l => (i.w.lane l).joinCtr.isSome

/-- Active lanes that lower a join counter. -/
def Iss.joining (i : Iss) : Word := i.act &&& maskOf fun l => (i.w.lane l).joinCtr.isSome

/-- The decrement of a lane's join counter (R366). -/
def State.lower (at_ : Nat → AccOut) (s : State) (l : Nat) : State :=
  match at_ l with
  | .ok (.dev pa) _ => s.countJoin pa (-1)
  | _ => s

/-- The decrements of the exiting lanes, once no lease holds a counter's line, then the exit; a counter that can no longer be reached stops the context as a
deferred fault at this PC (R366). -/
def Iss.exitJoined (i : Iss) (s : State) : State :=
  let c : Caller := .warp i i.joining
  let ctr (l : Nat) : Nat × Nat := (i.w.lane l).joinCtr.getD (0, 0)
  let out (l : Nat) : AccOut := s.access (c.who s l) (ctr l).1 ((ctr l).2 : Int) joinAsk
  match groupOut i.joining out with
  | .fault cls lanes _ =>
    let l := lowest lanes
    s.stop i.w.ctx cls (s.taskNo i.w.task) (i.w.qual l + 2 ^ 11) i.pc
      (w64 ((ctr l).1 % 4096 * 2 ^ 52 + (ctr l).2 % 2 ^ 52)) (dieOf i.core)
  | .walk pages => c.walk s 8 pages
  | .park faults hbs => c.park s 8 faults hbs
  | _ =>
    if s.countersLeased (lanesOf i.joining) fun l => (out l).loc then c.waitLines s fun l => (out l).loc
    else i.exit ((lanesOf i.joining).foldl (State.lower out) s)

/-- EXIT. The last lanes of a warp also wait for its producers (R175, R280). -/
def execExit (f : Fields) (s : State) : Outcome State Fault Refusal :=
  tiledInstr 1 0x0E f s sameOut fun s i =>
    if i.act = 0 then i.done s
    else if i.exiting = 0 then i.exit s
    else if i.act = i.w.live ∧ i.w.prods ≠ [] then i.retry s
    else
      match (Caller.warp { i with act := i.exiting } i.exiting).released s with
      | .error s => s
      | .ok s => i.exitJoined s

/-- SRET: a return; at depth 0 the end of the lead thread, a completion point that waits for its producers too (R153,
R33, R280). -/
def execSret (f : Fields) (s : State) : Outcome State Fault Refusal :=
  leadInstr 0 0x17 f s fun s i =>
    match i.c.lead.stack with
    | pc :: r => i.jump s pc fun x => { x with stack := r }
    | [] =>
      if i.c.lead.prods ≠ [] then i.retry s
      else
        match (Caller.lead i).released s with
        | .error s => s
        | .ok s => (i.commit s fun x => { x with ended := true }).checkCrew (crewKey i.core i.slot)

/-! ### The gather store (R367, R369) -/

/-- Records of a context that a cluster's gather store holds, those of warps not yet placed among them. -/
def State.gathered (s : State) (c cluster : Nat) : Nat :=
  (s.gather.filter fun r => r.key.ctx == c && r.cluster == cluster).length +
    (s.contWarps.filter fun e => e.2.key.ctx == c && e.2.cluster == cluster).foldl (fun n e => n + e.2.recs.length) 0

/-- Core cycles of the die of a cluster. -/
def State.clusterCycle (s : State) (cluster : Nat) : Nat := s.cycleOf (cluster * 16)

/-- Records of one group in a cluster's gather store, oldest first. -/
def State.groupOf (s : State) (cluster : Nat) (key : GroupKey) : List ContRec :=
  s.gather.filter fun r => r.cluster == cluster && r.key == key

/-- The oldest 32 records of a group launch a warp, to be placed. -/
def State.launchGroup (s : State) (cluster : Nat) (key : GroupKey) : State :=
  let recs := (s.groupOf cluster key).take 32
  let ids := recs.map (·.id)
  let (id, s) := s.fresh
  let cw : ContWarp := { key, cluster, recs, since := s.clusterCycle cluster, wait := .none, answers := [] }
  ({ s with gather := s.gather.filter fun r => !ids.contains r.id,
            contWarps := put s.contWarps id cw } : State).onTask key.task fun t =>
    { t with conts := t.conts + 1 - recs.length }

/-- A record enters the gather store of its cluster, which launches a warp once its group holds 32 (R367). -/
def State.enterGather (s : State) (r : ContRec) : State :=
  let s := { s with gather := s.gather ++ [{ r with since := s.clusterCycle r.cluster }] }
  if (s.groupOf r.cluster r.key).length ≥ 32 then s.launchGroup r.cluster r.key else s

/-! ### CONT (R364, R365) -/

/-- Word n of the record of a lane (R364). -/
def Iss.recWord (i : Iss) (l n : Nat) : Word := i.w.getV l (i.f.a.toNat + n)

/-- Steps 1 to 6 of R365 for a lane: the step and class of its failure. -/
def Iss.contCheck (i : Iss) (s : State) (l : Nat) : Option (Nat × Nat) :=
  let code := (i.recWord l 0).toNat
  let entry := (i.recWord l 1).toNat
  let who := s.laneWho i.core i.slot i.w l
  let e := s.entry who code
  if code ≥ 4096 then some (1, Cls.bounds)
  else if !Entry.valid e then some (2, Cls.perm)
  else if Entry.secure e != who.secure then some (3, Cls.world)
  else if Entry.space e ≠ 2 ∨ !Entry.pr e then some (4, Cls.perm)
  else if entry % 4 ≠ 0 then some (5, Cls.misalign)
  else if entry + 4 > Entry.length e then some (6, Cls.bounds)
  else none

/-- JHANDLE of a lane names no join counter. -/
def Iss.noJoin (i : Iss) (l : Nat) : Bool := i.recWord l 2 == 0xFFFFFFFF#32

/-- The checks of R365 for a lane: the place of the first failure in their order (steps 8 and 9 by their own steps), and
the outcome. -/
def Iss.contOut (i : Iss) (s : State) (l : Nat) : Nat × AccOut :=
  let jh := (i.recWord l 2).toNat
  let jo := (i.recWord l 3).toNat
  let who := s.laneWho i.core i.slot i.w l
  match i.contCheck s l with
  | some (n, cls) => (n, .fail n cls false)
  | none =>
    if i.noJoin l then (if jo ≠ 0 then (7, .fail 7 Cls.bounds false) else (0, .ok (.dev 0) false))
    else if jh ≥ 4096 then (7, .fail 7 Cls.bounds false)
    else
      match s.precheck who jh (jo : Int) joinAsk with
      | some (n, cls) => (6 + n, .fail 8 cls false)
      | none =>
        match s.place who (s.entry who jh) jo joinAsk with
        | .fail 8 cls far => (13, .fail 8 cls far)
        | .fail 9 cls far => (14, .fail 9 cls far)
        | .fail n cls far => (15, .fail n cls far)
        | .page va cause => (14, .page va cause)
        | .hostBacked p => (14, .hostBacked p)
        | o => (0, o)

/-- The outcomes that decide: those of the lanes that fail earliest, and of the lanes that do not fail. -/
def Iss.contOuts (i : Iss) (s : State) (l : Nat) : AccOut :=
  let first := minOf (((lanesOf i.act).map fun l => (i.contOut s l).1).filter fun n => n ≠ 0)
  let o := i.contOut s l
  if o.1 = 0 ∨ first = some o.1 then o.2 else .ok (.dev 0) false

/-- What the trap registers name: CODE and ENTRY for steps 1 to 6, the join counter for the others. -/
def Iss.contRef (i : Iss) (s : State) (l : Nat) : Ref :=
  if (i.contCheck s l).isSome then
    { h := (i.recWord l 0).toNat, o := ((i.recWord l 1).toNat : Int), q := joinAsk }
  else { h := (i.recWord l 2).toNat, o := ((i.recWord l 3).toNat : Int), q := joinAsk }

/-- The record of a lane enters the gather store or the overflow area, its counter raised; or it is dropped. The answer
is the status (R365). -/
def Iss.emit (i : Iss) (at_ : Nat → Loc) (s : State) (l : Nat) : Nat × State :=
  let cl := clusterOf i.core
  match s.ctx? i.w.ctx with
  | none => (2, s)
  | some x =>
    let (id, s) := s.fresh
    let r : ContRec :=
      { id, key := { ctx := i.w.ctx, task := i.w.task, code := (i.recWord l 0).toNat, entry := i.recWord l 1 },
        cluster := cl, joinH := if i.noJoin l then none else some ((i.recWord l 2).toNat, (i.recWord l 3).toNat),
        payload := (List.range 12).map fun n => i.recWord l (4 + n), since := 0 }
    let raised (s : State) : State :=
      (match at_ l with
       | .dev pa => if i.noJoin l then s else s.countJoin pa 1
       | _ => s).onTask i.w.task fun t => { t with conts := t.conts + 1 }
    if s.gathered i.w.ctx cl < x.quota then (0, (raised s).enterGather r)
    else if x.overflow.length < x.ovCap then
      (1, (raised s).onCtx i.w.ctx fun x => { x with overflow := x.overflow ++ [r] })
    else (2, s)

/-- The records of the lanes in rising order, with their statuses. -/
def Iss.emitAll (i : Iss) (at_ : Nat → Loc) : List Nat → State → List (Nat × Nat) × State
  | [], s => ([], s)
  | l :: r, s =>
    let (st, s) := i.emit at_ s l
    let (rest, s) := Iss.emitAll i at_ r s
    ((l, st) :: rest, s)

/-- CONT (R364, R365). -/
def execCont (f : Fields) (s : State) : Outcome State Fault Refusal :=
  laneInstr 11 0x00 f s fun s i => i.acting s fun c =>
    let acc := if i.act &&& (maskOf fun l => (i.contCheck s l).isSome) ≠ 0 then 1 else 8
    let outs := i.contOuts s
    let counted := (lanesOf i.act).filter fun l => !i.noJoin l
    c.follow s acc (i.contRef s) outs (fun _ => .read 4) c.released fun s =>
      if s.countersLeased counted fun l => (outs l).loc then c.waitLines s fun l => (outs l).loc else
      let (st, s) := i.emitAll (fun l => (outs l).loc) (lanesOf i.act) s
      i.write s false fun l => w64 (count st l)

/-! ### CWAIT (R370) -/

/-- What CWAIT asks of a counter. -/
def Caller.cwaitRef (c : Caller) (l : Nat) : Ref :=
  { h := c.handle l, o := c.homeOff l,
    q := { w := 4, align := 4, acc := 1, ok4 := fun e => permits 1 e && Entry.kind e == 3 } }

/-- A lane's counter reads 0. -/
def Caller.counterZero (c : Caller) (s : State) (loc : Nat → Loc) (l : Nat) : Bool :=
  match loc l with
  | .dev pa => natOf (s.mem.readN pa 4) == 0
  | x => natOf (s.loadBytes (c.who s l) x 4) == 0

/-- Lanes that wait go on watching device memory; a counter outside the part, whose changes the part does not see, is read
again. -/
def Iss.watch (i : Iss) (s : State) (c : Caller) (loc : Nat → Loc) : State :=
  let m := i.act &&& maskOf fun l => !c.counterZero s loc l
  let far := (lanesOf m).any fun l => match loc l with | .dev _ => false | _ => true
  if m = 0 then i.done s
  else if far then
    (i.block s).onWarp i.core i.slot fun w => w.onMask i.act fun l x => { x with wait := .poll (loc l), extData := [] }
  else i.await s m fun l => .cwait (match loc l with | .dev pa => pa | _ => 0)

/-- CWAIT: the lanes whose counter reads 0 go on, the others wait for it (R370). -/
def execCwait (f : Fields) (s : State) : Outcome State Fault Refusal :=
  laneInstr 11 0x01 f s fun s i => i.acting s fun c =>
    c.settle s 1 c.cwaitRef (fun _ => .read 4) c.acquired fun loc s =>
      if c.blocked s loc 4 then c.waitLines s loc
      else if s.pending.any fun p => c.lanes.any fun l =>
          c.agent l == p.agent && (match loc l with | .dev pa => p.pa / 64 == pa / 64 | _ => false) then c.retry s
      else i.watch s c loc

/-! ### Launch and return of continuations (R367, R369) -/

/-- CONTINUATION_GATHER_TIMEOUT: 2,048 cycles after its oldest record entered, a group launches whatever it holds
(R367). -/
def execContinuationGatherTimeout (cluster : Nat) (key : GroupKey) (s : State) : Outcome State Fault Refusal :=
  match minOf ((s.groupOf cluster key).map (·.since)) with
  | none => .next s
  | some t => .next (if s.runs key.ctx && decide (t + 2048 ≤ s.clusterCycle cluster) then s.launchGroup cluster key else s)

/-- OVERFLOW_RECORD_RETURN: the oldest record whose cluster has room for the context returns to its store (R369). -/
def execOverflowRecordReturn (ctx : Nat) (s : State) : Outcome State Fault Refusal :=
  match s.ctx? ctx with
  | none => .next s
  | some x =>
    match x.overflow.find? fun r => decide (s.gathered ctx r.cluster < x.quota) with
    | none => .next s
    | some r =>
      .next (if s.runs ctx then
        (s.onCtx ctx fun x => { x with overflow := x.overflow.filter fun y => y.id != r.id }).enterGather r
      else s)

end Sys2Proof.Machine
end

