-- ==== Sys2Proof/Machine/Room.lean ====
section
/-! DEFINITION. Room on a core, the tasks' needs, and the order in which a cluster's resources are offered to the virtual
devices and their work (R28 to R31, R357, R358, R360, R367, R371). -/

namespace Sys2Proof.Machine

/-! ### Room on a core (R31, R59, R176, R307) -/

/-- Slices of eight lanes of a warp that hold registers. -/
def Warp.slices (w : Warp) : Nat :=
  ((List.range 4).filter fun q => (w.live >>> (8 * q)) &&& 0xFF != 0).length

/-- Registers in use on a core, in slices: four to a warp-register. -/
def State.usedSlices (s : State) (core : Nat) : Nat :=
  (s.warps.filter fun e => e.1 / 16 == core).foldl (fun n e => n + e.2.regs * e.2.slices) 0

/-- Free warp slots of a core, lowest first: slot 15 of core 0 of a cluster is the Badger's (R28). -/
def State.freeSlots (s : State) (core : Nat) : List Nat :=
  (List.range (if core % 16 = 0 then 15 else 16)).filter fun k => (s.warp? core k).isNone

/-- Free lead-thread slots of a core, lowest first. -/
def State.freeLeads (s : State) (core : Nat) : List Nat :=
  (List.range 4).filter fun k => (s.crew? core k).isNone

/-- What a crew or a loose warp needs of a core; memory in bytes. -/
structure Need where
  leads : Nat
  warps : Nat
  /-- Registers, in slices. -/
  slices : Nat
  scr : Nat
  acc : Nat
  macros : Nat

/-- The need fits a core's totals less what its residents hold (R31). -/
def State.fits (s : State) (core : Nat) (n : Need) : Bool :=
  let crews := s.crews.filter fun e => e.1 / 4 == core
  let sum (g : Crew → Nat) : Nat := crews.foldl (fun a e => a + g e.2) 0
  decide (n.leads ≤ (s.freeLeads core).length) && decide (n.warps ≤ (s.freeSlots core).length) &&
    decide (s.usedSlices core + n.slices ≤ 16384) && decide (sum (·.scr) + n.scr ≤ 320 * 1024) &&
    decide (sum (·.acc) + n.acc ≤ 4096 * 1024) && decide (sum (·.macros) + n.macros ≤ 16)

/-- A core that a reservation keeps from new work: any but the next gang of the task that reserved it (R357). -/
def State.reservedElse (s : State) (core : Nat) (gangOf : Option Nat) : Bool :=
  (look s.clusters (clusterOf core)).any fun k => k.reserve.any fun r => gangOf != some r.1 && r.2.contains core

/-- A gang of the VD on the core is being drained, so nothing new of the VD goes there (Table 15.3). -/
def State.draining (s : State) (core vd : Nat) : Bool :=
  s.preempts.any fun p => p.option == 0 &&
    match p.unit with
    | .gang g => (look s.gangs g).any fun x => s.vdOf x.ctx == vd && x.crews.any fun k => k / 4 == core
    | .loose c k => c == core && (s.warp? c k).any fun w => s.vdOf w.ctx == vd

/-- A core that takes new work of a context, the next gang of a task or something else: its die up, its cluster granted to the
VD and of its world. -/
def State.open? (s : State) (core : Nat) (gangOf : Option Nat) (ctx : Nat) : Bool :=
  let vd := s.vdOf ctx
  !s.reservedElse core gangOf && !s.draining core vd && ((s.dies.map (·.up)).getD (dieOf core) false) &&
    (s.vd? vd).any fun v =>
      v.state == 2 && v.clusters.any (fun e => e.1 == clusterOf core) && s.worldOf core == v.config.secure

/-- A step of placement as an accessor: the dispatch engine on behalf of a task. -/
def State.dispatchWho (s : State) (agent : Agent) (ctx core : Nat) (args : Option (BitVec 256)) (answers : List Answer) : Who :=
  { agent, ctx, core := some core, slot := 0, loose := false, secure := s.worldOf core, answers, extData := [],
    extErr := [], args, waits := true }

/-! ### The task descriptor (Table 16.6) -/

def Task.d (t : Task) (off len : Nat) : Nat := descField t.desc off len
def Task.gx (t : Task) : Nat := t.d 12 2
def Task.gy (t : Task) : Nat := t.d 14 2
def Task.gz (t : Task) : Nat := t.d 16 2
def Task.gangs (t : Task) : Nat := t.gx * t.gy * t.gz
def Task.crewCount (t : Task) : Nat := t.d 18 1
def Task.warpCount (t : Task) : Nat := t.d 19 1
def Task.regs (t : Task) : Nat := t.d 20 2
def Task.scr (t : Task) : Nat := t.d 22 2 * 1024
def Task.acc (t : Task) : Nat := t.d 24 4 * 1024
def Task.macros (t : Task) : Nat := t.d 28 1
def Task.restartable (t : Task) : Bool := t.d 29 1 % 2 == 1
/-- MAXRUN in cycles (R373). -/
def Task.maxrun (t : Task) : Nat := t.d 32 4 * 2400

/-- What a crew of a descriptor needs of a core (R31). -/
def needOf (d : List Word) : Need :=
  { leads := 1, warps := descField d 19 1, slices := descField d 19 1 * descField d 20 2 * 4,
    scr := descField d 22 2 * 1024, acc := descField d 24 4 * 1024, macros := descField d 28 1 }

def Task.need (t : Task) : Need := needOf t.desc

/-- An empty core holds the need; core 0 of a cluster has 15 warp slots (R28, R31). -/
def Need.onEmpty (n : Need) (core : Nat) : Bool :=
  decide (n.leads ≤ 4) && decide (n.warps ≤ if core % 16 = 0 then 15 else 16) && decide (n.slices ≤ 16384) &&
    decide (n.scr ≤ 320 * 1024) && decide (n.acc ≤ 4096 * 1024) && decide (n.macros ≤ 16)

/-- The cores of a cluster. -/
def coresIn (cluster : Nat) : List Nat := (List.range 16).map (cluster * 16 + ·)

/-- The cores for the crews of a gang: the lowest on which a crew fits (R358). -/
def State.gangCores (s : State) (cluster : Nat) (gangOf : Option Nat) (ctx : Nat) (n : Need) (crews : Nat) : Option (List Nat) :=
  let cs := (coresIn cluster).filter fun c => s.open? c gangOf ctx && s.fits c n
  if cs.length < crews then none else some (cs.take crews)

/-! ### Work that waits -/

/-- The gang that a task places next: one discarded before it, or the next in order (R357, R373). -/
def Task.nextIx (t : Task) : Option Nat :=
  match t.again with
  | g :: _ => some g
  | [] => if t.nextGang < t.gangs then some t.nextGang else none

/-- A lane of a saved unit waits on a counter of device memory. -/
def Image.waitsOn (x : Image) (pa : Nat) : Bool :=
  x.warps.any fun (e : Nat × Warp) => (lanesOf e.2.live).any fun l => (e.2.lane l).wait == Wait.cwait pa

/-- The counters that a saved unit waits on have read 0 (R371). -/
def State.countersZero (s : State) (x : Image) : Bool :=
  x.far.isEmpty && x.counters.all fun pa => natOf (s.mem.readN pa 4) == 0 || !x.waitsOn pa

/-- The cores of a cluster that a saved unit can return to: one for each crew, or one for a continuation warp (R358). -/
def State.imageCores (s : State) (cluster : Nat) (img : Image) : Option (List Nat) :=
  match img.gang with
  | some g => (s.task? img.task).bind fun t => s.gangCores cluster none img.ctx t.need g.crews.length
  | none =>
    let slices := (img.warps.head?).elim 0 fun e => e.2.regs * e.2.slices
    ((coresIn cluster).find? fun c => s.open? c none img.ctx &&
      s.fits c { leads := 0, warps := 1, slices, scr := 0, acc := 0, macros := 0 }).map fun c => [c]

/-- A saved unit that is ready to return (R371). -/
def State.imageReady (s : State) (img : Image) : Bool := s.runs img.ctx && s.countersZero img

/-- A saved unit can return to a cluster now (R371). -/
def State.imageFits (s : State) (cluster : Nat) (img : Image) : Bool := s.imageReady img && (s.imageCores cluster img).isSome

/-- A saved gang of the task can be restored to a cluster, and goes before its new gangs (R360). -/
def State.restorable (s : State) (cluster task : Nat) : Bool :=
  s.images.any fun e => e.2.task == task && e.2.gang.isSome && s.imageFits cluster e.2

/-- The task is released, may run, and has a gang to place on a cluster (R357). -/
def State.gangDue (s : State) (cluster task : Nat) (t : Task) : Bool :=
  t.released && t.wait == Wait.none && s.runs t.ctx && !s.restorable cluster task

/-! ### Shares of the VDs (R360, R361) -/

/-- Warp-slot cycles that a VD was served on a cluster in the last 2^20 cycles: S of R360. -/
def State.service (s : State) (cluster vd : Nat) : Nat :=
  s.served.foldl (fun n x =>
    if x.cluster = cluster ∧ x.vd = vd then n + x.slots * (x.till - max x.since (s.clusterCycle cluster - 2 ^ 20)) else n) 0

/-- Floor in 1/256 and weight of a VD on a cluster (R360, R427). -/
def State.shareOf (s : State) (cluster vd : Nat) : Nat × Nat :=
  match (s.vd? vd).bind fun v => v.clusters.find? fun e => e.1 == cluster with
  | some (_, f, w) => (f, w)
  | none => (0, 1)

/-- By how much a VD stands below its floor on a cluster, times 256; negative above it. -/
def State.shortfall (s : State) (cluster vd : Nat) : Int :=
  ((s.shareOf cluster vd).1 * 255 * 2 ^ 20 : Nat) - (256 * s.service cluster vd : Nat)

/-- A cluster's resources are offered to the first VD ahead of the second: below the floor by the larger shortfall, the
others by the smaller S / w (R360). -/
def State.ahead (s : State) (cluster a b : Nat) : Bool :=
  if 0 < s.shortfall cluster a then decide (s.shortfall cluster b < s.shortfall cluster a)
  else decide (s.shortfall cluster b ≤ 0) &&
    decide (s.service cluster a * (s.shareOf cluster b).2 < s.service cluster b * (s.shareOf cluster a).2)

/-- The next gang of a task is due and fits a cluster. -/
def State.gangFits (s : State) (cluster task : Nat) (t : Task) : Bool :=
  t.nextIx.isSome && s.gangDue cluster task t && (s.gangCores cluster (some task) t.ctx t.need t.crewCount).isSome

/-- What a continuation warp needs of a core, once its header is read (R368). -/
def ContWarp.need (c : ContWarp) (h : Header) : Need :=
  { leads := 0, warps := 1, slices := (if h.regs = 0 then 64 else h.regs) * ((c.recs.length + 7) / 8), scr := 0, acc := 0,
    macros := 0 }

/-- The header of a launched warp's code object, read for its placement on a core. -/
def State.contHeader (s : State) (core : Nat) (c : ContWarp) : HdrOut :=
  s.readHeader (s.dispatchWho (.hash c.key.task) c.key.ctx core (s.argsOf c.key.task) c.answers) c.key.code false

/-- A launched warp fits some core of a cluster. -/
def State.contFits (s : State) (cluster : Nat) (c : ContWarp) : Bool :=
  (coresIn cluster).any fun core => s.open? core none c.key.ctx &&
    match s.contHeader core c with
    | .ok h => s.fits core (c.need h)
    | .bad _ => true
    | .out (.miss _ _) => true
    | .out (.page _ _) => true
    | .out (.hostBacked _) => true
    | .out _ => false

/-- A launched warp may be placed on a cluster: the one that emitted it; after a further 2,048
cycles, while none of its cores takes it, any (R367). -/
def State.contDue (s : State) (cluster : Nat) (c : ContWarp) : Bool :=
  c.wait == Wait.none && s.runs c.key.ctx &&
    (cluster == c.cluster || (decide (c.since + 2048 ≤ s.clusterCycle c.cluster) && !s.contFits c.cluster c))

/-- A gang of the VD, new or saved, is ready and cannot be placed on a cluster (R361, R371). -/
def State.gangStuck (s : State) (cluster vd : Nat) : Bool :=
  (s.tasks.any fun e => s.vdOf e.2.ctx == vd && e.2.nextIx.isSome && s.gangDue cluster e.1 e.2 &&
    (s.gangCores cluster (some e.1) e.2.ctx e.2.need e.2.crewCount).isNone) ||
  s.images.any fun e => e.2.vd == vd && e.2.gang.isSome && s.imageReady e.2 && (s.imageCores cluster e.2).isNone

/-- A continuation warp that satisfies a test, new or saved, is ready and cannot be placed on a cluster (R361, R371). -/
def State.contStuck (s : State) (cluster : Nat) (mine : Nat → Bool) : Bool :=
  (s.contWarps.any fun e => mine e.2.key.ctx && s.contDue cluster e.2 && !s.contFits cluster e.2) ||
  s.images.any fun e => mine e.2.ctx && e.2.gang.isNone && s.imageReady e.2 && (s.imageCores cluster e.2).isNone

/-- A VD has something that fits a cluster now. -/
def State.wants (s : State) (cluster vd : Nat) : Bool :=
  (s.tasks.any fun e => s.vdOf e.2.ctx == vd && s.gangFits cluster e.1 e.2) ||
    (s.images.any fun e => e.2.vd == vd && s.imageFits cluster e.2) ||
    s.contWarps.any fun e => s.vdOf e.2.key.ctx == vd && s.contDue cluster e.2 && s.contFits cluster e.2

/-- No other VD is offered a cluster's resources before that of a context (R360). -/
def State.vdTurn (s : State) (cluster ctx : Nat) : Bool :=
  !s.vds.any fun e => s.ahead cluster e.1 (s.vdOf ctx) && s.wants cluster e.1

/-- Stamp of the release of a task. -/
def State.orderOf (s : State) (task : Nat) : Nat := (s.task? task).elim 0 (·.order)

/-- No work of a task of the same VD that was released before is to be placed first (R360). -/
def State.taskTurn (s : State) (cluster task ctx : Nat) : Bool :=
  !(s.tasks.any fun e => s.vdOf e.2.ctx == s.vdOf ctx && decide (e.2.order < s.orderOf task) && s.gangFits cluster e.1 e.2) &&
    !s.images.any fun e => e.2.vd == s.vdOf ctx && e.2.gang.isSome && decide (s.orderOf e.2.task < s.orderOf task) &&
      s.imageFits cluster e.2

/-- No parked unit of the VD is to return before new work (R371). -/
def State.noneParked (s : State) (cluster ctx : Nat) : Bool :=
  !s.images.any fun e => e.2.vd == s.vdOf ctx && e.2.how == 2 && s.imageFits cluster e.2

/-- A cluster's resources are offered to a continuation warp (R360, R371). -/
def State.contTurn (s : State) (cluster : Nat) (c : ContWarp) : Bool :=
  s.vdTurn cluster c.key.ctx && s.noneParked cluster c.key.ctx

/-- A cluster's resources are offered to new gangs of a task (R360, R371). -/
def State.offered (s : State) (cluster task ctx : Nat) : Bool :=
  s.vdTurn cluster ctx && s.taskTurn cluster task ctx && s.noneParked cluster ctx

end Sys2Proof.Machine
end

