-- ==== Sys2Proof/Machine/Gang.lean ====
section
/-! DEFINITION. The placement of gangs and continuation warps, and the reservation of cores (R28 to R33, R93, R357, R358,
R360, R367, R368). -/

namespace Sys2Proof.Machine

open Host (Outcome)

/-! ### Declared tiles (R92, R93) -/

/-- The tile declarations in their records of 8 bytes: number and tile. -/
def tileDecls : Nat → List Byte → List (Nat × Tile)
  | 0, _ => []
  | n + 1, b =>
    let f (o k : Nat) : Nat := natOf ((b.drop o).take k)
    (f 0 1, { level := f 2 1, fmt := f 1 1, rows := f 4 2, cols := f 6 2, bytes := [], bad := [], single := [] }) ::
      tileDecls n (b.drop 8)

/-! ### Placing (R358) -/

/-- The task goes past its next gang. -/
def Task.placedOne (t : Task) (cycles : List Nat) : Task :=
  match t.again with
  | _ :: r => { t with again := r, waiting := cycles }
  | [] => { t with nextGang := t.nextGang + 1, waiting := cycles }

/-- Free values for every register group of a warp (R358). -/
def freeGroups : Nat → State → List (Nat × Nat) × State
  | 0, s => ([], s)
  | n + 1, s =>
    let (st, s) := s.draw
    let (r, s) := freeGroups n s
    ((n, st) :: r, s)

/-- The warps of a crew in its slots, by rank. -/
def State.placeWarps (s : State) (core crew task code lo hi : Nat) (t : Task) (entry : Word) :
    List Nat → Nat → State
  | [], _ => s
  | k :: r, rank =>
    let (free, s) := freeGroups (t.regs / 64) s
    let w := Warp.placed t.ctx task (some crew) code lo hi t.regs rank entry 0xFFFFFFFF#32 0
    State.placeWarps (s.setWarp core k { w with vfree := free }) core crew task code lo hi t entry r (rank + 1)

/-- The crews of a gang on their cores, by rank: lowest free lead-thread slot, lowest free warp slots, declared tiles
allocated. Of two declarations with one tile number the later stands (DESIGN CHOICE: R93 forbids no repeat; log 69). The
answer lists the crews' keys. -/
def State.placeCrews (s : State) (gang task code lo hi : Nat) (t : Task) (tiles : List (Nat × Tile)) :
    List Nat → Nat → List Nat × State
  | [], _ => ([], s)
  | core :: r, rank =>
    let slot := (s.freeLeads core).headD 0
    let key := crewKey core slot
    let slots := (s.freeSlots core).take t.warpCount
    let c := Crew.placed t.ctx task gang rank code lo hi slots (w32 (t.d 4 4)) t.scr t.acc t.macros
    let s := { s with crews := put s.crews key { c with tiles := tiles.foldl (fun m (e : Nat × Tile) => put m e.1 e.2) [] } }
    let s := s.placeWarps core key task code lo hi t (w32 (t.d 8 4)) slots 0
    let (ks, s) := State.placeCrews s gang task code lo hi t tiles r (rank + 1)
    (key :: ks, s)

/-- A gang of a task is placed on cores of a cluster. -/
def State.placeGang (s : State) (task cluster ix lo hi : Nat) (t : Task) (tiles : List (Nat × Tile)) (cores : List Nat) :
    State :=
  let (g, s) := s.fresh
  let (keys, s) := s.placeCrews g task t.code lo hi t tiles cores 0
  let gang : Gang :=
    { ctx := t.ctx, task, x := ix % t.gx, y := ix / t.gx % t.gy, z := ix / (t.gx * t.gy), cluster, crews := keys,
      gbars := [], since := s.clusterCycle cluster, elapsed := 0, scan := 4096, overrun := false }
  ({ s with gangs := put s.gangs g gang,
            clusters := mapS s.clusters fun _ k => { k with reserve := k.reserve.filter fun r => r.1 != task } } :
    State).onTask task fun t => t.placedOne (s.dies.map (·.cycle))

/-- The part of a code object that placement reads: header and tile declarations. -/
inductive CodeOut where
  | ok (h : Header) (tiles : List (Nat × Tile))
  | bad (cls : Nat)
  | out (o : AccOut)

/-- The read of a code object for placement (R58, R93). -/
def State.readCode (s : State) (who : Who) (code : Nat) : CodeOut :=
  match s.readHeader who code true with
  | .bad cls => .bad cls
  | .out o => .out o
  | .ok h =>
    if h.tiles = 0 then .ok h []
    else
      match s.readRange who code h.declOff (8 * h.tiles) with
      | .ok b => .ok h (tileDecls h.tiles b)
      | .error (.fail _ cls _, _) => .bad cls
      | .error (o, _) => .out o

/-- A step of the engine waits for a translation on behalf of a task. -/
def State.taskWaits (s : State) (task ctx acc hub eng core : Nat) (o : AccOut) : State :=
  match o with
  | .miss p b =>
    let (w, s) := s.requestWalk ctx p acc hub b
    s.onTask task fun t => { t with wait := .walk [w] }
  | .page va cause =>
    let (f, s) := (s.countFault ctx Cls.page).postFault (.hash task) ctx va acc cause eng core
    s.onTask task fun t => { t with wait := .park f.toList [], answers := [] }
  | .hostBacked p =>
    let (w, s) := (s.countFault ctx Cls.page).requestService ctx p acc hub
    s.onTask task fun t => { t with wait := .park [] [w], answers := [] }
  | _ => s

/-- The gang goes to its cores once its code object is read; one that no longer passes R93 stops the context. -/
def State.tryGang (s : State) (task cluster : Nat) (t : Task) (ix : Nat) (cores : List Nat) : State :=
  let core := cluster * 16
  match s.readCode (s.dispatchWho (.hash task) t.ctx core (some t.args) t.answers) t.code with
  | .ok h tiles => (s.onTask task fun t => { t with answers := [] }).placeGang task cluster ix h.codeOff
      (h.codeOff + h.codeBytes) t tiles cores
  | .bad cls => s.stop t.ctx cls t.number 0 0xFFFFFFFF#32 0 (dieOf core)
  | .out o => s.taskWaits task t.ctx 1 (hubOfDie (dieOf core)) 11 0xFFFF o

/-- GANG_PLACEMENT: the next gang of a task is placed whole on a cluster on which it fits and whose resources are offered
to it (R31, R357, R358, R360). -/
def execGangPlacement (task cluster : Nat) (s : State) : Outcome State Fault Refusal :=
  match s.task? task with
  | none => .next s
  | some t =>
    match t.nextIx with
    | none => .next s
    | some ix =>
      .next (if s.gangDue cluster task t && s.offered cluster task t.ctx then
        match s.gangCores cluster (some task) t.ctx t.need t.crewCount with
        | none => s
        | some cores => s.tryGang task cluster t ix cores
      else s)

/-- GANG_RESERVATION: a gang that has waited 65,536 cycles reserves the cores it will use, beside those that other tasks have
reserved (R357). -/
def execGangReservation (task cluster : Nat) (s : State) : Outcome State Fault Refusal :=
  match s.task? task with
  | none => .next s
  | some t =>
    let waited := t.waiting.getD (cluster / 64) 0 + 65536 ≤ s.clusterCycle cluster
    let free := s.clusters.all fun e => e.2.reserve.all fun r => r.1 != task
    let cores := (coresIn cluster).filter fun c => t.need.onEmpty c && s.open? c (some task) t.ctx
    .next (if t.nextIx.isSome ∧ s.gangDue cluster task t ∧ waited ∧ free ∧ t.crewCount ≤ cores.length then
      { s with clusters := adjust s.clusters cluster fun k =>
          { k with reserve := k.reserve ++ [(task, cores.take t.crewCount)] } }
    else s)

/-! ### Continuation warps (R367, R368) -/

/-- The warp of a group of records, at placement (R368). -/
def ContWarp.warp (c : ContWarp) (h : Header) (cycle : Nat) : Warp :=
  let n := c.recs.length
  let w := Warp.placed c.key.ctx c.key.task none c.key.code h.codeOff (h.codeOff + h.codeBytes)
    (if h.regs = 0 then 64 else h.regs) 0 c.key.entry (maskOf fun l => decide (l < n)) cycle
  w.onLanes fun l x =>
    match c.recs[l]? with
    | none => { x with pc := 0xFFFFFFFF#32 }
    | some r => { x with v := mapIx (fun k v => (k, v)) 0 r.payload, joinCtr := r.joinH }

/-- The launched warp changes. -/
def State.onContWarp (s : State) (id : Nat) (g : ContWarp → ContWarp) : State :=
  { s with contWarps := adjust s.contWarps id g }

/-- A launched warp is placed on a core, once its header is read (R368). -/
def State.placeCont (s : State) (id core : Nat) (c : ContWarp) : State :=
  let stopAs (cls : Nat) : State :=
    s.stop c.key.ctx cls (s.taskNo c.key.task) (2 ^ 12) c.key.entry 0 (dieOf core)
  match s.contHeader core c with
  | .ok h =>
    if !h.entryOk c.key.entry.toNat then stopAs Cls.illegal
    else
      match s.freeSlots core with
      | [] => s
      | k :: _ =>
        if s.fits core (c.need h) then
          ({ s with contWarps := drop s.contWarps id } : State).setWarp core k (c.warp h (s.cycleOf core))
        else s
  | .bad cls => stopAs cls
  | .out (.miss p b) =>
    let (w, s) := s.requestWalk c.key.ctx p 1 (hubOfDie (dieOf core)) b
    s.onContWarp id fun c => { c with wait := .walk [w] }
  | .out (.page va cause) =>
    let (f, s) := (s.countFault c.key.ctx Cls.page).postFault (.hash c.key.task) c.key.ctx va 1 cause 11 core
    s.onContWarp id fun c => { c with wait := .park f.toList [], answers := [] }
  | .out (.hostBacked p) =>
    let (w, s) := (s.countFault c.key.ctx Cls.page).requestService c.key.ctx p 1 (hubOfDie (dieOf core))
    s.onContWarp id fun c => { c with wait := .park [] [w], answers := [] }
  | .out _ => s

/-- CONTINUATION_PLACEMENT: on a core of the emitting cluster (R367). -/
def execContinuationPlacement (id core : Nat) (s : State) : Outcome State Fault Refusal :=
  match look s.contWarps id with
  | none => .next s
  | some c =>
    .next (if clusterOf core = c.cluster ∧ c.wait = .none ∧ s.runs c.key.ctx ∧ s.open? core none c.key.ctx ∧
              s.contTurn (clusterOf core) c then
      s.placeCont id core c else s)

/-- CONTINUATION_REMOTE_PLACEMENT: after a further 2,048 cycles in which it fitted no core of the emitting cluster, on any
cluster granted to the VD (R367). -/
def execContinuationRemotePlacement (id core : Nat) (s : State) : Outcome State Fault Refusal :=
  match look s.contWarps id with
  | none => .next s
  | some c =>
    .next (if c.since + 2048 ≤ s.clusterCycle c.cluster ∧ c.wait = .none ∧ s.runs c.key.ctx ∧
              s.contFits c.cluster c = false ∧ s.open? core none c.key.ctx ∧ s.contTurn (clusterOf core) c then
      s.placeCont id core c else s)

end Sys2Proof.Machine
end

