-- ==== Sys2Proof/Machine/Preempt.lean ====
section
/-! DEFINITION. Pre-emption: the choice of drain, save or discard, saving a unit at safe points or whole, parked units,
and restoring (R47 to R50, R72 to R75, R161, R267, R333, R353, R371 to R376). -/

namespace Sys2Proof.Machine

open Host (Outcome)

/-! ### The parts of a unit -/

/-- The gang, crews and warps of a unit of pre-emption, with their keys (R47). -/
structure Parts where
  gang : Option (Nat × Gang)
  crews : List (Nat × Crew)
  warps : List (Nat × Warp)

/-- The parts of a unit that is resident. -/
def State.parts (s : State) (u : UnitId) : Option Parts :=
  match u with
  | .gang g => (look s.gangs g).map fun x =>
      { gang := some (g, x), crews := x.crews.filterMap fun k => (look s.crews k).map fun c => (k, c),
        warps := s.warps.filter fun e => e.2.crew.any x.crews.contains }
  | .loose core slot =>
    match s.warp? core slot with
    | some w => if w.crew.isNone then some { gang := none, crews := [], warps := [(warpKey core slot, w)] } else none
    | none => none

/-- An agent belongs to the unit. -/
def Parts.owns (p : Parts) (a : Agent) : Bool :=
  match a with
  | .lane c k _ => p.warps.any fun e => e.1 == warpKey c k
  | .lead c k => p.crews.any fun e => e.1 == crewKey c k
  | .copy c k _ => p.crews.any fun e => e.1 == crewKey c k
  | _ => false

/-- A thread belongs to the unit. -/
def Parts.hasThread (p : Parts) (t : Thread) : Bool :=
  match t with
  | .warp c k => p.warps.any fun e => e.1 == warpKey c k
  | .lead c k => p.crews.any fun e => e.1 == crewKey c k

/-- Context, task and a core of the unit. -/
def Parts.ctx (p : Parts) : Nat := match p.gang with | some (_, g) => g.ctx | none => (p.warps.head?).elim 0 (·.2.ctx)
def Parts.task (p : Parts) : Nat := match p.gang with | some (_, g) => g.task | none => (p.warps.head?).elim 0 (·.2.task)
def Parts.core (p : Parts) : Nat :=
  match p.gang with | some (_, g) => g.cluster * 16 | none => (p.warps.head?).elim 0 fun e => e.1 / 16

/-- Resident cycles of the unit over all its runs: E of R373. -/
def State.residentOf (s : State) (p : Parts) : Nat :=
  match p.gang with
  | some (g, _) => s.residentGang g
  | none => (p.warps.head?).elim 0 fun e => s.resident p.core e.2

/-- Pre-emption deadline of the unit's VD in cycles: D of R373. -/
def State.deadline (s : State) (p : Parts) : Nat := ((s.vd? (s.vdOf p.ctx)).elim 200 fun v => v.config.deadline) * 2400

/-! ### Liveness marks (R72 to R75, R161) -/

/-- Everything marked, in a warp of an allocation and in a lead thread (R75, R161). -/
def fullMark (regs : Nat) : Word := w32 (2 ^ (regs / 64) - 1) ||| 0x7F000000#32
def leadFull : Word := 0x7800FFFF#32

/-- A lane whose wait is none but that a handler keeps out counts as waiting (R40). -/
def Warp.keptOut (w : Warp) (l : Nat) : Bool := w.handler != 0 && !bitOf w.handler l

/-- The lane has stopped, or waits so that it counts as stopped (R75). -/
def Warp.laneStopped (w : Warp) (l : Nat) : Bool :=
  match (w.lane l).wait with
  | .none => w.keptOut l
  | .walk _ => false
  | .ext _ => false
  | _ => true

/-- The liveness word of the instruction that a lane stands at, when that has one (R72). -/
def State.standsAt (s : State) (key : Nat) (w : Warp) (l : Nat) : Option Word :=
  match s.fetch (s.laneWho (key / 16) (key % 16) w l) w.code w.codeLo w.codeHi (w.lane l).pc.toNat with
  | .ok ws => if (ws.getD 0 0).getLsbD 2 then ws.getLast? else none
  | _ => none

/-- What a stopped lane marks: the liveness word at which it stopped, or waits, or is kept out by a handler; all where there
is none (R75). -/
def State.laneMark (s : State) (key : Nat) (w : Warp) (l : Nat) : Word :=
  (if (w.lane l).wait = Wait.none then s.standsAt key w l else (w.lane l).sp).getD (fullMark w.regs)

/-- The union of the marks of the live lanes. -/
def Warp.markBy (w : Warp) (g : Nat → Word) : Word := (lanesOf w.live).foldl (fun m l => m ||| g l) 0

/-- What the lead thread marks where it stands, and what it last marked. -/
def Lead.mark (x : Lead) : Word := if x.ended then 0 else if x.wait = Wait.none then leadFull else x.sp.getD leadFull
def Lead.lastMark (x : Lead) : Word := if x.ended then 0 else x.lastSp.getD leadFull

/-- The lead thread has stopped. -/
def Lead.stopped (x : Lead) : Bool :=
  x.ended || (match x.wait with | .none => false | .walk _ => false | .ext _ => false | _ => true)

/-- Every thread of the unit has stopped. -/
def Parts.stopped (p : Parts) : Bool :=
  (p.warps.all fun e => (lanesOf e.2.live).all e.2.laneStopped) && p.crews.all fun e => e.2.lead.stopped

/-- The crew-level marks: the lead thread's or any of its warps' (R73). -/
def Parts.crewMark (p : Parts) (lead : Lead → Word) (warp : Warp → Word) (key : Nat) (c : Crew) : Word :=
  (p.warps.filter fun e => e.2.crew == some key).foldl (fun m e => m ||| warp e.2) (lead c.lead)

/-! ### The choice (R373, R374) -/

/-- The charged bytes of a crew's tiles, ACC or not. -/
def Crew.tileBytes (c : Crew) (acc : Bool) : Nat :=
  c.tiles.foldl (fun n e =>
    if (e.2.level == 1) == acc then n + tileSize e.2.level e.2.fmt e.2.rows e.2.cols else n) 0

/-- Macros that a crew's frames hold. -/
def Crew.macrosHeld (c : Crew) : Nat := c.frames.foldl (fun n e => n + macrosOf e.2.fmt e.2.k e.2.n) 0

/-- Bytes of a warp in the save estimate (Table 15.4). -/
def Warp.estimate (w : Warp) : Nat :=
  let m := w.markBy fun l => (w.lane l).lastSp.getD (fullMark w.regs)
  1024 + 8192 * popCount (m &&& 0xFFFFFF#32) + (if bitOf m 24 then 128 else 0) + if bitOf m 25 then 128 else 0

/-- Bytes of a crew in the save estimate. -/
def Crew.estimate (c : Crew) (m : Word) : Nat :=
  1024 + c.tileBytes false + (if bitOf m 27 then c.tileBytes true else 0) + 16384 * c.macrosHeld +
    if bitOf m 28 || bitOf m 29 || bitOf m 30 then 4096 else 0

/-- B of R374. -/
def Parts.estimate (p : Parts) : Nat :=
  let mark (w : Warp) : Word := w.markBy fun l => (w.lane l).lastSp.getD (fullMark w.regs)
  p.warps.foldl (fun n e => n + e.2.estimate) 0 +
    p.crews.foldl (fun n e => n + e.2.estimate (p.crewMark Lead.lastMark mark e.1 e.2)) 0

/-- The options that meet the deadline, in the order that decides a tie, with their costs: 0 drain, 1 save, 2 discard
(Table 15.3). A continuation warp is not discarded. -/
def State.options (s : State) (p : Parts) : List (Nat × Nat) :=
  let d := s.deadline p
  let e := s.residentOf p
  let run := (s.task? p.task).elim 0 Task.maxrun
  let save := (p.estimate + 255) / 256
  (if run ≠ 0 ∧ e < run ∧ run - e ≤ d then [(0, run - e)] else []) ++ (if save ≤ d / 2 then [(1, 2 * save)] else []) ++
    (if p.gang.isSome && (s.task? p.task).any Task.restartable then [(2, e)] else [])

/-- The first option of lowest cost. -/
def cheapest : List (Nat × Nat) → Option (Nat × Nat)
  | [] => none
  | x :: r => match cheapest r with
    | none => some x
    | some y => if y.2 < x.2 then some y else some x

/-! ### Discard (R373) -/

/-- What the threads of a unit leave in the engines is gone, as by a kill: requests not accepted, guards, releases,
unperformed stores, external requests. -/
def State.forget (s : State) (p : Parts) : State :=
  ({ s with
    atoms := keep s.atoms fun _ a => a.accepted && !a.waiting && !a.retry || !p.owns (.lane a.core a.slot a.lane),
    releases := keep s.releases fun _ r => !p.owns r.agent,
    pending := s.pending.filter fun x => !p.owns x.agent,
    wbuf := s.wbuf.filter fun x => !p.owns x.agent,
    exts := keep s.exts fun _ x => !p.owns x.agent } : State).withdrawGuards fun g => p.hasThread g.thread

/-- The unit leaves its slots. -/
def State.remove (s : State) (p : Parts) : State :=
  ({ s with
    warps := keep s.warps fun k _ => !(p.warps.any fun e => e.1 == k),
    crews := keep s.crews fun k _ => !(p.crews.any fun e => e.1 == k),
    gangs := keep s.gangs fun k _ => !(p.gang.any fun e => e.1 == k) } : State).tidyLeases

/-- Entries of the unit's owned grains become unclaimed. -/
def State.disownUnit (s : State) (p : Parts) : State :=
  { s with owners := mapS s.owners fun _ e =>
      if Owner.claimed e && !Owner.parked e && !Owner.loose e && Owner.ctx e == p.ctx &&
          (p.crews.any fun k => k.1 == crewKey (Owner.core e) (Owner.slot e)) then e &&& ~~~(w64 (2 ^ 63)) else e }

/-- What releases of the unit left below DEVICE is performed, as at a stop (R140). -/
def State.settleUnit (s : State) (p : Parts) : State :=
  (s.wbuf.filter fun e => p.owns e.agent).foldl State.settleHeld s

/-- A gang is discarded, and is placed again later as a new gang. -/
def State.discardGang (s : State) (p : Parts) (g : Gang) : State :=
  ((((s.settleUnit p).forget p).disownUnit p).remove p).onTask g.task fun t =>
    { t with again := t.again ++ [g.x + t.gx * (g.y + t.gy * g.z)] }

/-- Units with work on a cluster: its gangs and its continuation warps. -/
def State.clusterUnits (s : State) (cluster : Nat) : List UnitId :=
  (s.gangs.filterMap fun e => if e.2.cluster = cluster then some (.gang e.1) else none) ++
    s.warps.filterMap fun e =>
      if e.2.crew.isNone && clusterOf (e.1 / 16) == cluster then some (.loose (e.1 / 16) (e.1 % 16)) else none

/-- A pre-emption of the unit is under way. -/
def State.preempted (s : State) (u : UnitId) : Bool := s.preempts.any fun x => x.unit == u

/-- The state once the units that are being pre-empted on a cluster have left it. -/
def State.vacated (s : State) (cluster : Nat) : State :=
  let gone := (s.clusterUnits cluster).filter s.preempted
  let s' := gone.foldl (fun t u => match s.parts u with | some p => t.remove p | none => t) s
  { s' with preempts := s'.preempts.filter fun x => !gone.contains x.unit }

/-- A VD below its floor on a cluster has work ready that cannot be placed there, even once what is being pre-empted has
left (R361). -/
def State.needy (s : State) (cluster vd : Nat) : Bool :=
  decide (0 < s.shortfall cluster vd) &&
    let t := s.vacated cluster
    t.gangStuck cluster vd || t.contStuck cluster fun c => t.vdOf c == vd

/-- The unit is the next to be pre-empted: some other VD is needy, the unit's VD stands above its floor, and furthest of
those with work left there, and of its units this one has been resident longest (R361). -/
def State.chosen (s : State) (u : UnitId) (p : Parts) : Bool :=
  let k := clusterOf p.core
  let v := s.vdOf p.ctx
  let left := (s.clusterUnits k).filterMap fun x => if s.preempted x then none else s.parts x
  decide (s.shortfall k v < 0) && !s.preempted u && (s.vds.any fun e => e.1 != v && s.needy k e.1) &&
    left.all fun q =>
      decide (s.shortfall k v ≤ s.shortfall k (s.vdOf q.ctx)) && (s.vdOf q.ctx != v || decide (s.residentOf q ≤ s.residentOf p))

/-- PREEMPTION_DECISION: for the unit chosen, the option of lowest cost among those that meet the deadline; with none, a
save that misses it (R361, R373). -/
def execPreemptionDecision (u : UnitId) (s : State) : Outcome State Fault Refusal :=
  match s.parts u with
  | none => .next s
  | some p =>
    if !s.runs p.ctx || !s.chosen u p then .next s
    else
      let start := s.cycleOf p.core
      let go (option : Nat) (missed : Bool) : State :=
        { s with preempts := s.preempts ++ [{ unit := u, option, start, missed, full := false, parked := false, die := none }] }
      match cheapest (s.options p), p.gang with
      | some (2, _), some (_, g) => .next (s.discardGang p g)
      | some (n, _), _ => .next (go n false)
      | none, _ => .next (go 1 true)

/-- The pre-emptions of a unit change. -/
def State.onPreempt (s : State) (u : UnitId) (g : Preempt → Preempt) : State :=
  { s with preempts := s.preempts.map fun p => if p.unit = u then g p else p }

/-- FULL_SAVE_TIMEOUT: no safe point in every warp within half the deadline (R49). -/
def execFullSaveTimeout (u : UnitId) (s : State) : Outcome State Fault Refusal :=
  match s.parts u, s.preempts.find? fun x => x.unit == u with
  | some p, some x =>
    .next (if x.option = 1 ∧ !x.full ∧ x.start + s.deadline p / 2 ≤ s.cycleOf p.core then
      s.onPreempt u fun x => { x with full := true } else s)
  | _, _ => .next s

/-- DRAIN_DEADLINE_EXPIRY: a drained gang that has not completed by the deadline is saved whole, and the miss stands
(R373). -/
def execDrainDeadlineExpiry (u : UnitId) (s : State) : Outcome State Fault Refusal :=
  match s.parts u, s.preempts.find? fun x => x.unit == u with
  | some p, some x =>
    .next (if x.option = 0 ∧ !x.full ∧ x.start + s.deadline p ≤ s.cycleOf p.core then
      s.onPreempt u fun x => { x with full := true, missed := true } else s)
  | _, _ => .next s

/-! ### What a save waits for -/

/-- A wait that a save lets end first. -/
def Wait.inFlight (w : Wait) : Bool := match w with | .walk _ => true | .ext _ => true | _ => false

/-- A producer that a save withdraws: it awaits a BWAIT that has had no effect (R259). -/
def State.withdrawn (s : State) (p : Producer) : Bool :=
  p.replies != 0 && (s.atoms.filter fun e => e.2.prod == some p.id).all fun e => e.2.waiting || e.2.retry

/-- A running copy of a crew is on its way to the next 4 KiB boundary of its destination (R353). -/
def State.copying (s : State) (k : Nat) (c : Crew) : Bool :=
  c.copies.any fun (x : Copy) => match s.cpRun (k / 4) (k % 4) x.ticket with | some r => !r.paused s | none => false

/-- Something of the unit completes before the save: producers, requests that have left the core, translations, leases,
releases, copies short of a boundary, a WCHECK begun (R48, R259, R273, R288, R327, R353). -/
def State.saveBusy (s : State) (p : Parts) : Bool :=
  (p.warps.any fun e => e.2.prods.any (fun x => !s.withdrawn x) || e.2.leases.any (fun l => l.granted && l.ended.isNone) ||
    (lanesOf e.2.live).any fun l => (e.2.lane l).wait.inFlight) ||
  (p.crews.any fun e => e.2.lead.prods != [] || e.2.lead.wait.inFlight || e.2.copies.any (fun c => c.wait.inFlight) ||
    s.copying e.1 e.2 || e.2.mx.any fun x => x.started && x.op == 2) ||
  (s.atoms.any fun e => p.owns (.lane e.2.core e.2.slot e.2.lane) && !(e.2.waiting || e.2.retry)) ||
  (s.guards.any fun e => p.hasThread e.2.thread && e.2.reply.isSome) ||
  (s.releases.any fun e => p.owns e.2.agent && e.2.failed.isNone) ||
  (s.exts.any fun e => p.owns e.2.agent)

/-! ### Saving (R48, R73) -/

/-- The wait of a saved thread: stopping ends, a request withdrawn is made again, an unfiled PAGE is met again. -/
def Wait.saved (w : Wait) : Wait :=
  match w with
  | .stopped => .none
  | .retry => .none
  | .poll _ => .none
  | .reply _ => .none
  | .park [] [] => .none
  | x => x

/-- Requests withdrawn from the lanes of a warp, each of which counts again when it is made again. -/
def Warp.replies (w : Warp) : Nat :=
  ((w.lanes.filterMap fun (x : Lane) => match x.wait with | .reply n => some n | _ => none).dedup).length

/-- The group of a register is marked. -/
def marked (m : Word) (r : Nat) : Bool := bitOf m (r / 64)

/-- A warp as restored under R48: what a mark leaves out reads 0. -/
def Warp.saved (w : Warp) (m : Word) (discarded : List Nat) : Warp :=
  let n := w.replies
  let w := w.prods.foldl (fun w p => w.writeback p) w
  let zero (k : Nat) : List Word := List.replicate k 0
  let lanes := w.lanes.map fun (x : Lane) =>
    { x with wait := x.wait.saved, sp := none, lastSp := none, age := 0,
             v := keep x.v fun r _ => marked m r, bad := x.bad.filter (marked m) }
  { w with
    lanes, vfree := w.vfree.filter fun g => bitOf m g.1, age := 0, instr := w.instr - w64 n,
    m := if bitOf m 24 then w.m else zero 16, j := if bitOf m 25 then w.j else zero 12,
    chain := if bitOf m 26 then w.chain else { w.chain with c := 0, o := 0 },
    leases := w.leases.filter (·.granted), veils := w.veils.filter fun v => v.done || !discarded.contains v.stamp }

/-- A lead thread as restored (R74, R161). -/
def Lead.saved (x : Lead) (m : Word) : Lead :=
  { x with wait := x.wait.saved, sp := none, lastSp := none,
           instr := match x.wait with | .reply _ => x.instr - 1 | _ => x.instr,
           k := keep x.k fun r _ => bitOf m (r / 4), bad := x.bad.filter fun r => bitOf m (r / 4) }

/-- A tile as restored: the contents of an ACC tile are kept only when marked. -/
def Tile.saved (t : Tile) (m : Word) : Tile := if t.level = 1 ∧ !bitOf m 27 then { t with bytes := [], bad := [], single := [] } else t

/-- Commands of a crew that a save without MX discards. -/
def Crew.discarded (c : Crew) (m : Word) : List Nat := if bitOf m 30 then [] else c.mx.map (·.id)

/-- The frames of a crew once its queued commands are gone: those that its macros hold (R333). -/
def Crew.framesLeft (c : Crew) : SMap Frame :=
  c.weights.map fun (e : Nat × Weights) => (e.1, { fmt := e.2.fmt, k := e.2.k, n := e.2.n, lost := e.2.lost })

/-- A crew as restored: the lead thread by its own mark, crew-level items by the crew's (R73, R333, R353). -/
def Crew.saved (c : Crew) (lead m : Word) : Crew :=
  { c with
    lead := c.lead.saved lead, tiles := mapS c.tiles fun _ t => t.saved m,
    dqBase := if bitOf m 28 then c.dqBase else c.dqBase + c.dq.length, dq := if bitOf m 28 then c.dq else [],
    copies := if bitOf m 29 then c.copies.map fun (x : Copy) => { x with wait := x.wait.saved } else [],
    mx := if bitOf m 30 then c.mx else [], frames := if bitOf m 30 then c.frames else c.framesLeft,
    veils := c.veils.filter fun v => v.done || !(c.discarded m).contains v.stamp }

/-- A warp's read position when its crew's queue is not saved. -/
def Warp.reread (w : Warp) (c : Crew) (m : Word) : Warp :=
  if bitOf m 28 then w else { w with dqRead := c.dqBase + c.dq.length }

/-- Agents without a fault identifier meet their PAGE again (R417). -/
def State.unfile (s : State) (p : Parts) : State :=
  { s with vds := mapS s.vds fun _ v => { v with waiting := v.waiting.filter fun e => !p.owns e.1 } }

/-- The grains of the unit's crews, with the crew rank of each. -/
def State.grainsOf (s : State) (p : Parts) : List (Nat × Nat) :=
  s.owners.filterMap fun e =>
    if Owner.claimed e.2 && !Owner.parked e.2 && !Owner.loose e.2 && Owner.ctx e.2 == p.ctx then
      (p.crews.find? fun k => k.1 == crewKey (Owner.core e.2) (Owner.slot e.2)).map fun k => (e.1, k.2.rank)
    else none

/-- The owner entries of grains set by rank. -/
def State.setGrains (s : State) (grains : List (Nat × Nat)) (ctx : Nat) (parked : Bool) (at_ : Nat → Nat × Nat) : State :=
  grains.foldl (fun s g =>
    let e := s.ownerOf g.1
    let (core, slot) := at_ g.2
    { s with owners := put s.owners g.1 (Owner.make true parked false core slot (ctx / 64) (ctx % 64) (Owner.moves e)) }) s

/-- The liveness words of a save: everything in a full one, otherwise what the threads marked where they stopped (R49, R73,
R75). -/
def State.warpMark (s : State) (full : Bool) (key : Nat) (w : Warp) : Word :=
  if full then fullMark w.regs else w.markBy (s.laneMark key w)

def leadMark (full : Bool) (x : Lead) : Word := if full then leadFull else x.mark

/-- The crew-level marks of a save. -/
def State.crewMarks (s : State) (p : Parts) (full : Bool) (e : Nat × Crew) : Word :=
  (p.warps.filter fun (x : Nat × Warp) => x.2.crew == some e.1).foldl (fun m (x : Nat × Warp) => m ||| s.warpMark full x.1 x.2)
    (leadMark full e.2.lead)

/-- The sections of an image: type, crew rank and warp rank, 0 where a section is of no crew or warp (Table 15.6; log 68). -/
def State.sections (s : State) (p : Parts) (full : Bool) : List (Nat × Nat × Nat) :=
  let if_ (b : Bool) (x : Nat × Nat × Nat) : List (Nat × Nat × Nat) := if b then [x] else []
  (p.crews.flatMap fun (e : Nat × Crew) =>
    let c := e.2
    let m := s.crewMarks p full e
    [(0x01, c.rank, 0)] ++ (c.tiles.filter fun t => t.2.level != 1 || bitOf m 27).map (fun _ => (0x06, c.rank, 0)) ++
      c.frames.map (fun _ => (0x07, c.rank, 0)) ++ if_ (bitOf m 28) (0x08, c.rank, 0) ++ if_ (bitOf m 29) (0x09, c.rank, 0) ++
      if_ (bitOf m 30) (0x0A, c.rank, 0) ++ [(0x0B, c.rank, 0)]) ++
  (p.warps.flatMap fun (e : Nat × Warp) =>
    let m := s.warpMark full e.1 e.2
    let r := (e.2.crew.bind fun k => look p.crews k).elim 0 fun (c : Crew) => c.rank
    [(0x02, r, e.2.rank)] ++ ((List.range (e.2.regs / 64)).filter (bitOf m)).map (fun _ => (0x03, r, e.2.rank)) ++
      if_ (bitOf m 24 || bitOf m 25) (0x04, r, e.2.rank) ++ if_ (bitOf m 26) (0x05, r, e.2.rank) ++
      [(0x0C, r, e.2.rank), (0x0D, r, e.2.rank)]) ++ [(0x0E, 0, 0)]

/-- A section: its header of 16 bytes and its contents, padded to whole lines (R376; log 68). -/
def sectionBytes (stamp : Nat) (x : Nat × Nat × Nat) : List Byte :=
  let body := Config.imageSection x.1 stamp
  bytesOf 2 x.1 ++ bytesOf 1 x.2.1 ++ bytesOf 1 x.2.2 ++ bytesOf 4 0 ++ bytesOf 8 body.length ++ body ++
    List.replicate ((64 - (16 + body.length) % 64) % 64) 0

/-- The sections of an image, each with contents of its own. -/
def imageSections : Nat → List (Nat × Nat × Nat) → List Byte
  | _, [] => []
  | n, x :: r => sectionBytes n x ++ imageSections (n + 1) r

/-- The header of an image (Table 15.5). -/
def Image.header (x : Image) (number : Nat) (time : DWord) : List Byte :=
  bytesOf 4 0x31475653 ++ bytesOf 2 1 ++ bytesOf 1 (if x.gang.isSome then 0 else 1) ++ bytesOf 1 x.how ++ bytesOf 4 number ++
    bytesOf 2 x.vd ++ bytesOf 1 (x.ctx % 64) ++ bytesOf 1 x.crews.length ++
    (match x.gang with | some g => bytesOf 2 g.x ++ bytesOf 2 g.y ++ bytesOf 2 g.z | none => bytesOf 6 0) ++ bytesOf 2 0 ++
    bytesOf 8 x.elapsed ++ bytesOf 8 time.toNat ++ bytesOf 8 x.len ++ bytesOf 16 0

/-- The image of a unit (R376). -/
def State.imageOf (s : State) (p : Parts) (u : UnitId) (how : Nat) : Image :=
  let full := how == 1
  let mark (e : Nat × Crew) : Word := s.crewMarks p full e
  let warp (e : Nat × Warp) : Nat × Warp :=
    let m := s.warpMark full e.1 e.2
    match e.2.crew.bind fun k => (p.crews.find? fun c => c.1 == k) with
    | none => (e.1, e.2.saved m [])
    | some c => (e.1, (e.2.reread c.2 (mark c)).saved m (c.2.discarded (mark c)))
  let waits : List Wait := p.warps.flatMap fun (e : Nat × Warp) => (lanesOf e.2.live).map fun l => (e.2.lane l).wait
  { vd := s.vdOf p.ctx, ctx := p.ctx, task := p.task, gang := p.gang.map (·.2),
    crews := p.crews.map fun (e : Nat × Crew) => e.2.saved (leadMark full e.2.lead) (mark e), warps := p.warps.map warp, how,
    elapsed := s.residentOf p, base := 0, len := 0,
    counters := if how = 2 then (waits.filterMap fun x => match x with | .cwait pa => some pa | _ => none).dedup else [],
    far := if how = 2 then (waits.filterMap fun x => match x with | .poll a => some a | _ => none).dedup else [],
    unit := u, wbuf := s.wbuf.filter fun x => p.owns x.agent,
    releases := (s.releases.filter fun e => p.owns e.2.agent).map (·.2),
    pending := s.pending.filter fun x => p.owns x.agent, grains := s.grainsOf p }

/-- The bytes of an image go to the VD's save area (R376). -/
def State.storeImage (s : State) (id : Nat) (img : Image) (sections : List (Nat × Nat × Nat)) : State :=
  let body := imageSections (s.stamp + 1) sections
  let img := { img with base := Config.saveArea img.vd id * 64, len := 64 + body.length }
  let s : State := { s with stamp := s.stamp + sections.length + 1, images := put s.images id img }
  s.storeFresh img.base (img.header (s.taskNo img.task) s.time ++ body)

/-- The image is written, the unit's grains are parked and its resources freed (R267, R376). -/
def State.writeImage (s : State) (p : Parts) (u : UnitId) (how : Nat) : State :=
  let img := s.imageOf p u how
  let sections := s.sections p (how == 1)
  let (id, s) := s.fresh
  let s := s.endPreempt u
  let s := s.setGrains img.grains p.ctx true fun rank => (rank, 0)
  let s := ((s.unfile p).forget p).remove p
  let s := { s with leaseQ := s.leaseQ.filter fun l => !p.hasThread (.warp l.core l.slot) }
  let s := s.storeImage id img sections
  if p.gang.isSome then s else s.disownLoose p.core p.ctx

/-- Matrix commands in progress whose queue is saved stop at the end of a row (R333). -/
def State.pauseMatrix (s : State) (p : Parts) (how : Nat) : State :=
  p.crews.foldl (fun t (e : Nat × Crew) => if bitOf (s.crewMarks p (how == 1) e) 30 then t.mxPause (e.1 / 4) (e.1 % 4) else t) s

/-- Objects whose release keeps writes of the unit below DEVICE: they are published before a save (log 17). -/
def State.heldBy (s : State) (p : Parts) : List Nat :=
  (s.wbuf.filterMap fun e => if p.owns e.agent then e.held else none).dedup

/-- A save goes as far as it can: stores are performed but for those behind a fence that has failed, held writes go out, and
the image is written once nothing of the unit is in flight. -/
def State.trySave (s : State) (p : Parts) (u : UnitId) (how : Nat) : State :=
  let s := s.performFree fun x => p.owns x.agent
  match s.heldBy p with
  | o :: os => (o :: os).foldl State.publishHeld s
  | [] =>
    if s.saveBusy p || s.pending.any (fun x => p.owns x.agent && !s.fenced x.agent) then s
    else
      let s := s.pauseMatrix p how
      match s.parts u with
      | some p => s.writeImage p u how
      | none => s

/-! ### Parked units (R371) -/

/-- A lane waits at CWAIT. -/
def Lane.atCwait (x : Lane) : Bool := match x.wait with | .cwait _ => true | .poll _ => true | _ => false

/-- The unit is parked: every live lane at CWAIT, every lead thread ended or at SWAITQ. -/
def Parts.parked (p : Parts) : Bool :=
  (p.warps.all fun e => (lanesOf e.2.live).all fun l => (e.2.lane l).atCwait) &&
    (p.crews.all fun e => e.2.lead.ended || (e.2.lead.wait == Wait.retry && e.2.lead.swaits)) &&
    p.warps.any fun e => e.2.live != 0

/-- Some continuation warp of the context, or gang of the VD, is ready and cannot be placed on the cluster. -/
def State.crowded (s : State) (cluster ctx : Nat) : Bool :=
  s.contStuck cluster (· == ctx) || s.gangStuck cluster (s.vdOf ctx)

/-- PARKED_UNIT_SAVE: a parked unit gives its resources to what it waits for (R371). -/
def execParkedUnitSave (u : UnitId) (s : State) : Outcome State Fault Refusal :=
  match s.parts u with
  | none => .next s
  | some p =>
    .next (if s.runs p.ctx && p.parked && s.crowded (clusterOf p.core) p.ctx && !s.preempted u then s.trySave p u 2
    else s)

/-! ### Restoring (R358, R376) -/

/-- How a restore renames keys: crews and warps. -/
structure Ren where
  crews : List (Nat × Nat)
  warps : List (Nat × Nat)

def Ren.crew (r : Ren) (k : Nat) : Nat := (look r.crews k).getD k
def Ren.warp (r : Ren) (k : Nat) : Nat := (look r.warps k).getD k

/-- An agent of the unit under its new keys. -/
def Ren.agent (r : Ren) (a : Agent) : Agent :=
  match a with
  | .lane c k l => let n := r.warp (warpKey c k); .lane (n / 16) (n % 16) l
  | .lead c k => let n := r.crew (crewKey c k); .lead (n / 4) (n % 4)
  | .copy c k t => let n := r.crew (crewKey c k); .copy (n / 4) (n % 4) t
  | x => x

/-- The core of an agent. -/
def agentCore (a : Agent) : Nat := match a with | .lane c _ _ => c | .lead c _ => c | .copy c _ _ => c | _ => 0

def Ren.barrier (r : Ren) (b : Barrier) : Barrier :=
  { b with arrived := b.arrived.foldl (fun m (e : Nat × Word) => put m (r.warp e.1) e.2) [] }

def Ren.tile (r : Ren) (t : Nat × Nat) : Nat × Nat := (r.crew t.1, t.2)

/-- A warp in its new slot; a join mask that is restored empty holds nobody (R48, R172). -/
def Ren.onWarp (r : Ren) (key cycle elapsed : Nat) (w : Warp) : Warp :=
  let lanes := w.lanes.map fun (x : Lane) =>
    { x with wait := match x.wait with | .waita c t o d v => .waita (r.crew c) t o d v | y => y }
  let leases := w.leases.map fun (l : Lease) => { l with core := key / 16, slot := key % 16 }
  ({ w with lanes, crew := w.crew.map r.crew, since := cycle, elapsed, leases } : Warp).checkJoins

/-- A crew in its new slot. -/
def Ren.onCrew (r : Ren) (slots : List Nat) (c : Crew) : Crew :=
  let dirty (d : (Nat × Nat) × Nat × Nat) : (Nat × Nat) × Nat × Nat := (r.tile d.1, d.2)
  { c with
    warps := slots, bars := mapS c.bars fun _ b => r.barrier b,
    mx := c.mx.map fun (x : MxCmd) => { x with tiles := x.tiles.map r.tile, dirty := x.dirty.map dirty },
    copies := c.copies.map fun (x : Copy) => { x with tiles := x.tiles.map r.tile, issuer := r.agent x.issuer },
    early := c.early.map fun (x : EarlyWrite) => { x with tile := r.tile x.tile },
    veils := c.veils.map fun (v : Veil) => { v with first := r.crew v.first } }

/-- Warp slots for the crews of an image on their new cores: old and new key of each warp. -/
def State.newWarps (s : State) (img : Image) : List (Nat × Nat) → List (Nat × Nat)
  | [] => []
  | (old, new) :: rest =>
    let mine := img.warps.filter fun e => e.2.crew == some old
    (mine.zip (s.freeSlots (new / 4))).map (fun e => (e.1.1, warpKey (new / 4) e.2)) ++ State.newWarps s img rest

/-- A buffered store into the buffers in its place in the order of issue. -/
def insertEntry (e : WEntry) : List WEntry → List WEntry
  | [] => [e]
  | x :: r => if e.id < x.id then e :: x :: r else x :: insertEntry e r

/-- The parts of the image that the engines hold return under their new keys. -/
def State.returnQueues (s : State) (img : Image) (r : Ren) : State :=
  let entry (e : WEntry) : WEntry := { e with agent := r.agent e.agent, core := agentCore (r.agent e.agent) }
  let store (p : Pending) : Pending := { p with agent := r.agent p.agent, core := agentCore (r.agent p.agent) }
  let s := { s with wbuf := img.wbuf.foldl (fun l e => insertEntry (entry e) l) s.wbuf,
                    pending := s.pending ++ img.pending.map store }
  img.releases.foldl (fun s x =>
    let (id, s) := s.fresh
    { s with releases := put s.releases id { x with agent := r.agent x.agent, core := agentCore (r.agent x.agent) } }) s

/-- A gang is restored on cores of a cluster, its crews by rank (R358). -/
def State.restoreGang (s : State) (id cluster : Nat) (img : Image) (g : Gang) (cores : List Nat) : State :=
  let keys := cores.map fun c => crewKey c ((s.freeLeads c).headD 0)
  let crewMap := g.crews.zip keys
  let r : Ren := { crews := crewMap, warps := s.newWarps img crewMap }
  let cycle := s.clusterCycle cluster
  let slotsOf (old : Nat) (c : Crew) : List Nat := mapIx (fun rank k =>
    match img.warps.find? fun e => e.2.crew == some old && e.2.rank == rank with
    | some e => r.warp e.1 % 16
    | none => k) 0 c.warps
  let crews := (crewMap.zip img.crews).foldl (fun m (e : (Nat × Nat) × Crew) =>
    put m e.1.2 (r.onCrew (slotsOf e.1.1 e.2) e.2)) s.crews
  let warps := img.warps.foldl (fun m (e : Nat × Warp) =>
    put m (r.warp e.1) (r.onWarp (r.warp e.1) cycle img.elapsed e.2)) s.warps
  let gang := { g with cluster, crews := keys, gbars := mapS g.gbars fun _ b => r.barrier b, since := cycle,
                       elapsed := img.elapsed }
  let uid := match img.unit with | .gang n => n | .loose _ _ => 0
  let s := { s with crews, warps, gangs := put s.gangs uid gang, images := drop s.images id }
  (s.returnQueues img r).setGrains img.grains img.ctx false fun rank =>
    let k := keys.getD rank 0
    (k / 4, k % 4)

/-- A continuation warp is restored on a core. -/
def State.restoreLoose (s : State) (id core : Nat) (img : Image) : State :=
  match img.warps, s.freeSlots core with
  | (old, w) :: _, k :: _ =>
    let key := warpKey core k
    let r : Ren := { crews := [], warps := [(old, key)] }
    ({ s with warps := put s.warps key (r.onWarp key (s.cycleOf core) img.elapsed w),
              images := drop s.images id } : State).returnQueues img r
  | _, _ => s

/-- A line of an image does not match its check value (R376). -/
def State.imageBad (s : State) (img : Image) : Bool :=
  (List.range (img.len / 64)).any fun n => s.lineBad (img.base + 64 * n) ((s.vd? img.vd).any fun (v : Vd) => v.config.secure)

/-- A unit is restored whole on a granted cluster where it fits; an image that does not match its check values stops the
context (R358, R376). -/
def State.restore (s : State) (id cluster : Nat) (img : Image) : State :=
  if s.imageBad img then
    ({ s with images := drop s.images id } : State).stop img.ctx Cls.dataCheck (s.taskNo img.task)
      (if img.gang.isNone then 2 ^ 12 else 0) 0xFFFFFFFF#32 0 (cluster / 64)
  else
    match img.gang, s.imageCores cluster img with
    | some g, some cores => (s.restoreGang id cluster img g cores).wakeCwait
    | none, some (core :: _) => (s.restoreLoose id core img).wakeCwait
    | _, _ => s

/-- A saved unit is offered a cluster's resources: in the order of the tasks for a gang (R360). -/
def State.imageTurn (s : State) (cluster : Nat) (x : Image) : Bool :=
  s.vdTurn cluster x.ctx && (x.gang.isNone || x.how == 2 || s.taskTurn cluster x.task x.ctx)

/-- GANG_RESTORE (R360, R376). -/
def execGangRestore (img cluster : Nat) (s : State) : Outcome State Fault Refusal :=
  match look s.images img with
  | none => .next s
  | some x => .next (if s.runs x.ctx && x.how != 2 && s.imageTurn cluster x then s.restore img cluster x else s)

/-- The counters outside the part that a saved unit waits on are read, unless a read is under way (R371). -/
def State.askSaved (s : State) (id : Nat) (x : Image) : State :=
  if s.exts.any fun e => e.2.agent == .saved id then s
  else
    let (group, s) := s.fresh
    x.far.foldl (fun s loc =>
      let (n, s) := s.fresh
      { s with exts := put s.exts n { agent := .saved id, ctx := x.ctx, loc, kind := .read 4, group } }) s

/-- PARKED_UNIT_RESTORE: once every counter that its lanes wait on has read 0 (R360, R371). -/
def execParkedUnitRestore (img cluster : Nat) (s : State) : Outcome State Fault Refusal :=
  match look s.images img with
  | none => .next s
  | some x =>
    .next (if !s.runs x.ctx || x.how != 2 then s
    else if x.far != [] then s.askSaved img x
    else if s.countersZero x && s.imageTurn cluster x then s.restore img cluster x
    else s)

end Sys2Proof.Machine
end

