-- ==== Sys2Proof/Machine/Owl.lean ====
section
/-! DEFINITION. The Owl: scans of wait timers, the diagnostic record and BARRIER_TIMEOUT (R377, R378), and the MAXRUN
overrun (R433). -/

namespace Sys2Proof.Machine

open Host (Outcome)

/-- A wait timer of a unit, as the Owl describes it (Tables 15.7, 15.8). -/
structure OwlTimer where
  wkind : Nat
  id : Nat
  /-- Crew rank; 0xFF for a GBAR and for a continuation warp. -/
  rank : Nat
  /-- CREW of the crew, for the record. -/
  slot : Nat
  expected : Nat
  arrived : Nat
  pc : Word
  start : Nat
  /-- Warp entries. -/
  entries : List (List Byte)

/-- A diagnostic warp entry (Table 15.8). -/
def owlEntry (crewRank rank core : Nat) (arrived members : Word) (w : Option Warp) : List Byte :=
  let live := w.elim 0 (·.live)
  bytesOf 1 crewRank ++ bytesOf 1 rank ++ bytesOf 2 core ++ bytesOf 4 arrived.toNat ++ bytesOf 4 (~~~live).toNat ++
    bytesOf 4 members.toNat ++
    (List.range 32).flatMap fun l =>
      bytesOf 4 (if bitOf live l then (w.elim 0xFFFFFFFF#32 fun w => (w.lane l).pc).toNat else 0xFFFFFFFF)

/-- Entries of every warp placed in a crew, completed ones included. -/
def Parts.crewEntries (p : Parts) (b : Barrier) (key : Nat) (c : Crew) : List (List Byte) :=
  (List.range c.warps.length).map fun r =>
    match p.warps.find? fun e => e.2.crew == some key && e.2.rank == r with
    | some e => owlEntry c.rank r (key / 4) ((look b.arrived e.1).getD 0) e.2.live (some e.2)
    | none => owlEntry c.rank r (key / 4) 0 0 none

/-- Live lanes of the unit's warps that satisfy a test. -/
def Parts.liveLanes (p : Parts) (q : Warp → Bool) : Nat :=
  (p.warps.filter fun e => q e.2).foldl (fun n e => n + popCount e.2.live) 0

/-- The timers of a warp's join masks. -/
def Warp.timers (w : Warp) (key rank slot : Nat) : List OwlTimer :=
  w.jtimer.map fun e =>
    let waits := maskOf fun l => bitOf w.live l && (w.lane l).atJoin e.1
    let members := w.j.getD e.1 0
    { wkind := 4, id := e.1, rank, slot, expected := popCount members, arrived := popCount waits, pc := e.2.2,
      start := e.2.1, entries := [owlEntry rank w.rank (key / 16) waits members (some w)] }

/-- The timers of a crew: BAR by id, then WAITJ by warp rank and mask. -/
def Parts.crewTimers (p : Parts) (key : Nat) (c : Crew) : List OwlTimer :=
  let bars := c.bars.map fun e =>
    { wkind := if e.2.counted then 1 else 0, id := e.1, rank := c.rank, slot := key % 4,
      expected := if e.2.counted then e.2.count else p.liveLanes fun w => w.crew == some key,
      arrived := e.2.total, pc := e.2.pc, start := e.2.start, entries := p.crewEntries e.2 key c : OwlTimer }
  bars ++ (List.range c.warps.length).flatMap fun r =>
    match p.warps.find? fun e => e.2.crew == some key && e.2.rank == r with
    | some e => e.2.timers e.1 c.rank (key % 4)
    | none => []

/-- The timers of the gang barriers. -/
def Parts.gangTimers (p : Parts) (g : Gang) : List OwlTimer :=
  g.gbars.map fun e =>
    { wkind := if e.2.counted then 3 else 2, id := e.1, rank := 0xFF, slot := 0,
      expected := if e.2.counted then e.2.count else p.liveLanes fun _ => true,
      arrived := e.2.total, pc := e.2.pc, start := e.2.start,
      entries := p.crews.flatMap fun c => p.crewEntries e.2 c.1 c.2 }

/-- Every timer of a unit in the order of R377. -/
def Parts.timers (p : Parts) : List OwlTimer :=
  match p.gang with
  | some (_, g) => (p.crews.flatMap fun c => p.crewTimers c.1 c.2) ++ p.gangTimers g
  | none => p.warps.flatMap fun e => e.2.timers e.1 0xFF 0

/-- The diagnostic record of a timer at a scan (Table 15.7). -/
def State.diagRecord (s : State) (p : Parts) (t : OwlTimer) (scan : Nat) : List Byte :=
  let n := t.entries.length
  let xyz := p.gang.elim (0xFFFF, 0xFFFF, 0xFFFF) fun g => (g.2.x, g.2.y, g.2.z)
  bytesOf 8 s.time.toNat ++ bytesOf 4 (s.taskNo p.task) ++ bytesOf 2 (s.vdOf p.ctx) ++
    bytesOf 1 ((s.ctx? p.ctx).elim 0 (·.num)) ++ bytesOf 1 t.wkind ++ bytesOf 1 t.id ++ bytesOf 1 n ++
    bytesOf 1 (clusterOf p.core) ++ bytesOf 1 t.rank ++ bytesOf 4 t.expected ++ bytesOf 4 t.arrived ++
    bytesOf 4 t.pc.toNat ++ bytesOf 8 (scan - t.start) ++ bytesOf 2 xyz.1 ++ bytesOf 2 xyz.2.1 ++ bytesOf 2 xyz.2.2 ++
    bytesOf 2 0 ++ bytesOf 4 (64 + 144 * n) ++ bytesOf 12 0 ++ t.entries.flatten

/-- The diagnostic record is written to the VD's ring of 256 KiB; the answer is its offset (R378). -/
def State.writeDiag (s : State) (vd : Nat) (b : List Byte) : Nat × State :=
  let at_ := (s.vd? vd).elim 0 (·.diagw)
  let off := if at_ + b.length > 2 ^ 18 then 0 else at_
  (off, (s.storeFresh (Config.diagPa vd + off) b).onVd vd fun v => { v with diagw := off + b.length })

/-- BARRIER_TIMEOUT: diagnostic record, KIND 0x04 record, stop (R378). -/
def State.barrierTimeout (s : State) (p : Parts) (t : OwlTimer) (scan : Nat) : State :=
  let vd := s.vdOf p.ctx
  let b := s.diagRecord p t scan
  let (off, s) := s.writeDiag vd b
  let faults := satAdd 0xFFFF ((s.ctx? p.ctx).elim 0 fun x => count x.faults Cls.barrierTimeout) 1
  let s := s.postVd vd {
    source := s.taskNo p.task, kind := 4, status := 3, faults, fclass := Cls.barrierTimeout, fpc := t.pc.toNat,
    detail := off + b.length * 2 ^ 32 }
  s.stop p.ctx Cls.barrierTimeout (s.taskNo p.task) (if p.gang.isNone then 2 ^ 12 else t.slot * 2 ^ 9) t.pc 0
    (dieOf p.core)

/-- Next scan of the unit, in resident cycles. -/
def Parts.scan (p : Parts) : Nat :=
  match p.gang with
  | some (_, g) => g.scan
  | none => (p.warps.head?).elim 4096 (·.2.scan)

/-- The unit goes to its next scan. -/
def State.scanned (s : State) (p : Parts) : State :=
  match p.gang with
  | some (k, _) => s.onGang k fun g => { g with scan := g.scan + 4096 }
  | none => p.warps.foldl (fun s (e : Nat × Warp) => s.onWarpKey e.1 fun w => { w with scan := w.scan + 4096 }) s

/-- OWL_SCAN: at a multiple of 4,096 resident cycles, the first timer that has reached the VD's limit (R377). -/
def execOwlScan (u : UnitId) (s : State) : Outcome State Fault Refusal :=
  match s.parts u with
  | none => .next s
  | some p =>
    let limit := (s.vd? (s.vdOf p.ctx)).elim (2 ^ 24) fun v => v.config.barLimit
    .next (if !s.runs p.ctx || decide (s.residentOf p < p.scan) then s
    else
      match p.timers.find? fun t => decide (t.start + limit ≤ p.scan) with
      | some t => s.barrierTimeout p t p.scan
      | none => s.scanned p)

/-- MAXRUN_OVERRUN: a unit runs past its task's MAXRUN; the detail is its resident cycles at that moment (R433). -/
def execMaxrunOverrun (u : UnitId) (s : State) : Outcome State Fault Refusal :=
  match s.parts u with
  | none => .next s
  | some p =>
    let run := (s.task? p.task).elim 0 Task.maxrun
    let past := match p.gang with
      | some (_, g) => g.overrun
      | none => (p.warps.head?).elim true (·.2.overrun)
    .next (if !s.runs p.ctx || run = 0 || past || decide (s.residentOf p ≤ run) then s
    else
      let s := match p.gang with
        | some (k, _) => s.onGang k fun g => { g with overrun := true }
        | none => p.warps.foldl (fun s (e : Nat × Warp) => s.onWarpKey e.1 fun w => { w with overrun := true }) s
      s.postVd (s.vdOf p.ctx) {
        source := s.taskNo p.task, kind := 7, status := 3, fclass := 1, fpc := clusterOf p.core,
        detail := run })

end Sys2Proof.Machine
end

