-- ==== Sys2Proof/Machine/Hub.lean ====
section
/-! DEFINITION. Accesses of the engines of the hubs: ranges read and written under steps 1 to 9 of Table 9.7, page by
page, with the line check of what is read (R380, R382, R393, R397, R399, R437), and what keeps them waiting (R416). -/

namespace Sys2Proof.Machine

/-! ### READY (R22 to R24) -/

/-- READY as the part reports it: never while no compute die is admitted (R24). -/
def State.ready (s : State) : Bool := s.pkg.ready && s.dies.any (·.up)

/-- No compute die is admitted any more. -/
def State.dieless (s : State) : Bool := s.pkg.ready && !s.dies.any (·.up)

/-- STAGE: 0x04 while no die is admitted (R24). -/
def State.stage (s : State) : Nat := if s.dieless then 4 else s.pkg.stage

/-- The failures that INFO_READ lists: while no die is admitted, one of code 0x04 for each (R24). -/
def State.failures (s : State) : List (Nat × Nat × Nat) :=
  if s.dieless then (s.pkg.fails ++ (List.range 4).map fun d => (4, d, 0)).dedup else s.pkg.fails

/-- FAILCODE: the lowest code (R23, R24). -/
def State.failcode (s : State) : Nat := if s.dieless then (minOf (s.failures.map (·.1))).getD 0 else s.pkg.failcode

/-- What keeps an access of a hub engine from being made. -/
inductive Hitch where
  | fail (cls : Nat)
  /-- It waits for a translation, a page, the host or a peer. -/
  | wait (o : AccOut) (acc : Nat) (kind : ExtKind)
  /-- A warp holds one of its lines under a lease (R286). -/
  | lease
  deriving DecidableEq, Repr

/-- A run of a range that lies in one page: offset, length, outcome of its checks. -/
structure Run where
  off : Nat
  len : Nat
  out : AccOut
  deriving DecidableEq, Repr

/-- The runs of a range that begins at the offsets listed and ends at `stop`. -/
def State.runsAt (s : State) (who : Who) (e : BitVec 256) (stop : Nat) (q : Ask) : List Nat → List Run
  | [] => []
  | o :: r =>
    let n := r.headD stop - o
    { off := o, len := n, out := s.place who e o { q with w := n } } :: State.runsAt s who e stop q r

/-- The device run of a range lies on a line that a warp holds under a lease. -/
def State.runLeased (s : State) (r : Run) : Bool :=
  match r.out with
  | .ok (.dev pa) _ => (List.range ((pa + r.len + 63) / 64 - pa / 64)).any fun i => s.leased (pa / 64 + i)
  | _ => false

/-- The runs of a range once every check of the range has passed (Table 9.7). -/
def State.reachRange (s : State) (who : Who) (h o len : Nat) (q : Ask) (kind : Nat → Nat → ExtKind) :
    Except Hitch (List Run) :=
  match s.precheck who h (o : Int) { q with w := len } with
  | some (_, cls) => .error (.fail cls)
  | none =>
    if len = 0 then .ok []
    else
      let e := s.entry who h
      let rs := s.runsAt who e (o + len) q (pieces (Entry.base e) o len)
      match AccOut.decide (rs.map (·.out)) with
      | .fail _ cls _ => .error (.fail cls)
      | .ok _ _ => if rs.any s.runLeased then .error .lease else .ok rs
      | x =>
        let r := (rs.find? fun r => r.out == x).getD { off := o, len, out := x }
        .error (.wait x q.acc (kind r.off r.len))

/-- The bytes of a run. -/
def State.runBytes (s : State) (who : Who) (r : Run) : Except Hitch (List Byte) :=
  match r.out with
  | .ok (.dev pa) sec =>
    match s.linesBad pa r.len sec with
    | some o => .error (.fail o.cls)
    | none => .ok (s.seeN who.seat who.agent pa r.len)
  | .ok loc _ =>
    match who.extData.find? fun d => d.1 == loc && decide (r.len ≤ d.2.length) with
    | some d => .ok (d.2.take r.len)
    | none => .error (.wait (.ext loc) 1 (.read r.len))
  | _ => .ok []

/-- The bytes of several runs. -/
def State.runsBytes (s : State) (who : Who) : List Run → Except Hitch (List Byte)
  | [] => .ok []
  | r :: rs => do
    let b ← s.runBytes who r
    let bs ← State.runsBytes s who rs
    .ok (b ++ bs)

/-- A range read by a hub engine. -/
def State.hubRead (s : State) (who : Who) (h o len align : Nat) (ok4 : BitVec 256 → Bool) : Except Hitch (List Byte) := do
  let rs ← s.reachRange who h o len { w := len, align, acc := 1, ok4 } fun _ n => .read n
  s.runsBytes who rs

/-- A run written. What goes to a peer is there already. -/
def State.putRun (s : State) (o : Nat) (bs : List Byte) (r : Run) : State :=
  let part := (bs.drop (r.off - o)).take r.len
  match r.out with
  | .ok (.dev pa) _ => s.storeHub pa part
  | .ok (.host pasid a) _ => s.emit (.hostWrite pasid a part)
  | _ => s

/-- The runs of a range that a hub engine writes. -/
def State.writeRuns (s : State) (who : Who) (h o align : Nat) (bs : List Byte) : Except Hitch (List Run) :=
  s.reachRange who h o bs.length { w := bs.length, align, acc := 2, ok4 := permits 2 } fun a n =>
    .write ((bs.drop (a - o)).take n)

/-- A range written by a hub engine, once all of it may be (R382). -/
def State.hubWrite (s : State) (who : Who) (h o align : Nat) (bs : List Byte) : Except Hitch State := do
  let rs ← s.writeRuns who h o align bs
  .ok (rs.foldl (fun s r => s.putRun o bs r) s)

/-- A line of device memory that a run holds whole. -/
def Run.fills (r : Run) (l : Nat) : Bool :=
  match r.out with
  | .ok (.dev pa) _ => decide (pa ≤ l * 64 ∧ l * 64 + 64 ≤ pa + r.len)
  | _ => false

/-- A range written by data that comes in over a link: the lines that it fills whole take fresh check values (R453). -/
def State.linkWrite (s : State) (who : Who) (h o align : Nat) (bs : List Byte) : Except Hitch State := do
  let rs ← s.writeRuns who h o align bs
  let t ← s.hubWrite who h o align bs
  .ok { t with syndrome := keep t.syndrome fun l _ => !rs.any (·.fills l) }

/-- A request to the host or a peer leaves for an agent, which waits for its answer. -/
def State.askFor (s : State) (agent : Agent) (ctx : Nat) (loc : Loc) (kind : ExtKind) : Wait × State :=
  let (group, s) := s.fresh
  let (id, s) := s.fresh
  (.ext group, { s with exts := put s.exts id { agent, ctx, loc, kind, group } })

/-- What an agent of a hub waits for after a hitch that is no failure, with the state in which it is asked for; `drop`
says that earlier answers are forgotten. -/
def State.await (s : State) (agent : Agent) (ctx hub eng : Nat) (x : Hitch) : Option (Wait × Bool × State) :=
  match x with
  | .wait (.miss p b) acc _ =>
    let (id, s) := s.requestWalk ctx p acc hub b
    some (.walk [id], false, s)
  | .wait (.page va cause) acc _ =>
    let (f, s) := (s.countFault ctx Cls.page).postFault agent ctx va acc cause eng 0xFFFF
    some (.park f.toList [], true, s)
  | .wait (.hostBacked p) acc _ =>
    let (id, s) := (s.countFault ctx Cls.page).requestService ctx p acc hub
    some (.park [] [id], true, s)
  | .wait (.ext loc) _ kind =>
    let (w, s) := s.askFor agent ctx loc kind
    some (w, false, s)
  | _ => none

end Sys2Proof.Machine
end

