-- ==== Sys2Proof/Machine/Pages.lean ====
section
/-! DEFINITION. The translation unit's events: walks, fault records and their answers, host-backed pages, invalidations,
and the host's ATS and PRI (R405 to R420, R437). -/

namespace Sys2Proof.Machine

open Host (Outcome)

/-! ### Walks (R409, R411) -/

/-- A walk leaves. -/
def State.dropWalk (s : State) (id : Nat) : State := { s with walks := drop s.walks id }

/-- PAGE_WALK_COMPLETE: the translation is cached, unless an entry it read was invalidated meanwhile, and those waiting
go on; or they learn how it failed (R409, R411, R413). -/
def execPageWalkComplete (id : Nat) (s : State) : Outcome State Fault Refusal :=
  match look s.walks id with
  | none => .next s
  | some w =>
    let ans (out : TrFail) : Option Answer := some { ctx := w.ctx, page := w.page, acc := w.acc, host := false, out }
    .next (if w.host ∨ w.phase ≠ 0 then s
      else
        match s.walkTables w.ctx w.page w.acc with
        | .ok t =>
          let e : TlbEntry := { ctx := w.ctx, page := w.page, host := false, frame := t.frame, secure := t.secure,
                                rights := t.rights1 &&& t.rights2 }
          let s := s.dropWalk id
          (if w.stale then s else s.tlbFill e).wakeWalk id none
        | .error .hostBacked =>
          ({ s with walks := put s.walks id { w with phase := 2 } } : State).wakeWalk id (ans .hostBacked)
        | .error f => (s.dropWalk id).wakeWalk id (ans f))

/-! ### The fault queue (R414, R415) -/

/-- A fault that waited for room takes effect: those of its agent that are parked with it wait for its identifier. -/
def State.namePark (s : State) (a : Agent) (key : Nat) : State :=
  let name (w : Wait) : Wait := match w with | .park fs hs => .park (fs ++ [key]) hs | x => x
  match a with
  | .lane core slot l =>
    match s.warp? core slot with
    | none => s
    | some w =>
      let old := (w.lane l).wait
      s.setWarp core slot (w.onLanes fun _ x => if x.wait = old then { x with wait := name x.wait } else x)
  | .lead core slot => s.onLead core slot fun x => { x with wait := name x.wait }
  | .copy core slot ticket => s.onCrew core slot fun c =>
      { c with copies := c.copies.map fun x => if x.ticket = ticket then { x with wait := name x.wait } else x }
  | .queue q => s.onQi q fun x => { x with wait := name x.wait, rwait := name x.rwait }
  | .hash t =>
    let mark (_ : Nat) (x : ContWarp) : ContWarp := if x.key.task = t then { x with wait := name x.wait } else x
    { s.onTask t fun x => { x with wait := name x.wait } with contWarps := mapS s.contWarps mark }
  | .release id => { s with releases := adjust s.releases id fun x => { x with wait := name x.wait } }
  | .control vd => s.onVd vd fun v => { v with invals := v.invals.map fun x => { x with wait := name x.wait } }
  | .inbound id => { s with inbound := adjust s.inbound id fun x => { x with wait := name x.wait } }
  | .atom _ => s
  | .saved _ => s

/-- FAULT_RECORD_DEFERRED_WRITE: the oldest fault that waits writes its record, or merges, once there is room (R414). -/
def execFaultRecordDeferredWrite (vd : Nat) (s : State) : Outcome State Fault Refusal :=
  match s.vd? vd with
  | none => .next s
  | some v =>
    match v.waiting with
    | [] => .next s
    | (a, f) :: r =>
      let merges := v.fids.any fun (e : Nat × Fid) => e.2.ctx == f.ctx && e.2.page == f.page
      .next (if merges ∨ ¬ (v.fids.length ≥ 1024 ∨ v.fqFull) then
        match (s.onVd vd fun v => { v with waiting := r }).postFault a f.ctx f.va f.access f.cause f.eng f.core with
        | (some key, s) => s.namePark a key
        | (none, s) => s
      else s)

/-- FRESP: an open fault is answered, and every unit that waits on it is replayed or raises PAGE_FATAL (R415). -/
def execFresp (vd : Nat) (v : Word) (s : State) : Outcome State Fault Refusal :=
  let id := bits v.toNat 23 0
  match (s.vd? vd).bind fun x => look x.fids id with
  | none => .next s
  | some f =>
    .next (if bits v.toNat 30 24 ≠ 0 then s
      else (s.onVd vd fun x => { x with fids := drop x.fids id }).wakePark (some (fidKey vd id)) none f.ctx f.page false
        (bitOf v 31))

/-- FQRPTR_WRITE (R414). -/
def execFqrptrWrite (vd : Nat) (v : Word) (s : State) : Outcome State Fault Refusal :=
  .next (s.onVd vd fun x => if v.toNat < 2 ^ x.config.fqLog2 then { x with fqr := v.toNat } else x)

/-- STOPPED of a queue is cleared (R382). -/
def State.restartQueue (s : State) (q : Nat) : State := s.onQi q fun x => { x with stopped := false }

/-- QRESTART: as QI_RESTART, for an interface of the VD (R437). -/
def execQrestart (vd : Nat) (v : Word) (s : State) : Outcome State Fault Refusal :=
  let q := bits v.toNat 11 0
  .next (if (s.qi? q).any fun (x : Qi) => x.bound && x.vd == vd then s.restartQueue q else s)

/-! ### Invalidation (R412, R413, R437) -/

/-- Translations dropped, and the walks that may have read a changed entry marked. -/
def State.invalidate (s : State) (hit : TlbEntry → Bool) (walks : Walk → Bool) : State :=
  { s with tlb := s.tlb.filter fun e => !hit e,
           walks := mapS s.walks fun _ w => if walks w then { w with stale := true } else w }

/-- Every access of a context that used a translation is performed, or sent (R413). -/
def State.quiet (s : State) (c : Nat) : Bool :=
  !(s.pending.any fun (p : Pending) => p.ctx == c) && !(s.exts.any fun (e : Nat × Ext) => e.2.ctx == c) &&
    !(s.atoms.any fun (e : Nat × AtomReq) => e.2.ctx == c && e.2.accepted && e.2.reply.isNone && !e.2.waiting) &&
    !s.leaseHeld c

/-- INVSUB: a descriptor is submitted through a handle that can hold it, or ignored (R437). -/
def execInvsub (vd : Nat) (v : DWord) (s : State) : Outcome State Fault Refusal :=
  let c := ctxKey vd (bits v.toNat 63 58)
  let h := bits v.toNat 57 46
  let off := bits v.toNat 45 0
  match s.ctx? c with
  | none => .next s
  | some x =>
    let e := (look x.handles h).getD 0
    let ok := Entry.valid e && (Entry.space e == 0 || Entry.space e == 4) && Entry.kind e == 3 && Entry.pr e &&
      Entry.pw e && off % 32 == 0 && decide (off + 32 ≤ Entry.length e)
    let i : Inval := { ctx := c, handle := h, off, wait := .none, answers := [], extData := [], extErr := [] }
    .next (if ok then s.onVd vd fun y => { y with invals := y.invals ++ [i] } else s)

/-- The tenant controller at an invalidation, as an accessor. -/
def State.controlWho (s : State) (vd : Nat) (x : Inval) : Who :=
  { agent := .control vd, ctx := x.ctx, core := none, slot := 0, loose := false,
    secure := (s.vd? vd).any fun v => v.config.secure, answers := x.answers, extData := x.extData, extErr := x.extErr,
    args := none, waits := false }

/-- The context of a VD with a PASID. -/
def State.ctxOfPasid (s : State) (vd pasid : Nat) : Option Nat :=
  (s.ctxs.find? fun (e : Nat × Ctx) => e.2.vd == vd && e.2.pasid == pasid).map (·.1)

/-- What a descriptor asks: the context and the range of pages, all of them for TYPE 1; or it is refused (Table 17.4). -/
def State.invalOf (s : State) (vd : Nat) (b : List Byte) : Option (Nat × Option (Nat × Nat)) :=
  let f (o n : Nat) : Nat := natOf ((b.drop o).take n)
  match s.ctxOfPasid vd (f 4 4) with
  | none => none
  | some c =>
    if f 1 3 ≠ 0 ∨ f 24 4 ≠ 0 then none
    else if f 0 1 = 1 then some (c, none)
    else if f 0 1 = 0 ∧ f 8 8 % 4096 = 0 ∧ 1 ≤ f 16 8 ∧ f 16 8 ≤ 2 ^ 36 then some (c, some (f 8 8 / 4096, f 16 8))
    else none

/-- Stage-1 translations of a context for a range of pages, or all of them, dropped. -/
def State.invalidateCtx (s : State) (c : Nat) (range : Option (Nat × Nat)) : State :=
  let in_ (page : Nat) : Bool := range.all fun r => decide (r.1 ≤ page ∧ page < r.1 + r.2)
  s.invalidate (fun e => e.ctx == c && !e.host && in_ e.page) fun w => w.ctx == c && !w.host && in_ w.page

/-- The oldest invalidation of a VD changes. -/
def State.onInval (s : State) (vd : Nat) (g : Inval → Inval) : State :=
  s.onVd vd fun v => { v with invals := match v.invals with | x :: r => g x :: r | [] => [] }

/-- The oldest invalidation of a VD leaves. -/
def State.endInval (s : State) (vd : Nat) : State := s.onVd vd fun v => { v with invals := v.invals.drop 1 }

/-- The invalidation waits for what holds it up. -/
def State.invalWaits (s : State) (vd : Nat) (c : Nat) (h : Hitch) : State :=
  match s.await (.control vd) c 0 0x10 h with
  | none => s
  | some (wait, drop, s) => s.onInval vd fun x => { x with wait, answers := if drop then [] else x.answers }

/-- DONE is written for the oldest invalidation, as a release; a write that fails is lost. -/
def State.writeDone (s : State) (vd : Nat) (x : Inval) (value : Nat) : State :=
  match s.hubWrite (s.controlWho vd x) x.handle (x.off + 28) 4 (bytesOf 4 value) with
  | .ok t => t.endInval vd
  | .error (.fail _) => s.endInval vd
  | .error h => s.invalWaits vd x.ctx h

/-- INVALIDATION_COMPLETE: the oldest descriptor of a VD has taken effect, and DONE is written (R412, R413); or the
invalidation of CTX_SETROOT is complete (R423). -/
def execInvalidationComplete (vd : Nat) (s : State) : Outcome State Fault Refusal :=
  let s : State := match s.mb.wait with
    | some (.inval c) => if s.vdOf c = vd ∧ s.quiet c then s.mbDone 0 else s
    | _ => s
  match (s.vd? vd).bind fun v => v.invals.head? with
  | none => .next s
  | some x =>
    .next (if x.wait ≠ .none then s
      else
        match s.hubRead (s.controlWho vd x) x.handle x.off 32 32 fun e => Entry.pr e && Entry.pw e with
        | .error (.fail _) => s.endInval vd
        | .error h => s.invalWaits vd x.ctx h
        | .ok b =>
          match s.invalOf vd b with
          | none => s.writeDone vd x 2
          | some (c, range) =>
            let s := (s.invalidateCtx c range).performFree fun p => p.ctx == c
            if s.quiet c then s.writeDone vd x 1 else s)

/-! ### Host-backed pages (R418) -/

/-- The stage-2 entry at which the walk of an intermediate address ends: level, address of the entry, entry. -/
def leaf2 (m : Memory) : List Nat → Nat → Nat → Option (Nat × Nat × Nat)
  | [], _, _ => none
  | level :: r, table, ipa =>
    let at_ := table + 8 * (ipa / 2 ^ (39 - 9 * level) % 512)
    let e := natOf (m.readN at_ 8)
    if bits e 0 0 = 1 ∧ bits e 1 1 = 0 then leaf2 m r (bits e 51 12 * 4096) ipa else some (level, at_, e)

/-- The intermediate addresses that the walk of a virtual address translates, in order. -/
def visited (m : Memory) (hbSlots root2 : Nat) : List Nat → Nat → Nat → List Nat
  | [], _, _ => []
  | level :: r, table, va =>
    let shift := 39 - 9 * level
    let ipa := table + 8 * (va / 2 ^ shift % 512)
    match walk2 m hbSlots [0, 1, 2, 3] root2 ipa with
    | .error _ => [ipa]
    | .ok t =>
      let e := entryAt m (t.frame * 4096) (ipa % 4096 / 8)
      ipa :: (if bits e 0 0 = 0 then []
        else if bits e 1 1 = 1 then [bits e 47 12 * 4096 + va % 2 ^ shift]
        else visited m hbSlots root2 r (bits e 47 12 * 4096) va)

/-- The present stage-2 leaves of a VD: device address, size, entry. -/
def leaves2 (m : Memory) : List Nat → Nat → List (Nat × Nat × Nat)
  | [], _ => []
  | level :: r, table =>
    (List.range 512).flatMap fun ix =>
      let e := entryAt m table ix
      if bits e 0 0 = 0 then []
      else if bits e 1 1 = 1 then [(bits e 51 12 * 4096, 2 ^ (39 - 9 * level), e)]
      else leaves2 m r (bits e 51 12 * 4096)

/-- The host-backed leaf that a walk of a context meets, by an address it maps. -/
def State.hbLeaf (s : State) (vd : Nat) (v : Vd) (c page : Nat) : Option Nat :=
  match (s.ctx? c).bind (·.root) with
  | none => none
  | some root =>
    (visited s.mem v.config.hbSlots (Config.stage2Root vd) [0, 1, 2, 3] root (page * 4096)).find? fun ipa =>
      match walk2 s.mem v.config.hbSlots [0, 1, 2, 3] (Config.stage2Root vd) ipa with
      | .error .hostBacked => true
      | _ => false

/-- Bytes of device memory that some access not performed yet uses. -/
def State.regionBusy (s : State) (lo n : Nat) : Bool :=
  s.pending.any (fun (p : Pending) => decide (lo ≤ p.pa ∧ p.pa < lo + n)) ||
    s.atoms.any (fun (e : Nat × AtomReq) => e.2.accepted && e.2.reply.isNone && !e.2.waiting &&
      match e.2.place with | .mem (.dev pa) => decide (lo ≤ pa ∧ pa < lo + n) | _ => false) ||
    s.warps.any fun (e : Nat × Warp) => e.2.leases.any fun x => s.holds x && decide (lo / 64 ≤ x.line ∧ x.line * 64 < lo + n)

/-- A leaf that may be a victim: present, host-backed, of the VD, and not in use. -/
def State.victimOk (s : State) (vd ipa : Nat) : Bool :=
  match leaf2 s.mem [0, 1, 2, 3] (Config.stage2Root vd) ipa with
  | some (level, _, e) => bits e 0 0 == 1 && bits e 6 6 == 1 &&
      !s.regionBusy (bits e 51 12 * 4096) (2 ^ (39 - 9 * level))
  | none => false

/-- The first backing slot of a leaf of a VD that is present. -/
def Vd.slotOf (v : Vd) (vd page run : Nat) : Nat :=
  match look v.slots page with
  | some n => n
  | none =>
    let n := Config.backingSlot vd page / run * run
    if n + run ≤ v.config.hbSlots then n else 0

/-- ADDR of a stage-2 entry replaced, and its V (Table 17.2). -/
def setEntry (e addr : Nat) (present : Bool) : Nat :=
  e - bits e 51 12 * 4096 + addr % 2 ^ 40 * 4096 - bits e 0 0 + if present then 1 else 0

/-- Device memory goes to host memory, but for lines that do not match their check values, which are not sent (R454). -/
def State.sendOut (s : State) (to_ lo size : Nat) : State :=
  let bad (l : Nat) : Bool := (look s.syndrome l).isSome
  let lines := (List.range (size / 64)).filter fun n => bad (lo / 64 + n)
  if lines = [] then s.emit (.hostWrite 0 to_ (s.mem.readN lo size))
  else ((List.range (size / 64)).filter fun n => !bad (lo / 64 + n)).foldl (fun s n =>
    s.emit (.hostWrite 0 (to_ + 64 * n) (s.mem.readN (lo + 64 * n) 64))) s

/-- A victim is invalidated, copied to its slots unless its W is 0, and marked absent (R418). -/
def State.evict (s : State) (vd ipa : Nat) : State :=
  match leaf2 s.mem [0, 1, 2, 3] (Config.stage2Root vd) ipa, s.vd? vd with
  | some (level, at_, e), some v =>
    let size := 2 ^ (39 - 9 * level)
    let lo := bits e 51 12 * 4096
    let slot := v.slotOf vd (ipa / size * size / 4096) (size / 4096)
    let s := s.invalidate (fun t => s.vdOf t.ctx == vd && !t.host && decide (lo ≤ t.frame * 4096 ∧ t.frame * 4096 < lo + size))
      fun w => s.vdOf w.ctx == vd && !w.host
    let s := if bits e 3 3 = 1 then s.sendOut (v.config.hback + slot * 4096) lo size else s
    (s.unhold lo size).store at_ (bytesOf 8 (setEntry e slot false))
  | _, _ => s

/-- Some granule of a range is of a channel that is mapped out, and so withdrawn from use (R9). -/
def State.mappedOut (s : State) (lo size : Nat) : Bool :=
  !s.pkg.chanOut.isEmpty && (List.range (size / 4096)).any fun n => s.pkg.chanOut.contains (Config.channelOf (lo / 4096 + n))

/-- The leaves of a stage-2 table, present or host-backed: address of the entry, level, entry. -/
def leafEntries (m : Memory) : List Nat → Nat → List (Nat × Nat × Nat)
  | [], _ => []
  | level :: r, table =>
    (List.range 512).flatMap fun ix =>
      let e := entryAt m table ix
      if bits e 0 0 = 1 ∧ bits e 1 1 = 0 then leafEntries m r (bits e 51 12 * 4096)
      else if bits e 0 0 = 1 ∨ bits e 6 6 = 1 then [(table + 8 * ix, level, e)]
      else []

/-- Device memory that a configuration grants, in bytes: four times as much may be mapped host-backed (R418). -/
def VdConfig.hbm (c : VdConfig) : Nat := (c.grants.filter fun g => g.type == 3).foldl (fun n g => n + g.amount * 2 ^ 30) 0

/-- The stage-2 tables of a VD as the tenant controller sets them: withdrawn granules are not mapped, host-backed leaves
are within the limit of R418, and SEC is set for pages of secure VDs only (R9, R418, R438). -/
def State.tenantTables (s : State) (vd : Nat) (c : VdConfig) : State :=
  ((leafEntries s.mem [0, 1, 2, 3] (Config.stage2Root vd)).foldl (fun (r : State × Nat) l =>
    let size := 2 ^ (39 - 9 * l.2.1)
    let e := l.2.2
    let used := r.2 + if bits e 6 6 = 1 then size else 0
    if (bits e 0 0 = 1 ∧ r.1.mappedOut (bits e 51 12 * 4096) size) ∨ 4 * c.hbm < used then (r.1.store l.1 (bytesOf 8 0), r.2)
    else (if bits e 5 5 = 1 ∧ !c.secure then r.1.store l.1 (bytesOf 8 (e - 32)) else r.1, used)) (s, 0)).1

/-- The region is aligned, lies in the VD's pages, holds no withdrawn granule, and no present leaf uses it (R9, R418). -/
def State.regionFree (s : State) (vd region size : Nat) : Bool :=
  decide (region % size = 0) && !s.mappedOut region size &&
    (Config.vdMemory vd).any (fun g => decide (g.1 ≤ region ∧ region + size ≤ g.1 + g.2)) &&
    !((leaves2 s.mem [0, 1, 2, 3] (Config.stage2Root vd)).any fun l => decide (l.1 < region + size ∧ region < l.1 + l.2.1))

/-- No region of a size could be freed, even with every host-backed leaf evicted (R418). -/
def State.regionless (s : State) (vd size : Nat) : Bool :=
  let pinned := (leaves2 s.mem [0, 1, 2, 3] (Config.stage2Root vd)).filter fun l => bits l.2.2 6 6 == 0
  (Config.vdMemory vd).all fun g =>
    (List.range (g.2 / size + 1)).all fun n =>
      let a := (g.1 + size - 1) / size * size + n * size
      decide (g.1 + g.2 < a + size) || s.mappedOut a size || pinned.any fun l => decide (l.1 < a + size ∧ a < l.1 + l.2.1)

/-- The service of a walk ends: the units that wait are replayed, or raise PAGE_FATAL. -/
def State.serviced (s : State) (id : Nat) (w : Walk) (fatal : Bool) : State :=
  (s.dropWalk id).wakePark none (some id) w.ctx w.page false fatal

/-- HB_PAGE_SERVICE_COMPLETE: the tenant controller has evicted victims, fetched the faulting leaf's bytes from the
backing store into a free region, and set its entry; or no region can be freed (R418, R443). -/
def execHbPageServiceComplete (id : Nat) (victims : List Nat) (region : Option Nat) (data : List Byte) (s : State) :
    Outcome State Fault Refusal :=
  match look s.walks id with
  | none => .next s
  | some w =>
    let vd := s.vdOf w.ctx
    match s.vd? vd with
    | none => .next (s.dropWalk id)
    | some v =>
      .next (if w.host ∨ w.phase ≠ 2 then s
        else
          match (s.hbLeaf vd v w.ctx w.page).bind fun ipa =>
              (leaf2 s.mem [0, 1, 2, 3] (Config.stage2Root vd) ipa).map fun l => (ipa, l) with
          | none => s.serviced id w false
          | some (ipa, level, at_, e) =>
            let size := 2 ^ (39 - 9 * level)
            match region with
            | none => if s.regionless vd size then s.serviced id w true else s
            | some r =>
              let s' := s.performFree fun p => s.vdOf p.ctx == vd
              if victims.all (s'.victimOk vd) then
                let t := victims.foldl (fun s i => s.evict vd i) s'
                if t.regionFree vd r size ∧ data.length = size then
                  let t := (t.storeFresh r data).store at_ (bytesOf 8 (setEntry e (r / 4096) true))
                  (t.onVd vd fun v => { v with slots := put v.slots (ipa / size * size / 4096) (bits e 51 12) }).serviced id w false
                else s
              else s)

/-! ### Host memory through ATS and PRI (R419, R420) -/

/-- Page requests of a hub that are outstanding. -/
def State.pageRequests (s : State) (hub : Nat) : Nat :=
  (s.walks.filter fun (e : Nat × Walk) => e.2.host && e.2.phase == 1 && e.2.hub == hub).length

/-- The hub may send a page request. -/
def State.mayAsk (s : State) (hub : Nat) : Bool :=
  ((s.hubs.map (·.priOff)).getD hub true) == false && decide (s.pageRequests hub < 512)

/-- Page requests held back are sent, oldest first, while the hub may. -/
def State.sendHeld (s : State) (hub : Nat) : State :=
  s.walks.foldl (fun s (e : Nat × Walk) =>
    if e.2.host ∧ e.2.phase = 3 ∧ e.2.hub = hub ∧ s.mayAsk hub then
      ({ s with walks := put s.walks e.1 { e.2 with phase := 1 } } : State).emit (.pageRequest e.1)
    else s) s

/-- A host page is asked for, or its request is held back (R419). -/
def State.askPage (s : State) (id : Nat) (w : Walk) : State :=
  if s.mayAsk w.hub then ({ s with walks := put s.walks id { w with phase := 1 } } : State).emit (.pageRequest id)
  else { s with walks := put s.walks id { w with phase := 3 } }

/-- ATS_TRANSLATION_COMPLETION: the host gives a translated page and its rights, which is cached; or none that serves,
and the units are parked on a page request (R411, R419). -/
def execAtsTranslationCompletion (id : Nat) (t : Option (Nat × Nat)) (s : State) : Outcome State Fault Refusal :=
  match look s.walks id with
  | none => .next s
  | some w =>
    let none_ (s : State) : State := (s.askPage id w).wakeWalk id
      (some { ctx := w.ctx, page := w.page, acc := w.acc, host := true, out := .hostBacked })
    .next (if !w.host ∨ w.phase ≠ 0 then s
      else
        match t with
        | none => none_ s
        | some (frame, rights) =>
          if covers rights (needRights w.acc) then
            let e : TlbEntry := { ctx := w.ctx, page := w.page, host := true, frame, secure := false, rights }
            let s := s.dropWalk id
            ((if w.stale then s else s.tlbFill e).wakeWalk id none).wakePark none (some id) w.ctx w.page true false
          else none_ s)

/-- PAGE_REQUEST_GROUP_RESPONSE: Success replays the units, Invalid Request gives them PAGE_FATAL, and Response Failure
gives it to every unit of the hub that waits on a page request (R419). -/
def execPageRequestGroupResponse (id : Nat) (r : PrgResponse) (s : State) : Outcome State Fault Refusal :=
  match look s.walks id with
  | none => .next s
  | some w =>
    let answer (fatal : Bool) (s : State) (e : Nat × Walk) : State :=
      (s.dropWalk e.1).wakePark none (some e.1) e.2.ctx e.2.page true fatal
    .next (if !w.host ∨ w.phase ≠ 1 then s
      else
        match r with
        | .success => (answer false s (id, w)).sendHeld w.hub
        | .invalid => (answer true s (id, w)).sendHeld w.hub
        | .failure =>
          let out := s.walks.filter fun (e : Nat × Walk) => e.2.host && e.2.phase == 1 && e.2.hub == w.hub
          out.foldl (answer true) (s.onHub w.hub fun h => { h with priOff := true }))

/-- PRI_REENABLE: the host clears and re-enables PRI (R419). -/
def execPriReenable (hub : Nat) (s : State) : Outcome State Fault Refusal :=
  .next ((s.onHub hub fun h => { h with priOff := false }).sendHeld hub)

/-- The context has the PASID. -/
def State.hasPasid (s : State) (c pasid : Nat) : Bool := (s.ctx? c).any fun x => x.pasid == pasid

/-- ATS_INVALIDATION_REQUEST: new uses of the matching translations stop (R420). -/
def execAtsInvalidationRequest (hub pasid page pages : Nat) (s : State) : Outcome State Fault Refusal :=
  let in_ (p : Nat) : Bool := decide (page ≤ p ∧ p < page + pages)
  .next (if (s.hubs.map fun h => h.invals.length).getD hub 32 < 32 then
    (s.invalidate (fun e => e.host && in_ e.page && s.hasPasid e.ctx pasid)
      fun w => w.host && in_ w.page && s.hasPasid w.ctx pasid).onHub hub fun h =>
        { h with invals := h.invals ++ [(pasid, page, pages)] }
  else s)

/-- ATS_INVALIDATION_COMPLETION: every access that used a matching translation has been sent, and reads have received
their completions; the Invalidation Completion is sent (R420). -/
def execAtsInvalidationCompletion (hub : Nat) (s : State) : Outcome State Fault Refusal :=
  match (s.hubs.map fun h => h.invals).getD hub [] with
  | [] => .next s
  | (pasid, _, _) :: _ =>
    let busy := s.exts.any fun (e : Nat × Ext) => match e.2.loc with | .host p _ => p == pasid | _ => false
    .next (if busy then s
      else (s.onHub hub fun h => { h with invals := h.invals.drop 1 }).emit (.invalidationCompletion hub))

end Sys2Proof.Machine
end

