-- ==== Sys2Proof/Machine/Queue.lean ====
section
/-! DEFINITION. Queue interfaces: the kick page, the reading and checking of packets, their order and completion, and
the packets that launch nothing (R379 to R385, R393 to R397, R216). -/

namespace Sys2Proof.Machine

open Host (Outcome)

/-! ### The kick page (Tables 16.1, 16.2) -/

/-- A write to the kick page of an interface: dropped and counted before READY, dropped when unbound (R21, R435). -/
def State.kickPage (s : State) (q : Nat) (g : Qi → Qi) : State :=
  if !s.ready then s.onPkg fun p => { p with kickDrops := p.kickDrops + 1 }
  else s.onQi q fun x => if x.bound && !x.closing then g x else x

/-- KICK: the word joins the FIFO, or is dropped and counted (R385). -/
def execKick (qi : Nat) (word : Word) (s : State) : Outcome State Fault Refusal :=
  .next (s.kickPage qi fun x =>
    if x.kicks.length < 64 then { x with kicks := x.kicks ++ [word] } else { x with kdrop := satAdd 0xFFF x.kdrop 1 })

/-- PWPTR_WRITE (R380). -/
def execPwptrWrite (qi : Nat) (v : Word) (s : State) : Outcome State Fault Refusal :=
  .next (s.kickPage qi fun x => if v.toNat < 2 ^ x.k then { x with pw := v.toNat } else x)

/-- EVRPTR_WRITE (R393). -/
def execEvrptrWrite (qi : Nat) (v : Word) (s : State) : Outcome State Fault Refusal :=
  .next ((s.kickPage qi fun x => if v.toNat < 2 ^ x.e then { x with evr := v.toNat } else x).flush qi)

/-- QSTAT_CLEAR: writing 1 to any bit of KDROP or of EVDROP clears it (Table 16.2). -/
def execQstatClear (qi : Nat) (v : Word) (s : State) : Outcome State Fault Refusal :=
  .next (s.kickPage qi fun x =>
    { x with kdrop := if bits v.toNat 27 16 ≠ 0 then 0 else x.kdrop,
             evdrop := if bits v.toNat 15 0 ≠ 0 then 0 else x.evdrop })

/-- The interrupt of an interface is enabled and due by its count (R395). -/
def Qi.counted (x : Qi) : Bool :=
  bitOf x.evctl 31 && decide (0 < x.unsignalled) && decide (max 1 (bits x.evctl.toNat 15 0) ≤ x.unsignalled)

/-- A write of EVCTL (Table 16.1); records that already stand may be due now. -/
def State.setEvctl (s : State) (q : Nat) (v : Word) : State :=
  let s := s.kickPage q fun x => { x with evctl := v }
  if s.ready && (s.qi? q).any fun (x : Qi) => x.bound && x.counted then s.interrupt q else s

/-- EVENT_INTERRUPT_TIMER: the oldest unsignalled record has waited the time threshold (R395). -/
def execEventInterruptTimer (qi : Nat) (s : State) : Outcome State Fault Refusal :=
  match s.qi? qi with
  | none => .next s
  | some x =>
    let t := bits x.evctl.toNat 30 16
    .next (if x.bound ∧ bitOf x.evctl 31 ∧ t ≠ 0 ∧ 0 < x.unsignalled ∧ x.oldest + 1000 * t ≤ s.time.toNat then
      s.interrupt qi else s)

/-! ### Reading packets (R379 to R384) -/

/-- A packet at the head of a queue: header, payload, ring index. -/
structure Pkt where
  hdr : Word
  words : List Word
  index : Nat
  deriving DecidableEq, Repr

def Pkt.type (p : Pkt) : Nat := bits p.hdr.toNat 7 0
def Pkt.count (p : Pkt) : Nat := bits p.hdr.toNat 23 8
def Pkt.barrier (p : Pkt) : Bool := bitOf p.hdr 24
def Pkt.measured (p : Pkt) : Bool := bitOf p.hdr 25
def Pkt.event (p : Pkt) : Bool := bitOf p.hdr 26
def Pkt.word (p : Pkt) (n : Nat) : Nat := (p.words.getD n 0).toNat
/-- A 64-bit number in two payload words, low first. -/
def Pkt.wide (p : Pkt) (n : Nat) : Nat := p.word n + 2 ^ 32 * p.word (n + 1)

/-- COUNT is the table's for the TYPE (Table 16.4). -/
def countOk (type n : Nat) : Bool :=
  match type with
  | 0x00 => true
  | 0x01 => n == 16
  | 0x02 => n == 4
  | 0x04 => n == 9
  | 0x05 => decide (3 ≤ n)
  | 0x06 => n == 6
  | 0x07 => n == 4
  | 0x08 => n == 8
  | 0x09 => n == 1
  | 0x0A => n == 1
  | 0x0B => n == 5
  | 0x0C => n == 11
  | 0x0E => n == 0
  | _ => false

/-- The header has its reserved bits 0, a TYPE of the table and the table's COUNT. -/
def headerGood (hdr : Word) : Bool :=
  bits hdr.toNat 31 27 == 0 && countOk (bits hdr.toNat 7 0) (bits hdr.toNat 23 8)

/-- A payload that Table 16.4 stops the queue on. -/
def Pkt.broken (p : Pkt) : Bool :=
  match p.type with
  | 0x04 => decide (4096 ≤ p.word 0)
  | 0x06 => decide (3 < p.word 5)
  | 0x09 => decide (4096 ≤ p.word 0)
  | 0x0A => decide (4 ≤ p.word 0)
  | 0x0B => decide (p.word 4 = 0 ∨ 4 ≤ p.word 4)
  | _ => false

/-- What stands at the head of a queue. -/
inductive Head where
  | none
  /-- A read of it is held up. -/
  | hitch (x : Hitch)
  /-- The queue stops on it: class, header. -/
  | bad (cls : Nat) (hdr : Word)
  | ok (p : Pkt)

/-- The ring handle of a queue is readable and of space GLOBAL or HOSTSVA (R379). -/
def ringOk (e : BitVec 256) : Bool := Entry.pr e && (Entry.space e == 0 || Entry.space e == 4)

/-- Words left to read: in the indirect buffer, or in the ring (R380, R384). -/
def Qi.left (x : Qi) : Nat :=
  match x.ib with
  | f :: _ => f.len - f.pos
  | [] => (x.pw + 2 ^ x.k - x.pr) % 2 ^ x.k

/-- Ring index of the header at the head; a packet of an indirect buffer stands in place of the IB_CALL in the ring. -/
def Qi.index (x : Qi) : Nat := if x.ib = [] then x.pr else (x.pr + 2 ^ x.k - 5) % 2 ^ x.k

/-- `n` words from the `i`-th word after the head of a queue; a packet may wrap in the ring (R380). -/
def State.qWords (s : State) (q : Nat) (x : Qi) (i n : Nat) : Except Hitch (List Word) :=
  match x.ib with
  | f :: _ => do
    let b ← s.hubRead (x.who q) f.handle (f.off + 4 * (f.pos + i)) (4 * n) 4 Entry.pr
    .ok (wordsOf b)
  | [] => do
    let at_ := (x.pr + i) % 2 ^ x.k
    let m := min n (2 ^ x.k - at_)
    let a ← s.hubRead (x.who q) x.ringH (x.ringOff + 4 * at_) (4 * m) 4 ringOk
    let b ← if m < n then s.hubRead (x.who q) x.ringH x.ringOff (4 * (n - m)) 4 ringOk else .ok []
    .ok (wordsOf (a ++ b))

/-- The payload is read: every packet but a NOP whose words are not measured, which ignores it. -/
def payloadRead (hdr : Word) : Bool := bits hdr.toNat 7 0 != 0 || bitOf hdr 25

/-- The class on which an IB_CALL stops the queue: the depth, or an access check of its buffer (R384). -/
def State.ibCheck (s : State) (q : Nat) (x : Qi) (p : Pkt) : Option Nat :=
  if x.ib.length ≥ 4 then some Cls.illegal
  else
    (s.precheck (x.who q) (p.word 0) (p.wide 1 : Nat)
      { w := 4 * p.word 3, align := 4, acc := 1, ok4 := Entry.pr }).map (·.2)

/-- The next packet of a queue, read and checked as a whole (R380 to R384). -/
def State.head (s : State) (q : Nat) (x : Qi) : Head :=
  if x.left = 0 then .none
  else
    match s.qWords q x 0 1 with
    | .error (.fail cls) => .bad cls 0
    | .error h => .hitch h
    | .ok ws =>
      let hdr := ws.getD 0 0
      let n := bits hdr.toNat 23 8
      if !headerGood hdr then .bad Cls.illegal hdr
      else if x.left < 1 + n then (if x.ib = [] then .none else .bad Cls.bounds hdr)
      else
        match if payloadRead hdr then s.qWords q x 1 n else .ok [] with
        | .error (.fail cls) => .bad cls hdr
        | .error h => .hitch h
        | .ok words =>
          let p : Pkt := { hdr, words, index := x.index }
          if p.broken then .bad Cls.illegal hdr
          else if p.type = 2 then (match s.ibCheck q x p with | some cls => .bad cls hdr | none => .ok p)
          else .ok p

/-! ### Taking packets (R381, R383) -/

/-- The queue takes packets and kick words: it is bound to a context that runs of a RESIDENT VD, not stopped, not
waiting, and no WAIT_VALUE blocks it (R382, R383, R403, R425). -/
def State.takes (s : State) (x : Qi) : Bool :=
  x.bound && !x.closing && !x.stopped && x.wait == Wait.none && s.runs x.ctx && s.pkg.ready &&
    (s.vd? x.vd).any (fun v => v.state == 2) && s.pkg.update.all (fun u => u.phase == 0) &&
    !(x.begun.any fun p => p.type == 6)

/-- Every packet begun of every queue of the context has completed (R381). -/
def State.idleCtx (s : State) (c : Nat) : Bool := s.qis.all fun (e : Nat × Qi) => e.2.ctx != c || e.2.begun == []

/-- The reading goes past `n` words, and leaves the buffers that end there (R384). -/
def Qi.advance (x : Qi) (n : Nat) : Qi :=
  match x.ib with
  | [] => { x with pr := (x.pr + n) % 2 ^ x.k }
  | f :: r => { x with ib := { f with pos := f.pos + n } :: r }

def Qi.unwind (x : Qi) : Qi := { x with ib := x.ib.dropWhile fun f => decide (f.len ≤ f.pos) }

/-- Nothing that was read or answered for the last packet is kept. -/
def Qi.clear (x : Qi) : Qi := { x with answers := [], extData := [], extErr := [] }

/-- The hub of an interface, as SOURCE and as a counter's number (R456, R461). -/
def unitOfQi (q : Nat) : Nat := 4 + hubOfQi q

/-- The chain of a context is extended by data with a tag (R396). -/
def State.extend (s : State) (c : Nat) (tag data : List Byte) : State :=
  s.onCtx c fun x =>
    { x with chain := BitVec.ofNat 256 (natOf (sha256 (bytesOf 32 x.chain.toNat ++ tag ++ bytesOf 8 data.length ++
               sha256 data))), ext := x.ext + 1 }

/-- The four tags of R396. -/
def tagCode : List Byte := [0x43, 0x4F, 0x44, 0x45]
def tagArgs : List Byte := [0x41, 0x52, 0x47, 0x53]
def tagRslt : List Byte := [0x52, 0x53, 0x4C, 0x54]
def tagPkts : List Byte := [0x50, 0x4B, 0x54, 0x53]

/-- A packet is taken: the reading goes past it, and its words are measured before it takes effect (R381, R397). -/
def State.consume (s : State) (q : Nat) (p : Pkt) : State :=
  let c := (s.qi? q).elim 0 (·.ctx)
  let s := s.onQi q fun x => ((x.advance (1 + p.count)).unwind).clear
  if p.measured then s.extend c tagPkts (bytesOfWords (p.hdr :: p.words)) else s

/-- A class with which a packet or a queue fails is counted; WORLD and a lost line stop the context, wherever they arise (R43,
R45, R292, R438, R456; log 36). -/
def State.queueFault (s : State) (q cls : Nat) : State :=
  let c := (s.qi? q).elim 0 (·.ctx)
  if cls = 0 then s
  else if cls = Cls.coherenceLost then s.stopLost c (unitOfQi q)
  else if cls = Cls.world then s.stop c cls 0xFFFFFFFF 0 0xFFFFFFFF#32 0 (unitOfQi q)
  else
    let s := s.countFault c cls
    if cls = Cls.dataCheck then s.errUp (unitOfQi q) 48 16 1 else s

/-- The record of a packet other than a LAUNCH that completes: written when EVENT is set or the STATUS is 1 (R394). -/
def State.packetDone (s : State) (q type index : Nat) (event : Bool) (status cls : Nat) : State :=
  let s := s.queueFault q cls
  if event || status == 1 then
    s.post q { source := 0xFFFF0000 + type, kind := 1, status, fclass := cls, detail := index }
  else s

def State.pktDone (s : State) (q : Nat) (p : Pkt) (status cls : Nat) : State :=
  s.packetDone q p.type p.index p.event status cls

/-- The queue waits for what holds it up. -/
def State.queueWaits (s : State) (q : Nat) (h : Hitch) : State :=
  match s.await (.queue q) ((s.qi? q).elim 0 (·.ctx)) (hubOfQi q) 0x10 h with
  | none => s
  | some (wait, drop, s) =>
    s.onQi q fun x => { x with wait, answers := if drop then [] else x.answers }

/-- The packet takes effect: it is consumed, and completes or waits or fails as its accesses allow (R382). -/
def State.effect {α : Type} (s : State) (q : Nat) (p : Pkt) (r : Except Hitch α) (k : α → State → State) : State :=
  match r with
  | .ok a => k a (s.consume q p)
  | .error (.fail cls) => (s.consume q p).pktDone q p 1 cls
  | .error h => s.queueWaits q h

/-- The next packet of a queue, if it is of a type and may be taken now, takes its effect. Kick words go first (R385). -/
def State.takePacket (s : State) (q type : Nat) (k : Qi → Pkt → State → State) : State :=
  match s.qi? q with
  | none => s
  | some x =>
    if s.takes x && x.kicks == [] then
      match s.head q x with
      | .ok p => if p.type = type ∧ (!p.barrier || s.idleCtx x.ctx) then k x p s else s
      | .hitch h => s.queueWaits q h
      | _ => s
    else s

/-- The packet is begun and completes later. -/
def State.begin (s : State) (q : Nat) (p : Pkt) (work : Option Nat) : State :=
  s.onQi q fun x => { x with begun := x.begun ++ [{ type := p.type, index := p.index, event := p.event,
                                                    words := p.words, work }] }

/-- A begun packet that only waits for its turn, as it was read. -/
def Packet.pkt (b : Packet) : Pkt :=
  { hdr := w32 (b.type + b.words.length * 2 ^ 8 + if b.event then 2 ^ 26 else 0), words := b.words, index := b.index }

/-! ### INVALID_PACKET (R382) -/

/-- The queue stops: STOPPED is set and a KIND 0x03 record is written. -/
def State.stopQueue (s : State) (q cls index : Nat) (hdr : Word) : State :=
  let s := (s.onQi q fun x => { x.clear with stopped := true }).queueFault q cls
  let c := (s.qi? q).elim 0 (·.ctx)
  s.post q { source := 0xFFFE0000 + q, kind := 3, status := 1, faults := (s.ctx? c).elim 0 fun x => count x.faults cls,
             fclass := cls, fpc := index, detail := hdr.toNat }

/-- INVALID_PACKET: a packet that fails its checks as a whole stops the queue (R382). -/
def execInvalidPacket (qi : Nat) (s : State) : Outcome State Fault Refusal :=
  match s.qi? qi with
  | none => .next s
  | some x =>
    .next (if s.takes x && x.kicks == [] then
      match s.head qi x with
      | .bad cls hdr => s.stopQueue qi cls x.index hdr
      | .hitch h => s.queueWaits qi h
      | _ => s
    else s)

/-! ### Packets without work of their own -/

/-- NOP_PACKET (Table 16.4). -/
def execNopPacket (qi : Nat) (s : State) : Outcome State Fault Refusal :=
  .next (s.takePacket qi 0 fun _ p s => (s.consume qi p).pktDone qi p 0 0)

/-- IB_CALL: reading goes on in the buffer (R384). -/
def execIbCall (qi : Nat) (s : State) : Outcome State Fault Refusal :=
  .next (s.takePacket qi 2 fun _ p s =>
    let frame : IbFrame := { handle := p.word 0, off := p.wide 1, len := p.word 3, pos := 0 }
    let read (x : Qi) : Qi := { x.advance (1 + p.count) with ib := frame :: (x.advance (1 + p.count)).ib }
    let s := s.onQi qi fun x => ((read x).unwind).clear
    let s := if p.measured then s.extend ((s.qi? qi).elim 0 (·.ctx)) tagPkts (bytesOfWords (p.hdr :: p.words)) else s
    s.pktDone qi p 0 0)

/-- WRITE_DATA (R382). -/
def execWriteData (qi : Nat) (s : State) : Outcome State Fault Refusal :=
  .next (s.takePacket qi 5 fun x p s =>
    match s.hubWrite (x.who qi) (p.word 0) (p.wide 1) 4 (bytesOfWords (p.words.drop 3)) with
    | .ok t => (t.consume qi p).pktDone qi p 0 0
    | .error (.fail cls) => (s.consume qi p).pktDone qi p 1 cls
    | .error h => s.queueWaits qi h)

/-- MEASURE_PACKET: the range is read and extends the chain with its tag (R397). -/
def execMeasurePacket (qi : Nat) (s : State) : Outcome State Fault Refusal :=
  .next (s.takePacket qi 0x0B fun x p s =>
    s.effect qi p (s.hubRead (x.who qi) (p.word 0) (p.wide 1) (p.word 3) 1 Entry.pr) fun bs s =>
      let tag := if p.word 4 = 1 then tagCode else if p.word 4 = 2 then tagArgs else tagRslt
      (s.extend x.ctx tag bs).pktDone qi p 0 0)

/-! ### WAIT_VALUE (R382, R383) -/

/-- The condition of WAIT_VALUE (Table 16.4). -/
def valueMeets (cond : Nat) (word value mask : Word) : Bool :=
  let w := word &&& mask
  match cond with
  | 0 => w == value
  | 1 => w != value
  | 2 => decide (value.toNat ≤ w.toNat)
  | _ => decide (value.toInt ≤ w.toInt)

/-- The word that WAIT_VALUE watches meets its condition. -/
def State.valueOf (s : State) (q : Nat) (x : Qi) (p : Pkt) : Except Hitch Bool := do
  let b ← s.hubRead (x.who q) (p.word 0) (p.wide 1) 4 4 Entry.pr
  .ok (valueMeets (p.word 5) (w32 (natOf b)) (w32 (p.word 3)) (w32 (p.word 4)))

/-- WAIT_VALUE: it completes at once, or blocks the queue until its word meets the condition. -/
def execWaitValue (qi : Nat) (s : State) : Outcome State Fault Refusal :=
  .next (s.takePacket qi 6 fun x p s =>
    s.effect qi p (s.valueOf qi x p) fun met s => if met then s.pktDone qi p 0 0 else s.begin qi p none)

/-- An interface that was unbound lets go of its binding once its last packet begun has completed (R423). -/
def State.letGo (s : State) (q : Nat) : State :=
  s.onQi q fun x => if x.closing ∧ x.begun = [] then { x with bound := false, closing := false } else x

/-- A begun packet leaves the list, with its record. -/
def State.endBegun (s : State) (q : Nat) (b : Packet) (status cls : Nat) : State :=
  ((s.onQi q fun x => { x.clear with begun := x.begun.erase b }).packetDone q b.type b.index b.event status cls).letGo q

/-- A begun packet acts again: it completes, waits or fails as its accesses allow. -/
def State.resume {α : Type} (s : State) (q : Nat) (b : Packet) (r : Except Hitch α) (k : α → State) : State :=
  match r with
  | .ok a => k a
  | .error (.fail cls) => s.endBegun q b 1 cls
  | .error h => s.queueWaits q h

/-- A queue whose begun packets may act: its context runs and nothing it asked for is outstanding. -/
def State.active (s : State) (x : Qi) : Bool := x.bound && x.wait == Wait.none && s.runs x.ctx

/-- WAIT_VALUE_SATISFIED: the word is read again, and the wait ends when it meets the condition. -/
def execWaitValueSatisfied (qi : Nat) (s : State) : Outcome State Fault Refusal :=
  match s.qi? qi with
  | none => .next s
  | some x =>
    match x.begun.find? fun b => b.type == 6 with
    | none => .next s
    | some b =>
      .next (if s.active x then
        s.resume qi b (s.valueOf qi x b.pkt) fun met => if met then s.endBegun qi b 0 0 else s.onQi qi Qi.clear
      else s)

/-! ### SIGNAL and FENCE (R382, R383) -/

/-- A packet of a type that waits for every earlier packet of its queue: the one at the head of those begun acts; or the
next packet of the queue is taken, and acts at once when nothing is begun before it. -/
def State.inTurn (s : State) (q type : Nat) (act : Qi → Packet → State → State) : State :=
  let go (s : State) : State :=
    match s.qi? q with
    | none => s
    | some x =>
      match x.begun with
      | b :: _ => if b.type = type ∧ s.active x then act x b s else s
      | [] => s
  match s.qi? q with
  | none => s
  | some x =>
    if (x.begun.head?).any fun b => b.type == type then go s
    else s.takePacket q type fun _ p s => go ((s.consume q p).begin q p none)

/-- SIGNAL: once every earlier packet of the queue has completed, the value is written as a release at SYSTEM scope. -/
def execSignal (qi : Nat) (s : State) : Outcome State Fault Refusal :=
  .next (s.inTurn qi 7 fun x b s =>
    s.resume qi b (s.hubWrite (x.who qi) (b.pkt.word 0) (b.pkt.wide 1) 4 (bytesOf 4 (b.pkt.word 3))) fun t =>
      t.endBegun qi b 0 0)

/-- FENCE_PACKET: it completes when every earlier packet of the queue has. -/
def execFencePacket (qi : Nat) (s : State) : Outcome State Fault Refusal :=
  .next (s.inTurn qi 0x0E fun _ b s => s.endBegun qi b 0 0)

/-! ### SET_HANDLE (R216, R217) -/

/-- The VD holds the endpoint (R216, Table 19.3). -/
def State.holdsEndpoint (s : State) (vd n : Nat) : Bool :=
  (look s.endpoints n).any fun e => e.getLsbD 127 && decide ((e.extractLsb' 107 10).toNat = vd)

/-- The entry passes every row of Table 9.2. -/
def State.entryOk (s : State) (vd : Nat) (e : BitVec 256) : Bool :=
  let space := Entry.space e
  let kind := Entry.kind e
  let write := Entry.pw e || Entry.pa e
  let reserved := field256 e 240 4 != 0 || field256 e 192 32 != 0 || field256 e 188 2 != 0 || decide (5 ≤ space) ||
    field256 e 244 2 == 3 || Entry.stype e == 3
  let sync := (kind == 2 && Entry.stype e == 0) ||
    (kind != 2 && (Entry.stype e != 0 || Entry.shandle e != 0 || Entry.soff e != 0)) ||
    (Entry.stype e == 1 && Entry.soff e % 8 != 0) || (Entry.stype e == 2 && Entry.soff e % 16 != 0)
  let owned := kind == 1 && (Entry.base e % 512 != 0 || Entry.length e % 512 != 0)
  let extent := decide (Entry.base e + Entry.length e > if space = 4 then 2 ^ 64 else 2 ^ 48)
  let endpoint := if space = 1 then !s.holdsEndpoint vd (Entry.endpt e) else Entry.endpt e != 0
  !reserved && Entry.combined e && !((kind == 0 || space == 2 || space == 3) && write) && !sync && !owned &&
    !(space == 2 && Entry.base e % 64 != 0) && !extent && !endpoint

/-- Some access of the context that read its entries is not performed yet: a store, one that a lease buffers or that was made
through the GUARDED handle h, an atomic, or a request outside the part; waiters of barrier objects check again (R217, R251). -/
def State.inFlight (s : State) (c h : Nat) : Bool :=
  s.pending.any (fun p => p.ctx == c) || s.exts.any (fun (e : Nat × Ext) => e.2.ctx == c) || s.leaseHeld c ||
    s.wbuf.any (fun (e : WEntry) => e.ctx == c && e.handle == h) ||
    s.atoms.any fun (e : Nat × AtomReq) => e.2.ctx == c && e.2.reply.isNone && !e.2.waiting && !e.2.retry && !s.withheld e.2

/-- The buffered stores that a context made through a handle are performed at their homes, those whose pages are mapped
(R217). -/
def State.performVia (s : State) (c h : Nat) : State :=
  (s.wbuf.filter fun e => e.ctx == c && e.handle == h).foldl (fun s e =>
    match s.walkTables c (e.va / 4096) 2 with
    | .ok t => s.publishAt e (t.frame * 4096 + e.va % 4096)
    | .error _ => s) s

/-- Owner entries that a handle needs, one for each of its grains (R265). -/
def ownersNeeded (e : BitVec 256) : Nat :=
  if Entry.valid e && Entry.kind e == 1 then (Entry.length e + 511) / 512 else 0

/-- A VD has clusters on a die. -/
def Vd.onDie (v : Vd) (d : Nat) : Bool := v.clusters.any fun e => e.1 / 64 == d

/-- Owner entries reserved on a die, for every handle but one of a context (R265). -/
def State.ownersReserved (s : State) (d c h : Nat) : Nat :=
  s.ctxs.foldl (fun n (e : Nat × Ctx) =>
    if (s.vd? e.2.vd).any fun v => v.onDie d then
      e.2.handles.foldl (fun n (x : Nat × BitVec 256) => if e.1 = c ∧ x.1 = h then n else n + ownersNeeded x.2) n
    else n) 0

/-- The owner tables have room for the grains of an entry on each die that holds clusters of its VD (R265). -/
def State.ownersFit (s : State) (vd c h : Nat) (e : BitVec 256) : Bool :=
  (List.range 4).all fun d => ownersNeeded e == 0 || !(s.vd? vd).any (fun v => v.onDie d) ||
    decide (s.ownersReserved d c h + ownersNeeded e ≤ Config.ownerRoom d)

/-- SET_HANDLE: the entry is installed, or zeros in its place with STATUS 1 (R216, R265), once every access that read the old
entry is performed (R217). -/
def execSetHandle (qi : Nat) (s : State) : Outcome State Fault Refusal :=
  .next (s.takePacket qi 4 fun x p s =>
    let h := p.word 0
    let s := (s.performFree fun w => w.ctx == x.ctx).performVia x.ctx h
    if s.inFlight x.ctx h then s
    else
      let e : BitVec 256 := BitVec.ofNat 256 (natOf (bytesOfWords (p.words.drop 1)))
      let ok := s.entryOk x.vd e && s.ownersFit x.vd x.ctx h e
      let s := (s.consume qi p).onCtx x.ctx fun c => { c with handles := put c.handles h (if ok then e else 0) }
      s.pktDone qi p (if ok then 0 else 1) 0)

end Sys2Proof.Machine
end

