-- ==== Sys2Proof/Machine/Signing.lean ====
section
/-! DEFINITION. The two-level hash-based signature of receipts and its public key (R400, R424): LMOTS_SHA256_N32_W4 and
LMS_SHA256_M32_H20 as RFC 8554 defines them (log 11). Tree 0 is the top tree, tree `t + 1` the one that leaf `t` of the top
tree signs. -/

namespace Sys2Proof.Machine

/-- What every hash of a tree begins with: its identifier, a number and the mark of the use. -/
def lmsHash (tree r mark : Nat) (rest : List Byte) : List Byte :=
  sha256 ((List.range 16).map (Config.lmsId tree) ++ bytesBig 4 r ++ bytesBig 2 mark ++ rest)

/-- The value of chain `i` of leaf `q` after `n` steps from its secret. -/
def otsChain (tree q i : Nat) : Nat → List Byte
  | 0 => (List.range 32).map (Config.lmsSecret tree q i)
  | n + 1 => lmsHash tree q i (bytesBig 1 n ++ otsChain tree q i n)

/-- The one-time public key of a leaf. -/
def otsPublic (tree q : Nat) : List Byte :=
  lmsHash tree q 0x8080 ((List.range 67).flatMap fun i => otsChain tree q i 15)

/-- The 67 digits of four bits signed for a digest: its own 64, and three of what they lack of 15. -/
def otsDigits (digest : List Byte) : List Nat :=
  let own := digest.flatMap fun b => [b.toNat / 16, b.toNat % 16]
  let lack := (own.map fun d => 15 - d).sum
  own ++ [lack / 256, lack / 16 % 16, lack % 16]

/-- The one-time signature of a message with a leaf. -/
def otsSign (tree q : Nat) (message : List Byte) : List Byte :=
  let nonce := (List.range 32).map (Config.lmsNonce tree q)
  bytesBig 4 3 ++ nonce ++
    (otsDigits (lmsHash tree q 0x8181 (nonce ++ message))).zipIdx.flatMap fun d => otsChain tree q d.2 d.1

/-- Node `r` of a tree, `height` levels above its leaves. -/
def lmsNode (tree : Nat) : Nat → Nat → List Byte
  | 0, r => lmsHash tree r 0x8282 (otsPublic tree (r - 2 ^ 20))
  | height + 1, r => lmsHash tree r 0x8383 (lmsNode tree height (2 * r) ++ lmsNode tree height (2 * r + 1))

/-- The public key of a tree, 56 bytes. -/
def lmsPublic (tree : Nat) : List Byte :=
  bytesBig 4 8 ++ bytesBig 4 3 ++ (List.range 16).map (Config.lmsId tree) ++ lmsNode tree 20 1

/-- The signature of a message with leaf `q` of a tree, 2,828 bytes. -/
def lmsSign (tree q : Nat) (message : List Byte) : List Byte :=
  bytesBig 4 q ++ otsSign tree q message ++ bytesBig 4 8 ++
    (List.range 20).flatMap fun h => lmsNode tree h ((2 ^ 20 + q) / 2 ^ h ^^^ 1)

/-- The signature of a body with one of the 2 ^ 40 leaves, 5,716 bytes (Table 16.9). -/
def hssSign (leaf : Nat) (body : List Byte) : List Byte :=
  let top := leaf / 2 ^ 20 % 2 ^ 20
  bytesBig 4 1 ++ lmsSign 0 top (lmsPublic (top + 1)) ++ lmsPublic (top + 1) ++ lmsSign (top + 1) (leaf % 2 ^ 20) body

/-- The receipt public key, 60 bytes (R424). -/
def receiptKey : List Byte := bytesBig 4 2 ++ lmsPublic 0

end Sys2Proof.Machine
end

