-- ==== Sys2Proof/Machine/Receipt.lean ====
section
/-! DEFINITION. Receipts: leaves and their reservation, the body, the signature and its writing (R399 to R401). -/

namespace Sys2Proof.Machine

open Host (Outcome)

/-- The capability table is rewritten: its generation goes up by two (R428). -/
def State.capChange (s : State) : State := s.onMb fun m => { m with capGen := (m.capGen + 2) % 65536 }

/-- A fresh batch of leaves is reserved in flash, when it can be read and leaves remain (R401). -/
def Package.reserveLeaves (p : Package) : Package :=
  if p.flashBad ∨ p.reserved ≥ 2 ^ 40 then { p with leafNext := 0, leafEnd := 0 }
  else { p with leafNext := p.reserved, leafEnd := p.reserved + 4096, reserved := p.reserved + 4096 }

/-- The next leaf is taken, of a new batch when the last is used up; none is left, or the key is erased. -/
def State.takeLeaf (s : State) : Option (Nat × State) :=
  if s.pkg.keysErased then none
  else
    let s := if s.pkg.leafNext = s.pkg.leafEnd ∧ !s.pkg.flashBad ∧ s.pkg.reserved < 2 ^ 40 then
      (s.onPkg Package.reserveLeaves).capChange else s
    if s.pkg.leafNext < s.pkg.leafEnd then
      some (s.pkg.leafNext, s.onPkg fun p => { p with leafNext := p.leafNext + 1 })
    else none

/-- The body of a receipt of a context (Table 16.8). -/
def State.receiptBody (s : State) (q : Nat) (x : Qi) (nonce : List Byte) : List Byte :=
  let c := s.ctx? x.ctx
  bytesOf 4 0x31434552 ++ bytesOf 2 1 ++ bytesOf 2 x.vd ++ bytesOf 1 (c.elim 0 (·.num)) ++ bytesOf 1 0 ++ bytesOf 2 q ++
    bytesOf 4 0 ++ bytesOf 8 s.time.toNat ++ bytesOf 8 (c.elim 0 (·.ext)) ++ bytesOf 32 (c.elim 0 (·.chain.toNat)) ++
    nonce ++ bytesOf 4 5716 ++ bytesOf 28 0

/-- The receipt: its body, then the signature of the body (R399, Table 16.9). -/
def receiptBytes (leaf : Nat) (body : List Byte) : List Byte := body ++ hssSign leaf body

/-- The checks of a receipt's destination: its alignment, then steps 1 to 4 and 6 (R399). -/
def State.receiptCheck (s : State) (who : Who) (h off : Nat) : Option Nat :=
  if off % 64 ≠ 0 then some Cls.misalign
  else (s.precheck who h (off : Int) { w := 5844, align := 1, acc := 2, ok4 := permits 2 }).map (·.2)

/-- A RECEIPT at its turn completes: its KIND 0x06 record, and that of the packet (R394, R399). -/
def State.receiptDone (s : State) (q : Nat) (b : Packet) (status cls leaf : Nat) : State :=
  (s.post q { source := q, kind := 6, status, fclass := cls, detail := leaf }).endBegun q b status cls

/-- RECEIPT: once every earlier packet of the queue has completed, its destination is checked, a leaf is taken and the
signer begins, when it is free (R399, R401). -/
def execReceipt (qi : Nat) (s : State) : Outcome State Fault Refusal :=
  .next (s.inTurn qi 0x0C fun x b s =>
    let h := b.pkt.word 0
    let off := b.pkt.wide 1
    if s.pkg.signing.any fun g => !g.made || g.qi == qi then s
    else
      match s.receiptCheck (x.who qi) h off with
      | some cls => s.receiptDone qi b 1 cls 0
      | none =>
        match s.takeLeaf with
        | none => s.receiptDone qi b 1 0 0
        | some (leaf, s) =>
          let body := s.receiptBody qi x (bytesOfWords (b.words.drop 3))
          s.onPkg fun p =>
            { p with signing := p.signing ++ [{ qi, leaf, body, handle := h, off, made := false }] })

/-- The signature of an interface leaves the signer. -/
def State.signed (s : State) (q : Nat) : State := s.onPkg fun p => { p with signing := p.signing.filter fun g => g.qi != q }

/-- The signature of an interface's receipt is made, and the receipt is written, under steps 7 to 9 too (R399). For a context
being killed it is written if nothing holds it up, and is abandoned otherwise (R401, Table 18.10). -/
def State.completeReceipt (s : State) (qi : Nat) : State :=
  match s.qi? qi, s.pkg.signing.find? fun g => g.qi == qi with
  | some x, some g =>
    let s := s.onPkg fun p => { p with signing := p.signing.map fun g => if g.qi = qi then { g with made := true } else g }
    let out := s.hubWrite (x.who qi) g.handle g.off 1 (receiptBytes g.leaf g.body)
    let end_ (s : State) (status cls leaf : Nat) : State :=
      match (s.qi? qi).bind fun (x : Qi) => x.begun.find? fun b => b.type == 0x0C with
      | none => s
      | some b => if s.active x then s.receiptDone qi b status cls leaf else s
    if x.wait ≠ .none then s
    else
      match out with
      | .ok t => end_ (t.signed qi) 0 0 g.leaf
      | .error (.fail cls) => end_ (s.signed qi) 1 cls g.leaf
      | .error h => if s.runs x.ctx then s.queueWaits qi h else s.signed qi
  | _, _ => s

/-- RECEIPT_SIGNATURE_COMPLETE (R399, R401). -/
def execReceiptSignatureComplete (qi : Nat) (s : State) : Outcome State Fault Refusal := .next (s.completeReceipt qi)

end Sys2Proof.Machine
end

