-- ==== Sys2Proof/Machine/Boot.lean ====
section
/-! DEFINITION. Power-on, boot and reset of the package, temperatures and the clock (R12, R17 to R27). -/

namespace Sys2Proof.Machine

open Host (Outcome)

/-! ### Reset scopes (R25 to R27) -/

/-- COLD_RESET: every register takes its reset value; flash and fuses survive (R20, R25). -/
def execColdReset (s : State) : Outcome State Fault Refusal :=
  .next { State.cold s.pkg.slots s.pkg.rollback s.pkg.reserved with
    inbox := s.inbox, stamp := s.stamp, nextId := s.nextId, out := s.out }

/-- A failure that a rerun of the stages 0x03 to 0x07 finds anew. -/
def foundAgain (f : Nat × Nat × Nat) : Bool := f.1 == 3 || f.1 == 4 || f.1 == 5

/-- The lowest of the failure codes found; 0 for none (R23). -/
def lowestCode (fs : List (Nat × Nat × Nat)) : Nat := (minOf (fs.map (·.1))).getD 0

/-- The failures of a package that does not boot its flash images anew: a standby complex that does not run counts as
failed (Table 1.8). -/
def Package.warmFails (p : Package) : List (Nat × Nat × Nat) :=
  let fs := p.fails.filter fun f => !foundAgain f
  if p.standby ∨ p.recovery ∨ fs.any (fun f => f.1 == 2) then fs else fs ++ [(2, 1 - p.activeHub, 0)]

/-- The signatures in progress complete before the command engine stops, so that their leaves are consumed (R26, R401). -/
def State.finishSignings (s : State) : State := s.pkg.signing.foldl (fun s g => s.completeReceipt g.qi) s

/-- A package warm reset: every VD is destroyed, engines, dies and links are reset, outstanding PCIe requests are aborted,
and the stages from 0x03 rerun. Signatures in progress complete first. Firmware, flash, fuses and what stage 0x06 scrubs survive it, and so do the registers that
Table 1.9 does not list (R25, R26). -/
def State.packageReset (s : State) : State :=
  let s := s.finishSignings
  let aborted := s.exts.filter fun (e : Nat × Ext) => match e.2.loc with | .host _ _ => true | _ => false
  let fs := s.pkg.warmFails
  let c := State.cold s.pkg.slots s.pkg.rollback s.pkg.reserved
  let pkg := { s.pkg with
    ready := false, stage := 2, fails := fs, failcode := lowestCode fs, clk100 := 0, leafNext := 0, leafEnd := 0,
    flashBad := false, update := none, resetHeld := false, cls := 2, clsTarget := none, chanOut := [], signing := [] }
  { c with
    pkg, hubs := s.hubs.map fun h => { h with priOff := false, invals := [] },
    mb := { s.mb with capGen := (s.mb.capGen + 2) % 65536 }, errcnt := s.errcnt, mem := s.mem, syndrome := s.syndrome,
    time := s.time, inbox := s.inbox, stamp := s.stamp, nextId := s.nextId,
    out := aborted.map (fun e => Outbound.abort e.1) ++ s.out }

/-- A reset held by a live update takes effect once the update has ended (R27). -/
def State.heldReset (s : State) : State := if s.pkg.resetHeld then s.packageReset else s

/-- How the physical function takes a configuration request: not at all, with Configuration Request Retry Status, or whole
(R21). -/
inductive ConfigAnswer where
  | none
  | retry
  | done
  deriving DecidableEq, Repr

/-- Configuration requests are answered from stage 0x02, and carried out once stage 0x04 is complete (R21). -/
def State.configAnswer (s : State) : ConfigAnswer :=
  if s.pkg.stage < 2 then .none else if s.pkg.stage < 4 then .retry else .done

/-- FLR of the physical function, a configuration request: a package warm reset, held while a live update is under way; it
ends a mailbox command in progress (R21, R25, R27). -/
def execFlr (s : State) : Outcome State Fault Refusal :=
  .next (if s.configAnswer ≠ .done then s
  else if s.pkg.update.isSome then s.onPkg fun p => { p with resetHeld := true }
  else s.packageReset.onMb fun m => { m with busy := false, wait := none, held := none, escalated := false })

/-! ### Boot (R20 to R24) -/

/-- Failures that a stage may find, by code, unit and channel (Table 1.8). -/
def stageFinds (stage : Nat) (f : Nat × Nat × Nat) : Bool :=
  match stage, f.1 with
  | 2, 2 => decide (f.2.1 < 2 ∧ f.2.2 = 0)
  | 4, 3 => decide (f.2.2 < 512 ∧ f.2.1 = f.2.2 / 32)
  | 5, 4 => decide (f.2.1 < 4 ∧ f.2.2 = 0)
  | 7, 5 => decide (f.2.1 < 2 ∧ f.2.2 = 0)
  | _, _ => false

/-- Failures are listed, and FAILCODE holds the lowest code (R23). -/
def Package.note (p : Package) (fs : List (Nat × Nat × Nat)) : Package :=
  { p with fails := p.fails ++ fs, failcode := lowestCode (p.fails ++ fs) }

/-- The slot that a boot ROM boots: verified, not below the counter, of the higher version (R20); of two equal versions the
lower-numbered slot (DESIGN CHOICE: R20 names no slot then; log 72). -/
def Package.bootSlot (p : Package) : Option Nat :=
  let ok (n : Nat) : Bool := (p.slots[n]?).any fun e => e.2 && e.1 != 0 && decide (p.rollback ≤ e.1)
  let version (n : Nat) : Nat := (p.slots[n]?).elim 0 (·.1)
  if ok 0 && ok 1 then some (if version 0 < version 1 then 1 else 0)
  else if ok 0 then some 0
  else if ok 1 then some 1
  else none

/-- Stage 0x02: the images are verified and loaded (R20, Table 1.8). When no image can run, the code is 0x06 if some image
verified, and was below the counter, and 0x01 otherwise (DESIGN CHOICE where one image did not verify and the other is below
the counter, which fits neither row; log 73). -/
def Package.load (p : Package) (fs : List (Nat × Nat × Nat)) : Package :=
  match p.bootSlot with
  | none =>
    { p.note [(if p.slots.any fun e => e.2 && e.1 != 0 then 6 else 1, 0, 0)] with stage := 2, recovery := true }
  | some k =>
    if fs.length ≥ 2 then { p.note ((1, 0, 0) :: fs) with stage := 2, recovery := true, runSlot := k }
    else { p.note fs with stage := 2, runSlot := k }

/-- Stage 0x03: H0 takes the active role if its image booted, otherwise H1 does (Table 1.6). -/
def Package.elect (p : Package) : Package :=
  { p with stage := 3, activeHub := if p.fails.contains (2, 0, 0) then 1 else 0,
           standby := !p.fails.any fun f => f.1 == 2 }

/-- Stage 0x05: the dies that trained and passed are admitted, with clocks at 2.4 GHz; with none the part stays at stage
0x04 (Table 1.8, R24). -/
def State.admitDies (s : State) (fs : List (Nat × Nat × Nat)) : State :=
  let out (d : Nat) : Bool := fs.any fun f => f.2.1 == d
  let s := s.onPkg fun p => p.note fs
  if (List.range 4).all out then s
  else
    ({ s with dies := mapIx (fun d x => { x with up := !out d }) 0 s.dies,
              links := mapIx (fun d n => if out d then 0 else n) 0 s.links } : State).onPkg fun p =>
      { p with stage := 5, cls := 2, clsTarget := none, clk100 := 24 }

/-- Stage 0x07: leaf reservations, capability table, READY; a PKG_RESET in progress completes (R401, R424). -/
def State.becomeReady (s : State) (fs : List (Nat × Nat × Nat)) : State :=
  let s := s.onPkg fun p =>
    ({ p.note fs with stage := 7, ready := true, flashBad := fs != [] } : Package).reserveLeaves
  if s.mb.wait = some .reset then s.capChange.mbDone 0 else s.capChange

/-- No die was admitted, and the boot goes no further (R24). -/
def Package.dieless (p : Package) : Bool := p.stage == 4 && (List.range 4).all fun d => p.fails.contains (4, d, 0)

/-- BOOT_STAGE_COMPLETE: the next stage of Table 1.6 is complete, with the failures that it found (R21 to R24). -/
def execBootStageComplete (r : BootResult) (s : State) : Outcome State Fault Refusal :=
  let n := s.pkg.stage + 1
  let fs := (r.fails.filter (stageFinds n)).dedup
  .next (if s.pkg.ready || s.pkg.tripped || s.pkg.recovery || s.pkg.dieless then s
  else
    match n with
    | 2 => s.onPkg fun p => p.load fs
    | 3 => s.onPkg Package.elect
    | 4 => s.onPkg fun p => { p.note fs with stage := 4, chanOut := fs.map (·.2.2) }
    | 5 => s.admitDies fs
    | 6 => ({ s with mem := [], syndrome := [] } : State).onPkg fun p => { p with stage := 6 }
    | 7 => s.becomeReady fs
    | _ => s.onPkg fun p => { p with stage := n })

/-! ### Temperatures (R12) -/

/-- The temperature of a die or hub is read. -/
def State.sense (s : State) (die temp : Nat) : State := s.onPkg fun p => { p with temps := setNth p.temps die temp }

/-- Some die or hub is at or above its throttle threshold. -/
def Package.hot (p : Package) : Bool := (List.range 6).any fun d => decide (Config.throttleAt d ≤ p.temps.getD d 0)

/-- Launches are no longer accepted, and every resident VD is told of the die (R12). -/
def State.throttle (s : State) (die : Nat) : State := (s.onPkg fun p => { p with throttled := true }).postDie die 3 5 0

/-- Dies and hubs at or above their thresholds. -/
def Package.hotDies (p : Package) : List Nat := (List.range 6).filter fun d => decide (Config.throttleAt d ≤ p.temps.getD d 0)

/-- THROTTLE_THRESHOLD_CROSSED: a class above 2.4 GHz is lowered to it first; at 2.4 GHz launches are no longer accepted,
and every resident VD is told. -/
def execThrottleThresholdCrossed (die temp : Nat) (s : State) : Outcome State Fault Refusal :=
  .next (if die < 6 ∧ Config.throttleAt die ≤ temp then
    let s := s.sense die temp
    if s.pkg.cls ≤ 2 ∧ s.pkg.clsTarget ≠ some 3 then (s.onPkg fun p => { p with capped := true }).throttle die
    else (s.onPkg fun p => { p with capped := true }).reclock
  else s)

/-- THROTTLE_RECOVERY: a die has been below its threshold for 10 ms; acceptance resumes once none is above its own. -/
def execThrottleRecovery (die temp : Nat) (s : State) : Outcome State Fault Refusal :=
  .next (if die < 6 ∧ temp < Config.throttleAt die then
    let s := s.sense die temp
    if s.pkg.hot then s else (s.onPkg fun p => { p with capped := false, throttled := false }).reclock
  else s)

/-- TRIP_THRESHOLD_CROSSED: all clocks stop, and the PCIe ports report Surprise Down. -/
def execTripThresholdCrossed (die temp : Nat) (s : State) : Outcome State Fault Refusal :=
  .next (if die < 6 ∧ Config.tripAt die ≤ temp then
    ((s.sense die temp).onPkg fun p => { p with tripped := true }).emit .surpriseDown
  else s)

/-! ### The clock (R18, R19) -/

/-- CLOCK_CLASS_CHANGE_DONE: the cores run at the new class; the next change that is due begins, and launches of a new VD
that waited for 2.4 GHz are accepted. Where the class was lowered for the sake of dies that are still too hot, launches are no
longer accepted (R12, R18, R19). -/
def execClockClassChangeDone (s : State) : Outcome State Fault Refusal :=
  match s.pkg.clsTarget with
  | none => .next s
  | some c =>
    let s := s.onPkg fun p => { p with cls := c, clsTarget := none, clk100 := 16 + 4 * c }
    let s := if c = 2 then { s with vds := mapS s.vds fun _ v => { v with hold := false } } else s
    let s := if c ≤ 2 ∧ s.pkg.capped ∧ !s.pkg.throttled then s.pkg.hotDies.foldl State.throttle s else s
    .next s.reclock

end Sys2Proof.Machine
end

