-- ==== Sys2Proof/Machine/Tenant.lean ====
section
/-! DEFINITION. The capability table, configuration records, and admission (R426 to R431, R436, R438). -/

namespace Sys2Proof.Machine

/-! ### Resource types (Table 18.7) -/

/-- Instances of a type; none for a package type. -/
def instancesOf (type : Nat) : List Nat :=
  match type with
  | 0x01 => [0, 1, 2, 3]
  | 0x02 => [0, 1]
  | 0x03 => [0, 1]
  | 0x05 => [0, 1, 2, 3, 4]
  | 0x06 => [0, 1]
  | 0x07 => List.range 16
  | 0x08 => [0, 1]
  | 0x09 => [0, 1]
  | 0x0A => [0, 1]
  | 0x0E => [0, 1, 2, 3]
  | 0x0F => [0, 1, 2, 3]
  | _ => []

/-- GRAN of a type. -/
def granOf (type : Nat) : Nat :=
  match type with
  | 0x04 => 8
  | 0x05 => 8
  | 0x0D => 4
  | 0x0E => 16
  | 0x0F => 4
  | _ => 1

/-- The type's floors and caps are in B/cycle. -/
def perCycle (type : Nat) : Bool := type == 4 || type == 5 || type == 7 || type == 8

/-- UNIT and UNITMUL of a type (Table 18.6). -/
def unitOf (type : Nat) : Nat × Nat :=
  match type with
  | 0x02 => (2, 12)
  | 0x03 => (3, 1)
  | 0x04 => (4, 1)
  | 0x05 => (4, 1)
  | 0x07 => (4, 1)
  | 0x08 => (4, 1)
  | 0x0F => (2, 1)
  | 0x10 => (0, 4096)
  | _ => (0, 1)

/-- COUNT of a type and instance with every die and channel present. -/
def nominal (type : Nat) : Nat :=
  match type with
  | 0x01 => 64
  | 0x02 => 128
  | 0x03 => 512
  | 0x04 => 16000
  | 0x05 => 4096
  | 0x06 => 256
  | 0x07 => 74
  | 0x08 => 85
  | 0x09 => 2048
  | 0x0A => 2048
  | 0x0B => 4096
  | 0x0C => 1048575
  | 0x0D => 1024
  | 0x0E => 16384
  | 0x0F => 4096
  | 0x10 => 2 ^ 28
  | 0x11 => 256
  | _ => 0

/-- Die `d` is admitted. -/
def State.dieUp (s : State) (d : Nat) : Bool := (s.dies.map (·.up)).getD d false

/-- COUNT of a type and instance now (R428 to R430, R439, R446, R458). -/
def State.capacity (s : State) (type inst : Nat) : Nat :=
  let n := nominal type
  let gone := s.pkg.chanOut.length
  match type with
  | 0x01 => if s.dieUp inst then n else 0
  | 0x03 => n - 2 * (s.pkg.chanOut.filter fun c => c / 256 == inst).length
  | 0x04 => n * (512 - gone) / 512 / 8 * 8
  | 0x05 => if inst = 4 || s.dieUp inst then n * (s.links.getD inst 0) / 24 / 8 * 8 else 0
  | 0x0E => if s.dieUp inst then n else 0
  | 0x0F => if s.dieUp inst then n else 0
  | 0x10 => if s.pkg.keysErased || s.pkg.flashBad then 0 else (2 ^ 40 - s.pkg.reserved) / 4096
  | _ => n

/-! ### Configuration records (R426, R427) -/

/-- A grant entry in 16 bytes. -/
def parseGrant (b : List Byte) : Grant :=
  let f (o n : Nat) : Nat := natOf ((b.drop o).take n)
  { type := f 0 2, inst := f 2 1, amount := f 4 4, floor := f 8 4, cap := f 12 4 }

/-- Grant entries of a record. -/
def parseGrants : Nat → List Byte → List Grant
  | 0, _ => []
  | n + 1, b => parseGrant b :: parseGrants n (b.drop 16)

/-- A grant entry names a type and an instance of it, and its FLOOR and CAP are of the type (R427). -/
def Grant.ok (g : Grant) : Bool :=
  decide (1 ≤ g.type ∧ g.type ≤ 0x11) && (g.inst == 0xFF || (instancesOf g.type).contains g.inst) &&
    (if g.type = 1 then decide (g.floor ≤ 256 ∧ g.cap ≤ 255)
     else if perCycle g.type then decide (g.cap = 0 ∨ g.floor ≤ g.cap)
     else decide (g.floor = 0 ∧ g.cap = 0))

/-- Two entries that may not stand together: one type and instance, or one spread beside another of its type. -/
def Grant.clash (a b : Grant) : Bool := a.type == b.type && (a.inst == b.inst || a.inst == 0xFF || b.inst == 0xFF)

/-- No two entries of a list clash. -/
def grantsApart : List Grant → Bool
  | [] => true
  | g :: r => !(r.any g.clash) && grantsApart r

/-- The VD number and configuration of a record of 256 bytes, or none where it breaks Table 18.5 or R427. -/
def parseConfig (b : List Byte) : Option (Nat × VdConfig) :=
  let f (o n : Nat) : Nat := natOf ((b.drop o).take n)
  let n := f 3 1
  let gs := parseGrants n (b.drop 32)
  let pads := (List.range n).all fun i => f (32 + 16 * i + 3) 1 == 0
  let deadline := f 4 4
  let bar := f 8 4
  let ok := decide (f 0 2 < 1024) && decide (f 2 1 ≤ 1) && decide (1 ≤ n ∧ n ≤ 14) &&
    decide (deadline = 0 ∨ (20 ≤ deadline ∧ deadline ≤ 10000)) && decide (bar ≤ 65536) &&
    decide (6 ≤ f 12 1 ∧ f 12 1 ≤ 16) && f 13 3 == 0 && (b.drop (32 + 16 * n)).all (· == 0) && pads &&
    gs.all Grant.ok && grantsApart gs
  let credits : Grant := { type := 0x0D, inst := 0xFF, amount := 4, floor := 0, cap := 0 }
  if ok then
    some (f 0 2,
      { secure := f 2 1 == 1, deadline := if deadline = 0 then 200 else deadline,
        barLimit := (if bar = 0 then 256 else bar) * 65536, fqLog2 := f 12 1, hback := f 16 8, hbSlots := f 24 8,
        grants := if gs.any fun g => g.type == 0x0D then gs else gs ++ [credits] })
  else none

/-! ### Admission (R427, R431) -/

/-- A grant by instance: spread over the instances present when INST is 0xFF (R427). -/
def State.spread (s : State) (g : Grant) : List Grant :=
  if g.inst ≠ 0xFF ∨ instancesOf g.type = [] then [g]
  else
    let live := (instancesOf g.type).filter fun i => s.capacity g.type i != 0
    let n := live.length
    if n = 0 then [{ g with inst := 0 }]
    else
      let gran := granOf g.type
      let part := g.amount / n / gran * gran
      let extra := (g.amount - part * n) / gran
      let share (v a : Nat) : Nat := if !perCycle g.type then v else if g.amount = 0 then v / n else v * a / g.amount
      mapIx (fun ix i =>
        let a := part + if ix < extra then gran else 0
        { g with inst := i, amount := a, floor := share g.floor a, cap := share g.cap a }) 0 live

/-- Grants of a configuration by instance. -/
def State.spreadAll (s : State) (c : VdConfig) : List Grant := c.grants.flatMap s.spread

/-- The sum of a list of numbers. -/
def total (l : List Nat) : Nat := l.foldl (· + ·) 0

/-- Every grant is a multiple of GRAN, and Badger credits are at least 4 (R431). -/
def grainsOk (c : VdConfig) : Bool :=
  c.grants.all fun g =>
    let n := granOf g.type
    g.amount % n == 0 && (!perCycle g.type || (g.floor % n == 0 && g.cap % n == 0)) &&
      (g.type != 0x0D || decide (4 ≤ g.amount))

/-- The amounts, and the floors in B/cycle, of all holders fit COUNT on every instance (R431). -/
def State.amountsFit (s : State) (all_ : List Grant) : Bool :=
  all_.all fun g =>
    let same := all_.filter fun h => h.type == g.type && h.inst == g.inst
    decide (total (same.map (·.amount)) ≤ s.capacity g.type g.inst) &&
      (!perCycle g.type || decide (total (same.map (·.floor)) ≤ s.capacity g.type g.inst))

/-- The VDs that hold grants, other than one. -/
def State.others (s : State) (vd : Nat) : List Vd :=
  (s.vds.filter fun e => e.1 != vd && decide (2 ≤ e.2.state)).map (·.2)

/-- The clusters that a grant takes on its die: the lowest on which its share fits, of its world or held by none. -/
def clustersOf (others : List Vd) (secure : Bool) (g : Grant) : Option (List (Nat × Nat × Nat)) :=
  let free := ((List.range 64).map (g.inst * 64 + ·)).filter fun c =>
    let holders := others.filter fun v => v.clusters.any fun k => k.1 == c
    let shares := total (others.flatMap fun v => (v.clusters.filter fun k => k.1 == c).map (·.2.1))
    decide (shares + g.floor ≤ 256) && holders.all fun v => v.config.secure == secure
  if free.length < g.amount then none
  else some ((free.take g.amount).map fun c => (c, g.floor, if g.cap = 0 then 1 else g.cap))

/-- The clusters of all cluster grants. -/
def clustersAll (others : List Vd) (secure : Bool) : List Grant → Option (List (Nat × Nat × Nat))
  | [] => some []
  | g :: r =>
    if g.type = 1 then do
      let a ← clustersOf others secure g
      let b ← clustersAll others secure r
      some (a ++ b)
    else clustersAll others secure r

/-- The gather quotas registered by the contexts that would share a cluster fit its store (R369, R431). -/
def State.quotasFit (s : State) (vd : Nat) (clusters : List (Nat × Nat × Nat)) : Bool :=
  let quotas (p : Nat → Bool) : Nat := total ((s.ctxs.filter fun e => p e.2.vd).map fun e => e.2.quota)
  clusters.all fun k =>
    decide (quotas (fun v => v == vd || (s.vd? v).any fun x => decide (2 ≤ x.state) && x.clusters.any fun j => j.1 == k.1) ≤ 8192)

/-- The lowest free run of MSI-X entries of a length (R436). -/
def msixRun (others : List Vd) (n : Nat) : Option Nat :=
  let free (b : Nat) : Bool := others.all fun v => v.msixLen == 0 || n == 0 || decide (b + n ≤ v.msixBase ∨ v.msixBase + v.msixLen ≤ b)
  minOf ((0 :: others.map fun v => v.msixBase + v.msixLen).filter fun b => decide (b + n ≤ 4096) && free b)

/-- What admission grants: grants by instance, clusters, MSI-X run. -/
structure Admitted where
  held : List Grant
  clusters : List (Nat × Nat × Nat)
  msixBase : Nat
  msixLen : Nat

/-- Admission of a configuration in place of what the VD holds (R431, R436, R425). -/
def State.admission (s : State) (vd : Nat) (c : VdConfig) : Option Admitted :=
  let others := s.others vd
  let mine := s.spreadAll c
  if others.length ≥ 256 || !grainsOk c || !s.amountsFit (mine ++ others.flatMap (·.held)) then none
  else
    match clustersAll others c.secure mine with
    | none => none
    | some ks =>
      let n := total ((mine.filter fun g => g.type == 0x0B).map (·.amount))
      let kept := (s.vd? vd).bind fun v => if v.state = 2 ∧ v.msixLen = n then some v.msixBase else none
      match kept.orElse fun _ => msixRun others n with
      | none => none
      | some b => if s.quotasFit vd ks then some { held := mine, clusters := ks, msixBase := b, msixLen := n } else none

/-- The L1s of some clusters, and what the L2s hold for their cores, are emptied (R438). -/
def State.emptyCaches (s : State) (cs : List Nat) : State :=
  let left (e : List Nat × Bool) : List Nat × Bool :=
    let ks := e.1.filter fun k => !cs.contains (clusterOf k)
    if ks = e.1 then e else (ks, false)
  { s with dieDir := keep (mapS s.dieDir fun _ e => left e) fun _ e => e.1 != [] || e.2 }

/-- Clusters go to the VD's world; one that changes it is scrubbed, and holds no reservation (R438). -/
def State.takeClusters (s : State) (secure : Bool) (ks : List (Nat × Nat × Nat)) : State :=
  let s := s.emptyCaches ((ks.map (·.1)).filter fun k => (look s.clusters k).all fun c => c.secure != some secure)
  { s with clusters := ks.foldl (fun m k =>
      match look m k.1 with
      | some c => if c.secure = some secure then m else put m k.1 { secure := some secure, reserve := [] }
      | none => put m k.1 { secure := some secure, reserve := [] }) s.clusters }

/-- A VD with what admission granted. -/
def Vd.granted (v : Vd) (a : Admitted) : Vd :=
  { v with held := a.held, clusters := a.clusters, msixBase := a.msixBase, msixLen := a.msixLen }

/-- The results of VD_ADMIT and VD_RESIZE: the mask of clusters, the MSI-X run (Table 18.3). -/
def Vd.results (v : Vd) : List Word :=
  let mask := v.clusters.foldl (fun n k => n ||| 2 ^ k.1) 0
  (List.range 8).map (fun i => w32 (mask / 2 ^ (32 * i))) ++ [w32 v.msixBase, w32 v.msixLen]

/-- Units of a type that the VD holds on an instance. -/
def Vd.units (v : Vd) (type inst : Nat) : Nat :=
  total ((v.held.filter fun g => g.type == type && g.inst == inst).map (·.amount))

end Sys2Proof.Machine
end

