-- ==== Sys2Proof/Machine/Mailbox.lean ====
section
/-! DEFINITION. The mailbox and its commands (R19, R421 to R425, R434 to R437, R439, R444). -/

namespace Sys2Proof.Machine

open Host (Outcome)

/-! ### Commands (R422 to R425, R439) -/

/-- Word `n` of MBARG, and a 64-bit number in two of them. -/
def State.argN (s : State) (n : Nat) : Nat := (s.mb.arg.getD n 0).toNat
def State.argQ (s : State) (n : Nat) : Nat := s.argN n + 2 ^ 32 * s.argN (n + 1)

/-- Results in MBARG from word 0. -/
def State.answer (s : State) (ws : List Word) : State := s.onMb fun m => { m with arg := ws ++ m.arg.drop ws.length }

/-- The mailbox is served: in RECOVERY, or once the function answers (R21, R424). -/
def State.mailboxOn (s : State) : Bool := s.pkg.recovery || decide (4 ≤ s.pkg.stage)

/-- RESULT of a command that RECOVERY or the alarm level does not permit (R424, R439). -/
def State.barred (s : State) (op : Nat) : Option Nat :=
  if 0x10000 ≤ op then none
  else if s.pkg.recovery ∧ op ≠ 0x02 ∧ op ≠ 0x51 then some 3
  else if 2 ≤ s.mb.alarmLevel ∧ !([0x02, 0x03, 0x15, 0x22, 0x31, 0x40, 0x70].contains op) then some 4
  else none

/-- The command goes on until an event completes it. -/
def State.mbWaits (s : State) (w : MbWait) : State := s.onMb fun m => { m with wait := some w }

/-- RESULT of a command that completes: 0x05 when an engine was reset for it (R442). -/
def State.doneResult (s : State) : Nat := if s.mb.escalated then 5 else 0

/-- The KIND 0x07 record of a command that leaves a VD in a state (R425). -/
def State.vdRecord (s : State) (vd state : Nat) : State :=
  s.postState vd { source := vd, kind := 7, fclass := state, detail := s.mb.tag }

/-! ### Registers of BAR0 -/

/-- MGMT_RING. -/
def State.doMgmtRing (s : State) : State :=
  let n := s.argN 2
  if n < 6 ∨ 16 < n then s.mbDone 1
  else (s.onMb fun m => { m with mgBase := some (s.argQ 0), mgLog2 := n, mgw := 0, mgr := 0 }).mbDone 0

/-- MGRPTR_WRITE (Table 18.1). -/
def execMgrptrWrite (v : Word) (s : State) : Outcome State Fault Refusal :=
  .next (s.onMb fun m => if v.toNat < 2 ^ m.mgLog2 then { m with mgr := v.toNat } else m)

/-- MGDROP_CLEAR (Table 18.1). -/
def execMgdropClear (v : Word) (s : State) : Outcome State Fault Refusal :=
  .next (s.onMb fun m => if bits v.toNat 15 0 ≠ 0 then { m with mgDrop := 0 } else m)

/-- The context and counter that FPSEL of a VD selects, when the VD holds them (Table 18.9). -/
def State.fpSelected (s : State) (vd : Nat) : Option (Nat × Nat) :=
  match s.vd? vd with
  | none => none
  | some v =>
    let c := ctxKey vd (bits v.fpsel.toNat 29 24)
    let n := bits v.fpsel.toNat 4 0
    if (s.ctx? c).isSome ∧ n ≤ 23 then some (c, n) else none

/-- PLAIN_REGISTER_WRITE: EVCTL, ALARMCFG, MBARG, FPSEL and FPTHR (Tables 16.1, 18.1, 18.9). -/
def execPlainRegisterWrite (r : PlainReg) (v : DWord) (s : State) : Outcome State Fault Refusal :=
  .next (match r with
    | .evctl qi => s.setEvctl qi (lo32 v)
    | .alarmCfg =>
      let s := s.onMb fun m => { m with alarmCfg := lo32 v }
      s.alarmTo (alarmLevelOf s.mb.alarmCount s.mb.alarmCfg)
    | .mbarg n =>
      if s.mb.busy ∧ ¬ (s.mb.wait = some .update ∧ s.mb.held = none) then s
      else s.onMb fun m => { m with arg := setNth m.arg n (lo32 v) }
    | .fpsel vd =>
      if (s.ctx? (ctxKey vd (bits v.toNat 29 24))).isSome then
        s.onVd vd fun x => { x with fpsel := lo32 v &&& 0x3F00001F#32 }
      else s
    | .fpthr vd =>
      match s.fpSelected vd with
      | none => s
      | some (c, n) => s.onCtx c fun x => { x with fpThr := put x.fpThr n (v.toNat % 2 ^ 48) })

/-- Results of INFO_READ by selector (R424). -/
def State.info (s : State) (sel : Nat) : Option (List Word) :=
  match sel with
  | 0 => some ((List.range 6).flatMap fun n =>
      [w32 (Config.throttleAt n), w32 (Config.tripAt n), w32 (s.pkg.temps.getD n 0)])
  | 1 =>
    let fs := s.failures.take 63
    some (w32 fs.length :: fs.map fun f => w32 (f.1 + f.2.1 * 2 ^ 8 + f.2.2 * 2 ^ 16))
  | 2 =>
    let version (n : Nat) : Nat := (s.pkg.slots[n]?).elim 0 fun e => if e.2 then e.1 else 0
    some [w32 (version 0), w32 (version 1), w32 s.pkg.rollback, w32 s.pkg.runSlot]
  | _ => none

/-- INFO_READ (R424). -/
def State.doInfoRead (s : State) : State :=
  match s.info (s.argN 0) with
  | none => s.mbDone 1
  | some ws => (s.answer ws).mbDone 0

/-- PKG_RESET: BUSY stays 1 until stage 0x07 is complete again (R424). -/
def State.doPkgReset (s : State) : State :=
  s.packageReset.mbWaits .reset

/-- RCPT_KEY (R424). -/
def State.doRcptKey (s : State) : State :=
  if s.pkg.keysErased then s.mbDone 4
  else
    (s.answer (wordsOf receiptKey ++
      [w32 s.pkg.reserved, w32 (s.pkg.reserved / 2 ^ 32 % 256)])).mbDone 0

/-! ### Firmware (R403, R424) -/

/-- The image passes the checks of R20: signature and anti-rollback counter. -/
def Package.imageOk (p : Package) (img : FwImage) : Bool := img.verifies && img.version != 0 && decide (p.rollback ≤ img.version)

/-- FW_IMAGE: a live update begins with the verified image in the slot that does not run (R403). -/
def State.doFwImage (s : State) (img : FwImage) : State :=
  if !s.pkg.standby then s.mbDone 3
  else if !s.pkg.imageOk img then s.mbDone 1
  else
    let slot := 1 - s.pkg.runSlot
    (s.onPkg fun p =>
      { p with slots := setNth p.slots slot (img.version, true), standby := false,
               update := some { image := img, slot, phase := 0, since := s.time.toNat } }).mbWaits .update

/-- FW_RECOVER: a verified image goes into a flash slot while in RECOVERY (R424). -/
def State.doFwRecover (s : State) (img : FwImage) : State :=
  if !s.pkg.recovery then s.mbDone 3
  else if 1 < s.argN 3 ∨ !s.pkg.imageOk img then s.mbDone 1
  else (s.onPkg fun p => { p with slots := setNth p.slots (s.argN 3) (img.version, true) }).mbDone 0

/-! ### Virtual devices (R425, R434) -/

/-- A VD as VD_CREATE leaves it. -/
def Vd.fresh (c : VdConfig) : Vd :=
  { state := 1, config := c, clusters := [], msixBase := 0, msixLen := 0, fqw := 0, fqr := 0, fids := [], waiting := [],
    diagw := 0, fpsel := 0, graphs := [], ranges := [], invals := [], held := [], slots := [], hold := false, hint := none }

/-- VD_CREATE: FREE to DEFINED; its stage-2 tables are made (R405, R426). -/
def State.doVdCreate (s : State) : State :=
  match parseConfig (bytesOfWords s.mb.arg) with
  | none => s.mbDone 1
  | some (vd, c) =>
    if (s.vd? vd).isSome then s.mbDone 3
    else
      let s := (Config.stage2Tables vd).foldl (fun s (e : Nat × List Byte) => s.storeFresh e.1 e.2) s
      let s := s.tenantTables vd c
      (({ s with vds := put s.vds vd (Vd.fresh c) } : State).vdRecord vd 1).mbDone 0

/-- A new resident VD's first launch waits until the clock is back at 2.4 GHz (R19). -/
def State.mustHold (s : State) : Bool :=
  decide (2 ≤ s.tenants.length) && (s.pkg.cls != 2 || s.pkg.clsTarget.any (· != 2))

/-- VD_ADMIT: DEFINED to RESIDENT (R19, R431). -/
def State.doVdAdmit (s : State) : State :=
  let vd := s.argN 0
  if 1024 ≤ vd then s.mbDone 1
  else
    match s.vd? vd with
    | none => s.mbDone 3
    | some v =>
      if v.state ≠ 1 then s.mbDone 3
      else
        match s.admission vd v.config with
        | none => s.mbDone 2
        | some a =>
          let v := { v.granted a with state := 2 }
          let s := { s.takeClusters v.config.secure a.clusters with vds := put s.vds vd v }
          let s := s.onVd vd fun v => { v with hold := s.mustHold }
          (((s.answer v.results).vdRecord vd 2).reclock).mbDone 0

/-- Units of pre-emption whose context and core satisfy a test. -/
def State.unitsWhere (s : State) (p : Nat → Nat → Bool) : List UnitId :=
  (s.gangs.filter fun e => p e.2.ctx (e.2.cluster * 16)).map (fun e => UnitId.gang e.1) ++
    (s.warps.filter fun e => e.2.crew.isNone && p e.2.ctx (e.1 / 16)).map fun e => UnitId.loose (e.1 / 16) (e.1 % 16)

/-- Units are saved, without the choice of R373; one being drained is saved instead. -/
def State.saveUnits (s : State) (die : Option Nat) (us : List UnitId) : State :=
  us.foldl (fun s u =>
    let start := (s.parts u).elim 0 fun p => s.cycleOf p.core
    if s.preempts.any fun x => x.unit == u then s.onPreempt u fun x => { x with option := 1, die := die.orElse fun _ => x.die }
    else
      { s with preempts := s.preempts ++ [{ unit := u, option := 1, start, missed := false, full := false, parked := false,
                                             die }] }) s

/-- Units of a VD that leave its clusters: those on clusters that it will not hold. -/
def State.leaving (s : State) (vd : Nat) (next : Vd) : List UnitId :=
  s.unitsWhere fun c core => s.vdOf c == vd && !next.clusters.any fun k => k.1 == clusterOf core

/-- The state in which a command leaves a VD that it found RESIDENT: STOPPED when the alarm rose meanwhile (R439). -/
def State.residentState (s : State) : Nat := if 2 ≤ s.mb.alarmLevel then 4 else 2

/-- VD_EVICT and VD_RESIZE complete once no unit that leaves is left. -/
def State.finishSaves (s : State) : State :=
  match s.mb.wait with
  | some (.saves vd next) =>
    if s.leaving vd next ≠ [] then s
    else
      let state := if next.state = 1 then 1 else s.residentState
      let old := (s.vd? vd).elim 0 (·.msixBase)
      let s := s.takeClusters next.config.secure next.clusters
      let s := s.onVd vd fun v =>
        { v with state, config := next.config, held := next.held, clusters := next.clusters, msixBase := next.msixBase,
                 msixLen := next.msixLen, hint := if state = 1 then none else v.hint }
      let s := { s with qis := mapS s.qis fun _ x =>
        if x.bound ∧ x.vd = vd ∧ state ≠ 1 then
          { x with remap := w32 (x.remap.toNat / 4096 * 4096 + (bits x.remap.toNat 11 0 + next.msixBase - old) % 4096) }
        else x }
      let s := if state = 1 then s else s.answer next.results
      ((s.vdRecord vd state).reclock).mbDone s.doneResult
  | _ => s

/-- VD_EVICT: RESIDENT to DEFINED, with every unit saved. -/
def State.doVdEvict (s : State) : State :=
  let vd := s.argN 0
  if 1024 ≤ vd then s.mbDone 1
  else
    match s.vd? vd with
    | none => s.mbDone 3
    | some v =>
      if v.state ≠ 2 then s.mbDone 3
      else
        let next := { v with state := 1, held := [], clusters := [], msixBase := 0, msixLen := 0 }
        let s := (s.onVd vd fun v => { v with state := 3 }).saveUnits none (s.leaving vd next)
        (s.mbWaits (.saves vd next)).finishSaves

/-- Some remap entry of a VD names a position beyond a run of a length (R436). -/
def State.vectorBeyond (s : State) (vd : Nat) (v : Vd) (n : Nat) : Bool :=
  s.qis.any fun e => e.2.bound && e.2.vd == vd && decide (v.msixBase + n ≤ bits e.2.remap.toNat 11 0)

/-- VD_RESIZE: new grants for a RESIDENT VD, its other work saved and restored within them; configuration only for a
DEFINED one (R434). -/
def State.doVdResize (s : State) : State :=
  match parseConfig (bytesOfWords s.mb.arg) with
  | none => s.mbDone 1
  | some (vd, c) =>
    match s.vd? vd with
    | none => s.mbDone 3
    | some v =>
      if v.state = 1 then (((s.tenantTables vd c).onVd vd fun v => { v with config := c }).vdRecord vd 1).mbDone 0
      else if v.state ≠ 2 then s.mbDone 3
      else if c.secure != v.config.secure then s.mbDone 2
      else
        let c := { c with fqLog2 := v.config.fqLog2 }
        match s.admission vd c with
        | none => s.mbDone 2
        | some a =>
          if s.vectorBeyond vd v a.msixLen then s.mbDone 2
          else
            let next := { v.granted a with config := c }
            let s := (s.onVd vd fun v => { v with state := 3 }).saveUnits none (s.leaving vd next)
            (s.mbWaits (.saves vd next)).finishSaves

/-- GANG_SAVE_COMPLETE: at safe points in every thread, or whole (R47, R49, R376). A save that ends after the deadline
misses it (R375). The last save that VD_EVICT or VD_RESIZE waits for completes the command. -/
def execGangSaveComplete (u : UnitId) (s : State) : Outcome State Fault Refusal :=
  match s.parts u, s.preempts.find? fun x => x.unit == u with
  | some p, some x =>
    let late := decide (x.start + s.deadline p < s.cycleOf p.core)
    .next (if s.runs p.ctx && (x.full || (x.option == 1 && p.stopped)) then
      ((s.onPreempt u fun x => { x with missed := x.missed || late }).trySave p u (if x.full then 1 else 0)).finishSaves
    else s)
  | none, _ => .next s.finishSaves
  | _, _ => .next s

/-! ### Kills by command (R440 to R444) -/

/-- Contexts of a VD. -/
def State.ctxsOf (s : State) (vd : Nat) : List Nat := (s.ctxs.filter fun e => e.2.vd == vd).map (·.1)

/-- A context is destroyed: its PASID and chain are freed, with the graphs that it registered (Table 18.3). -/
def State.destroyCtx (s : State) (c : Nat) : State :=
  ({ s with ctxs := drop s.ctxs c } : State).onVd (c / 64) fun v => { v with graphs := keep v.graphs fun _ g => g.ctx != c }

/-- The interfaces of a VD are unbound. -/
def State.unbindAll (s : State) (vd : Nat) : State :=
  { s with qis := mapS s.qis fun _ x => if x.vd = vd then { x with bound := false, closing := false } else x }

/-- A command that waits for kills completes once all of them are DONE. -/
def State.finishKills (s : State) : State :=
  match s.mb.wait with
  | some (.kills vd cs op) =>
    if cs.any fun c => (s.ctx? c).any fun x => x.kill.isSome then s
    else
      match op with
      | 0x21 => s.mbDone s.doneResult
      | 0x22 => (cs.foldl State.destroyCtx s).mbDone s.doneResult
      | 0x14 =>
        let s := cs.foldl State.destroyCtx s
        let state := s.residentState
        let s := (s.onVd vd fun v => { v with state, invals := [] }).vdRecord vd state
        (s.unbindAll vd).mbDone s.doneResult
      | _ => ((cs.foldl State.destroyCtx s).unbindAll vd).mbWaits (.scrub vd)
  | _ => s

/-- The contexts are killed, and the command waits for that. -/
def State.killAll (s : State) (vd : Nat) (cs : List Nat) (op : Nat) : State :=
  ((cs.foldl (fun s c => s.kill c (killOf s.time (op == 0x21))) s).mbWaits (.kills vd cs op)).finishKills

/-- VD_RESET: every context killed and destroyed, queues unbound, grants kept. -/
def State.doVdReset (s : State) : State :=
  let vd := s.argN 0
  if 1024 ≤ vd then s.mbDone 1
  else if (s.vd? vd).all fun v => v.state != 2 then s.mbDone 3
  else (s.onVd vd fun v => { v with state := 3 }).killAll vd (s.ctxsOf vd) 0x14

/-- VD_DESTROY: as VD_RESET, then its memory is scrubbed, and it is FREE (R444). -/
def State.doVdDestroy (s : State) : State :=
  let vd := s.argN 0
  if 1024 ≤ vd then s.mbDone 1
  else if (s.vd? vd).all fun v => v.state == 0 || v.state == 3 then s.mbDone 3
  else (s.onVd vd fun v => { v with state := 3 }).killAll vd (s.ctxsOf vd) 0x15

/-- VD_SCRUB_COMPLETE: every page of the VD is zero with valid check values, and every grant and record of it is freed
(R444). -/
def execVdScrubComplete (vd : Nat) (s : State) : Outcome State Fault Refusal :=
  .next (if s.mb.wait = some (.scrub vd) then
    let own (l : Nat) : Bool := (Config.vdMemory vd).any fun g => decide (g.1 ≤ l * 64 ∧ l * 64 < g.1 + g.2)
    let s := { s with
      mem := (Config.vdMemory vd).foldl (fun m (g : Nat × Nat) => Memory.zero m g.1 g.2) s.mem,
      syndrome := keep s.syndrome fun l _ => !own l, dir := keep s.dir fun l _ => !own l,
      dieDir := keep s.dieDir fun k _ => !own (k / 4), patched := keep s.patched fun l _ => !own l,
      vds := drop s.vds vd,
      endpoints := keep s.endpoints fun _ e => (e.extractLsb' 107 10).toNat != vd }
    ((s.vdRecord vd 0).reclock).mbDone s.doneResult
  else s)

/-! ### Contexts -/

/-- A stage-1 root in MBARG: none, or a multiple of 4 KiB below 2^48; the answer is none where it is neither (Table 18.3). -/
def rootOf (v : Nat) : Option (Option Nat) :=
  if v = 2 ^ 64 - 1 then some none else if v % 4096 = 0 ∧ v < 2 ^ 48 then some (some v) else none

/-- A PASID that no context has: the tenant controller's choice (R37, Table 18.7). -/
def State.pickPasid (s : State) (stamp : Nat) : Nat :=
  let used (n : Nat) : Bool := n == 0 || s.ctxs.any fun e => e.2.pasid == n
  let n := Config.freeChoice stamp
  if n < 2 ^ 20 ∧ !used n then n else (firstBelow (fun k => !used k) (s.ctxs.length + 2)).getD 0

/-- CTX_CREATE: the chain starts as R396 says. -/
def State.doCtxCreate (s : State) : State :=
  let vd := s.argN 0
  let num := s.argN 1
  match rootOf (s.argQ 2) with
  | none => s.mbDone 1
  | some root =>
    if 1024 ≤ vd ∨ 64 ≤ num ∨ 4096 ≤ s.argN 4 then s.mbDone 1
    else if ((s.vd? vd).all fun v => v.state != 2) ∨ (s.ctx? (ctxKey vd num)).isSome then s.mbDone 3
    else
      let (st, s) := s.draw
      let pasid := s.pickPasid st
      let chain := BitVec.ofNat 256 (natOf (sha256 (bytesOf 2 vd ++ bytesOf 1 num)))
      let x := { Ctx.bare vd num pasid [] with root, trapCode := s.argN 4, trapOff := w32 (s.argN 5), chain }
      (({ s with ctxs := put s.ctxs (ctxKey vd num) x } : State).answer [w32 pasid]).mbDone 0

/-- A command that names a context which must exist. -/
def State.onCtxCommand (s : State) (k : Nat → Nat → State → State) : State :=
  let vd := s.argN 0
  let num := s.argN 1
  if 1024 ≤ vd ∨ 64 ≤ num then s.mbDone 1
  else if (s.ctx? (ctxKey vd num)).isNone then s.mbDone 3
  else k vd (ctxKey vd num) s

/-- CTX_KILL (R440). -/
def State.doCtxKill (s : State) : State :=
  s.onCtxCommand fun vd c s => s.killAll vd [c] 0x21

/-- CTX_DESTROY: CTX_KILL, then the PASID and chain are freed. -/
def State.doCtxDestroy (s : State) : State :=
  s.onCtxCommand fun vd c s => s.killAll vd [c] 0x22

/-- CTX_SETROOT: the root is replaced, and the command completes with the invalidation (R413). -/
def State.doCtxSetroot (s : State) : State :=
  match rootOf (s.argQ 2) with
  | none => s.mbDone 1
  | some root => s.onCtxCommand fun _ c s =>
    (((s.onCtx c fun x => { x with root }).invalidateCtx c none).performFree fun p => p.ctx == c).mbWaits (.inval c)

/-! ### Queue interfaces (R435, R436) -/

/-- A ring of a number of bytes lies in a handle that is valid, of space GLOBAL or HOSTSVA, and satisfies a test. -/
def ringFits (e : BitVec 256) (off bytes align : Nat) (ok : Bool) : Bool :=
  Entry.valid e && (Entry.space e == 0 || Entry.space e == 4) && ok && off % align == 0 && decide (off + bytes ≤ Entry.length e)

/-- An interface as QI_BIND leaves it. -/
def Qi.fresh (vd ctx : Nat) (secure : Bool) (ringH ringOff k evH evOff e : Nat) (remap : Word) : Qi :=
  { vd, ctx, bound := true, closing := false, secure, ringH, ringOff, k, evH, evOff, e, remap, pw := 0, pr := 0, evw := 0,
    evr := 0, evctl := 0, stopped := false, kdrop := 0, evdrop := 0, kicks := [], ib := [], begun := [], seq := 0,
    records := [], unsignalled := 0, oldest := 0, hold := none, wait := .none, answers := [], extData := [], extErr := [],
    rwait := .none }

/-- The VD may bind one more interface of a hub, and its run of vectors holds the one named (R435, R436). -/
def State.mayBind (s : State) (vd : Nat) (v : Vd) (hub vector : Nat) : Bool :=
  let mine := s.qis.filter fun e => e.2.bound && e.2.vd == vd
  let here := (mine.filter fun e => hubOfQi e.1 == hub).length
  decide (mine.length < 16) && decide (here < v.units 0x09 hub) && decide (here < v.units 0x0A hub) &&
    decide (v.msixBase ≤ vector ∧ vector < v.msixBase + v.msixLen)

/-- QI_BIND (R435, R436). -/
def State.doQiBind (s : State) : State :=
  let q := s.argN 0
  let vd := s.argN 1
  let k := s.argN 6
  let e := s.argN 10
  let remap := w32 (s.argN 11)
  if 4096 ≤ q ∨ 1024 ≤ vd ∨ 64 ≤ s.argN 2 ∨ 4096 ≤ s.argN 3 ∨ 4096 ≤ s.argN 7 ∨ k < 10 ∨ 22 < k ∨ e < 6 ∨ 16 < e ∨
      bits remap.toNat 30 12 ≠ 0 then s.mbDone 1
  else
    let c := ctxKey vd (s.argN 2)
    match s.vd? vd, s.ctx? c with
    | some v, some x =>
      if v.state ≠ 2 ∨ (s.qi? q).any (·.bound) then s.mbDone 3
      else if !s.mayBind vd v (hubOfQi q) (bits remap.toNat 11 0) then s.mbDone 2
      else
        let ring := (look x.handles (s.argN 3)).getD 0
        let ev := (look x.handles (s.argN 7)).getD 0
        if ringFits ring (s.argQ 4) (4 * 2 ^ k) 4 (Entry.pr ring) &&
            ringFits ev (s.argQ 8) (32 * 2 ^ e) 32 (Entry.pw ev && Entry.kind ev != 0) then
          ({ s with qis := put s.qis q (Qi.fresh vd c v.config.secure (s.argN 3) (s.argQ 4) k (s.argN 7) (s.argQ 8) e
              remap) } : State).mbDone 0
        else s.mbDone 1
    | _, _ => s.mbDone 3

/-- A command that names an interface which must be bound. -/
def State.onQiCommand (s : State) (k : Nat → State → State) : State :=
  let q := s.argN 0
  if 4096 ≤ q then s.mbDone 1
  else if (s.qi? q).all fun x => !x.bound || x.closing then s.mbDone 3
  else (k q s).mbDone 0

/-- QI_UNBIND: the interface stops and is unbound; packets begun complete (Table 18.3). -/
def State.doQiUnbind (s : State) : State :=
  s.onQiCommand fun q s =>
    (s.onQi q fun x => { x with stopped := true, kicks := [], closing := true }).letGo q

/-- QI_RESTART: STOPPED is cleared (R382). -/
def State.doQiRestart (s : State) : State :=
  s.onQiCommand fun q s => s.restartQueue q

/-! ### The alarm and the fabric endpoints -/

/-- ALARM_CLEAR: COUNT and LEVEL go to 0 and STOPPED VDs to RESIDENT; at level 3 only COUNT is cleared (R439). -/
def State.doAlarmClear (s : State) : State :=
  let s := s.onMb fun m => { m with alarmCount := 0 }
  if s.mb.alarmLevel = 3 then s.mbDone 0
  else
    let s := s.onMb fun m => { m with alarmLevel := 0 }
    let back := (s.vds.filter fun e => e.2.state == 4).map (·.1)
    ((back.foldl (fun s v => (s.onVd v fun x => { x with state := 2 }).vdRecord v 2) s).reclock).mbDone 0

/-- The entry of an endpoint keeps the fields of Table 19.3: reserved bits 0, ports of its own hub. -/
def endpointOk (ep : Nat) (e : BitVec 128) : Bool :=
  let f (lo n : Nat) : Nat := e.toNat / 2 ^ lo % 2 ^ n
  f 117 10 == 0 && f 0 28 == 0 && (if ep < 256 then f 56 8 == 0 else f 48 8 == 0)

/-- The VD that an endpoint entry names holds an endpoint grant of the hub that another entry does not use. -/
def State.endpointGranted (s : State) (ep : Nat) (e : BitVec 128) : Bool :=
  let vdOf (x : BitVec 128) : Nat := (x.extractLsb' 107 10).toNat
  let used := s.endpoints.filter fun o => o.1 != ep && o.1 / 256 == ep / 256 && o.2.getLsbD 127 && vdOf o.2 == vdOf e
  (s.vd? (vdOf e)).any fun v => decide (used.length < v.units 0x06 (ep / 256))

/-- EP_SET (R451). -/
def State.doEpSet (s : State) : State :=
  let ep := s.argN 0
  let e : BitVec 128 := BitVec.ofNat 128 (s.argQ 1 + 2 ^ 64 * s.argQ 3)
  if 512 ≤ ep ∨ !endpointOk ep e then s.mbDone 1
  else if e.getLsbD 127 && !s.endpointGranted ep e then s.mbDone 2
  else ({ s with endpoints := put s.endpoints ep e } : State).mbDone 0

end Sys2Proof.Machine
end

