-- ==== Sys2Proof/Machine/Dies.lean ====
section
/-! DEFINITION. Warm reset and isolation of compute dies (R289, R291, R292, R457 to R460). -/

namespace Sys2Proof.Machine

open Host (Outcome)

/-- The record of a die. -/
def State.die (s : State) (d : Nat) : Die := s.dies.getD d Die.reset

/-- Units of pre-emption on a die. -/
def State.unitsOn (s : State) (d : Nat) : List UnitId := s.unitsWhere fun _ core => dieOf core == d

/-- Step 1 of a warm reset: the die leaves DIES_UP and the capability table, event 0x02 goes out, and the saves of step 2
begin. A reset in progress is joined (R457, R458). Reasons are those of Table 19.8. -/
def State.beginReset (s : State) (d reason : Nat) : State :=
  if (s.die d).step ≠ 0 then s
  else
    let s := (s.onDie d fun x => { x with up := false, step := 2, start := s.time }).capChange
    let s := { s with clusters := mapS s.clusters fun k c => if k / 64 = d then { c with reserve := [] } else c }
    (s.postDie d 0 2 reason).saveUnits (some d) (s.unitsOn d)

/-- DIE_RESET (R457). -/
def State.doDieReset (s : State) : State :=
  let d := s.argN 0
  let other := (List.range 4).any fun n => n != d && (s.die n).step != 0
  let last := (s.die d).up && (List.range 4).all fun n => n == d || !(s.die n).up
  if 4 ≤ d then s.mbDone 1
  else if other ∨ last then s.mbDone 3
  else (s.beginReset d 0).mbDone 0

/-- DIE_UNITS_SAVED: steps 2 and 3 end when no unit is left on the die; its Badger slots move (R240). -/
def execDieUnitsSaved (die : Nat) (s : State) : Outcome State Fault Refusal :=
  .next (if (s.die die).step = 2 ∧ s.unitsOn die = [] then s.onDie die fun x => { x with step := 4 } else s)

/-- A request that a die has accepted and not performed: its Badgers, or a core of it for a tile or an owned grain (R240,
Table 10.1). -/
def AtomReq.onDie (a : AtomReq) (d : Nat) : Bool :=
  a.ready && match a.badger with | some b => b / 64 == d | none => dieOf a.core == d

/-- Contexts whose requests an isolated die leaves unanswered: atomics that it accepted, and stores of its cores that reached
no home (R458, R459). -/
def State.unanswered (s : State) (d : Nat) : List Nat :=
  (((s.atoms.filter fun (e : Nat × AtomReq) => e.2.onDie d && !e.2.isPeer).map fun (e : Nat × AtomReq) => e.2.ctx) ++
   (s.pending.filter fun p => dieOf p.core == d).map (·.ctx) ++ (s.wbuf.filter fun e => dieOf e.core == d).map (·.ctx)).dedup

/-- A context stops with DIE_LOST (R459). -/
def State.stopDie (s : State) (d c : Nat) : State := s.stop c Cls.dieLost 0xFFFFFFFF 0 0xFFFFFFFF#32 0 d

/-- The requests of peers that an isolated die leaves unanswered get an error response (R452, R458). -/
def State.refusePeers (s : State) (d : Nat) : State :=
  (s.atoms.filter fun (e : Nat × AtomReq) => e.2.onDie d && e.2.isPeer).foldl
    (fun s (e : Nat × AtomReq) => s.refusePeer e.1 e.2 2) s

/-- DIE_QUIESCED: step 4 ends once every request that the die accepted is answered. Of an isolated die, what is unanswered
gets the error reply, and step 5 is skipped. -/
def execDieQuiesced (die : Nat) (s : State) : Outcome State Fault Refusal :=
  let x := s.die die
  .next (if x.step ≠ 4 then s
  else if !x.isolated then
    if s.atoms.any fun (e : Nat × AtomReq) => e.2.onDie die then s else s.onDie die fun x => { x with step := 5 }
  else
    let cs := s.unanswered die
    let s := s.refusePeers die
    let s := { s with
      atoms := keep s.atoms fun _ a => !a.onDie die,
      pending := s.pending.filter fun p => dieOf p.core != die, wbuf := s.wbuf.filter fun e => dieOf e.core != die }
    (cs.foldl (State.stopDie · die ·) s).onDie die fun x => { x with step := 6 })

/-- The directory without a die (Table 11.6). -/
def State.dirForget (s : State) (d : Nat) : State :=
  let without (_ : Nat) (e : List Nat × List Byte) : List Nat × List Byte :=
    if e.1.contains d then (e.1.filter fun n => n != d, []) else e
  { s with dir := keep (mapS s.dir without) fun _ e => e.1 != [], dieDir := keep s.dieDir fun k _ => k % 4 != d }

/-- DIE_WRITEBACK_DONE: step 5 ends: what the die's cores and L2 held is at its homes, and no directory entry names the
die. -/
def execDieWritebackDone (die : Nat) (s : State) : Outcome State Fault Refusal :=
  .next (if (s.die die).step ≠ 5 then s
  else
    let mine (p : Pending) : Bool := dieOf p.core == die && !s.fenced p.agent
    let s := s.performFree mine
    if s.pending.any mine then s
    else
      let s := s.publishAll (s.wbuf.filter fun e => dieOf e.core == die)
      (s.dirForget die).onDie die fun x => { x with step := 6 })

/-- The die stays out: event 0x04 (R460). -/
def State.stayOut (s : State) (d : Nat) : State := (s.onDie d fun x => { x with step := 0 }).postDie d 1 4 0

/-- DIE_SELFTEST_DONE: step 6 ends. -/
def execDieSelftestDone (die : Nat) (ok : Bool) (s : State) : Outcome State Fault Refusal :=
  .next (if (s.die die).step ≠ 6 then s
  else if ok then (s.dirForget die).onDie die fun x => { x with step := 7 }
  else (s.dirForget die).stayOut die)

/-- The floors of a VD on the link of a die apply again as admitted (R460). -/
def State.refloor (s : State) (d : Nat) (v : Vd) : Vd :=
  { v with held := v.held.map fun g =>
      if g.type = 5 ∧ g.inst = d then
        { g with floor := ((s.spreadAll v.config).find? fun h => h.type == 5 && h.inst == d).elim g.floor (·.floor) }
      else g }

/-- DIE_LINK_RETRAINED: step 7 ends, and the die is admitted again with its records and floors, event 0x03 (R460). -/
def execDieLinkRetrained (die : Nat) (ok : Bool) (s : State) : Outcome State Fault Refusal :=
  let x := s.die die
  .next (if x.step ≠ 7 then s
  else if ok then
    let s := s.onDie die fun x => { x with up := true, step := 0, isolated := false }
    let s := ({ s with links := setNth s.links die 24, training := s.training.filter (· != die) } : State).capChange
    let s := { s with vds := mapS s.vds fun _ v => s.refloor die v }
    s.postDie die 0 3 ((s.time.toNat - x.start.toNat) / 1000)
  else s.stayOut die)

/-- DIE_SAVE_DEADLINE_EXPIRY: a unit that step 2 has not saved within its deadline stops its context (R458). -/
def execDieSaveDeadlineExpiry (die : Nat) (u : UnitId) (s : State) : Outcome State Fault Refusal :=
  match s.parts u, s.preempts.find? fun x => x.unit == u with
  | some p, some x =>
    .next (if (s.die die).step = 2 ∧ x.die = some die ∧ x.start + s.deadline p ≤ s.cycleOf p.core then
      s.stopDie die p.ctx else s)
  | _, _ => .next s

/-! ### Isolation (R291, R292) -/

/-- The marks of lost lines are cleared once every context that maps one has stopped (R292). -/
def State.clearLost (s : State) : State :=
  if s.ctxs.any fun e => e.2.kill.isSome && (s.lostIn e.1).isSome then s
  else { s with lost := [], syncs := mapS s.syncs fun _ o => { o with lost := false } }

/-- Lines of a run of bytes. -/
def linesOf (pa n : Nat) : List Nat := (List.range ((pa + n + 63) / 64 - pa / 64)).map (pa / 64 + ·)

/-- Lines that a die held in M, with the bytes that HBM and LLC keep. -/
def State.heldLines (s : State) (d : Nat) : List (Nat × List Byte) :=
  s.dir.filterMap fun e => if e.2.1 = [d] ∧ e.2.2 ≠ [] then some (e.1, e.2.2) else none

/-- DIE_ISOLATION: what the die held is lost, its leases and every other's are broken, each context that maps a lost line
stops, and the die's warm reset begins (R289, R291, R292, R457). -/
def execDieIsolation (die : Nat) (s : State) : Outcome State Fault Refusal :=
  let x := s.die die
  if x.isolated || !(x.up || decide (1 ≤ x.step ∧ x.step ≤ 5)) then .next s
  else
    let held := s.heldLines die
    let below := s.wbuf.filter fun e => dieOf e.core == die && e.held.isSome
    let objects := below.filterMap (·.held)
    let mine (e : Nat × DWord) : Bool := Owner.claimed e.2 && !Owner.parked e.2 && dieOf (Owner.core e.2) == die
    let grains := (s.owners.filter mine).map (·.1)
    let lost := held.map (·.1) ++ (below.flatMap fun e => match e.loc with
        | .dev pa => linesOf pa e.bytes.length
        | _ => []) ++ grains.flatMap fun g => (List.range 8).map (g * 8 + ·)
    let s : State := s.onDie die fun x => { x with isolated := true }
    let s : State := { s with
      mem := held.foldl (fun m (e : Nat × List Byte) => Memory.writeN m (e.1 * 64) e.2) s.mem, lost := (s.lost ++ lost).dedup,
      syncs := objects.foldl (fun m o => put m o { s.syncRec o with lost := true }) s.syncs,
      wbuf := s.wbuf.filter fun e => !(dieOf e.core == die && e.held.isSome),
      warps := mapS s.warps fun _ w => s.endLeases w 2 }
    let s := (s.tidyLeases).dirForget die
    let stopped := (s.ctxs.map fun (e : Nat × Ctx) => e.1).filter fun c => (s.lostIn c).isSome
    let s := (stopped.foldl (State.stopLost · · die) s).clearLost
    .next ((s.postDie die 1 1 0).beginReset die 1)

end Sys2Proof.Machine
end

