-- ==== Sys2Proof/Machine/Drain.lean ====
section
/-! DEFINITION. The end of a kill-and-drain: engines drained, or reset at their timeouts (R440 to R443), and what the
package's monitors report (R428, R432, R439). -/

namespace Sys2Proof.Machine

open Host (Outcome)

/-- The kill of a context changes. -/
def State.onKill (s : State) (c : Nat) (g : Kill → Kill) : State := s.onCtx c fun x => { x with kill := x.kill.map g }

/-- The records of a kill are written: it is DONE, and the command that waits for it may complete (R440, R292). -/
def State.killEnd (s : State) (c : Nat) (k : Kill) : State :=
  if s.drained c 10 then ((s.killDone c k).clearLost).finishKills else s

/-- An engine of a kill is done; with the last, the records of DONE are posted (R440, R442). -/
def State.engineDone (s : State) (c engine : Nat) : State :=
  let s := (s.scrub c engine).onKill c fun k => { k with done := k.done ||| 2 ^ engine }
  match (s.ctx? c).bind (·.kill) with
  | none => s
  | some k => if k.done = 1023 then (s.killRecords c k).killEnd c k else s

/-- ENGINE_DRAIN_DONE: an engine has reached its DRAIN condition and scrubs (Table 18.10); or, number 10, the records of
DONE are written. -/
def execEngineDrainDone (ctx engine : Nat) (s : State) : Outcome State Fault Refusal :=
  match (s.ctx? ctx).bind (·.kill) with
  | none => .next s
  | some k => .next (
      if engine = 10 ∧ k.done = 1023 then s.killEnd ctx k
      else if engine < 10 ∧ k.done.testBit engine = false ∧ s.drained ctx engine then s.engineDone ctx engine
      else s)

/-- Timeout of an engine in nanoseconds (Table 18.10). -/
def drainTimeout (engine : Nat) : Nat := ([100, 10, 20, 20, 50, 100, 50, 200, 100, 100].getD engine 100) * 1000

/-- Requests of a context that an executor has not performed. -/
def State.stuckAtoms (s : State) (c : Nat) : List AtomReq :=
  (s.atoms.filter fun (e : Nat × AtomReq) => e.2.ctx == c && e.2.accepted && e.2.reply.isNone && !e.2.waiting).map
    fun (e : Nat × AtomReq) => e.2

/-- The Badgers that hold requests of a context are reset: requests of other contexts that they accepted and did not perform
are sent again, waiters register again. -/
def State.resetBadgers (s : State) (c : Nat) : State :=
  let stuck := (s.stuckAtoms c).filterMap (·.badger)
  { s with atoms := mapS s.atoms fun _ a =>
      if a.ctx ≠ c ∧ a.accepted ∧ a.reply.isNone ∧ (s.badgerOf a).any stuck.contains then
        { a with accepted := false, order := 0, badger := none, aside := false, waiting := false, retry := false } else a }

/-- Units of other contexts with threads on a core. -/
def State.othersOn (s : State) (core c : Nat) : List UnitId :=
  ((s.crews.filter fun (e : Nat × Crew) => e.1 / 4 == core && e.2.ctx != c).map fun (e : Nat × Crew) => UnitId.gang e.2.gang).dedup ++
    (s.warps.filter fun (e : Nat × Warp) => e.1 / 16 == core && e.2.crew.isNone && e.2.ctx != c).map
      fun (e : Nat × Warp) => UnitId.loose (e.1 / 16) (e.1 % 16)

/-- A core is reset for a context: leases on it are broken, the other units with threads there are saved whole, and those that
cannot be are stopped (R289, R442; log 71). -/
def State.resetCore (s : State) (c core : Nat) : State :=
  let s := ({ s with warps := mapS s.warps fun k w => if k / 16 = core then s.endLeases w 2 else w } : State).tidyLeases
  (s.othersOn core c).foldl (fun s u =>
    match s.parts u with
    | none => s
    | some p =>
      let t := s.trySave p u 1
      if (t.parts u).isNone then t
      else
        let qual := match u with | .gang _ => 0 | .loose _ _ => 2 ^ 12
        t.stop p.ctx Cls.engineReset (s.taskNo p.task) qual 0xFFFFFFFF#32 0 (dieOf core)) s

/-- Cores on which copies of a context wait for the host or a peer. -/
def State.copyCores (s : State) (c : Nat) : List Nat :=
  (s.exts.filterMap fun (e : Nat × Ext) =>
    match e.2.agent with | .copy core _ _ => if e.2.ctx = c then some core else none | _ => none).dedup

/-- The endpoints of a VD are reset: other contexts of the VD that lose a request by it stop (R442). -/
def State.resetEndpoints (s : State) (c : Nat) : State :=
  let vd := s.vdOf c
  let lostBy := ((s.exts.filter fun e => e.2.ctx != c && match e.2.loc with | .peer v _ _ => v == vd | _ => false).map
    fun e => e.2.ctx).dedup
  lostBy.foldl (fun s d => s.stop d Cls.engineReset 0xFFFFFFFF 0 0xFFFFFFFF#32 0 4) s

/-- The escalation of an engine (Table 18.10). -/
def State.escalate (s : State) (c engine : Nat) : State :=
  match engine with
  | 0 => s.onPkg fun p => { p with signing := p.signing.filter fun g => (s.qi? g.qi).all fun q => q.ctx != c }
  | 2 => (((s.stuckAtoms c).map (·.core)).dedup.filter fun k => decide (k < 4096)).foldl (fun s k => s.resetCore c k) s
  | 3 => ((((s.stuckAtoms c).filter fun a => a.badger.isNone).map (·.core)).dedup).foldl (fun s k => s.resetCore c k) s
  | 4 => s.resetBadgers c
  | 5 =>
    match s.releases.find? fun e => e.2.ctx == c with
    | none => s
    | some e => s.beginReset (dieOf e.2.core) 3
  | 6 => (s.copyCores c).foldl (fun s k => s.resetCopies k c) s
  | 7 => (s.coresOf c).foldl (fun s k => s.resetMatrix k c) s
  | 8 => { s with tlb := [] }
  | 9 => s.resetEndpoints c
  | _ => s

/-- The command in progress waits for the kill of a context. -/
def State.killAwaited (s : State) (c : Nat) : Bool :=
  match s.mb.wait with | some (.kills _ cs _) => cs.contains c | _ => false

/-- KILL_DRAIN_TIMEOUT: an engine that has not drained in its time from KILL is reset (R442). -/
def execKillDrainTimeout (ctx engine : Nat) (s : State) : Outcome State Fault Refusal :=
  match (s.ctx? ctx).bind (·.kill) with
  | none => .next s
  | some k =>
    .next (if engine < 10 ∧ k.done.testBit engine = false ∧ s.drained ctx engine = false ∧
        k.start.toNat + drainTimeout engine ≤ s.time.toNat then
      let s := if s.killAwaited ctx then s.onMb fun m => { m with escalated := true } else s
      ((s.escalate ctx engine).onKill ctx fun k => { k with reset := k.reset ||| 2 ^ engine }).engineDone ctx engine
    else s)

/-! ### What the monitors report -/

/-- CLOCK_SUPPLY_GLITCH: 16 is added to COUNT (R439). -/
def execClockSupplyGlitch (hub : Nat) (s : State) : Outcome State Fault Refusal :=
  .next (if hub < 2 then s.alarm (4 + hub) 16 else s)

/-- METERING_WINDOW_END: a window of 4,096 cycles of the bandwidth meters ends, which decide only when accesses are
served (R432; log 1). -/
def execMeteringWindowEnd (s : State) : Outcome State Fault Refusal := .next s

/-- HBM_CHANNEL_LEAVE_OR_REJOIN: the capability table is rewritten (R428). -/
def execHbmChannelLeaveOrRejoin (chan : Nat) (present : Bool) (s : State) : Outcome State Fault Refusal :=
  .next (if 512 ≤ chan ∨ s.pkg.chanOut.contains chan = !present then s
  else
    (s.onPkg fun p => { p with chanOut := if present then p.chanOut.filter (· != chan) else p.chanOut ++ [chan] }).capChange)

end Sys2Proof.Machine
end

