-- ==== Sys2Proof/Machine/Command.lean ====
section
/-! DEFINITION. The write of MBCMD: the commands of Table 18.3 by their opcodes (R422, R423). -/

namespace Sys2Proof.Machine

open Host (Outcome)

/-! ### The mailbox (R422, R423) -/

/-- The command of an opcode performed; an opcode that names none gives RESULT 0x01. -/
def State.perform (s : State) (op : Nat) (img : FwImage) : State :=
  match op with
  | 0x01 => s.doMgmtRing
  | 0x02 => s.doInfoRead
  | 0x03 => s.doPkgReset
  | 0x10 => s.doVdCreate
  | 0x11 => s.doVdAdmit
  | 0x12 => s.doVdResize
  | 0x13 => s.doVdEvict
  | 0x14 => s.doVdReset
  | 0x15 => s.doVdDestroy
  | 0x20 => s.doCtxCreate
  | 0x21 => s.doCtxKill
  | 0x22 => s.doCtxDestroy
  | 0x23 => s.doCtxSetroot
  | 0x30 => s.doQiBind
  | 0x31 => s.doQiUnbind
  | 0x32 => s.doQiRestart
  | 0x40 => s.doAlarmClear
  | 0x50 => s.doFwImage img
  | 0x51 => s.doFwRecover img
  | 0x60 => s.doEpSet
  | 0x61 => s.doDieReset
  | 0x70 => s.doRcptKey
  | _ => s.mbDone 1

/-- No image. -/
def FwImage.empty : FwImage := { version := 0, verifies := false, imports := false }

/-- A write of MBCMD: ignored while BUSY is 1, but held during a live update; refused where it is barred; else performed
(R422). An opcode from 2^16 stands for a word with no meaning. -/
def State.mailbox (s : State) (op : Nat) (tag : Nat) (img : Option FwImage) : State :=
  if !s.mailboxOn then s
  else if s.mb.busy then
    if s.mb.wait = some .update ∧ s.mb.held = none then s.onMb fun m => { m with held := some (op, tag, img) } else s
  else
    let s := s.onMb fun m => { m with busy := true, tag, result := 0, wait := none, held := none, escalated := false }
    match s.barred op with
    | some r => s.mbDone r
    | none => s.perform op (img.getD FwImage.empty)

/-- A command held during a live update is accepted once the update has ended (R422). -/
def State.runHeld (s : State) : State :=
  match s.mb.held with
  | none => s
  | some (op, tag, img) => s.mailbox op tag img

/-- MAILBOX_BAD_OPCODE: a word whose opcode is not in Table 18.3, or whose reserved bits are not 0 (R422, R423). -/
def execMailboxBadOpcode (word : Word) (s : State) : Outcome State Fault Refusal :=
  let known := [1, 2, 3, 0x10, 0x11, 0x12, 0x13, 0x14, 0x15, 0x20, 0x21, 0x22, 0x23, 0x30, 0x31, 0x32, 0x40, 0x50, 0x51,
    0x60, 0x61, 0x70].contains (bits word.toNat 15 0)
  .next (if known && bits word.toNat 31 24 == 0 then s else s.mailbox 0x10000 (bits word.toNat 23 16) none)

/-- MGMT_RING. -/
def execMgmtRing (tag : Byte) (s : State) : Outcome State Fault Refusal := .next (s.mailbox 0x01 tag.toNat none)
/-- INFO_READ. -/
def execInfoRead (tag : Byte) (s : State) : Outcome State Fault Refusal := .next (s.mailbox 0x02 tag.toNat none)
/-- PKG_RESET. -/
def execPkgReset (tag : Byte) (s : State) : Outcome State Fault Refusal := .next (s.mailbox 0x03 tag.toNat none)
/-- RCPT_KEY. -/
def execRcptKey (tag : Byte) (s : State) : Outcome State Fault Refusal := .next (s.mailbox 0x70 tag.toNat none)
/-- FW_IMAGE. -/
def execFwImage (tag : Byte) (img : FwImage) (s : State) : Outcome State Fault Refusal :=
  .next (s.mailbox 0x50 tag.toNat (some img))
/-- FW_RECOVER. -/
def execFwRecover (tag : Byte) (img : FwImage) (s : State) : Outcome State Fault Refusal :=
  .next (s.mailbox 0x51 tag.toNat (some img))
/-- VD_CREATE. -/
def execVdCreate (tag : Byte) (s : State) : Outcome State Fault Refusal := .next (s.mailbox 0x10 tag.toNat none)
/-- VD_ADMIT. -/
def execVdAdmit (tag : Byte) (s : State) : Outcome State Fault Refusal := .next (s.mailbox 0x11 tag.toNat none)
/-- VD_EVICT. -/
def execVdEvict (tag : Byte) (s : State) : Outcome State Fault Refusal := .next (s.mailbox 0x13 tag.toNat none)
/-- VD_RESIZE. -/
def execVdResize (tag : Byte) (s : State) : Outcome State Fault Refusal := .next (s.mailbox 0x12 tag.toNat none)
/-- VD_RESET. -/
def execVdReset (tag : Byte) (s : State) : Outcome State Fault Refusal := .next (s.mailbox 0x14 tag.toNat none)
/-- VD_DESTROY. -/
def execVdDestroy (tag : Byte) (s : State) : Outcome State Fault Refusal := .next (s.mailbox 0x15 tag.toNat none)
/-- CTX_CREATE. -/
def execCtxCreate (tag : Byte) (s : State) : Outcome State Fault Refusal := .next (s.mailbox 0x20 tag.toNat none)
/-- CTX_KILL. -/
def execCtxKill (tag : Byte) (s : State) : Outcome State Fault Refusal := .next (s.mailbox 0x21 tag.toNat none)
/-- CTX_DESTROY. -/
def execCtxDestroy (tag : Byte) (s : State) : Outcome State Fault Refusal := .next (s.mailbox 0x22 tag.toNat none)
/-- CTX_SETROOT. -/
def execCtxSetroot (tag : Byte) (s : State) : Outcome State Fault Refusal := .next (s.mailbox 0x23 tag.toNat none)
/-- QI_BIND. -/
def execQiBind (tag : Byte) (s : State) : Outcome State Fault Refusal := .next (s.mailbox 0x30 tag.toNat none)
/-- QI_UNBIND. -/
def execQiUnbind (tag : Byte) (s : State) : Outcome State Fault Refusal := .next (s.mailbox 0x31 tag.toNat none)
/-- QI_RESTART. -/
def execQiRestart (tag : Byte) (s : State) : Outcome State Fault Refusal := .next (s.mailbox 0x32 tag.toNat none)
/-- ALARM_CLEAR. -/
def execAlarmClear (tag : Byte) (s : State) : Outcome State Fault Refusal := .next (s.mailbox 0x40 tag.toNat none)
/-- DIE_RESET. -/
def execDieReset (tag : Byte) (s : State) : Outcome State Fault Refusal := .next (s.mailbox 0x61 tag.toNat none)
/-- EP_SET. -/
def execEpSet (tag : Byte) (s : State) : Outcome State Fault Refusal := .next (s.mailbox 0x60 tag.toNat none)

end Sys2Proof.Machine
end

