-- ==== Sys2Proof/Machine/Firmware.lean ====
section
/-! DEFINITION. The two firmware complexes: live update and failover (R402 to R404). -/

namespace Sys2Proof.Machine

open Host (Outcome)

/-- A live update ends: the mailbox command has its RESULT, a reset that was held takes effect, and a command that was
held is accepted (R27, R422). -/
def State.endUpdate (s : State) (standby : Bool) (result : Nat) : State :=
  (((s.onPkg fun p => { p with update := none, standby }).mbDone result).heldReset).runHeld

/-- A packet of the queue is partly taken: reads of it are outstanding or answered. -/
def Qi.partly (x : Qi) : Bool := x.bound && (x.wait != Wait.none || x.extData != [] || x.extErr != [])

/-- STANDBY_IMPORT_COMPLETE: the standby has rebooted into the new image and imported the state table, and the active complex
stops taking packets, at a boundary at which no packet of any queue is partly taken; or the import failed and the update
ends (R403). -/
def execStandbyImportComplete (ok : Bool) (s : State) : Outcome State Fault Refusal :=
  match s.pkg.update with
  | none => .next s
  | some u =>
    .next (if u.phase ≠ 0 then s
    else if ok && u.image.imports then
      if s.qis.any fun (e : Nat × Qi) => e.2.partly && !e.2.stopped then s
      else s.onPkg fun p => { p with standby := true, update := some { u with phase := 1, since := s.time.toNat } }
    else s.endUpdate false 1)

/-- The other complex becomes active, with a fresh batch of leaves (R401). -/
def State.switchHub (s : State) : State :=
  (s.onPkg fun p => { p with activeHub := 1 - p.activeHub }.reserveLeaves).capChange

/-- LIVE_UPDATE_TAKEOVER: within 2 ms of the stop, the standby becomes active; the anti-rollback counter is raised to the
new version, whose slot now runs (R403). -/
def execLiveUpdateTakeover (s : State) : Outcome State Fault Refusal :=
  match s.pkg.update with
  | none => .next s
  | some u =>
    .next (if u.phase = 1 ∧ s.time.toNat ≤ u.since + 2000000 ∧ s.pkg.signing.all (·.made) then
      (s.switchHub.onPkg fun p => { p with runSlot := u.slot, rollback := max p.rollback u.image.version }).endUpdate true 0
    else s)

/-- LIVE_UPDATE_ROLLBACK: the takeover has not completed within 2 ms; the old active complex resumes, and the update ends
with a mailbox error (R403). -/
def execLiveUpdateRollback (s : State) : Outcome State Fault Refusal :=
  match s.pkg.update with
  | none => .next s
  | some u => .next (if u.phase = 1 ∧ u.since + 2000000 ≤ s.time.toNat then s.endUpdate true 3 else s)

/-- The header word at the head of a queue, 0 when it cannot be read. -/
def State.headerOf (s : State) (q : Nat) (x : Qi) : Word :=
  match s.qWords q x 0 1 with
  | .ok ws => ws.getD 0 0
  | .error _ => 0

/-- ACTIVE_COMPLEX_FAILURE: signatures in progress complete, and the standby takes over; a queue whose packet was partly
taken stops with ENGINE_RESET (R401, R404). -/
def execActiveComplexFailure (s : State) : Outcome State Fault Refusal :=
  .next (if s.pkg.standby ∧ s.pkg.update = none ∧ s.pkg.ready then
    let s := s.finishSignings.switchHub.onPkg fun p => { p with standby := false }
    (s.qis.filter fun e => e.2.partly && !e.2.stopped).foldl (fun s e =>
      (s.onQi e.1 fun x => { x with wait := .none }).stopQueue e.1 Cls.engineReset e.2.index (s.headerOf e.1 e.2)) s
  else s)

end Sys2Proof.Machine
end

