-- ==== Sys2Proof/Machine/Function.lean ====
section
/-! DEFINITION. The function pipe (R207, R208): exact division and square root, and the seven functions whose result is
any value within the bound of Table 8.4, proposed by `Config.freeApprox` (log 8). -/

namespace Sys2Proof.Machine

open Host (Outcome)

/-! ### Fixed-point values, 160 fractional bits -/

/-- π and ln 2 with 160 fractional bits, rounded down. -/
def piFix : Nat := 4591442807048218921384805199743311128454155024418
def ln2Fix : Nat := 1013035739299659071135698605846798551586536899366

/-- 1 with 160 fractional bits. -/
def oneFix : Nat := 2 ^ 160

/-- A fixed-point product. -/
def mulFix (a b : Nat) : Nat := a * b / 2 ^ 160

/-- The sum of `n` terms of a series, from the current term and its index: each next term is the last times `x` over a
divisor, with alternating signs on request. -/
def series (x : Nat) (alt : Bool) (next : Nat → Nat) : Nat → Nat → Nat → Int
  | 0, _, _ => 0
  | n + 1, k, t =>
    let sg : Int := if alt ∧ k % 2 = 1 then -1 else 1
    sg * t + series x alt next n (k + 1) (mulFix t x / next k)

/-- e^x for x in [0, 1). -/
def expFix (x : Nat) : Nat := (series x false (fun k => k + 1) 60 0 oneFix).toNat

/-- e^−x for x in [0, 1). -/
def expNegFix (x : Nat) : Nat := (series x true (fun k => k + 1) 60 0 oneFix).toNat

/-- ln of a ratio in [1, 2]: twice the inverse hyperbolic tangent of (a − b)/(a + b). -/
def lnFix (a b : Nat) : Nat :=
  let t := (a - b) * oneFix / (a + b)
  let z := mulFix t t
  let rec go : Nat → Nat → Nat → Nat
    | 0, _, _ => 0
    | n + 1, k, p => p / (2 * k + 1) + go n (k + 1) (mulFix p z)
  2 * go 60 0 t

/-- sin(πq)/(πq) for q in [0, 1/2]. -/
def sincFix (q : Nat) : Nat :=
  let x := mulFix piFix q
  (series (mulFix x x) true (fun k => (2 * k + 2) * (2 * k + 3)) 40 0 oneFix).toNat

/-! ### The exact results as enclosures -/

/-- A magnitude between (m − slop) · 2^e and (m + slop) · 2^e. -/
structure Near where
  neg : Bool
  m : Nat
  e : Int
  slop : Nat
  /-- The enclosed value is m · 2^e itself. -/
  exact : Bool := false

/-- A dyadic magnitude as a fixed-point number with 160 fractional bits, rounded down. -/
def fixOf (m : Nat) (e : Int) : Nat :=
  if e + 160 ≥ 0 then m * 2 ^ (e + 160).toNat else m / 2 ^ (min (-(e + 160)).toNat (Nat.log2 m + 1))

/-- 2^a for a fixed-point magnitude a. -/
def exp2Near (neg : Bool) (a : Nat) : Near :=
  let n := a / oneFix
  let f := a % oneFix
  if neg then
    { neg := false, m := expNegFix (mulFix f ln2Fix), e := -160 - (n : Int), slop := 2 ^ 30 }
  else { neg := false, m := expFix (mulFix f ln2Fix), e := -160 + (n : Int), slop := 2 ^ 30 }

/-- e^−y for a fixed-point y, as a fixed-point number below 1 and a power of 2. -/
def expNegNear (y : Nat) : Nat × Nat :=
  let n := y * oneFix / ln2Fix / oneFix
  (expNegFix (y - n * ln2Fix), n)

/-- sin(πa) for (−1)^neg · m · 2^e. -/
def sinpiNear (neg : Bool) (m : Nat) (e : Int) : Near :=
  -- only a small |a| needs relative precision, and there no reduction
  if topOf m e < -2 then { neg, m := m * mulFix piFix (sincFix (fixOf m e)), e := e - 160, slop := m * 2 ^ 30 }
  else
    let a := fixOf m e % (2 * oneFix)
    let half := decide (a ≥ oneFix)
    let r := a % oneFix
    let q := if r > oneFix / 2 then oneFix - r else r
    { neg := neg != half, m := mulFix (mulFix piFix q) (sincFix q), e := -160, slop := 2 ^ 40 }

/-- cos(πa) = sin(π(a + 1/2)). -/
def cospiNear (m : Nat) (e : Int) : Near :=
  if topOf m e < -80 then { neg := false, m := oneFix, e := -160, slop := 2 ^ 10 }
  else sinpiNear false (fixOf m e % (2 * oneFix) + oneFix / 2) (-160)

/-- tanh of a nonzero value. -/
def tanhNear (neg : Bool) (m : Nat) (e : Int) : Near :=
  if topOf m e < -13 then
    let sq := mulFix (fixOf m e) (fixOf m e)
    { neg, m := m * (oneFix - sq / 3), e := e - 160, slop := m * (mulFix sq sq + 2 ^ 30) }
  else if topOf m e ≥ 6 then { neg, m := oneFix, e := -160, slop := 2 ^ 80 }
  else
    let (x, n) := expNegNear (2 * fixOf m e)
    let t := x / 2 ^ n
    { neg, m := (oneFix - t) * oneFix / (oneFix + t), e := -160, slop := 2 ^ 50 }

/-- 1/(1 + e^−a) of a nonzero value. -/
def sigmNear (neg : Bool) (m : Nat) (e : Int) : Near :=
  let y := if topOf m e ≥ 8 then 256 * oneFix else fixOf m e
  let (x, n) := expNegNear y
  let t := x / 2 ^ n
  if neg then { neg := false, m := x * oneFix / (oneFix + t), e := -160 - (n : Int), slop := 2 ^ 50 }
  else { neg := false, m := oneFix * oneFix / (oneFix + t), e := -160, slop := 2 ^ 50 }

/-- log2 of a positive value m · 2^e that is no power of 2. -/
def log2Near (m : Nat) (e : Int) : Near :=
  let k := topOf m e
  let frac : Int := lnFix m (2 ^ Nat.log2 m) * oneFix / ln2Fix
  let y := k * (oneFix : Int) + frac
  { neg := decide (y < 0), m := y.natAbs, e := -160, slop := 2 ^ 40 }

/-- 1/√a of a positive value. -/
def rsqNear (m : Nat) (e : Int) : Near :=
  let m' := if e % 2 = 0 then m else 2 * m
  let e' := if e % 2 = 0 then e else e - 1
  { neg := false, m := Nat.sqrt (2 ^ 500 / m'), e := -(e' / 2) - 250, slop := 2 }

/-- 1/a of a nonzero value. -/
def rcpNear (neg : Bool) (m : Nat) (e : Int) : Near := 
  { neg, m := 2 ^ 300 / m, e := -e - 300, slop := 1, exact := decide (2 ^ 300 % m = 0) }

/-! ### Delivery (R208) -/

/-- The enclosure's middle as an exact value, beyond every format. -/
def Near.val (n : Near) : Val := .fin n.neg (2 * n.m + 1) (n.e - 1)

/-- A candidate lies within `ulps` units in the last place of the enclosed value, or within 2^abs when given (Table
8.4). -/
def Near.within (n : Near) (ulps : Nat) (abs_ : Option Int) (c : Val) : Bool :=
  match c with
  | .fin neg m e =>
    let unit : Int := max (topOf n.m n.e) (-126) - 23
    let base := min (min (e - 1) (n.e - 1)) (min unit (abs_.getD 0))
    let x := if m = 0 then 0 else intAt neg m e base
    let y := intAt n.neg n.m n.e base
    let d := (x - y).natAbs
    let slop := n.slop * 2 ^ (n.e - base).toNat
    decide (d ≤ ulps * 2 ^ (unit - base).toNat + slop) ||
      (match abs_ with | none => false | some k => decide (d ≤ 2 ^ (k - base).toNat + slop))
  | _ => false

/-- The delivered result: the value that the part proposes when it lies within the bound, and the correctly rounded one
otherwise; `unit` bounds the magnitude by 1. -/
def Near.deliver (n : Near) (op : Nat) (a : Word) (ulps : Nat) (abs_ : Option Int) (unit : Bool) : Nat × List Nat :=
  let (p, ev) := deliverIn 0 .rne false n.val
  let c := Config.freeApprox op a
  let cv := (fltOf 0).decode c.toNat
  let ok := n.within ulps abs_ cv && (!unit || decide (Val.cmp (.fin false 1 0) (if cv.neg then cv.flip else cv) ≠ -1)) &&
    !((fltOf 0).decode p).isInf && (op != 8 || !cv.neg)
  let q := if ok then c.toNat else p
  (q, if n.exact && decide (Val.cmp ((fltOf 0).decode q) (.fin n.neg n.m n.e) = 0) then ev.filter (· != 3) else ev)

/-- Patterns of Table 8.5. -/
def f32Inf (neg : Bool) : Nat := (fltOf 0).infPat neg
def f32Nan : Nat := 0x7FC00000
def f32One (neg : Bool) : Nat := if neg then 0xBF800000 else 0x3F800000
def f32Zero (neg : Bool) : Nat := (fltOf 0).zeroPat neg

/-- A result of Table 8.5 with its events: NaN, and infinity when no operand was infinite (R114). -/
def exactResult (a : Val) (p : Nat) : Nat × List Nat :=
  let d := (fltOf 0).decode p
  (p, (if d.isNan then [0] else []) ++ if d.isInf && !a.isInf then [1] else [])

/-- A finite value is an integer; the integer's low bit and sign are not needed here. -/
def isInteger (m : Nat) (e : Int) : Bool := decide (e ≥ 0) || decide (m % 2 ^ (min (-e).toNat (Nat.log2 m + 1)) = 0)

/-- The value is an integer plus one half. -/
def isHalf (m : Nat) (e : Int) : Bool := isInteger (2 * m) e && !isInteger m e

/-- A magnitude as a natural number, for an integer. -/
def wholeOf (m : Nat) (e : Int) : Nat := if e ≥ 0 then m * 2 ^ e.toNat else m / 2 ^ (-e).toNat

/-- The result of a function other than SQRT on an f32 pattern (R208, Tables 8.4 and 8.5). -/
def functionOf (op : Nat) (a : Word) : Nat × List Nat :=
  let v := (fltOf 0).decode a.toNat
  match v with
  | .nan => exactResult v f32Nan
  | .inf n =>
    exactResult v (match op with
      | 0 => f32Zero n
      | 1 => if n then f32Nan else f32Zero false
      | 3 => if n then f32Zero false else f32Inf false
      | 4 => if n then f32Nan else f32Inf false
      | 7 => f32One n
      | 8 => if n then f32Zero false else f32One false
      | _ => f32Nan)
  | .fin n m e =>
    if m = 0 then
      exactResult v (match op with
        | 0 | 1 => f32Inf n
        | 3 => f32One false
        | 4 => f32Inf true
        | 6 => f32One false
        | 8 => 0x3F000000
        | _ => f32Zero n)
    else
      match op with
      | 0 => (rcpNear n m e).deliver op a 1 none false
      | 1 => if n then exactResult v f32Nan else (rsqNear m e).deliver op a 1 none false
      | 3 =>
        -- beyond the format's range the result is +∞ or +0 (Table 8.5)
        if topOf m e ≥ 8 ∨ n ∧ fixOf m e > 150 * oneFix then
          deliverIn 0 .rne false (.fin false 1 (if n then -512 else 512))
        else if isInteger m e then
          deliverIn 0 .rne false (.fin false 1 (if n then -(wholeOf m e : Int) else (wholeOf m e : Int)))
        else (exp2Near n (fixOf m e)).deliver op a 2 none false
      | 4 =>
        if n then exactResult v f32Nan
        else if m = 2 ^ Nat.log2 m then deliverIn 0 .rne false (Val.ofInt (topOf m e))
        else
          (log2Near m e).deliver op a 2 (if topOf m e = 0 ∨ topOf m e = -1 then some (-22) else none) false
      | 5 =>
        if isInteger m e then exactResult v (f32Zero n)
        else
          let r := sinpiNear n m e
          r.deliver op a 2 (if topOf r.m r.e < -22 then some (-23) else none) false
      | 6 =>
        if isHalf m e then exactResult v (f32Zero false)
        else
          let r := cospiNear m e
          r.deliver op a 2 (if topOf r.m r.e < -22 then some (-23) else none) false
      | 7 => (tanhNear n m e).deliver op a 2 none true
      | _ => (sigmNear n m e).deliver op a 2 none true

/-! ### The instructions -/

/-- A float instruction of the pipe: a producer that counts its events (R207, R115). -/
def funcOp (op : Nat) (f : Fields) (s : State) (g : Iss → Nat → Nat × List Nat) : Outcome State Fault Refusal :=
  laneInstr 4 op f s fun s i =>
    (i.produceWide s false fun l => w64 (g i l).1).countFp i.w.task i.pc ((lanesOf i.act).flatMap fun l => (g i l).2)

/-- One of the functions of Table 8.4. -/
def approxOp (op : Nat) (f : Fields) (s : State) : Outcome State Fault Refusal :=
  funcOp op f s fun i l => functionOf op (i.w.getV l i.f.a.toNat)

/-- RCP (R208). -/
def execRcp (f : Fields) (s : State) : Outcome State Fault Refusal := approxOp 0x00 f s
/-- RSQ (R208). -/
def execRsq (f : Fields) (s : State) : Outcome State Fault Refusal := approxOp 0x01 f s
/-- EXP2 (R208). -/
def execExp2 (f : Fields) (s : State) : Outcome State Fault Refusal := approxOp 0x03 f s
/-- LOG2 (R208). -/
def execLog2 (f : Fields) (s : State) : Outcome State Fault Refusal := approxOp 0x04 f s
/-- SINPI (R208). -/
def execSinpi (f : Fields) (s : State) : Outcome State Fault Refusal := approxOp 0x05 f s
/-- COSPI (R208). -/
def execCospi (f : Fields) (s : State) : Outcome State Fault Refusal := approxOp 0x06 f s
/-- TANH (R208). -/
def execTanh (f : Fields) (s : State) : Outcome State Fault Refusal := approxOp 0x07 f s
/-- SIGM (R208). -/
def execSigm (f : Fields) (s : State) : Outcome State Fault Refusal := approxOp 0x08 f s

/-- SQRT, rounded once (R208). -/
def execSqrt (f : Fields) (s : State) : Outcome State Fault Refusal :=
  funcOp 0x02 f s fun i l => let a := scalarFlt 0 (i.w.getV l i.f.a.toNat); deliverIn 0 i.mode a.isInf (Val.sqrt a)

/-- FDIV, rounded once (R208). -/
def execFdiv (f : Fields) (s : State) : Outcome State Fault Refusal :=
  funcOp 0x09 f s fun i l =>
    let (a, b) := (scalarFlt 0 (i.w.getV l i.f.a.toNat), scalarFlt 0 (i.bFloat l))
    deliverIn 0 i.mode (a.isInf || b.isInf) (Val.div a b)

/-- An integer division of the pipe (R208, R99). -/
def divOp (op : Nat) (f : Fields) (s : State) (g : Nat → Int → Int → Int) : Outcome State Fault Refusal :=
  laneInstr 4 op f s fun s i => i.produceWide s i.wide fun l =>
    tyTrunc i.mo (g i.mo (tyRead i.mo (i.a i.wide l)) (tyRead i.mo (i.b i.wide l)))

/-- IDIV (R208). -/
def execIdiv (f : Fields) (s : State) : Outcome State Fault Refusal :=
  divOp 0x0A f s fun mo a b => quotInt (tyWidth mo) (tySigned mo) a b
/-- IREM (R208). -/
def execIrem (f : Fields) (s : State) : Outcome State Fault Refusal := divOp 0x0B f s fun _ a b => remInt a b

end Sys2Proof.Machine
end

