-- ==== Sys2Proof/Machine/Launch.lean ====
section
/-! DEFINITION. Launches: the checks of a task descriptor, the dependence matcher, LAUNCH and kick words, graphs, the
clock hint, the hashing of results and the completion of tasks (R93, R385 to R394, R396 to R398). -/

namespace Sys2Proof.Machine

open Host (Outcome)

/-! ### The checks of a descriptor (R387) -/

/-- Every field of a task descriptor lies in its range (Table 16.6). -/
def descOk (d : List Word) (graph : Bool) : Bool :=
  let f := descField d
  decide (f 0 2 < 4096) && decide (f 2 2 < if graph then 1 else 4096) && f 12 2 != 0 && f 14 2 != 0 && f 16 2 != 0 &&
    decide (1 ≤ f 18 1 ∧ f 18 1 ≤ 16) && decide (1 ≤ f 19 1 ∧ f 19 1 ≤ 16) &&
    decide (64 ≤ f 20 2 ∧ f 20 2 ≤ 1536 ∧ f 20 2 % 64 = 0) && decide (f 22 2 ≤ 320) && decide (f 24 4 ≤ 4096) &&
    decide (f 28 1 ≤ 16) && decide (f 29 1 < 8) && f 31 1 == 0 && decide (f 36 2 < 4096) && decide (f 38 2 ≤ 256) &&
    f 40 8 % 16 == 0 && f 48 16 == 0

/-- Entries of a region list: handle, mode, length, offset; none when one breaks R390. -/
def regionsOf : Nat → List Byte → Option (List (Nat × Nat × Nat × Nat))
  | 0, _ => some []
  | n + 1, b =>
    let f (o k : Nat) : Nat := natOf ((b.drop o).take k)
    if f 0 2 < 4096 ∧ 1 ≤ f 2 1 ∧ f 2 1 ≤ 3 ∧ f 3 1 = 0 then
      (regionsOf n (b.drop 16)).map fun r => (f 0 2, f 2 1, f 4 4, f 8 8) :: r
    else none

/-- An element FMT of Table 4.1. -/
def fmtOk (fmt : Nat) : Bool := decide (fmt ≤ 0x18)

/-- The tile declarations of n records are in range (R92, R219). -/
def tilesOk : Nat → List Byte → Bool
  | 0, _ => true
  | n + 1, b =>
    let f (o k : Nat) : Nat := natOf ((b.drop o).take k)
    fmtOk (f 1 1) && decide (f 2 1 ≤ 2) && f 3 1 == 0 && decide (1 ≤ f 4 2 ∧ f 4 2 ≤ 4096) &&
      decide (1 ≤ f 6 2 ∧ f 6 2 ≤ 4096) && !(isBlock (f 1 1) && f 6 2 % 32 != 0) &&
      !(f 2 1 == 1 && f 1 1 != 0x00 && f 1 1 != 0x0E) && tilesOk n (b.drop 8)

/-- The handle and the frame declarations are in range (R92). -/
def handlesOk : Nat → List Byte → Bool
  | 0, _ => true
  | n + 1, b =>
    decide (natOf (b.take 2) < 4096) && decide ((b.getD 2 0).toNat ≤ 4) && decide ((b.getD 3 0).toNat ≤ 3) &&
      handlesOk n (b.drop 4)

def framesOk : Nat → List Byte → Bool
  | 0, _ => true
  | n + 1, b =>
    decide ((b.getD 0 0).toNat ≤ 15) && fmtOk (b.getD 1 0).toNat && b.getD 2 0 == 0 && b.getD 3 0 == 0 &&
      framesOk n (b.drop 4)

/-- The declared tiles exceed the descriptor's scratchpad or accumulator amount (R93). -/
def tilesExceed (d : List Word) (ts : List (Nat × Tile)) : Bool :=
  let sum (acc : Bool) : Nat := ts.foldl (fun n (e : Nat × Tile) =>
    if (e.2.level == 1) == acc then n + tileSize e.2.level e.2.fmt e.2.rows e.2.cols else n) 0
  decide (sum false > (needOf d).scr) || decide (sum true > (needOf d).acc)

/-- The declarations of a code object, read and checked: its tiles, or none when it breaks R93. -/
def State.readDecls (s : State) (who : Who) (code : Nat) (d : List Word) : Except Hitch (Option (List (Nat × Tile))) := do
  let b ← s.hubRead who code 0 64 1 fun e => Entry.space e == 2 && Entry.pr e
  match headerOk b with
  | none => .ok none
  | some h =>
    if (descField d 4 4 ≠ 0xFFFFFFFF ∧ descField d 4 4 ≠ h.lead) ∨ descField d 8 4 ≠ h.lane then .ok none
    else
      let r ← s.hubRead who code h.declOff (8 * h.tiles + 4 * h.handles + 4 * h.frames) 1 Entry.pr
      if tilesOk h.tiles r && handlesOk h.handles (r.drop (8 * h.tiles)) &&
          framesOk h.frames (r.drop (8 * h.tiles + 4 * h.handles)) then .ok (some (tileDecls h.tiles r))
      else .ok none

/-- The region list of a descriptor, or none when an entry breaks R390. -/
def State.readRegions (s : State) (who : Who) (d : List Word) : Except Hitch (Option (List (Nat × Nat × Nat × Nat))) := do
  let n := descField d 38 2
  if n = 0 then .ok (some [])
  else
    let b ← s.hubRead who (descField d 36 2) (descField d 40 8) (16 * n) 1 Entry.pr
    .ok (regionsOf n b)

/-- The read is held up, other than by a failure. -/
def held? {α : Type} (r : Except Hitch α) : Option Hitch :=
  match r with
  | .error (.fail _) => none
  | .error h => some h
  | .ok _ => none

/-- The class with which a read failed. -/
def failed? {α : Type} (r : Except Hitch α) : Option Nat :=
  match r with
  | .error (.fail cls) => some cls
  | _ => none

/-- The floor slots that bound the gangs of a descriptor at one time: P of R433. -/
def Vd.floorSlots (v : Vd) (d : List Word) : Nat :=
  v.clusters.foldl (fun n e => n + e.2.1 * 255 / 256 / (descField d 18 1 * descField d 19 1)) 0

/-- A descriptor judged in the order of R387: its regions; a class in `fail`; or what the checks wait for. `argsH` is
the ARGS handle. -/
def State.judge (s : State) (who : Who) (d : List Word) (argsH : Nat) (graph : Bool) :
    Except Hitch (List (Nat × Nat × Nat × Nat)) :=
  let e (h : Nat) : BitVec 256 := s.entry who h
  let codeH := descField d 0 2
  let regionH := descField d 36 2
  let fits (h space : Nat) : Bool := Entry.valid (e h) && Entry.space (e h) == space && Entry.pr (e h)
  let regionFits := Entry.valid (e regionH) && Entry.pr (e regionH)
  if !descOk d graph then .error (.fail Cls.illegal)
  else
    let rs := if regionFits then s.readRegions who d else .ok (some [])
    let ts := if fits codeH 2 then s.readDecls who codeH d else .ok (some [])
    match held? ts, held? rs with
    | some h, _ => .error h
    | none, some h => .error h
    | none, none =>
      match rs, ts with
      | .ok none, _ => .error (.fail Cls.illegal)
      | _, .ok none => .error (.fail Cls.illegal)
      | _, _ =>
        if !fits codeH 2 || !fits argsH 3 || !regionFits then .error (.fail Cls.perm)
        else
          match failed? ts, failed? rs with
          | some c, _ => .error (.fail c)
          | none, some c => .error (.fail c)
          | none, none =>
            match rs, ts with
            | .ok (some l), .ok (some t) =>
              if tilesExceed d t || !(needOf d).onEmpty 1 then .error (.fail Cls.quota) else .ok l
            | _, _ => .error (.fail Cls.illegal)

/-! ### The dependence matcher (R390) -/

/-- The range that an entry of a region list names; index 0 is the task's own ARGS entry. -/
def rangeOf (entry : Nat → BitVec 256) (args : BitVec 256) (task ctx : Nat) (r : Nat × Nat × Nat × Nat) : Range :=
  let (h, mode, len, off) := r
  let e := if h = 0 then args else entry h
  let lo := Entry.base e + off
  { task, ctx, host := Entry.space e == 4, lo, hi := if len = 0 then Entry.base e + Entry.length e else lo + len,
    write := decide (2 ≤ mode) }

/-- Two ranges conflict. -/
def Range.meets (a b : Range) : Bool :=
  a.ctx == b.ctx && a.host == b.host && (a.write || b.write) && decide (a.lo < a.hi) && decide (b.lo < b.hi) &&
    decide (a.lo < b.hi) && decide (b.lo < a.hi)

/-- Tasks that ranges are ordered after: those with a conflicting range. -/
def depsOf (held : List Range) (mine : List Range) : List Nat :=
  ((held.filter fun h => mine.any fun m => m.meets h).map (·.task)).dedup

/-- The entry is a readable ARGS entry. -/
def argsFit (e : BitVec 256) : Bool := Entry.valid e && Entry.space e == 3 && Entry.pr e

/-! ### Accepting a task (R386, R387, R392, R397) -/

/-- What a launch with FLAGS.measure reads: the whole CODE handle, then its ARGS block (R397). -/
def State.measuredData (s : State) (who : Who) (d : List Word) (args : BitVec 256) :
    Except Hitch (List (List Byte × List Byte)) :=
  if descField d 29 1 / 4 % 2 = 0 then .ok []
  else do
    let code := descField d 0 2
    let a ← s.hubRead who code 0 (Entry.length (s.entry who code)) 1 Entry.pr
    let b ← s.hubRead { who with args := some args } 0 0 (Entry.length args) 1 Entry.pr
    .ok [(tagCode, a), (tagArgs, b)]

/-- The extensions of a launch, in order. -/
def State.extendAll (s : State) (c : Nat) (l : List (List Byte × List Byte)) : State :=
  l.foldl (fun s (e : List Byte × List Byte) => s.extend c e.1 e.2) s

/-- A task accepted, its ranges held by the matcher; the answer is its identifier. -/
def State.acceptTask (s : State) (q : Nat) (x : Qi) (d : List Word) (number : Nat) (args : BitVec 256) (packet : Nat)
    (launch : Option Nat) (regions : List (Nat × Nat × Nat × Nat)) : Nat × State :=
  let (id, s) := s.fresh
  let entry (h : Nat) : BitVec 256 := s.entry (x.who q) h
  let mine := regions.map (rangeOf entry args id x.ctx)
  let old := (s.vd? x.vd).elim [] (·.ranges)
  let t : Task :=
    { ctx := x.ctx, qi := q, number, desc := d, args, code := descField d 0 2, packet, launch, deps := depsOf old mine,
      released := false, order := 0, nextGang := 0, again := [], gangsDone := 0, conts := 0, buffers := [], failed := none, fp := [],
      fpRecorded := [], waiting := [], wait := .none, answers := [], extData := [], extErr := [] }
  (id, ({ s with tasks := put s.tasks id t } : State).onVd x.vd fun v => { v with ranges := v.ranges ++ mine })

/-- A launch consumes an acceptance sequence number of its queue (R392). -/
def Qi.count (x : Qi) : Qi := { x with seq := x.seq + 1, hold := none }

/-- TASK of a launch's task (R392). -/
def Qi.taskNo (x : Qi) (ix : Nat) : Nat := x.seq % 2 ^ 24 * 256 + ix

/-- Launches are held: the thermal stop (R12), a newly resident VD's wait for the clock (R19), the hint's (R391). -/
def State.launchHeld (s : State) (x : Qi) : Bool :=
  s.pkg.throttled || (s.vd? x.vd).any (fun v => v.hold) ||
    x.hold.any fun t => !(s.pkg.clsTarget.isNone && s.pkg.cls == s.classDue) && decide (s.time.toNat < t + 50000)

/-- A refused LAUNCH: its record, always (R387, R392). -/
def State.refuseLaunch (s : State) (q : Nat) (p : Pkt) (cls : Nat) : State :=
  let number := (s.qi? q).elim 0 fun x => x.taskNo 0
  let s := ((s.consume q p).onQi q Qi.count).queueFault q cls
  s.post q { source := number, kind := 1, status := 1, fclass := cls, detail := p.index }

/-- A task whose MAXRUN no floor bounds (R431). -/
def State.boundless (s : State) (vd : Nat) (d : List Word) : Bool :=
  descField d 32 4 != 0 && (s.vd? vd).all fun v => v.floorSlots d == 0

/-- The matcher of a VD has room for more ranges (R390). -/
def State.matcherRoom (s : State) (vd n : Nat) : Bool := (s.vd? vd).any fun v => decide (v.ranges.length + n ≤ 256)

/-- LAUNCH (R387). -/
def execLaunch (qi : Nat) (s : State) : Outcome State Fault Refusal :=
  .next (s.takePacket qi 1 fun x p s =>
    let d := p.words
    let who := x.who qi
    let args := s.entry who (descField d 2 2)
    if s.launchHeld x then s
    else
      let r : Except Hitch (List (Nat × Nat × Nat × Nat) × List (List Byte × List Byte)) := do
        let regions ← s.judge who d (descField d 2 2) false
        let _ ← if s.boundless x.vd d then .error (.fail Cls.quota) else .ok ()
        let data ← s.measuredData who d args
        .ok (regions, data)
      match r with
      | .error (.fail cls) => s.refuseLaunch qi p cls
      | .error h => s.queueWaits qi h
      | .ok (regions, data) =>
        if s.matcherRoom x.vd regions.length then
          let s := (s.consume qi p).extendAll x.ctx data
          let (id, s) := s.acceptTask qi x d (x.taskNo 0) args p.index none regions
          (s.onQi qi Qi.count).begin qi p (some id)
        else s)

/-! ### Kick words (R385, R386) -/

/-- SOURCE of a KIND 0x02 record: graph number and tag (Table 16.7). -/
def graphSource (word : Word) : Nat := bits word.toNat 11 0 + bits word.toNat 31 24 * 2 ^ 24

/-- A kick word is taken and launches nothing: its record (R385, R386). -/
def State.refuseKick (s : State) (q : Nat) (word : Word) (cls : Nat) : State :=
  let s := (s.onQi q fun x => { x.count.clear with kicks := x.kicks.drop 1 }).queueFault q cls
  s.post q { source := graphSource word, kind := 2, status := 1, fclass := cls, detail := word.toNat }

/-- The entry that a graph launch gives its tasks as handle 0 (R386). -/
def slotEntry (e : BitVec 256) (slot size : Nat) : BitVec 256 :=
  BitVec.ofNat 256 (2 ^ 255 + 3 * 2 ^ 252 + (if Entry.secure e then 2 ^ 249 else 0) + 2 ^ 248 + size * 2 ^ 64 +
    (Entry.base e + slot * size) % 2 ^ 64)

/-- The tasks of a graph launch accepted in order; each is ordered after the earlier ones it conflicts with. -/
def State.acceptGraph (s : State) (q : Nat) (x : Qi) (args : BitVec 256) (launch : Nat) :
    Nat → List (List Word × List (Nat × Nat × Nat × Nat)) → State
  | _, [] => s
  | ix, (d, regions) :: r =>
    State.acceptGraph (s.acceptTask q x d (x.taskNo ix) args 0 (some launch) regions).2 q x args launch (ix + 1) r

/-- What the tasks of a graph launch measure, in task order (R397). -/
def State.measuredGraph (s : State) (who : Who) (args : BitVec 256) :
    List (List Word) → Except Hitch (List (List Byte × List Byte))
  | [] => .ok []
  | d :: r => do
    let a ← s.measuredData who d args
    let b ← State.measuredGraph s who args r
    .ok (a ++ b)

/-- A graph is launched by the word at the head of the FIFO (R386). -/
def State.launchGraph (s : State) (q : Nat) (x : Qi) (word : Word) (g : Graph) : State :=
  let who := x.who q
  let e := s.entry who g.argHandle
  let slot := bits word.toNat 23 12
  let args := slotEntry e slot g.slotSize
  if !argsFit e then s.refuseKick q word Cls.perm
  else if (slot + 1) * g.slotSize > Entry.length e then s.refuseKick q word Cls.bounds
  else if g.tasks.any (s.boundless x.vd) then s.refuseKick q word Cls.quota
  else
    match s.measuredGraph who args g.tasks with
    | .error (.fail cls) => s.refuseKick q word cls
    | .error h => s.queueWaits q h
    | .ok data =>
      if s.matcherRoom x.vd (g.regions.foldl (fun n l => n + l.length) 0) then
        let (id, s) := s.fresh
        let s := s.extendAll x.ctx data
        let s := s.acceptGraph q x args id 0 (g.tasks.zip g.regions)
        let l : GraphLaunch := { qi := q, graph := bits word.toNat 11 0, word, left := g.tasks.length, failed := none }
        let b : Packet := { type := 256, index := 0, event := false, words := [word], work := some id }
        let s := { s with launches := put s.launches id l }
        s.onQi q fun x => { x.count.clear with kicks := x.kicks.drop 1, begun := x.begun ++ [b] }
      else s

/-- KICK_LAUNCH: the oldest kick word is taken at a packet boundary (R385). -/
def execKickLaunch (qi : Nat) (s : State) : Outcome State Fault Refusal :=
  match s.qi? qi with
  | none => .next s
  | some x =>
    match x.kicks with
    | [] => .next s
    | word :: _ =>
      .next (if s.takes x ∧ !s.launchHeld x then
        match (s.vd? x.vd).bind fun v => look v.graphs (bits word.toNat 11 0) with
        | none => s.refuseKick qi word Cls.bounds
        | some g => s.launchGraph qi x word g
      else s)

/-! ### Graphs (R388, R389) -/

/-- The descriptors of a graph judged in order. -/
def State.judgeAll (s : State) (who : Who) (argsH : Nat) : List (List Word) → Except Hitch (List (List (Nat × Nat × Nat × Nat)))
  | [] => .ok []
  | d :: r => do
    let a ← s.judge who d argsH true
    let b ← State.judgeAll s who argsH r
    .ok (a :: b)

/-- A list cut into pieces of 16. -/
def cut16 : Nat → List Word → List (List Word)
  | 0, _ => []
  | n + 1, l => l.take 16 :: cut16 n (l.drop 16)

/-- The quotas of the contexts that share a cluster of the VD fit its gather store (R369). -/
def State.quotaFits (s : State) (c vd quota : Nat) : Bool :=
  let sum (cluster : Nat) : Nat := (s.ctxs.filter fun (e : Nat × Ctx) =>
      e.1 != c && (s.vd? e.2.vd).any fun w => w.clusters.any fun k => k.1 == cluster).foldl (fun n e => n + e.2.quota) 0
  (s.vd? vd).all fun v => v.clusters.all fun k => decide (sum k.1 + quota ≤ 8192)

/-- The payload of GRAPH_REG keeps its fields (Table 16.5). -/
def graphWordsOk (p : Pkt) : Bool :=
  decide (p.word 0 < 4096) && decide (1 ≤ p.word 1 ∧ p.word 1 ≤ 256) && decide (p.word 2 < 4096) &&
    decide (32 ≤ p.word 5 ∧ p.word 5 ≤ 4096) && decide (p.word 7 < 2 ^ 24 ∧ 1 ≤ p.word 7 / 4096)

/-- What GRAPH_REG registers, or the class that refuses it (R388). -/
def State.graphOf (s : State) (who : Who) (vd : Nat) (p : Pkt) : Except Hitch Graph := do
  let argsH := p.word 7 % 4096
  let _ ← if graphWordsOk p then .ok () else .error (.fail Cls.illegal)
  let b ← s.hubRead who (p.word 2) (p.wide 3) (64 * p.word 1) 64 Entry.pr
  let ds := cut16 (p.word 1) (wordsOf b)
  let rs ← s.judgeAll who argsH ds
  if s.quotaFits who.ctx vd (p.word 5) then
    .ok { ctx := who.ctx, tasks := ds, regions := rs, argHandle := argsH, slotSize := p.word 7 / 4096 * 64 }
  else .error (.fail Cls.quota)

/-- A launch of the graph number of a VD is in flight. -/
def State.graphBusy (s : State) (vd n : Nat) : Bool :=
  s.launches.any fun (e : Nat × GraphLaunch) => e.2.graph == n && (s.qi? e.2.qi).any fun (q : Qi) => q.vd == vd

/-- GRAPH_REG: the graph is registered, or refused with a KIND 0x02 record; one in use is replaced once its launches have
completed (R388). -/
def execGraphReg (qi : Nat) (s : State) : Outcome State Fault Refusal :=
  .next (s.takePacket qi 8 fun x p s =>
    match s.graphOf (x.who qi) x.vd p with
    | .ok g =>
      if s.graphBusy x.vd (p.word 0) then s
      else
        let s := (s.consume qi p).onVd x.vd fun v => { v with graphs := put v.graphs (p.word 0) g }
        (s.onCtx x.ctx fun c => { c with quota := p.word 5, ovCap := p.word 6 }).pktDone qi p 0 0
    | .error (.fail cls) =>
      ((s.consume qi p).post qi { source := p.word 0 % 4096, kind := 2, status := 1, fclass := cls }).pktDone qi p 1 cls
    | .error h => s.queueWaits qi h)

/-- GRAPH_DROP (R389). -/
def execGraphDrop (qi : Nat) (s : State) : Outcome State Fault Refusal :=
  .next (s.takePacket qi 9 fun x p s =>
    ((s.consume qi p).onVd x.vd fun v => { v with graphs := drop v.graphs (p.word 0) }).pktDone qi p 0 0)

/-! ### FREQ_HINT (R18, R19, R391) -/

/-- FREQ_HINT: with a single VD resident, the clock goes to the class and the queue's next launch waits for it; otherwise
a NOP. -/
def execFreqHint (qi : Nat) (s : State) : Outcome State Fault Refusal :=
  .next (s.takePacket qi 0x0A fun x p s =>
    let s := s.consume qi p
    let s :=
      if s.tenants.length = 1 then
        ((s.onVd x.vd fun v => { v with hint := some (p.word 0) }).reclock).onQi qi fun x =>
          { x with hold := some s.time.toNat }
      else s
    s.pktDone qi p 0 0)

/-! ### The life of a task -/

/-- WEIGHT of a task: 0 reads as 1 (Table 16.6). -/
def Task.weight (t : Task) : Nat := max 1 (descField t.desc 30 1)

/-- A task that may be released: its dependences are satisfied and its context runs (R390). -/
def State.releasable (s : State) (t : Task) : Bool := !t.released && t.deps == [] && s.runs t.ctx

/-- Another task of the VD is to be released first: the greater WEIGHT goes first (Table 16.6, log 74). -/
def State.outweighed (s : State) (t : Task) : Bool :=
  s.tasks.any fun (e : Nat × Task) => s.releasable e.2 && s.vdOf e.2.ctx == s.vdOf t.ctx && decide (t.weight < e.2.weight)

/-- TASK_DEPENDENCE_RELEASE: a task whose dependences are satisfied goes to the dispatch engines (R390). -/
def execTaskDependenceRelease (task : Nat) (s : State) : Outcome State Fault Refusal :=
  match s.task? task with
  | none => .next s
  | some t =>
    .next (if s.releasable t ∧ !s.outweighed t then
      s.onTask task fun t => { t with released := true, order := s.stamp, waiting := s.dies.map (·.cycle) }
    else s)

/-- Every gang and continuation warp of the task has completed (R32, R397). -/
def Task.worked (t : Task) : Bool := t.released && decide (t.gangsDone = t.gangs) && decide (t.conts = 0)

/-- The engine that hashes for a task, as an accessor. -/
def State.hashWho (s : State) (task : Nat) (t : Task) : Who :=
  { agent := .hash task, ctx := t.ctx, core := none, slot := 0, loose := false,
    secure := (s.qi? t.qi).any fun (q : Qi) => q.secure, answers := t.answers, extData := t.extData, extErr := t.extErr,
    args := some t.args, waits := false }

/-- A buffer goes before another in the order of R397. -/
def Buffer.before (a b : Buffer) : Bool :=
  decide (a.handle < b.handle) || (a.handle == b.handle && (decide (a.off < b.off) ||
    (a.off == b.off && decide (a.len < b.len))))

/-- The first buffer in that order. -/
def firstBuffer : List Buffer → Option Buffer
  | [] => none
  | b :: r =>
    match firstBuffer r with
    | none => some b
    | some c => some (if c.before b then c else b)

/-- A buffer is done with: hashed, or failed with a class (R398). -/
def Task.hashed (t : Task) (b : Buffer) (cls : Option Nat) : Task :=
  { t with buffers := t.buffers.erase b, answers := [], extData := [], extErr := [],
           failed := t.failed.orElse fun _ => cls.map fun c => (c, b) }

/-- MEASURE_HASHING: once the task's work has ended, its next result buffer is hashed into the chain (R397, R398). -/
def execMeasureHashing (task : Nat) (s : State) : Outcome State Fault Refusal :=
  match s.task? task with
  | none => .next s
  | some t =>
    match firstBuffer t.buffers with
    | none => .next s
    | some b =>
      .next (if t.worked ∧ t.wait = .none ∧ s.runs t.ctx then
        match s.hubRead (s.hashWho task t) b.handle b.off b.len 1 Entry.pr with
        | .ok bs => (s.extend t.ctx tagRslt bs).onTask task fun t => t.hashed b none
        | .error (.fail cls) =>
          let s := if cls = Cls.dataCheck then s.errUp (unitOfQi t.qi) 48 16 1 else s
          s.onTask task fun t => t.hashed b (some cls)
        | .error h =>
          match s.await (.hash task) t.ctx (hubOfQi t.qi) 0x10 h with
          | none => s
          | some (wait, drop, s) =>
            s.onTask task fun t => { t with wait, answers := if drop then [] else t.answers }
      else s)

/-- The FP counters of a task are added to its context's (R211). -/
def State.addFp (s : State) (t : Task) : State :=
  s.onCtx t.ctx fun x =>
    { x with fpCum := t.fp.foldl (fun m (e : Nat × Nat) => put m e.1 (satAdd (2 ^ 48 - 1) (count m e.1) e.2)) x.fpCum }

/-- A task leaves: its ranges are retired, and no task waits for it any more (R390). -/
def State.retire (s : State) (task : Nat) (t : Task) : State :=
  let s := { s with tasks := mapS (drop s.tasks task) fun _ u => { u with deps := u.deps.filter (· != task) } }
  s.onVd (s.vdOf t.ctx) fun v => { v with ranges := v.ranges.filter fun r => r.task != task }

/-- The begun packet that waits for a work item has completed. -/
def Qi.workDone (x : Qi) (kick : Bool) (id : Nat) : Qi :=
  { x with begun := x.begun.filter fun b => !((b.type == 256) == kick && b.work == some id) }

/-- A task of a graph launch has completed; with the last, the launch has (R386). -/
def State.launchStep (s : State) (id : Nat) (l : GraphLaunch) (failed : Option Nat) : State :=
  let l := { l with left := l.left - 1, failed := l.failed.orElse fun _ => failed }
  if l.left ≠ 0 then { s with launches := put s.launches id l }
  else
    let s := { s with launches := drop s.launches id }
    let s := s.onQi l.qi fun x => x.workDone true id
    (s.post l.qi { source := graphSource l.word, kind := 2, status := if l.failed.isSome then 1 else 0,
                   fclass := l.failed.getD 0, detail := l.word.toNat }).letGo l.qi

/-- The completion of a task for whatever launched it: the KIND 0x01 record of a LAUNCH, or the count of a graph. -/
def State.taskRecord (s : State) (task : Nat) (t : Task) : State :=
  let cls := t.failed.map (·.1)
  match t.launch with
  | some id =>
    match look s.launches id with
    | none => s
    | some l => s.launchStep id l cls
  | none =>
    let s := s.onQi t.qi fun x => x.workDone false task
    (s.post t.qi { source := t.number, kind := 1, status := if cls.isSome then 1 else 0, fclass := cls.getD 0,
                   fpc := (t.failed.map fun f => f.2.pc.toNat).getD 0, detail := t.packet }).letGo t.qi

/-- The context stops on a result buffer that could not be read (R281, R398). -/
def State.stopMeasured (s : State) (t : Task) : State :=
  match t.failed with
  | none => s
  | some (cls, b) =>
    if cls = Cls.coherenceLost then s.stopLost t.ctx (unitOfQi t.qi)
    else s.stop t.ctx cls t.number (b.qual + 2 ^ 11) b.pc (w64 (b.handle % 4096 * 2 ^ 52 + b.off % 2 ^ 52)) (unitOfQi t.qi)

/-- TASK_COMPLETION_POINT (R32, R138, R390, R394). -/
def execTaskCompletionPoint (task : Nat) (s : State) : Outcome State Fault Refusal :=
  match s.task? task with
  | none => .next s
  | some t =>
    .next (if t.worked ∧ t.buffers = [] ∧ t.wait = .none ∧ s.runs t.ctx then
      (((s.addFp t).retire task t).taskRecord task t).stopMeasured t
    else s)

end Sys2Proof.Machine
end

