-- ==== Sys2Proof/Machine/Links.lean ====
section
/-! DEFINITION. The links: answers of the host and of peers, requests of peers, and the modules of the die links (R446,
R449 to R454). -/

namespace Sys2Proof.Machine

open Host (Outcome)

/-! ### Answers (R226, R449, R450) -/

/-- The length of the data with which a request is answered. -/
def ExtKind.size (k : ExtKind) : Nat :=
  match k with
  | .read n => n
  | .write _ => 0
  | .atomic op mo _ _ => if op = 0x0C then 0 else if op = 0x0D then 8 else if op = 0x0E then 4 else atomWidth op mo
  | .guard _ _ => 4

/-- Answers that an agent has, with another. -/
def addAnswer (loc : Loc) (r : Except Nat (List Byte)) (x : List (Loc × List Byte) × List (Loc × Nat)) :
    List (Loc × List Byte) × List (Loc × Nat) :=
  match r with
  | .ok bs => ((loc, bs) :: x.1, x.2)
  | .error cls => (x.1, (loc, cls) :: x.2)

/-- The value of a counter that a saved unit waits on: one that is 0, or that cannot be read, keeps it no longer (R371). -/
def State.answerSaved (s : State) (id : Nat) (loc : Loc) (r : Except Nat (List Byte)) : State :=
  let ends := match r with | .ok bs => natOf bs == 0 | .error _ => true
  if ends then { s with images := adjust s.images id fun x => { x with far := x.far.filter (· != loc) } } else s

/-- An answer reaches its agent. -/
def State.giveExt (s : State) (a : Agent) (loc : Loc) (r : Except Nat (List Byte)) : State :=
  let f := addAnswer loc r
  match a with
  | .lane core slot l => s.onWarp core slot fun w => w.onMask ((1 : Word) <<< l) fun _ x =>
      { x with extData := (f (x.extData, x.extErr)).1, extErr := (f (x.extData, x.extErr)).2 }
  | .lead core slot => s.onLead core slot fun x =>
      { x with extData := (f (x.extData, x.extErr)).1, extErr := (f (x.extData, x.extErr)).2 }
  | .copy core slot ticket => s.onCopy (crewKey core slot) ticket fun x =>
      { x with extData := (f (x.extData, x.extErr)).1, extErr := (f (x.extData, x.extErr)).2 }
  | .queue q => s.onQi q fun x =>
      { x with extData := (f (x.extData, x.extErr)).1, extErr := (f (x.extData, x.extErr)).2 }
  | .hash t => s.onTask t fun x =>
      { x with extData := (f (x.extData, x.extErr)).1, extErr := (f (x.extData, x.extErr)).2 }
  | .release id => s.onRelease id fun x =>
      { x with extData := (f (x.extData, x.extErr)).1, extErr := (f (x.extData, x.extErr)).2 }
  | .atom id => s.answerAtom id r
  | .saved id => s.answerSaved id loc r
  | .control vd => s.onVd vd fun v => { v with invals := modNth v.invals 0 fun x =>
      { x with extData := (f (x.extData, x.extErr)).1, extErr := (f (x.extData, x.extErr)).2 } }
  | .inbound id => { s with inbound := adjust s.inbound id fun x =>
      { x with extData := (f (x.extData, x.extErr)).1, extErr := (f (x.extData, x.extErr)).2 } }

/-- A request is answered; its agent goes on when every request of its wait is. The answer of a context being killed is
dropped (R441). -/
def State.answerExt (s : State) (id : Nat) (e : Ext) (r : Except Nat (List Byte)) : State :=
  let s := { s with exts := drop s.exts id }
  let s := if s.runs e.ctx then s.giveExt e.agent e.loc r else match e.agent with
    | .atom n => { s with atoms := drop s.atoms n }
    | _ => s
  if s.exts.any fun x => x.2.group == e.group then s
  else (s.onWaiters fun w a => (if w = Wait.ext e.group then .none else w, a)).flushAll

/-- An outstanding request and an answer that fits it: data of its length, or an error. -/
def State.answered (s : State) (id : Nat) (peer : Bool) (r : Except Nat (List Byte)) : State :=
  match look s.exts id with
  | none => s
  | some e =>
    let here := match e.loc with | .peer _ _ _ => peer | .host _ _ => !peer | .dev _ => false
    let fits := match r with | .ok bs => bs.length == e.kind.size | .error _ => true
    if here && fits then s.answerExt id e r else s

/-- PCIE_COMPLETION (R449). -/
def execPcieCompletion (id : Nat) (r : CplStatus) (data : List Byte) (s : State) : Outcome State Fault Refusal :=
  .next (s.answered id false (match r with
    | .ok => .ok data
    | .poisoned => .error Cls.dataCheck
    | .unsupported => .error Cls.pageFatal
    | .abort => .error Cls.pageFatal))

/-- PCIE_COMPLETION_TIMEOUT: PAGE_FATAL with TDATA[63] = 1 (R449). -/
def execPcieCompletionTimeout (id : Nat) (s : State) : Outcome State Fault Refusal :=
  .next (s.answered id false (.error (Cls.pageFatal + 256)))

/-- INBOUND_POISONED_REQUEST: dropped, and reported through AER (R449). -/
def execInboundPoisonedRequest (hub : Nat) (s : State) : Outcome State Fault Refusal := .next (s.emit (.aer hub))

/-- CIHAM_RESPONSE (R226, R450, R454). -/
def execCihamResponse (id : Nat) (r : PeerStatus) (data : List Byte) (s : State) : Outcome State Fault Refusal :=
  .next (s.answered id true (match r with
    | .ok => .ok data
    | .perm => .error Cls.perm
    | .unreachable => .error (Cls.pageFatal + 256)
    | .data => .error Cls.dataCheck))

/-- CIHAM_REQUEST_TIMEOUT: it fails as R226 lays down (R450). -/
def execCihamRequestTimeout (id : Nat) (s : State) : Outcome State Fault Refusal :=
  .next (s.answered id true (.error (Cls.pageFatal + 256)))

/-! ### Requests of peers (R452) -/

/-- The context and the handle that an endpoint exposes to the sender of a request (R452, Table 19.3). -/
def State.exposed (s : State) (r : PeerRequest) : Option (Nat × Nat) :=
  match look s.endpoints r.endpoint with
  | none => none
  | some e =>
    let f (lo n : Nat) : Nat := (e.extractLsb' lo n).toNat
    let c := ctxKey (f 107 10) (f 101 6)
    if e.getLsbD 127 && f 73 16 == r.peerId && f 64 9 == r.peerEp && f 89 12 != 0xFFF && s.runs c then some (c, f 89 12)
    else none

/-- The accessor that an inbound request is: an engine of the hub, in the world of the VD. -/
def State.peerWho (s : State) (id c : Nat) (x : Inbound) : Who :=
  { agent := .inbound id, ctx := c, core := none, slot := 0, loose := false,
    secure := (s.vd? (s.vdOf c)).any (·.config.secure), answers := x.answers, extData := x.extData, extErr := x.extErr,
    args := none, waits := false }

/-- An inbound request is answered. -/
def State.peerAnswer (s : State) (id ep status : Nat) (data : List Byte) : State :=
  ({ s with inbound := drop s.inbound id } : State).emit (.peerReply ep status data)

/-- An inbound request that is not performed now: it fails, or waits (R452, R454). -/
def State.peerHitch (s : State) (id ep c : Nat) (h : Hitch) : State :=
  match h with
  | .fail cls =>
    if cls = Cls.dataCheck then (s.errUp (4 + ep / 256) 48 16 1).peerAnswer id ep 3 []
    else s.peerAnswer id ep (if cls = Cls.pageFatal then 2 else 1) []
  | h =>
    match s.await (.inbound id) c (ep / 256) 0x10 h with
    | none => s
    | some (wait, clear, s) => { s with inbound := adjust s.inbound id fun x =>
        { x with wait, answers := if clear then [] else x.answers } }

/-- The alignment that step 5 asks of a width. -/
def peerAlign (n : Nat) : Nat := if n = 2 ∨ n = 4 ∨ n = 8 ∨ n = 16 then n else 1

/-- The operand values of an atomic request. -/
def operandsOf : List Word → List DWord
  | lo :: hi :: r => join64 hi lo :: operandsOf r
  | _ => []

/-- An atomic that a peer sent goes to the Badger of its line (R239, R452). -/
def State.peerAtomic (s : State) (id c ep h op mo fn : Nat) (ws : List Word) (off : Nat) (loc : Loc) : State :=
  let a : AtomReq :=
    { ctx := c, task := 0, core := peerCore ep, slot := 0, lane := 0, prod := some 0, op, mod := mo, fn,
      place := .mem loc, operand := operandsOf ws, dest := 0, pc := 0, off, name := h, owned := false,
      accepted := false, order := 0, badger := none, aside := false, beat := 0, batch := id, ev := [], rel := none,
      waiting := false, retry := false, reply := none }
  ({ s with inbound := drop s.inbound id } : State).accept id a

/-- A guard request that a peer sent acts at the home of its word (R139, R270 to R273, R452). -/
def State.peerGuard (s : State) (id c ep op : Nat) (shared : Bool) (pa : Nat) : State :=
  let t : Thread := .warp (peerCore ep) 0
  if pa / 64 ∈ s.lost then s.peerAnswer id ep 1 []
  else if s.leased (pa / 64) then s
  else if op = 4 then
    if s.heldIn pa shared then (s.dropGuard pa shared 5 t).peerAnswer id ep 0 (bytesOf 4 0)
    else s.peerAnswer id ep 0 (bytesOf 4 1)
  else
    let g : GuardReq :=
      { thread := t, lane := 0, group := 0, ctx := c, pa, shared, once := op == 3, dest := 0,
        unqueued := op == 2 && decide (s.guardsAt (homeHub pa) ≥ 8192), reply := none }
    ({ s with inbound := drop s.inbound id, guards := put s.guards id g } : State).serveGuard pa

/-- An inbound request is tried (R452). -/
def State.peerTry (s : State) (id : Nat) (x : Inbound) : State :=
  let r := x.req
  match s.exposed r with
  | none => s.peerAnswer id r.endpoint 1 []
  | some (c, h) =>
    let who := s.peerWho id c x
    match r.op with
    | .read n =>
      match s.hubRead who h r.offset n (peerAlign n) (permits 1) with
      | .error e => s.peerHitch id r.endpoint c e
      | .ok bs => s.peerAnswer id r.endpoint 0 bs
    | .write bs =>
      match s.linkWrite who h r.offset (peerAlign bs.length) bs with
      | .error e => s.peerHitch id r.endpoint c e
      | .ok s => s.peerAnswer id r.endpoint 0 []
    | .atomic op mo fn ws =>
      let w := atomWidth op mo
      let on := Config.atomicOps (r.endpoint / 256)
      if op = 0x0B ∨ 0x0E < op then s.peerAnswer id r.endpoint 1 []
      else
        match s.reachRange who h r.offset w { w, align := w, acc := 8, ok4 := atomOk op mo on } fun _ _ =>
            .atomic op mo fn ws with
        | .error e => s.peerHitch id r.endpoint c e
        | .ok rs =>
          let loc := ((rs.map fun y => y.out.loc).headD (.dev 0))
          match loc with
          | .dev pa => s.peerAtomic id c r.endpoint h op mo fn ws r.offset (.dev pa)
          | loc => s.peerAnswer id r.endpoint 0 (s.loadBytes who loc w)
    | .guard op shared =>
      if op < 2 ∨ 4 < op then s.peerAnswer id r.endpoint 1 []
      else
        match s.reachRange who h r.offset 8 { w := 8, align := 8, acc := 8, ok4 := guardOk } fun _ _ => .guard op shared with
        | .error e => s.peerHitch id r.endpoint c e
        | .ok rs =>
          match (rs.map fun y => y.out.loc).headD (.dev 0) with
          | .dev pa => s.peerGuard id c r.endpoint op shared pa
          | loc => s.peerAnswer id r.endpoint 0 (s.loadBytes who loc 4)

/-- CIHAM_INBOUND_REQUEST: a request arrives, or one that waited is tried again, which the same event names (R452). -/
def execCihamInboundRequest (r : PeerRequest) (s : State) : Outcome State Fault Refusal :=
  match s.inbound.find? fun e => e.2.req == r && e.2.wait == Wait.none with
  | some (id, x) => .next (s.peerTry id x)
  | none =>
    let (id, s) := s.fresh
    let x : Inbound := { req := r, wait := .none, answers := [], extData := [], extErr := [] }
    .next (({ s with inbound := put s.inbound id x } : State).peerTry id x)

/-! ### Die links (R446) -/

/-- FLIT_CRC_ERROR: replayed by the link, which no program sees (R446). -/
def execFlitCrcError (_link : Nat) (s : State) : Outcome State Fault Refusal := .next s

/-- Modules that a link keeps once it has trained. -/
def State.modules (s : State) (link : Nat) : Nat := s.links.getD link 0 - s.training.count link

/-- LINK_MODULE_FAILURE: the link trains again without the module, or cannot keep 12 (R446, R457). -/
def execLinkModuleFailure (link : Nat) (s : State) : Outcome State Fault Refusal :=
  let s' := { s with training := link :: s.training }
  .next (if 4 < link ∨ (link < 4 ∧ !s.dieUp link) then s
  else if 12 ≤ s'.modules link then s'
  else if link = 4 then s'.alarmTo 2
  else s'.beginReset link 2)

/-- The grant of a VD puts a floor on a link. -/
def Vd.floorOn (v : Vd) (link : Nat) : Bool := v.held.any fun g => g.type == 5 && g.inst == link && g.floor != 0

/-- The floor of a VD on a link scaled down in the proportion of the modules that it loses (R446). -/
def Vd.scaleFloor (v : Vd) (link old new : Nat) : Vd :=
  { v with held := v.held.map fun g => if g.type = 5 ∧ g.inst = link then { g with floor := g.floor * new / old } else g }

/-- LINK_RETRAIN_COMPLETE: the capability record and the floors on the link fall, and event 0x07 goes to the VDs with a
floor on it (R446, R461). -/
def execLinkRetrainComplete (link : Nat) (s : State) : Outcome State Fault Refusal :=
  if !(s.training.contains link) || decide (s.modules link < 12) then .next s
  else
    let n := s.modules link
    let old := s.links.getD link 0
    let s := ({ s with links := setNth s.links link n, training := s.training.filter (· != link) } : State).capChange
    let r : Rec := { source := link, kind := 8, fclass := 7, fpc := 0xFFFFFFFF, detail := n }
    let told := s.residents.filter fun v => (s.vd? v).any fun x => x.floorOn link
    let s := { s with vds := mapS s.vds fun _ v => v.scaleFloor link old n }
    .next ((told.foldl (fun s v => s.postVd v r) s).postMgmt r)

end Sys2Proof.Machine
end

