-- ==== Sys2Proof/Machine/System.lean ====
section
/-! DEFINITION. The system instructions: NOP, CTRRD, BRK, MEASURE and FPEVRD (R185, R210, R212, R398). -/

namespace Sys2Proof.Machine

open Host (Outcome)

/-- NOP (R185). -/
def execNop (f : Fields) (s : State) : Outcome State Fault Refusal :=
  issue 12 0x00 f s anyway (fun s i => i.done s) fun s i => i.done s

/-- BRK: the class BRK in the active lanes, or in the lead thread, with the IMM19 code (R185); in FADDR too, where Table 6.7
leaves the detail of BRK to a chapter that gives it for lanes alone (DESIGN CHOICE, log 67). -/
def execBrk (f : Fields) (s : State) : Outcome State Fault Refusal :=
  issue 12 0x02 f s anyway
    (fun s i => if i.act = 0 then i.done s else i.raise s Cls.brk i.act (fun _ => 0) fun _ => w64 i.f.imm.toNat)
    fun s i => i.raise s Cls.brk (w64 i.f.imm.toNat)

/-! ### CTRRD (R210) -/

/-- The register that a selector of CTRRD names is read in pairs. -/
def counterWide (sel : Nat) : Bool := decide (0x10 ≤ sel ∧ sel ≤ 0x12) || sel == 0x1B || sel == 0x1C

/-- What CTRRD reads in a lane: INSTR counts this instruction. -/
def Iss.counter (i : Iss) (s : State) (l : Nat) : DWord :=
  match i.f.a.toNat with
  | 0x10 => w64 (s.cycleOf i.core)
  | 0x11 => s.time
  | 0x12 => i.w.instr + 1
  | 0x18 => i.w.tcause.setWidth 64
  | 0x19 => i.w.tpc.setWidth 64
  | 0x1A => i.w.tlanes.setWidth 64
  | 0x1B => (i.w.lane l).taddr
  | _ => (i.w.lane l).tdata

/-- What CTRRD reads in the lead stream. -/
def LIss.counter (i : LIss) (s : State) : DWord :=
  match i.f.a.toNat with
  | 0x10 => w64 (s.cycleOf i.core)
  | 0x11 => s.time
  | _ => i.c.lead.instr + 1

/-- CTRRD (R210). -/
def execCtrrd (f : Fields) (s : State) : Outcome State Fault Refusal :=
  issue 12 0x01 f s anyway (fun s i => i.write s (counterWide i.f.a.toNat) (i.counter s)) fun s i =>
    i.write s (i.counter s)

/-! ### FPEVRD (R212) -/

/-- An FP event counter of a task (R211). -/
def State.fpCounter (s : State) (task n : Nat) : DWord := w64 ((s.task? task).elim 0 fun t => count t.fp n)

/-- Some active lane has float atomics whose events are not counted yet (R212). -/
def State.countsDue (s : State) (i : Iss) : Bool :=
  let batches := (s.atoms.filter fun e => e.2.core == i.core && e.2.slot == i.slot && bitOf i.act e.2.lane && e.2.op == 0x0A).map
    fun (e : Nat × AtomReq) => e.2.batch
  s.atoms.any fun e => e.2.reply.isNone && batches.contains e.2.batch

/-- FPEVRD: the events of a lane's own earlier instructions are counted first (R212). -/
def execFpevrd (f : Fields) (s : State) : Outcome State Fault Refusal :=
  issue 12 0x04 f s anyway
    (fun s i => if s.countsDue i then i.retry s else i.write s true fun _ => s.fpCounter i.w.task i.f.a.toNat) fun s i =>
      i.write s (s.fpCounter i.c.task i.f.a.toNat)

/-! ### MEASURE (R398) -/

/-- The task's descriptor has FLAGS.measure (Table 16.6). -/
def Task.measured (t : Task) : Bool := descField t.desc 29 1 / 4 % 2 == 1

/-- What a buffer asks of its handle: PR, with w = length. No offset is misaligned for a length of 0, which fails at step 6. -/
def bufferAsk (len : Nat) : Ask := { w := len, align := max 1 len, acc := 1, ok4 := Entry.pr }

/-- The checks of a buffer: steps 1 to 6 of Table 9.7, a length of 0 as step 6. -/
def State.bufferCheck (s : State) (who : Who) (h off len : Nat) : Option (Nat × Nat) :=
  match s.precheck who h (off : Int) (bufferAsk len) with
  | some e => some e
  | none => if len = 0 then some (6, Cls.bounds) else none

/-- Two buffers are one range. -/
def Buffer.same (a b : Buffer) : Bool := a.handle == b.handle && a.off == b.off && a.len == b.len

/-- The buffer is noted in its task. -/
def Task.note (t : Task) (b : Buffer) : Task :=
  if t.buffers.any (b.same ·) then t else { t with buffers := t.buffers ++ [b] }

/-- The task takes no further MEASURE: it lacks FLAGS.measure, or it already holds 64 distinct buffers. -/
def Task.full (t : Task) : Bool := !t.measured || decide (t.buffers.length ≥ 64)

/-- A fault of MEASURE without a handle as its detail. -/
def Caller.quota (c : Caller) (s : State) : State :=
  match c with
  | .warp i m => i.raise s Cls.quota m (fun _ => 0) fun _ => 0
  | .lead i => i.raise s Cls.quota 0

/-- MEASURE of one thread. -/
def Caller.measure (c : Caller) (s : State) : State :=
  let l := c.lanes.headD 0
  let (h, off, len) := (c.handle l, c.off32 l, c.reg l c.f.c.toNat)
  match s.bufferCheck (c.who s l) h off len with
  | some (_, cls) =>
    c.fault s cls c.mask 1 0 fun _ => { h, o := (off : Int), q := bufferAsk len }
  | none =>
    let b : Buffer := { handle := h, off, len, pc := c.pc, qual := c.qual l }
    if (s.task? c.task).all fun (t : Task) => t.full then c.quota s
    else c.done (s.onTask c.task fun t => t.note b)

/-- MEASURE (R398). -/
def execMeasure (f : Fields) (s : State) : Outcome State Fault Refusal :=
  issue 12 0x03 f s anyway (fun s i => i.elected s fun c => c.measure s) fun s i => (Caller.lead i).measure s

end Sys2Proof.Machine
end

