-- ==== Sys2Proof/Machine/Dispatch.lean ====
section
/-! DEFINITION. The dispatch: one arm per instruction, each one direct call of its meaning. -/

namespace Sys2Proof.Machine

/-- The meaning of an instruction, operation or event in a state. -/
def exec (i : Instr) (s : State) : Host.Outcome State Fault Refusal :=
  match i with
  | .coldReset => Sys2Proof.Machine.execColdReset s
  | .bootStageComplete r => Sys2Proof.Machine.execBootStageComplete r s
  | .throttleThresholdCrossed die temp => Sys2Proof.Machine.execThrottleThresholdCrossed die temp s
  | .throttleRecovery die temp => Sys2Proof.Machine.execThrottleRecovery die temp s
  | .tripThresholdCrossed die temp => Sys2Proof.Machine.execTripThresholdCrossed die temp s
  | .flr => Sys2Proof.Machine.execFlr s
  | .clockClassChangeDone => Sys2Proof.Machine.execClockClassChangeDone s
  | .sadd f => Sys2Proof.Machine.execSadd f s
  | .ssub f => Sys2Proof.Machine.execSsub f s
  | .smul f => Sys2Proof.Machine.execSmul f s
  | .smulh f => Sys2Proof.Machine.execSmulh f s
  | .sdiv f => Sys2Proof.Machine.execSdiv f s
  | .srem f => Sys2Proof.Machine.execSrem f s
  | .sand f => Sys2Proof.Machine.execSand f s
  | .sor f => Sys2Proof.Machine.execSor f s
  | .sxor f => Sys2Proof.Machine.execSxor f s
  | .sshl f => Sys2Proof.Machine.execSshl f s
  | .sshr f => Sys2Proof.Machine.execSshr f s
  | .ssra f => Sys2Proof.Machine.execSsra f s
  | .smin f => Sys2Proof.Machine.execSmin f s
  | .smax f => Sys2Proof.Machine.execSmax f s
  | .scmp f => Sys2Proof.Machine.execScmp f s
  | .ssel f => Sys2Proof.Machine.execSsel f s
  | .sli f => Sys2Proof.Machine.execSli f s
  | .sbits f => Sys2Proof.Machine.execSbits f s
  | .sld f => Sys2Proof.Machine.execSld f s
  | .sst f => Sys2Proof.Machine.execSst f s
  | .sbr f => Sys2Proof.Machine.execSbr f s
  | .sbc f => Sys2Proof.Machine.execSbc f s
  | .scall f => Sys2Proof.Machine.execScall f s
  | .sret f => Sys2Proof.Machine.execSret f s
  | .sjmp f => Sys2Proof.Machine.execSjmp f s
  | .dqpush f => Sys2Proof.Machine.execDqpush f s
  | .srdx f => Sys2Proof.Machine.execSrdx f s
  | .swrx f => Sys2Proof.Machine.execSwrx f s
  | .swaitq f => Sys2Proof.Machine.execSwaitq f s
  | .lbr f => Sys2Proof.Machine.execLbr f s
  | .lbrc f => Sys2Proof.Machine.execLbrc f s
  | .lcall f => Sys2Proof.Machine.execLcall f s
  | .lret f => Sys2Proof.Machine.execLret f s
  | .ljmp f => Sys2Proof.Machine.execLjmp f s
  | .ubr f => Sys2Proof.Machine.execUbr f s
  | .dqpop f => Sys2Proof.Machine.execDqpop f s
  | .join f => Sys2Proof.Machine.execJoin f s
  | .leave f => Sys2Proof.Machine.execLeave f s
  | .waitj f => Sys2Proof.Machine.execWaitj f s
  | .jset f => Sys2Proof.Machine.execJset f s
  | .jget f => Sys2Proof.Machine.execJget f s
  | .bar f => Sys2Proof.Machine.execBar f s
  | .gbar f => Sys2Proof.Machine.execGbar f s
  | .exit f => Sys2Proof.Machine.execExit f s
  | .partset f => Sys2Proof.Machine.execPartset f s
  | .elect f => Sys2Proof.Machine.execElect f s
  | .trap f => Sys2Proof.Machine.execTrap f s
  | .rte f => Sys2Proof.Machine.execRte f s
  | .lpcrd f => Sys2Proof.Machine.execLpcrd f s
  | .iadd f => Sys2Proof.Machine.execIadd f s
  | .isub f => Sys2Proof.Machine.execIsub f s
  | .imul f => Sys2Proof.Machine.execImul f s
  | .imulh f => Sys2Proof.Machine.execImulh f s
  | .imad f => Sys2Proof.Machine.execImad f s
  | .imadw f => Sys2Proof.Machine.execImadw f s
  | .iand f => Sys2Proof.Machine.execIand f s
  | .ior f => Sys2Proof.Machine.execIor f s
  | .ixor f => Sys2Proof.Machine.execIxor f s
  | .ishl f => Sys2Proof.Machine.execIshl f s
  | .ishr f => Sys2Proof.Machine.execIshr f s
  | .isra f => Sys2Proof.Machine.execIsra f s
  | .imin f => Sys2Proof.Machine.execImin f s
  | .imax f => Sys2Proof.Machine.execImax f s
  | .iabs f => Sys2Proof.Machine.execIabs f s
  | .icmp f => Sys2Proof.Machine.execIcmp f s
  | .isel f => Sys2Proof.Machine.execIsel f s
  | .ipop f => Sys2Proof.Machine.execIpop f s
  | .iclz f => Sys2Proof.Machine.execIclz f s
  | .ibrev f => Sys2Proof.Machine.execIbrev f s
  | .iperm f => Sys2Proof.Machine.execIperm f s
  | .ibfe f => Sys2Proof.Machine.execIbfe f s
  | .ibfi f => Sys2Proof.Machine.execIbfi f s
  | .iadds f => Sys2Proof.Machine.execIadds f s
  | .isubs f => Sys2Proof.Machine.execIsubs f s
  | .idp4 f => Sys2Proof.Machine.execIdp4 f s
  | .idp2 f => Sys2Proof.Machine.execIdp2 f s
  | .imov f => Sys2Proof.Machine.execImov f s
  | .shfl f => Sys2Proof.Machine.execShfl f s
  | .vote f => Sys2Proof.Machine.execVote f s
  | .redi f => Sys2Proof.Machine.execRedi f s
  | .scani f => Sys2Proof.Machine.execScani f s
  | .mlog f => Sys2Proof.Machine.execMlog f s
  | .mmov f => Sys2Proof.Machine.execMmov f s
  | .fadd f => Sys2Proof.Machine.execFadd f s
  | .fsub f => Sys2Proof.Machine.execFsub f s
  | .fmul f => Sys2Proof.Machine.execFmul f s
  | .ffma f => Sys2Proof.Machine.execFfma f s
  | .fmin f => Sys2Proof.Machine.execFmin f s
  | .fmax f => Sys2Proof.Machine.execFmax f s
  | .fcmp f => Sys2Proof.Machine.execFcmp f s
  | .fsgn f => Sys2Proof.Machine.execFsgn f s
  | .fcvt f => Sys2Proof.Machine.execFcvt f s
  | .fclass f => Sys2Proof.Machine.execFclass f s
  | .fscale f => Sys2Proof.Machine.execFscale f s
  | .hadd2 f => Sys2Proof.Machine.execHadd2 f s
  | .hmul2 f => Sys2Proof.Machine.execHmul2 f s
  | .hfma2 f => Sys2Proof.Machine.execHfma2 f s
  | .badd2 f => Sys2Proof.Machine.execBadd2 f s
  | .bmul2 f => Sys2Proof.Machine.execBmul2 f s
  | .bfma2 f => Sys2Proof.Machine.execBfma2 f s
  | .redf f => Sys2Proof.Machine.execRedf f s
  | .fdot2 f => Sys2Proof.Machine.execFdot2 f s
  | .rcp f => Sys2Proof.Machine.execRcp f s
  | .rsq f => Sys2Proof.Machine.execRsq f s
  | .sqrt f => Sys2Proof.Machine.execSqrt f s
  | .exp2 f => Sys2Proof.Machine.execExp2 f s
  | .log2 f => Sys2Proof.Machine.execLog2 f s
  | .sinpi f => Sys2Proof.Machine.execSinpi f s
  | .cospi f => Sys2Proof.Machine.execCospi f s
  | .tanh f => Sys2Proof.Machine.execTanh f s
  | .sigm f => Sys2Proof.Machine.execSigm f s
  | .fdiv f => Sys2Proof.Machine.execFdiv f s
  | .idiv f => Sys2Proof.Machine.execIdiv f s
  | .irem f => Sys2Proof.Machine.execIrem f s
  | .ld f => Sys2Proof.Machine.execLd f s
  | .st f => Sys2Proof.Machine.execSt f s
  | .ldt f => Sys2Proof.Machine.execLdt f s
  | .stt f => Sys2Proof.Machine.execStt f s
  | .talloc f => Sys2Proof.Machine.execTalloc f s
  | .tfree f => Sys2Proof.Machine.execTfree f s
  | .tquery f => Sys2Proof.Machine.execTquery f s
  | .hquery f => Sys2Proof.Machine.execHquery f s
  | .waita f => Sys2Proof.Machine.execWaita f s
  | .pref f => Sys2Proof.Machine.execPref f s
  | .fence f => Sys2Proof.Machine.execFence f s
  | .aadd f => Sys2Proof.Machine.execAadd f s
  | .aand f => Sys2Proof.Machine.execAand f s
  | .aor f => Sys2Proof.Machine.execAor f s
  | .axor f => Sys2Proof.Machine.execAxor f s
  | .amin f => Sys2Proof.Machine.execAmin f s
  | .amax f => Sys2Proof.Machine.execAmax f s
  | .axchg f => Sys2Proof.Machine.execAxchg f s
  | .acas f => Sys2Proof.Machine.execAcas f s
  | .ainc f => Sys2Proof.Machine.execAinc f s
  | .adec f => Sys2Proof.Machine.execAdec f s
  | .afadd f => Sys2Proof.Machine.execAfadd f s
  | .red f => Sys2Proof.Machine.execRed f s
  | .binit f => Sys2Proof.Machine.execBinit f s
  | .arrive f => Sys2Proof.Machine.execArrive f s
  | .bwait f => Sys2Proof.Machine.execBwait f s
  | .atomicRequestPerform id => Sys2Proof.Machine.execAtomicRequestPerform id s
  | .bwaitRetry id => Sys2Proof.Machine.execBwaitRetry id s
  | .badgerCreditRelease id => Sys2Proof.Machine.execBadgerCreditRelease id s
  | .replyArrival id => Sys2Proof.Machine.execReplyArrival id s
  | .producerWriteback th n => Sys2Proof.Machine.execProducerWriteback th n s
  | .move f => Sys2Proof.Machine.execMove f s
  | .ownq f => Sys2Proof.Machine.execOwnq f s
  | .gacq f => Sys2Proof.Machine.execGacq f s
  | .gtry f => Sys2Proof.Machine.execGtry f s
  | .grel f => Sys2Proof.Machine.execGrel f s
  | .lease f => Sys2Proof.Machine.execLease f s
  | .unlease f => Sys2Proof.Machine.execUnlease f s
  | .publish f => Sys2Proof.Machine.execPublish f s
  | .discard f => Sys2Proof.Machine.execDiscard f s
  | .guardRequestRetry id => Sys2Proof.Machine.execGuardRequestRetry id s
  | .releaseWritebackComplete id => Sys2Proof.Machine.execReleaseWritebackComplete id s
  | .forcedPublish objAddr => Sys2Proof.Machine.execForcedPublish objAddr s
  | .leaseGrant core slot => Sys2Proof.Machine.execLeaseGrant core slot s
  | .leaseExpiry core line => Sys2Proof.Machine.execLeaseExpiry core line s
  | .dieIsolation die => Sys2Proof.Machine.execDieIsolation die s
  | .lbind f => Sys2Proof.Machine.execLbind f s
  | .lunbind f => Sys2Proof.Machine.execLunbind f s
  | .ladd f => Sys2Proof.Machine.execLadd f s
  | .lsub f => Sys2Proof.Machine.execLsub f s
  | .lneg f => Sys2Proof.Machine.execLneg f s
  | .lshl f => Sys2Proof.Machine.execLshl f s
  | .lshr f => Sys2Proof.Machine.execLshr f s
  | .lsra f => Sys2Proof.Machine.execLsra f s
  | .lcmp f => Sys2Proof.Machine.execLcmp f s
  | .lmulw f => Sys2Proof.Machine.execLmulw f s
  | .lmont f => Sys2Proof.Machine.execLmont f s
  | .lcarry f => Sys2Proof.Machine.execLcarry f s
  | .lstat f => Sys2Proof.Machine.execLstat f s
  | .wload f => Sys2Proof.Machine.execWload f s
  | .wdrop f => Sys2Proof.Machine.execWdrop f s
  | .wcheck f => Sys2Proof.Machine.execWcheck f s
  | .mxfence f => Sys2Proof.Machine.execMxfence f s
  | .mxissue f => Sys2Proof.Machine.execMxissue f s
  | .mxwait f => Sys2Proof.Machine.execMxwait f s
  | .acczero f => Sys2Proof.Machine.execAcczero f s
  | .accrd f => Sys2Proof.Machine.execAccrd f s
  | .accwr f => Sys2Proof.Machine.execAccwr f s
  | .accdrain f => Sys2Proof.Machine.execAccdrain f s
  | .mxstat f => Sys2Proof.Machine.execMxstat f s
  | .matrixCommandStart core slot => Sys2Proof.Machine.execMatrixCommandStart core slot s
  | .matrixCommandComplete core slot => Sys2Proof.Machine.execMatrixCommandComplete core slot s
  | .matrixEngineHang core slot => Sys2Proof.Machine.execMatrixEngineHang core slot s
  | .macroCrcScrub core bad => Sys2Proof.Machine.execMacroCrcScrub core bad s
  | .cpy f => Sys2Proof.Machine.execCpy f s
  | .cpyg f => Sys2Proof.Machine.execCpyg f s
  | .cpys f => Sys2Proof.Machine.execCpys f s
  | .cpyf f => Sys2Proof.Machine.execCpyf f s
  | .ckpt f => Sys2Proof.Machine.execCkpt f s
  | .ckload f => Sys2Proof.Machine.execCkload f s
  | .cpyq f => Sys2Proof.Machine.execCpyq f s
  | .cpycan f => Sys2Proof.Machine.execCpycan f s
  | .copyStart core slot => Sys2Proof.Machine.execCopyStart core slot s
  | .copyComplete core slot ticket => Sys2Proof.Machine.execCopyComplete core slot ticket s
  | .cont f => Sys2Proof.Machine.execCont f s
  | .cwait f => Sys2Proof.Machine.execCwait f s
  | .yield f => Sys2Proof.Machine.execYield f s
  | .getid f => Sys2Proof.Machine.execGetid f s
  | .nop f => Sys2Proof.Machine.execNop f s
  | .ctrrd f => Sys2Proof.Machine.execCtrrd f s
  | .brk f => Sys2Proof.Machine.execBrk f s
  | .measure f => Sys2Proof.Machine.execMeasure f s
  | .fpevrd f => Sys2Proof.Machine.execFpevrd f s
  | .gangPlacement task cluster => Sys2Proof.Machine.execGangPlacement task cluster s
  | .gangReservation task cluster => Sys2Proof.Machine.execGangReservation task cluster s
  | .continuationGatherTimeout cluster key => Sys2Proof.Machine.execContinuationGatherTimeout cluster key s
  | .continuationPlacement id core => Sys2Proof.Machine.execContinuationPlacement id core s
  | .continuationRemotePlacement id core => Sys2Proof.Machine.execContinuationRemotePlacement id core s
  | .overflowRecordReturn ctx => Sys2Proof.Machine.execOverflowRecordReturn ctx s
  | .parkedUnitSave u => Sys2Proof.Machine.execParkedUnitSave u s
  | .parkedUnitRestore img cluster => Sys2Proof.Machine.execParkedUnitRestore img cluster s
  | .preemptionDecision u => Sys2Proof.Machine.execPreemptionDecision u s
  | .fullSaveTimeout u => Sys2Proof.Machine.execFullSaveTimeout u s
  | .drainDeadlineExpiry u => Sys2Proof.Machine.execDrainDeadlineExpiry u s
  | .gangSaveComplete u => Sys2Proof.Machine.execGangSaveComplete u s
  | .gangRestore img cluster => Sys2Proof.Machine.execGangRestore img cluster s
  | .owlScan u => Sys2Proof.Machine.execOwlScan u s
  | .maxrunOverrun u => Sys2Proof.Machine.execMaxrunOverrun u s
  | .kick qi word => Sys2Proof.Machine.execKick qi word s
  | .kickLaunch qi => Sys2Proof.Machine.execKickLaunch qi s
  | .pwptrWrite qi v => Sys2Proof.Machine.execPwptrWrite qi v s
  | .evrptrWrite qi v => Sys2Proof.Machine.execEvrptrWrite qi v s
  | .qstatClear qi v => Sys2Proof.Machine.execQstatClear qi v s
  | .nopPacket qi => Sys2Proof.Machine.execNopPacket qi s
  | .launch qi => Sys2Proof.Machine.execLaunch qi s
  | .ibCall qi => Sys2Proof.Machine.execIbCall qi s
  | .setHandle qi => Sys2Proof.Machine.execSetHandle qi s
  | .writeData qi => Sys2Proof.Machine.execWriteData qi s
  | .waitValue qi => Sys2Proof.Machine.execWaitValue qi s
  | .waitValueSatisfied qi => Sys2Proof.Machine.execWaitValueSatisfied qi s
  | .signal qi => Sys2Proof.Machine.execSignal qi s
  | .graphReg qi => Sys2Proof.Machine.execGraphReg qi s
  | .graphDrop qi => Sys2Proof.Machine.execGraphDrop qi s
  | .freqHint qi => Sys2Proof.Machine.execFreqHint qi s
  | .measurePacket qi => Sys2Proof.Machine.execMeasurePacket qi s
  | .receipt qi => Sys2Proof.Machine.execReceipt qi s
  | .fencePacket qi => Sys2Proof.Machine.execFencePacket qi s
  | .invalidPacket qi => Sys2Proof.Machine.execInvalidPacket qi s
  | .taskDependenceRelease task => Sys2Proof.Machine.execTaskDependenceRelease task s
  | .measureHashing task => Sys2Proof.Machine.execMeasureHashing task s
  | .taskCompletionPoint task => Sys2Proof.Machine.execTaskCompletionPoint task s
  | .eventInterruptTimer qi => Sys2Proof.Machine.execEventInterruptTimer qi s
  | .liveUpdateTakeover => Sys2Proof.Machine.execLiveUpdateTakeover s
  | .liveUpdateRollback => Sys2Proof.Machine.execLiveUpdateRollback s
  | .activeComplexFailure => Sys2Proof.Machine.execActiveComplexFailure s
  | .mgmtRing tag => Sys2Proof.Machine.execMgmtRing tag s
  | .infoRead tag => Sys2Proof.Machine.execInfoRead tag s
  | .pkgReset tag => Sys2Proof.Machine.execPkgReset tag s
  | .vdCreate tag => Sys2Proof.Machine.execVdCreate tag s
  | .vdAdmit tag => Sys2Proof.Machine.execVdAdmit tag s
  | .vdResize tag => Sys2Proof.Machine.execVdResize tag s
  | .vdEvict tag => Sys2Proof.Machine.execVdEvict tag s
  | .vdReset tag => Sys2Proof.Machine.execVdReset tag s
  | .vdDestroy tag => Sys2Proof.Machine.execVdDestroy tag s
  | .ctxCreate tag => Sys2Proof.Machine.execCtxCreate tag s
  | .ctxKill tag => Sys2Proof.Machine.execCtxKill tag s
  | .ctxDestroy tag => Sys2Proof.Machine.execCtxDestroy tag s
  | .ctxSetroot tag => Sys2Proof.Machine.execCtxSetroot tag s
  | .qiBind tag => Sys2Proof.Machine.execQiBind tag s
  | .qiUnbind tag => Sys2Proof.Machine.execQiUnbind tag s
  | .qiRestart tag => Sys2Proof.Machine.execQiRestart tag s
  | .alarmClear tag => Sys2Proof.Machine.execAlarmClear tag s
  | .fwImage tag img => Sys2Proof.Machine.execFwImage tag img s
  | .fwRecover tag img => Sys2Proof.Machine.execFwRecover tag img s
  | .epSet tag => Sys2Proof.Machine.execEpSet tag s
  | .dieReset tag => Sys2Proof.Machine.execDieReset tag s
  | .rcptKey tag => Sys2Proof.Machine.execRcptKey tag s
  | .mailboxBadOpcode word => Sys2Proof.Machine.execMailboxBadOpcode word s
  | .mgrptrWrite v => Sys2Proof.Machine.execMgrptrWrite v s
  | .mgdropClear v => Sys2Proof.Machine.execMgdropClear v s
  | .invsub vd v => Sys2Proof.Machine.execInvsub vd v s
  | .invalidationComplete vd => Sys2Proof.Machine.execInvalidationComplete vd s
  | .fresp vd v => Sys2Proof.Machine.execFresp vd v s
  | .fqrptrWrite vd v => Sys2Proof.Machine.execFqrptrWrite vd v s
  | .qrestart vd v => Sys2Proof.Machine.execQrestart vd v s
  | .plainRegisterWrite r v => Sys2Proof.Machine.execPlainRegisterWrite r v s
  | .pageWalkComplete id => Sys2Proof.Machine.execPageWalkComplete id s
  | .faultRecordDeferredWrite vd => Sys2Proof.Machine.execFaultRecordDeferredWrite vd s
  | .hbPageServiceComplete id victims region data => Sys2Proof.Machine.execHbPageServiceComplete id victims region data s
  | .atsTranslationCompletion id found => Sys2Proof.Machine.execAtsTranslationCompletion id found s
  | .pageRequestGroupResponse id r => Sys2Proof.Machine.execPageRequestGroupResponse id r s
  | .atsInvalidationRequest hub pasid page pages => Sys2Proof.Machine.execAtsInvalidationRequest hub pasid page pages s
  | .atsInvalidationCompletion hub => Sys2Proof.Machine.execAtsInvalidationCompletion hub s
  | .pcieCompletion id r data => Sys2Proof.Machine.execPcieCompletion id r data s
  | .pcieCompletionTimeout id => Sys2Proof.Machine.execPcieCompletionTimeout id s
  | .inboundPoisonedRequest hub => Sys2Proof.Machine.execInboundPoisonedRequest hub s
  | .cihamInboundRequest r => Sys2Proof.Machine.execCihamInboundRequest r s
  | .cihamResponse id r data => Sys2Proof.Machine.execCihamResponse id r data s
  | .cihamRequestTimeout id => Sys2Proof.Machine.execCihamRequestTimeout id s
  | .flitCrcError link => Sys2Proof.Machine.execFlitCrcError link s
  | .linkModuleFailure link => Sys2Proof.Machine.execLinkModuleFailure link s
  | .linkRetrainComplete link => Sys2Proof.Machine.execLinkRetrainComplete link s
  | .clockSupplyGlitch hub => Sys2Proof.Machine.execClockSupplyGlitch hub s
  | .engineDrainDone ctx engine => Sys2Proof.Machine.execEngineDrainDone ctx engine s
  | .killDrainTimeout ctx engine => Sys2Proof.Machine.execKillDrainTimeout ctx engine s
  | .dieUnitsSaved die => Sys2Proof.Machine.execDieUnitsSaved die s
  | .dieQuiesced die => Sys2Proof.Machine.execDieQuiesced die s
  | .dieWritebackDone die => Sys2Proof.Machine.execDieWritebackDone die s
  | .dieSelftestDone die ok => Sys2Proof.Machine.execDieSelftestDone die ok s
  | .dieLinkRetrained die ok => Sys2Proof.Machine.execDieLinkRetrained die ok s
  | .standbyImportComplete ok => Sys2Proof.Machine.execStandbyImportComplete ok s
  | .receiptSignatureComplete qi => Sys2Proof.Machine.execReceiptSignatureComplete qi s
  | .vdScrubComplete vd => Sys2Proof.Machine.execVdScrubComplete vd s
  | .priReenable hub => Sys2Proof.Machine.execPriReenable hub s
  | .meteringWindowEnd => Sys2Proof.Machine.execMeteringWindowEnd s
  | .dieSaveDeadlineExpiry die u => Sys2Proof.Machine.execDieSaveDeadlineExpiry die u s
  | .homeDirectoryRequest core line => Sys2Proof.Machine.execHomeDirectoryRequest core line s
  | .hbmChannelLeaveOrRejoin chan present => Sys2Proof.Machine.execHbmChannelLeaveOrRejoin chan present s

end Sys2Proof.Machine
end

