-- ==== Sys2Proof/Machine/Progress.lean ====
section
/-! DEFINITION. The events of the part itself that stand to happen: the model's default schedule takes them in turn
(log 4). An event that is not enabled changes nothing when its turn comes. -/

namespace Sys2Proof.Machine

/-- Producers of a thread that may write back (R68). -/
def producersDue (th : Thread) (ps : List Producer) : List Instr :=
  (List.range ps.length).map fun n => .producerWriteback th n

/-- What the threads wait for: producers, leases, matrix commands, copies. -/
def State.threadsDue (s : State) : List Instr :=
  (s.warps.flatMap fun (e : Nat × Warp) =>
    producersDue (.warp (e.1 / 16) (e.1 % 16)) e.2.prods ++
      if e.2.leases.any fun x => !x.granted then [.leaseGrant (e.1 / 16) (e.1 % 16)] else []) ++
  s.crews.flatMap fun (e : Nat × Crew) =>
    let core := e.1 / 4
    let slot := e.1 % 4
    producersDue (.lead core slot) e.2.lead.prods ++
      (if e.2.mx = [] then [] else [.matrixCommandStart core slot, .matrixCommandComplete core slot]) ++
      (if e.2.copies.any fun x => !x.started then [.copyStart core slot] else []) ++
      (e.2.copies.filter (·.started)).map fun x => .copyComplete core slot x.ticket

/-- An atomic request's next event. -/
def AtomReq.due (id : Nat) (a : AtomReq) : Instr :=
  if a.reply.isSome then .replyArrival id
  else if a.retry then .bwaitRetry id
  else if a.accepted then .atomicRequestPerform id
  else .badgerCreditRelease id

/-- A guard request's next event. -/
def GuardReq.due (id : Nat) (g : GuardReq) : List Instr :=
  if g.reply.isSome then [.replyArrival id] else if g.unqueued then [.guardRequestRetry id] else [.forcedPublish g.pa]

/-- What the memory system has in flight: stores, atomics, guards, releases, translation walks. -/
def State.memoryDue (s : State) : List Instr :=
  ((s.pending.map fun p => (p.core, p.pa / 64)).dedup.map fun p => .homeDirectoryRequest p.1 p.2) ++
  (s.atoms.map fun (e : Nat × AtomReq) => e.2.due e.1) ++ (s.guards.flatMap fun (e : Nat × GuardReq) => e.2.due e.1) ++
    (s.releases.map fun (e : Nat × Release) => .releaseWritebackComplete e.1) ++
    s.walks.map fun (e : Nat × Walk) => .pageWalkComplete e.1

/-- The clusters granted to the VD of a context. -/
def State.clustersFor (s : State) (ctx : Nat) : List Nat :=
  match s.vd? (s.vdOf ctx) with
  | none => []
  | some v => v.clusters.map fun (c : Nat × Nat × Nat) => c.1

/-- The cores of some clusters. -/
def coresFor (clusters : List Nat) : List Nat := clusters.flatMap fun k => (List.range 16).map (k * 16 + ·)

/-- What the dispatch engines have to place, save and restore. -/
def State.dispatchDue (s : State) : List Instr :=
  (s.tasks.flatMap fun (e : Nat × Task) =>
    [.taskDependenceRelease e.1, .measureHashing e.1, .taskCompletionPoint e.1] ++
      (s.clustersFor e.2.ctx).map fun k => .gangPlacement e.1 k) ++
  (s.gather.map fun r => .continuationGatherTimeout r.cluster r.key) ++
  (s.contWarps.flatMap fun (e : Nat × ContWarp) =>
    ((coresFor [e.2.cluster]).map fun c => .continuationPlacement e.1 c) ++
      (coresFor (s.clustersFor e.2.key.ctx)).map fun c => .continuationRemotePlacement e.1 c) ++
  (s.ctxs.flatMap fun (e : Nat × Ctx) => if e.2.overflow = [] then [] else [.overflowRecordReturn e.1]) ++
  (s.preempts.map fun x => .gangSaveComplete x.unit) ++
  s.images.flatMap fun (e : Nat × Image) => (s.clustersFor e.2.ctx).flatMap fun k =>
    [.gangRestore e.1 k, .parkedUnitRestore e.1 k]

/-- What a bound queue interface has to do: kick words first, then packets. -/
def queueDue (q : Nat) (x : Qi) : List Instr :=
  if x.bound then
    [.kickLaunch q, .nopPacket q, .launch q, .ibCall q, .setHandle q, .writeData q, .waitValue q, .waitValueSatisfied q,
      .signal q, .graphReg q, .graphDrop q, .freqHint q, .measurePacket q, .receipt q, .fencePacket q, .invalidPacket q]
  else []

/-- CTX_SETROOT waits for its invalidation (R423). -/
def State.rootChange (s : State) : Bool := match s.mb.wait with | some (.inval _) => true | _ => false

/-- What the tenant controller has to do: invalidations, deferred fault records, kills, signatures. -/
def State.controlDue (s : State) : List Instr :=
  (s.vds.flatMap fun (e : Nat × Vd) =>
    (if e.2.invals = [] ∧ !s.rootChange then [] else [.invalidationComplete e.1]) ++
      if e.2.waiting = [] then [] else [.faultRecordDeferredWrite e.1]) ++
  (s.ctxs.flatMap fun (e : Nat × Ctx) =>
    if e.2.kill.isSome then (List.range 11).map fun n => .engineDrainDone e.1 n else []) ++
  s.pkg.signing.map fun x => .receiptSignatureComplete x.qi

/-- Every event that stands to happen. -/
def State.progress (s : State) : List Instr :=
  s.threadsDue ++ s.memoryDue ++ s.dispatchDue ++ (s.qis.flatMap fun (e : Nat × Qi) => queueDue e.1 e.2) ++ s.controlDue

end Sys2Proof.Machine
end

