-- ==== Sys2Proof/Machine/Timers.lean ====
section
/-! DEFINITION. The part's own timers and the operations that end by themselves: the model's default schedule tries them in
turn, beside the events of Machine/Progress.lean (log 4). One that is not due changes nothing. -/

namespace Sys2Proof.Machine

open Host (Outcome)

/-- A timer or an operation that may come due. -/
abbrev Timer := State → Outcome State Fault Refusal

/-- Timers of the resident units: pre-emption, the Owl, MAXRUN, parking (R49, R361, R371, R373, R377, R433). -/
def State.unitTimers (s : State) : List Timer :=
  (s.preempts.flatMap fun (x : Preempt) => [execFullSaveTimeout x.unit, execDrainDeadlineExpiry x.unit]) ++
  ((s.unitsWhere fun _ _ => true).flatMap fun u =>
    [execOwlScan u, execMaxrunOverrun u, execParkedUnitSave u, execPreemptionDecision u])

/-- Timers of waiting gangs, leases, event rings and kills (R288, R357, R395, R442). -/
def State.workTimers (s : State) : List Timer :=
  (s.tasks.flatMap fun (e : Nat × Task) => (s.clustersFor e.2.ctx).map fun k => execGangReservation e.1 k) ++
  (s.warps.flatMap fun (e : Nat × Warp) => (e.2.leases.filter (·.granted)).map fun (l : Lease) => execLeaseExpiry l.core l.line) ++
  (s.qis.flatMap fun (e : Nat × Qi) => if e.2.bound then [execEventInterruptTimer e.1] else []) ++
  s.ctxs.flatMap fun (e : Nat × Ctx) => if e.2.kill.isSome then (List.range 10).map fun n => execKillDrainTimeout e.1 n else []

/-- The steps of a die reset that end by themselves, and the deadline of its saves (R457, R458). -/
def State.dieTimers (s : State) : List Timer :=
  ((List.range 6).filter fun d => (s.die d).step != 0).flatMap fun d =>
    [execDieUnitsSaved d, execDieQuiesced d, execDieWritebackDone d, execDieSelftestDone d true, execDieLinkRetrained d true] ++
      s.preempts.map fun (x : Preempt) => execDieSaveDeadlineExpiry d x.unit

/-- What the firmware finishes by itself: a scrub, the saves of a command whose last unit has ended, a change of clock
class, a live update (R403, R423, R424). -/
def State.firmwareTimers (s : State) : List Timer :=
  (match s.mb.wait with
    | some (.scrub vd) => [execVdScrubComplete vd]
    | some (.saves _ _) => [fun s => .next s.finishSaves]
    | _ => []) ++
  (if s.pkg.clsTarget.isSome then [execClockClassChangeDone] else []) ++
  if s.pkg.update.isSome then [execStandbyImportComplete true, execLiveUpdateTakeover, execLiveUpdateRollback] else []

/-- Every timer and operation that may come due. -/
def State.timers (s : State) : List Timer := s.unitTimers ++ s.workTimers ++ s.dieTimers ++ s.firmwareTimers

end Sys2Proof.Machine
end

