-- ==== Sys2Proof/Machine/Step.lean ====
section
/-! DEFINITION. One step of the machine, and the placing of an instruction where the next step fetches it. -/

namespace Sys2Proof.Machine

/-- One step (Machine/Schedule.lean says what it does, given `exec`, what is due and the timers). -/
def step (s : State) : Host.Outcome State Fault Refusal := Sys2Proof.Machine.stepWith Sys2Proof.Machine.exec Sys2Proof.Machine.State.progress
  Sys2Proof.Machine.State.timers s

/-- The machine with the instruction of a table word where the next step fetches it (log 4). -/
def State.withFetchWord (s : State) (_nbits w : Nat) : State := s.withCode (tableBytes w) (tableStream w)

end Sys2Proof.Machine
end

