-- ==== Sys2Proof/Machine/Registers.lean ====
section
/-! DEFINITION. What the host reads in the registers of BAR0, of a kick page and of a control page (R22, R379, R421,
R437, R448). Reading one changes nothing. -/

namespace Sys2Proof.Machine

/-- A bit at a place. -/
def flagAt (b : Bool) (n : Nat) : Nat := if b then 2 ^ n else 0

/-- BOOTSTAT (Table 1.7). -/
def State.bootstat (s : State) : Nat :=
  let p := s.pkg
  let up := (List.range 4).foldl (fun n d => n + flagAt (s.dieUp d) d) 0
  flagAt s.ready 31 + flagAt p.standby 30 + p.activeHub % 2 * 2 ^ 29 + flagAt p.recovery 28 + up * 2 ^ 24 +
    s.stage % 256 * 2 ^ 16 + s.failcode % 256 * 2 ^ 8 + p.clk100 % 256

/-- ALARM (Table 18.8). -/
def State.alarmReg (s : State) : Nat := s.mb.alarmLevel % 4 * 2 ^ 30 + s.mb.alarmCount % 2 ^ 16

/-- MBSTAT (Table 18.2). -/
def State.mbstat (s : State) : Nat := flagAt s.mb.busy 31 + s.mb.tag % 256 * 2 ^ 16 + s.mb.result % 256

/-- Types and instances of the capability table in order; 0xFF is the package (R429, R430). -/
def capRows : List (Nat × Nat) :=
  (List.range 17).flatMap fun n =>
    match instancesOf (n + 1) with
    | [] => [(n + 1, 0xFF)]
    | is => is.map fun i => (n + 1, i)

/-- CAPHDR (Table 18.1). -/
def State.caphdr (s : State) : Nat := s.mb.capGen % 2 ^ 16 * 2 ^ 16 + capRows.length

/-- Floors and caps are enforced for a type (Table 18.7). -/
def floored (type : Nat) : Bool := type == 1 || perCycle type

/-- A capability record (Table 18.6). -/
def State.capRecord (s : State) (type inst : Nat) : Nat :=
  let n := s.capacity type inst
  let u := unitOf type
  granOf type * 2 ^ 96 + u.2 * 2 ^ 80 + u.1 * 2 ^ 64 + n % 2 ^ 32 * 2 ^ 32 + inst * 2 ^ 24 +
    flagAt (type != 0x10 && decide (n < nominal type)) 19 + 2 ^ 18 + flagAt (floored type) 17 + flagAt (floored type) 16 +
    type

/-- A read of BAR0; an offset not listed reads 0, and so does an access that is not of a register's width (R22, R421, R456).
The capability records are read in words. -/
def State.readBar0 (s : State) (off width : Nat) : Nat :=
  if 0x400 ≤ off ∧ off < 0x430 then if width = 8 ∧ off % 8 = 0 then (s.errcnt.getD ((off - 0x400) / 8) 0).toNat else 0
  else if width ≠ 4 ∨ off % 4 ≠ 0 then 0
  else if off = 0x00 then s.bootstat
  else if off = 0x10 then s.alarmReg
  else if off = 0x14 then s.mb.alarmCfg.toNat
  else if off = 0x20 then s.caphdr
  else if off = 0x30 then s.mb.mgw
  else if off = 0x34 then s.mb.mgr
  else if off = 0x38 then s.mb.mgDrop
  else if off = 0x104 then s.mbstat
  else if 0x200 ≤ off ∧ off < 0x300 then (s.mb.arg.getD ((off - 0x200) / 4) 0).toNat
  else if 0x10000 ≤ off then
    match capRows[(off - 0x10000) / 16]? with
    | some r => s.capRecord r.1 r.2 / 2 ^ (off % 16 * 8) % 2 ^ 32
    | none => 0
  else 0

/-- QSTAT (Table 16.2). -/
def Qi.qstat (x : Qi) : Nat :=
  flagAt x.stopped 31 + x.ib.length % 8 * 2 ^ 28 + x.kdrop % 2 ^ 12 * 2 ^ 16 + x.evdrop % 2 ^ 16

/-- A 32-bit read of the kick page of an interface through the port of a hub: all ones before READY and through the other
hub's port, 0 where no interface is bound or the register is write-only (R21, R379, R435, R448). -/
def State.readKickPage (s : State) (hub q off : Nat) : Nat :=
  if !s.ready ∨ hubOfQi q ≠ hub then 2 ^ 32 - 1
  else
    match s.qi? q with
    | none => 0
    | some x =>
      match off with
      | 0x08 => x.pw
      | 0x10 => x.pr
      | 0x18 => x.qstat
      | 0x20 => x.evw
      | 0x28 => x.evr
      | 0x30 => x.evctl.toNat
      | _ => 0

/-- The context and the counter that FPSEL selects. -/
def Vd.selected (v : Vd) (vd : Nat) : Nat × Nat := (ctxKey vd (bits v.fpsel.toNat 29 24), bits v.fpsel.toNat 4 0)

/-- A read of the control page of a VD (Table 18.9). -/
def State.readControlPage (s : State) (vd off : Nat) : Nat :=
  match s.vd? vd with
  | none => 0
  | some v =>
    let x := s.ctx? (v.selected vd).1
    match off with
    | 0x10 => (Config.fqIpa vd).toNat
    | 0x18 => v.fqw
    | 0x1C => v.fqr
    | 0x30 => (Config.diagIpa vd).toNat
    | 0x38 => v.diagw
    | 0x40 => v.fpsel.toNat
    | 0x48 => x.elim 0 fun c => count c.fpThr (v.selected vd).2
    | 0x50 => x.elim 0 fun c => count c.fpCum (v.selected vd).2
    | 0x60 => v.state
    | _ => 0

end Sys2Proof.Machine
end

