-- ==== Sys2Proof/Safety.lean ====
section
/-! DEFINITION. The terms in which claims about the machine are stated: canonical memory, safe runs, the thread that issues
and what holds its instruction back (R83), and the ways an instruction ends, each with its frame. -/

namespace Sys2Proof

/-- The device memory is in its canonical form. -/
def Machine.State.memOk (s : Machine.State) : Prop := s.mem.wf = true

/-- A run of `n` steps from a state meets no fault and no refusal. -/
def runsSafely (n : Nat) (s : Machine.State) : Prop := ∃ t, core.run n s = .next t

end Sys2Proof

namespace Sys2Proof.Machine

/-! ### The issuing thread -/

/-- The lane-stream instruction with given fields as the issuing group of a warp meets it. -/
def State.laneIss (s : State) (eng op : Nat) (f : Fields) : Option Iss :=
  match s.cur with
  | .lanes core slot grp =>
    match s.warp? core slot with
    | some w => some { core, slot, w, grp, act := activeOf w grp f, pc := (w.lane (lowest grp)).pc, eng, op, f }
    | none => none
  | _ => none

/-- The lead-stream instruction with given fields as the issuing lead thread meets it. -/
def State.leadIss (s : State) (eng op : Nat) (f : Fields) : Option LIss :=
  match s.cur with
  | .lead core slot =>
    match s.crew? core slot with
    | some c => some { core, slot, c, pc := c.lead.pc, eng, op, f }
    | none => none
  | _ => none

/-- The encoding is legal in the lane stream and every register field names a register (R71, R83). -/
def Iss.wellPlaced (i : Iss) : Bool :=
  i.f.formOk && (illegal? .lane i.w.crew.isNone i.eng i.op i.f).isNone && (regBad .lane i.eng i.op i.f i.w.regs).isNone

/-- The warp does not stop at the instruction for a save (R47). -/
def Iss.unstopped (s : State) (i : Iss) : Bool :=
  !(i.f.live.isSome && s.stopping (i.w.unit s i.core i.slot) && i.w.unleased)

/-- Sources and destinations are full, and no source holds an uncorrectable error (R70, R455). -/
def Iss.readable (i : Iss) : Bool :=
  decide (ready .lane i.eng i.op i.f i.w.empty ((lanesOf i.act).any fun l => (i.w.lane l).hold) = .go) &&
    decide (i.badLanes = 0)

/-- Nothing that R83 examines before the effect holds the instruction back, but for its convergence. -/
def Iss.goes (s : State) (i : Iss) : Bool := i.wellPlaced && i.unstopped s && i.readable

/-- The same for the lead stream. -/
def LIss.goes (s : State) (i : LIss) : Bool :=
  i.f.formOk && (illegal? .lead false i.eng i.op i.f).isNone && (regBad .lead i.eng i.op i.f 0).isNone &&
    !(i.f.live.isSome && s.stopping (.gang i.c.gang)) &&
    decide (ready .lead i.eng i.op i.f i.c.lead.empty i.c.lead.hold = .go) && !i.badRead

/-! ### How an instruction of the lane stream ends -/

/-- Nothing but one warp changed; every byte of memory reads as before. -/
structure OnlyWarp (s t : State) (core slot : Nat) : Prop where
  rest : { t with warps := s.warps } = s
  others : ∀ k, k ≠ warpKey core slot → look t.warps k = look s.warps k
  memory : ∀ a, t.mem.read a = s.mem.read a

/-- A lane gone past an instruction (R163). -/
def Lane.past (x : Lane) (f : Fields) : Lane :=
  { x with pc := x.pc + BitVec.ofNat 32 f.len, wait := .none, hold := false, age := 0, answers := [], extData := [],
           extErr := [], lastSp := if f.live.isSome then f.live else x.lastSp }

/-- The group has gone past the instruction, the other lanes stand as they were, and INSTR counts it (R163, R210). -/
structure Iss.Passed (i : Iss) (w w' : Warp) : Prop where
  same : { w' with lanes := w.lanes, instr := w.instr } = w
  instr : w'.instr = w.instr + 1
  count : w'.lanes.length = w.lanes.length
  gone : ∀ l, l < w.lanes.length → bitOf i.grp l = true → w'.lane l = (w.lane l).past i.f
  stay : ∀ l, l < w.lanes.length → bitOf i.grp l = false → w'.lane l = w.lane l

/-- The instruction has ended: its warp has become `w` with the group past the instruction, and nothing else changed. -/
def Ended (s t : State) (i : Iss) (w : Warp) : Prop :=
  OnlyWarp s t i.core i.slot ∧ ∃ w', t.warp? i.core i.slot = some w' ∧ i.Passed w w'

/-- The group stands at its instruction in a wait under R40, to attempt it again, and its age is 0 (R165); nothing else changed.
-/
def Waits (s t : State) (i : Iss) : Prop :=
  OnlyWarp s t i.core i.slot ∧ ∃ w', t.warp? i.core i.slot = some w' ∧ { w' with lanes := i.w.lanes } = i.w ∧
    w'.lanes.length = i.w.lanes.length ∧ ∀ l, l < i.w.lanes.length → w'.lane l =
      if bitOf i.grp l then { i.w.lane l with wait := .retry, age := 0, sp := i.f.live } else i.w.lane l

/-- A warp whose active lanes hold a value in a register or pair; every other register of every lane, and everything
else of the warp, is as it was (R63, R66). -/
structure Iss.Holds (i : Iss) (wide : Bool) (d : Nat) (v : Nat → DWord) (w : Warp) : Prop where
  same : { w with lanes := i.w.lanes } = i.w
  count : w.lanes.length = i.w.lanes.length
  low : ∀ l, l < i.w.lanes.length → bitOf i.act l = true → look (w.lane l).v d = some (lo32 (v l))
  high : wide = true → ∀ l, l < i.w.lanes.length → bitOf i.act l = true → look (w.lane l).v (d + 1) = some (hi32 (v l))
  regs : ∀ l r, l < i.w.lanes.length → r ≠ d → (wide = true → r ≠ d + 1) → look (w.lane l).v r = look (i.w.lane l).v r
  stay : ∀ l, l < i.w.lanes.length → bitOf i.act l = false → w.lane l = i.w.lane l
  rest : ∀ l, l < i.w.lanes.length →
    { w.lane l with v := (i.w.lane l).v, bad := (i.w.lane l).bad, marks := (i.w.lane l).marks } = i.w.lane l

/-- The instruction wrote its destination in every active lane, and nothing else. -/
def Wrote (s t : State) (i : Iss) (wide : Bool) (v : Nat → DWord) : Prop :=
  ∃ w, i.Holds wide i.f.d.toNat v w ∧ Ended s t i w

/-- The instruction wrote a mask register and nothing else. -/
def WroteMask (s t : State) (i : Iss) (v : Word) : Prop :=
  Ended s t i { i.w with m := setNth i.w.m i.f.d.toNat v }

/-- A mask whose active lanes take the bits of a test, the other bits of the old value kept (R192). -/
def Iss.maskBits (i : Iss) (p : Nat → Bool) : Word := (i.w.m.getD i.f.d.toNat 0 &&& ~~~i.act) ||| (i.act &&& maskOf p)

/-- The instruction has ended as a producer: its destinations are empty, and one producer more is outstanding that will
write the given values and flags, for the tiles of a chain instruction; no register has changed (R68, R295). -/
def Produced (s t : State) (i : Iss) (vals : List (Nat × Nat × DWord)) (flags : List (Nat × Bool × Bool))
    (chain : List Nat := []) : Prop :=
  ∃ w, OnlyWarp { s with nextId := s.nextId + 1 } t i.core i.slot ∧ (∃ w', t.warp? i.core i.slot = some w' ∧ i.Passed w w') ∧
    w.prods = i.w.prods ++ [{ id := s.nextId, regs := destRegs .lane i.eng i.op i.f, vals, replies := 0, flags, chain }] ∧
    (∀ r, r ∈ w.empty ↔ r ∈ i.w.empty ∨ r ∈ destRegs .lane i.eng i.op i.f) ∧
    { w with prods := i.w.prods, empty := i.w.empty, lanes := i.w.lanes } = i.w ∧ w.lanes.length = i.w.lanes.length ∧
    ∀ l, l < i.w.lanes.length → { w.lane l with marks := (i.w.lane l).marks } = i.w.lane l

/-- Values of one register or pair in each active lane, as a producer writes them. -/
def Iss.laneVals (i : Iss) (wide : Bool) (v : Nat → DWord) : List (Nat × Nat × DWord) :=
  (lanesOf i.act).flatMap fun l =>
    if wide then [(l, i.f.d.toNat, (lo32 (v l)).setWidth 64), (l, i.f.d.toNat + 1, (hi32 (v l)).setWidth 64)]
    else [(l, i.f.d.toNat, v l)]

/-- The same, and the events of each active lane counted for its task (R115, R211). -/
def WroteCounting (s t : State) (i : Iss) (wide : Bool) (r : Nat → DWord × List Nat) : Prop :=
  ∃ u, Wrote s u i wide (fun l => (r l).1) ∧ t = u.countFp i.w.task i.pc ((lanesOf i.act).flatMap fun l => (r l).2)

/-- A producer of a register in each active lane, with the events counted. -/
def ProducedCounting (s t : State) (i : Iss) (r : Nat → DWord × List Nat) : Prop :=
  ∃ u, Produced s u i (i.laneVals false fun l => (r l).1) [] ∧
    t = u.countFp i.w.task i.pc ((lanesOf i.act).flatMap fun l => (r l).2)

/-- Operands A, B and C of a lane, read as the integer type of MOD (R189). -/
def Iss.ai (i : Iss) (l : Nat) : Int := tyRead i.mo (i.a i.wide l)
def Iss.bi (i : Iss) (l : Nat) : Int := tyRead i.mo (i.b i.wide l)
def Iss.ci (i : Iss) (l : Nat) : Int := tyRead i.mo (i.c i.wide l)

/-- The instruction writes trunc of an exact result in each active lane (R97, R189). -/
def WroteTrunc (x : Iss → Nat → Int) (s t : State) (i : Iss) : Prop := Wrote s t i i.wide fun l => tyTrunc i.mo (x i l)

/-- The instruction writes sat of an exact result in each active lane (R97, R98). -/
def WroteSat (x : Iss → Nat → Int) (s t : State) (i : Iss) : Prop := Wrote s t i i.wide fun l => tySat i.mo (x i l)

/-- One rounding of an exact value in the format of MOD, with its events (R101, R105, R113). -/
def Iss.rounded (i : Iss) (opInf : Bool) (y : Val) : DWord × List Nat :=
  (w64 (deliverIn i.mo i.mode opInf y).1, (deliverIn i.mo i.mode opInf y).2)

/-- One rounding of each element of packed pairs of a format (R199, R200). -/
def Iss.packed (i : Iss) (fmt : Nat) (usesC : Bool) (g : Bool → Val → Val → Val → Val) (l : Nat) : DWord × List Nat :=
  let one (e : Nat) : Nat × List Nat :=
    let x := (fltOf fmt).decode (pairElem (i.w.getV l i.f.a.toNat) e)
    let y := (fltOf fmt).decode (pairElem (i.bFloat l) e)
    let z := if usesC then (fltOf fmt).decode (pairElem (i.w.getV l i.f.c.toNat) e) else Val.zero false
    deliverIn fmt i.mode (x.isInf || y.isInf || z.isInf) (g i.mode.down x y z)
  (w64 ((one 0).1 + (one 1).1 * 2 ^ 16), (one 0).2 ++ (one 1).2)

/-- The active lanes have gone to their targets, each lane changed by `g`; the other lanes of the group have gone past the
instruction, and nothing else changed (R168). -/
def Branched (s t : State) (i : Iss) (target : Nat → Word) (g : Lane → Lane) : Prop :=
  OnlyWarp s t i.core i.slot ∧ ∃ w', t.warp? i.core i.slot = some w' ∧
    { w' with lanes := i.w.lanes, instr := i.w.instr } = i.w ∧ w'.instr = i.w.instr + 1 ∧
    w'.lanes.length = i.w.lanes.length ∧
    ∀ l, l < i.w.lanes.length → bitOf i.grp l = true →
      w'.lane l = if bitOf i.act l then { (g (i.w.lane l)).past i.f with pc := target l } else (i.w.lane l).past i.f

/-! ### How an instruction of the lead stream ends -/

/-- Nothing but one crew changed; every byte of memory reads as before. -/
structure OnlyCrew (s t : State) (core slot : Nat) : Prop where
  rest : { t with crews := s.crews } = s
  others : ∀ k, k ≠ crewKey core slot → look t.crews k = look s.crews k
  memory : ∀ a, t.mem.read a = s.mem.read a

/-- A lead thread gone past an instruction (R142). -/
def Lead.past (x : Lead) (f : Fields) : Lead :=
  { x with pc := x.pc + BitVec.ofNat 32 f.len, wait := .none, hold := false, answers := [], extData := [], extErr := [],
           instr := x.instr + 1, lastSp := if f.live.isSome then f.live else x.lastSp }

/-- The lead thread has become `x`, and nothing else changed. -/
def LeadBecame (s t : State) (i : LIss) (x : Lead) : Prop :=
  OnlyCrew s t i.core i.slot ∧ t.crew? i.core i.slot = some { i.c with lead := x }

/-- A lead thread that holds a value in a register, and is otherwise as it was; a write of k0 has no effect (R65). -/
structure LIss.Holds (i : LIss) (v : DWord) (x : Lead) : Prop where
  value : i.f.d.toNat ≠ 0 → look x.k i.f.d.toNat = some v
  zero : i.f.d.toNat = 0 → x = i.c.lead
  others : ∀ r, r ≠ i.f.d.toNat → look x.k r = look i.c.lead.k r
  rest : { x with k := i.c.lead.k, bad := i.c.lead.bad } = i.c.lead

/-- The lead instruction wrote its destination and nothing else. -/
def LeadWrote (s t : State) (i : LIss) (v : DWord) : Prop := ∃ x, i.Holds v x ∧ LeadBecame s t i (x.past i.f)

/-! ### How an instruction reaches memory -/

/-- A lead thread with a producer of a register outstanding; k0 takes none (R65, R68). -/
def LIss.withProducer (i : LIss) (id : Nat) (v : DWord) : Lead :=
  let regs := if i.f.d.toNat = 0 then [] else [i.f.d.toNat]
  { i.c.lead with empty := (i.c.lead.empty ++ regs).dedup,
                  prods := i.c.lead.prods ++ [{ id, regs, vals := [(0, i.f.d.toNat, v)], replies := 0, flags := [] }] }

/-- The lead instruction has ended as a producer of a register. -/
def LeadProduced (s t : State) (i : LIss) (v : DWord) : Prop :=
  LeadBecame { s with nextId := s.nextId + 1 } t i ((i.withProducer s.nextId v).past i.f)

/-- Every lane that asks passes steps 1 to 10 of Table 9.7, at a device address (R226). -/
def Caller.reaches (c : Caller) (s : State) (ref : Nat → Ref) (pa : Nat → Nat) : Prop :=
  ∀ l ∈ c.lanes, ∃ sec, s.access (c.who s l) (ref l).h (ref l).o (ref l).q = .ok (.dev (pa l)) sec

/-- No lane must wait for the end of a lease, or for an earlier atomic of its own. -/
def Caller.clear (c : Caller) (s : State) (pa : Nat → Nat) (n : Nat) : Prop := c.blocked s (fun l => .dev (pa l)) n = false

/-- Every lane's tile word, coordinate and width pass the checks of Table 9.9, at a crew, a tile and an offset (R230). -/
def Iss.reachesTile (i : Iss) (s : State) (ask : Nat → TileAsk) (at_ : Nat → Nat × Nat × Nat) : Prop :=
  ∀ l ∈ lanesOf i.act, (∃ t, s.tileRef i.w.crew (ask l).tw = .at (at_ l).1 (at_ l).2.1 t) ∧ ∃ sec,
    s.tileAccess i.w.crew (ask l).tw (ask l).row (ask l).col (ask l).w (ask l).plane (ask l).ecc =
      .ok (.dev (at_ l).2.2) sec

/-- The values that a load writes: the words of each active lane's bytes, from the destination register upwards. -/
def Iss.loaded (i : Iss) (bytes : Nat → List Byte) : List (Nat × Nat × DWord) :=
  (lanesOf i.act).flatMap fun l => mapIx (fun n x => (l, i.f.d.toNat + n, x.setWidth 64)) 0 (loadWords i.mo (bytes l))

/-- A state that differs only in who holds the lines and grains of an access. -/
def Touched (s t : State) : Prop := { t with dir := s.dir, dieDir := s.dieDir, owners := s.owners } = s

/-- The lowest active lane of an elected form, which acts for the others (R81). -/
def Iss.elect (i : Iss) : Caller := .warp i ((1 : Word) <<< lowest i.act)

/-- Lanes of a mask stand at the instruction in a wait, the other lanes of the group have gone past it, and INSTR counts it
(R163, R210). -/
structure Iss.Stands (i : Iss) (w w' : Warp) (m : Word) (wait : Wait) : Prop where
  same : { w' with lanes := w.lanes, instr := w.instr } = w
  instr : w'.instr = w.instr + 1
  count : w'.lanes.length = w.lanes.length
  stand : ∀ l, l < w.lanes.length → bitOf m l = true → w'.lane l =
    { w.lane l with wait, adv := i.f.len, age := 0, sp := i.f.live,
                    lastSp := if i.f.live.isSome then i.f.live else (w.lane l).lastSp }
  gone : ∀ l, l < w.lanes.length → bitOf (i.grp &&& ~~~m) l = true → w'.lane l = (w.lane l).past i.f
  stay : ∀ l, l < w.lanes.length → bitOf (i.grp ||| m) l = false → w'.lane l = w.lane l

/-- The lead thread stands at the instruction in a wait, and INSTR counts it. -/
def LIss.stands (i : LIss) (x : Lead) (wait : Wait) : Lead :=
  { x with wait, adv := i.f.len, instr := x.instr + 1, sp := i.f.live,
           lastSp := if i.f.live.isSome then i.f.live else x.lastSp }

/-- The release of a lane's, or of a lead thread's, GREL (R272, R276, R280). -/
def Caller.grelOf (c : Caller) (u : State) (pa : Nat) (agent : Agent) (group : Word) (l : Nat) : Release :=
  { kind := .grel pa (c.mo == 1), agent, group, ctx := c.ctx, task := c.task, core := c.core, scope := c.scope 4,
    entries := c.unpublished u fun e => u.sameSync e.ctx e.sync c.ctx (u.syncAt (c.who u l) 1 (c.handle l) (c.homeOff l).toNat),
    pc := c.pc, handle := c.handle l, off := (c.homeOff l).toNat, wait := .none, answers := [], extData := [], extErr := [],
    failed := none }

/-- The request of a lane, before its acceptance (R244, R247). -/
def Iss.atomReq (i : Iss) (rel : Option Nat) (beat prod : Nat) (place : AtomAt) (off name : Nat) (owned : Bool) (l : Nat) :
    AtomReq :=
  { ctx := i.w.ctx, task := i.w.task, core := i.core, slot := i.slot, lane := l,
    prod := if i.returning then some prod else none, op := i.atomOp, mod := i.mo, fn := i.fn, place,
    operand := i.atomOperands l, dest := i.f.d.toNat, pc := i.pc, off, name, owned, accepted := false, order := 0,
    badger := none, aside := false, beat, batch := prod, ev := [], rel, waiting := false, retry := false,
    reply := none }

/-- The atomic has made the request of each active lane at its place, in rising order of lanes, behind a release or none; a
returning form is a producer that awaits their replies; memory reads as before, and every lane of the group goes past, but for the active lanes
of BWAIT, which wait (R247, R249, R253, R258). -/
structure AtomsAsked (s t : State) (i : Iss) (rel : Option Nat) (place : Nat → AtomAt) : Prop where
  memory : t.mem = s.mem
  asked : ∃ ids : Nat → Nat, s.nextId < ids 0 ∧ (∀ n, ids n < ids (n + 1)) ∧ ∀ n l, (lanesOf i.act)[n]? = some l →
    ∃ off name owned acc order badger, look t.atoms (ids n) =
      some { i.atomReq rel s.beat s.nextId (place l) off name owned l with accepted := acc, order := order, badger := badger }
  rest : ∀ k, k < s.nextId → look t.atoms k = look s.atoms k
  producer : i.returning = true → ∃ w', t.warp? i.core i.slot = some w' ∧ w'.prods = i.w.prods ++
    [{ id := s.nextId, regs := destRegs .lane i.eng i.op i.f, vals := [], replies := (lanesOf i.act).length, flags := [] }] ∧
    ∀ r ∈ destRegs .lane i.eng i.op i.f, r ∈ w'.empty
  past : ∃ w', t.warp? i.core i.slot = some w' ∧ ∀ l, l < i.w.lanes.length → bitOf i.grp l = true →
    (w'.lane l).pc = if i.op = 0x0E ∧ bitOf i.act l then (i.w.lane l).pc else (i.w.lane l).pc + BitVec.ofNat 32 i.f.len

/-- The limbs of the integers that a chain instruction writes in the tiles of its group (R293, R304). -/
def Iss.limbVals (i : Iss) (r : Nat → Nat) : List (Nat × Nat × DWord) :=
  (i.w.tilesIn i.grp).flatMap fun t =>
    (List.range i.w.tileSize).flatMap fun k => i.writes (i.baseOf t + k) i.f.d.toNat (i.limbOf (r t) k)

/-- The chain instruction is a producer of a result in each tile of its group, with its flags (R301, R302). -/
def ChainProduced (s t : State) (i : Iss) (r : Nat → Nat) (c v : Nat → Bool) : Prop :=
  Produced s t i (i.limbVals r) ((i.w.tilesIn i.grp).map fun t => (t, c t, v t)) (i.w.tilesIn i.grp)

/-- The lead instruction has put a command at the end of the crew's queue, the crew being otherwise as it became, and has
ended (R317). -/
def LIss.Queued (i : LIss) (s t : State) (x : MxCmd) (c : Crew) : Prop :=
  OnlyCrew { s with stamp := s.stamp + 1 } t i.core i.slot ∧ ∃ c', t.crew? i.core i.slot = some c' ∧
    c'.mx = i.c.mx ++ [{ x with id := s.stamp }] ∧ c'.lead = i.c.lead.past i.f ∧
    { c' with mx := c.mx, veils := c.veils, lead := c.lead } = c

/-- Every lane's tile word and coordinate pass the checks of accumulators (R329), at a crew, a tile and an offset. -/
def Iss.reachesAcc (i : Iss) (s : State) (ask : Nat → TileAsk) (at_ : Nat → Nat × Nat × Nat) : Prop :=
  ∀ l ∈ lanesOf i.act, (∃ t, s.tileRef i.w.crew (ask l).tw = .at (at_ l).1 (at_ l).2.1 t) ∧ ∃ sec,
    s.accAccess i.w.crew (ask l) i.accCount = .ok (.dev (at_ l).2.2) sec

/-! ### Queues and the mailbox -/

/-- A packet of a type stands at the head of a queue, and may be taken now (R381, R385). -/
structure State.Offers (s : State) (q type : Nat) (x : Qi) (p : Pkt) : Prop where
  here : s.qi? q = some x
  takes : s.takes x = true
  noKick : x.kicks = []
  head : s.head q x = .ok p
  type : p.type = type
  barrier : p.barrier = true → s.idleCtx x.ctx = true

/-- A packet of a type is the oldest of those begun and not completed, and may act (R382). -/
structure State.Turn (s : State) (q type : Nat) (x : Qi) (b : Packet) : Prop where
  here : s.qi? q = some x
  active : s.active x = true
  type : b.type = type
  first : x.begun.head? = some b

/-- The mailbox takes a command of an opcode (R422, R424, R439). -/
def State.mailboxFree (s : State) (op : Nat) : Prop := s.mailboxOn = true ∧ s.mb.busy = false ∧ s.barred op = none

/-- The state in which a command of the mailbox has been accepted (R422). -/
def State.accepted (s : State) (tag : Nat) : State :=
  s.onMb fun m => { m with busy := true, tag, result := 0, wait := none, held := none, escalated := false }

/-- The command has completed with a RESULT, and its tag stands (R422). -/
def State.Completed (s : State) (tag : Byte) (result : Nat) : Prop :=
  s.mb.busy = false ∧ s.mb.result = result ∧ s.mb.tag = tag.toNat

/-! ### The forms of claims about one instruction -/

/-- Every issue of an instruction of the lane stream that nothing holds back, and that meets a condition on the state and
the operands, completes, and what follows holds. -/
def LaneDoesWhen (c : Fields → Instr) (eng op : Nat) (pre : State → Iss → Prop) (post : State → State → Iss → Prop) : Prop :=
  ∀ (s : State) (f : Fields) (i : Iss), s.laneIss eng op f = some i → i.goes s = true → pre s i →
    ∃ t, exec (c f) s = .next t ∧ post s t i

/-- The same with no condition. -/
def LaneDoes (c : Fields → Instr) (eng op : Nat) (post : State → State → Iss → Prop) : Prop :=
  LaneDoesWhen c eng op (fun _ _ => True) post

/-- The same for the lead stream. -/
def LeadDoesWhen (c : Fields → Instr) (eng op : Nat) (pre : State → LIss → Prop) (post : State → State → LIss → Prop) :
    Prop :=
  ∀ (s : State) (f : Fields) (i : LIss), s.leadIss eng op f = some i → i.goes s = true → pre s i →
    ∃ t, exec (c f) s = .next t ∧ post s t i

/-- The same with no condition. -/
def LeadDoes (c : Fields → Instr) (eng op : Nat) (post : State → State → LIss → Prop) : Prop :=
  LeadDoesWhen c eng op (fun _ _ => True) post

/-- Every issue of an instruction of the lead stream in a form that meets a condition raises ILLEGAL with W0 (R82). -/
def LeadIllegalWhen (c : Fields → Instr) (eng op : Nat) (bad : Fields → Prop) : Prop :=
  ∀ (s : State) (f : Fields) (i : LIss), s.leadIss eng op f = some i → bad f →
    exec (c f) s = .next (s.trapLead i.core i.slot Cls.illegal ((encodeW0 eng op f).setWidth 64))

end Sys2Proof.Machine
end

