-- ==== Sys2Proof/Certificates/Slice0/Obligations.lean ====
section
/-! DEFINITION. The statements for the provers: what the rules of the spec say the machine does. -/

open Sys2Proof Sys2Proof.Machine

/-! ### Encoding -/

/-- Words that the spec writes out bit by bit decode as it says: IADD in the 32-bit and 96-bit forms, IDP4, FCVT, CTRRD,
FPEVRD, SLD and SBC are read with these fields, and 0xFFFFFFFF is too short a word. -/
def Obligations.SpecWordsDecode : Prop :=
  (decodeWords .lane false [0x0810C010#32] = .ok (.iadd
    { form := .w32, live := none, t := false, tb := false, tc := false, d := 3, a := 1, b := 2, c := 0, mod := 0, fn := 0,
      pn := false, pm := 0, imm := 0, lit := 0 })) ∧
  (decodeWords .lane false [0xFC10C012#32, 0x00007C00#32, 0x0000A013#32] = .ok (.iadd
    { form := .w96, live := none, t := false, tb := false, tc := false, d := 3, a := 1, b := 0x7FF, c := 0, mod := 0, fn := 0,
      pn := true, pm := 3, imm := 5, lit := 0 })) ∧
  (decodeWords .lane false [0x14428C92#32, 0x40050000#32, 0x00000020#32] = .ok (.idp4
    { form := .w96, live := none, t := false, tb := false, tc := false, d := 10, a := 4, b := 5, c := 10, mod := 4, fn := 1,
      pn := false, pm := 0, imm := 0, lit := 0 })) ∧
  (decodeWords .lane false [0x0010841A#32, 0x00000000#32, 0x01000300#32] = .ok (.fcvt
    { form := .w96, live := none, t := false, tb := false, tc := false, d := 2, a := 1, b := 0, c := 0, mod := 0, fn := 0x18,
      pn := false, pm := 0, imm := 0x800, lit := 0 })) ∧
  (decodeWords .lane false [0x010100E0#32] = .ok (.ctrrd
    { form := .w32, live := none, t := false, tb := false, tc := false, d := 4, a := 0x10, b := 0, c := 0, mod := 0, fn := 0,
      pn := false, pm := 0, imm := 0, lit := 0 })) ∧
  (decodeWords .lane false [0x00A20260#32] = .ok (.fpevrd
    { form := .w32, live := none, t := false, tb := false, tc := false, d := 8, a := 10, b := 0, c := 0, mod := 0, fn := 0,
      pn := false, pm := 0, imm := 0, lit := 0 })) ∧
  (decodeWords .lead false [0x0000C901#32, 0x10000000#32] = .ok (.sld
    { form := .w64, live := none, t := false, tb := false, tc := false, d := 3, a := 0, b := 0, c := 0, mod := 1, fn := 0,
      pn := false, pm := 0, imm := 0, lit := 0 })) ∧
  (decodeWords .lead false [0xFFFFFFFF#32] = .error (.short)) ∧
  (decodeWords .lead false [0x00300A82#32, 0x10000000#32, 0x00028000#32] = .ok (.sbc
    { form := .w96, live := none, t := false, tb := false, tc := false, d := 0, a := 3, b := 0, c := 0, mod := 1, fn := 0,
      pn := false, pm := 0, imm := 20, lit := 0 }))

/-- No bit of an encoding is dropped: for every well-formed instruction of either stream, loose or in a gang, with every
operand at any value that its encoding admits, its words and its bytes decode to that instruction (R51 to R62). -/
def Obligations.EncodingRoundTrip : Prop :=
  ∀ (st : Stream) (loose : Bool) (i : Instr), wellFormed st loose i = true →
    decodeWords st loose (encodeWords i) = .ok i ∧ decode st loose (encode i) = .ok i

/-- An engine of 13 or more, and an operation that the opcode map does not list, is no instruction in any form and either
stream (R82). An instruction read from words encodes to the words at their head and is well-formed. -/
def Obligations.OneMeaningPerEncoding : Prop :=
  (∀ (st : Stream) (loose : Bool) (ws : List Word) (eng op : Nat) (f : Fields), splitWords ws = some (eng, op, f) →
    ((13 ≤ eng → decodeWords st loose ws = .error (.illegal .engine)) ∧
     (eng < 13 → (∀ i, isaOf i ≠ some (eng, op, f)) → decodeWords st loose ws = .error (.illegal .operation)))) ∧
  (∀ (st : Stream) (loose : Bool) (ws : List Word) (i : Instr), decodeWords st loose ws = .ok i →
    encodeWords i <+: ws ∧ wellFormed st loose i = true)

/-! ### Integer arithmetic -/

/-- An operand of a MOD type is the low w bits of its register or pair, signed or not; trunc keeps the low w bits of an
exact result and extends them to the register; sat first clamps it to the range of the type. Sums, differences and products
at 32 and 64 bits are those of the patterns (R97, R98, R189). -/
def Obligations.IntegerTypes : Prop :=
  (∀ p : DWord, tyRead 0 p = (lo32 p).toInt ∧ tyRead 1 p = ((lo32 p).toNat : Int) ∧
    tyRead 2 p = (p.setWidth 16).toInt ∧ tyRead 3 p = ((p.setWidth 16).toNat : Int) ∧
    tyRead 4 p = (p.setWidth 8).toInt ∧ tyRead 5 p = ((p.setWidth 8).toNat : Int) ∧
    tyRead 6 p = p.toInt ∧ tyRead 7 p = (p.toNat : Int)) ∧
  (∀ x : Int, lo32 (tyTrunc 0 x) = BitVec.ofInt 32 x ∧ lo32 (tyTrunc 1 x) = BitVec.ofInt 32 x ∧
    lo32 (tyTrunc 2 x) = (BitVec.ofInt 16 x).signExtend 32 ∧ lo32 (tyTrunc 3 x) = (BitVec.ofInt 16 x).setWidth 32 ∧
    lo32 (tyTrunc 4 x) = (BitVec.ofInt 8 x).signExtend 32 ∧ lo32 (tyTrunc 5 x) = (BitVec.ofInt 8 x).setWidth 32 ∧
    tyTrunc 6 x = BitVec.ofInt 64 x ∧ tyTrunc 7 x = BitVec.ofInt 64 x) ∧
  (∀ x : Int, tySat 0 x = tyTrunc 0 (max (-2147483648) (min 2147483647 x)) ∧ tySat 1 x = tyTrunc 1 (max 0 (min 4294967295 x)) ∧
    tySat 2 x = tyTrunc 2 (max (-32768) (min 32767 x)) ∧ tySat 3 x = tyTrunc 3 (max 0 (min 65535 x)) ∧
    tySat 4 x = tyTrunc 4 (max (-128) (min 127 x)) ∧ tySat 5 x = tyTrunc 5 (max 0 (min 255 x)) ∧
    tySat 6 x = tyTrunc 6 (max (-9223372036854775808) (min 9223372036854775807 x)) ∧
    tySat 7 x = tyTrunc 7 (max 0 (min 18446744073709551615 x))) ∧
  (∀ a b : DWord, ∀ mo, mo = 0 ∨ mo = 1 →
    lo32 (tyTrunc mo (tyRead mo a + tyRead mo b)) = lo32 a + lo32 b ∧
    lo32 (tyTrunc mo (tyRead mo a - tyRead mo b)) = lo32 a - lo32 b ∧
    lo32 (tyTrunc mo (tyRead mo a * tyRead mo b)) = lo32 a * lo32 b) ∧
  (∀ a b : DWord, ∀ mo, mo = 6 ∨ mo = 7 →
    tyTrunc mo (tyRead mo a + tyRead mo b) = a + b ∧ tyTrunc mo (tyRead mo a - tyRead mo b) = a - b ∧
    tyTrunc mo (tyRead mo a * tyRead mo b) = a * b)

/-- IADD, ISUB, IMUL, IMULH, the bitwise operations, the shifts, IMIN, IMAX, IADDS, ISUBS and IABS, issued where nothing
holds them back, write their exact result by trunc (by sat for IADDS, ISUBS and IABS.sat) in every active lane; no other
register, lane, flag or byte changes (R190). -/
def Obligations.IntegerArithmetic : Prop :=
  LaneDoes .iadd 2 0x00 (WroteTrunc fun i l => i.ai l + i.bi l) ∧
  LaneDoes .isub 2 0x01 (WroteTrunc fun i l => i.ai l - i.bi l) ∧
  LaneDoes .imul 2 0x02 (WroteTrunc fun i l => i.ai l * i.bi l) ∧
  LaneDoes .imulh 2 0x03 (WroteTrunc fun i l => i.ai l * i.bi l / ((2 ^ tyWidth i.mo : Nat) : Int)) ∧
  LaneDoes .iand 2 0x06 (fun s t i => Wrote s t i i.wide fun l => i.a i.wide l &&& i.b i.wide l) ∧
  LaneDoes .ior 2 0x07 (fun s t i => Wrote s t i i.wide fun l => i.a i.wide l ||| i.b i.wide l) ∧
  LaneDoes .ixor 2 0x08 (fun s t i => Wrote s t i i.wide fun l => i.a i.wide l ^^^ i.b i.wide l) ∧
  LaneDoes .ishl 2 0x09 (WroteTrunc fun i l =>
    if tyWidth i.mo ≤ (i.b32 l).toNat then 0 else i.ai l * ((2 ^ (i.b32 l).toNat : Nat) : Int)) ∧
  LaneDoes .ishr 2 0x0A (WroteTrunc fun i l => if tyWidth i.mo ≤ (i.b32 l).toNat then 0
    else (((i.a i.wide l).toNat % 2 ^ tyWidth i.mo / 2 ^ (i.b32 l).toNat : Nat) : Int)) ∧
  LaneDoes .isra 2 0x0B (WroteTrunc fun i l => signedOf (tyWidth i.mo) (i.a i.wide l).toNat /
    ((2 ^ min (i.b32 l).toNat (tyWidth i.mo - 1) : Nat) : Int)) ∧
  LaneDoes .imin 2 0x0C (WroteTrunc fun i l => min (i.ai l) (i.bi l)) ∧
  LaneDoes .imax 2 0x0D (WroteTrunc fun i l => max (i.ai l) (i.bi l)) ∧
  LaneDoes .iadds 2 0x17 (WroteSat fun i l => i.ai l + i.bi l) ∧
  LaneDoes .isubs 2 0x18 (WroteSat fun i l => i.ai l - i.bi l) ∧
  LaneDoesWhen .iabs 2 0x0E (fun _ i => i.fn = 0) (WroteTrunc fun i l => |i.ai l|) ∧
  LaneDoesWhen .iabs 2 0x0E (fun _ i => i.fn = 1) (WroteSat fun i l => |i.ai l|)

/-- IMAD and IMADW write a product plus C; IDP4 and IDP2 write C plus the sum of the products of the four bytes or two
halves of A and B, in the signed, unsigned and mixed forms; saturation is applied once, at the end, under .sat (R191). -/
def Obligations.IntegerAccumulate : Prop :=
  LaneDoes .imad 2 0x04 (WroteTrunc fun i l => i.ai l * i.bi l + i.ci l) ∧
  LaneDoesWhen .imadw 2 0x05 (fun _ i => i.mo = 0) (fun s t i => Wrote s t i true fun l =>
    i64 ((lo32 (i.a false l)).toInt * (i.b32 l).toInt + (i.c true l).toInt)) ∧
  LaneDoesWhen .imadw 2 0x05 (fun _ i => i.mo = 1) (fun s t i => Wrote s t i true fun l =>
    i64 ((lo32 (i.a false l)).toNat * (i.b32 l).toNat + (i.c true l).toNat)) ∧
  (∀ mo, mo = 4 ∨ mo = 5 ∨ mo = 8 → ∀ sat, sat = 0 ∨ sat = 1 →
    LaneDoesWhen .idp4 2 0x19 (fun _ i => i.mo = mo ∧ i.fn = sat) (fun s t i => Wrote s t i false fun l =>
      let ty := if mo = 5 then 1 else 0
      let x := tyRead ty (i.c false l) +
        (readInt 8 (mo != 5) (i.w.getV l i.f.a.toNat).toNat * readInt 8 (mo == 4) (i.b32 l).toNat +
        readInt 8 (mo != 5) ((i.w.getV l i.f.a.toNat).toNat / 2 ^ 8) * readInt 8 (mo == 4) ((i.b32 l).toNat / 2 ^ 8) +
        readInt 8 (mo != 5) ((i.w.getV l i.f.a.toNat).toNat / 2 ^ 16) * readInt 8 (mo == 4) ((i.b32 l).toNat / 2 ^ 16) +
        readInt 8 (mo != 5) ((i.w.getV l i.f.a.toNat).toNat / 2 ^ 24) * readInt 8 (mo == 4) ((i.b32 l).toNat / 2 ^ 24))
      if sat = 1 then tySat ty x else tyTrunc ty x)) ∧
  (∀ mo, mo = 2 ∨ mo = 3 ∨ mo = 8 → ∀ sat, sat = 0 ∨ sat = 1 →
    LaneDoesWhen .idp2 2 0x1A (fun _ i => i.mo = mo ∧ i.fn = sat) (fun s t i => Wrote s t i false fun l =>
      let ty := if mo = 3 then 1 else 0
      let x := tyRead ty (i.c false l) +
        (readInt 16 (mo != 3) (i.w.getV l i.f.a.toNat).toNat * readInt 16 (mo == 2) (i.b32 l).toNat +
        readInt 16 (mo != 3) ((i.w.getV l i.f.a.toNat).toNat / 2 ^ 16) * readInt 16 (mo == 2) ((i.b32 l).toNat / 2 ^ 16))
      if sat = 1 then tySat ty x else tyTrunc ty x))

/-- IPOP, ICLZ, IBREV, IPERM, IBFE, IBFI and IMOV write their count, reversed or permuted bytes, field or operand, and ISEL
the operand that the mask bit picks, in every active lane and nothing else. Counting, leading zeros, reversal and the fields
are given bit by bit (R149, R192, R193). -/
def Obligations.BitInstructions : Prop :=
  LaneDoes .ipop 2 0x11 (fun s t i => Wrote s t i false fun l => w64 (popN (tyWidth i.mo) (i.a i.wide l).toNat)) ∧
  LaneDoes .iclz 2 0x12 (fun s t i => Wrote s t i false fun l => w64 (clzN (tyWidth i.mo) (i.a i.wide l).toNat)) ∧
  LaneDoes .ibrev 2 0x13 (fun s t i => Wrote s t i i.wide fun l => w64 (brevN (tyWidth i.mo) (i.a i.wide l).toNat)) ∧
  LaneDoes .iperm 2 0x14 (fun s t i => Wrote s t i false fun l =>
    w64 (permute (i.w.getV l i.f.a.toNat) (i.b32 l) (i.w.getV l i.f.c.toNat))) ∧
  LaneDoes .ibfe 2 0x15 (fun s t i => Wrote s t i false fun l => i64 (extractField 32 (i.mo == 0)
    (i.w.getV l i.f.a.toNat).toNat (bits (i.b32 l).toNat 4 0) (min (bits (i.b32 l).toNat 13 8) 32))) ∧
  LaneDoes .ibfi 2 0x16 (fun s t i => Wrote s t i false fun l => w64 (insertField 32 (i.w.getV l i.f.c.toNat).toNat
    (i.w.getV l i.f.a.toNat).toNat (bits (i.b32 l).toNat 4 0) (min (bits (i.b32 l).toNat 13 8) 32))) ∧
  LaneDoes .imov 2 0x1B (fun s t i => Wrote s t i i.wide fun l => i.b i.wide l) ∧
  LaneDoes .isel 2 0x10 (fun s t i => Wrote s t i i.wide fun l =>
    if bitOf (i.w.getM i.f.c.toNat) l then i.a i.wide l else i.b i.wide l) ∧
  (∀ (w n : Nat), 0 < w → n < 2 ^ w →
    (popN w n = ((List.range w).filter fun k => n.testBit k).length) ∧
    (n ≠ 0 → clzN w n < w ∧ n.testBit (w - 1 - clzN w n) = true ∧ ∀ k, w - 1 - clzN w n < k → n.testBit k = false) ∧
    (clzN w 0 = w) ∧
    (∀ k, k < w → (brevN w n).testBit k = n.testBit (w - 1 - k)) ∧
    (∀ pos len k, (extractField w false n pos len).toNat.testBit k = (decide (k < len) && n.testBit (pos + k))) ∧
    (∀ c a pos len k, c < 2 ^ w → k < w →
      (insertField w c a pos len).testBit k = if pos ≤ k ∧ k < pos + len then a.testBit (k - pos) else c.testBit k))

/-- SHFL reads the lane that its mode names within the tile, 0 from an exited one; VOTE forms .all, .any, .uni and .ballot
over the active lanes of the tile; REDI and SCANI combine v[A] over them, the scan over the lanes below and, unless .excl,
the lane itself; each writes its active lanes and nothing else (R194 to R197). -/
def Obligations.AcrossLanes : Prop :=
  (∀ mode src, (mode = 0 ∧ src = (fun (size l k : Nat) => l - l % size + k % size)) ∨
      (mode = 1 ∧ src = fun (size l k : Nat) => if k ≤ l % size then l - k else l) ∨
      (mode = 2 ∧ src = fun (size l k : Nat) => if l % size + k < size then l + k else l) ∨
      (mode = 3 ∧ src = fun (size l k : Nat) => l - l % size + (l % size ^^^ k) % size) →
    LaneDoesWhen .shfl 2 0x1C (fun _ i => i.fn = mode) (fun s t i => Wrote s t i i.wide fun l =>
      let from_ := src i.w.tileSize l (i.b32 l).toNat
      if bitOf i.w.live from_ then i.a i.wide from_ else 0)) ∧
  LaneDoes .vote 2 0x1D (fun s t i => Wrote s t i false fun l =>
    let ls := lanesOf (i.act &&& i.w.tileOf l)
    let p (k : Nat) : Bool := i.w.getV k i.f.a.toNat != 0
    if i.fn = 0 then (if ls.all p then 1 else 0)
    else if i.fn = 1 then (if ls.any p then 1 else 0)
    else if i.fn = 2 then (if ls.all fun k => i.w.getV k i.f.a.toNat == i.w.getV l i.f.a.toNat then 1 else 0)
    else (maskOf fun k => decide (k ∈ ls) && p k).setWidth 64) ∧
  LaneDoes .redi 2 0x1E (fun s t i => Wrote s t i i.wide fun l =>
    let x := combine (bits i.fn 2 0) i.mo ((lanesOf (i.act &&& i.w.tileOf l)).map i.ai)
    if bits i.fn 3 3 = 1 then tySat i.mo x else tyTrunc i.mo x) ∧
  LaneDoes .scani 2 0x1F (fun s t i => Wrote s t i i.wide fun l =>
    let x := combine (bits i.fn 2 0) i.mo (((lanesOf (i.act &&& i.w.tileOf l)).filter fun k =>
      decide (k < l) || (decide (k = l) && decide (bits i.fn 4 4 = 0))).map i.ai)
    if bits i.fn 3 3 = 1 then tySat i.mo x else tyTrunc i.mo x)

/-- ICMP and FCMP write the active lanes' bits of a mask and keep the others, or 1 or 0 to a register under .v; MLOG, the
four forms of MMOV, ELECT and JGET write their mask, or the register from a mask, and nothing else (R171, R179, R192, R198,
R202). -/
def Obligations.MaskInstructions : Prop :=
  LaneDoesWhen .icmp 2 0x0F (fun _ i => bits i.fn 3 3 = 0) (fun s t i =>
    WroteMask s t i (i.maskBits fun l => icmpHolds (bits i.fn 2 0) (i.ai l) (i.bi l))) ∧
  LaneDoesWhen .icmp 2 0x0F (fun _ i => bits i.fn 3 3 = 1) (fun s t i => Wrote s t i false fun l =>
    if icmpHolds (bits i.fn 2 0) (i.ai l) (i.bi l) then 1 else 0) ∧
  LaneDoesWhen .fcmp 3 0x06 (fun _ i => bits i.fn 3 3 = 0) (fun s t i =>
    WroteMask s t i (i.maskBits fun l => fcmpHolds (bits i.fn 2 0) (i.fa l) (i.fb l))) ∧
  LaneDoesWhen .fcmp 3 0x06 (fun _ i => bits i.fn 3 3 = 1) (fun s t i => Wrote s t i false fun l =>
    if fcmpHolds (bits i.fn 2 0) (i.fa l) (i.fb l) then 1 else 0) ∧
  LaneDoes .mlog 2 0x20 (fun s t i => WroteMask s t i (maskOf fun l =>
    i.fn.testBit (2 * (if bitOf (i.w.getM i.f.a.toNat) l then 1 else 0) + if bitOf (i.w.getM i.f.b.toNat) l then 1 else 0))) ∧
  LaneDoesWhen .mmov 2 0x21 (fun _ i => i.mo = 0) (fun s t i => WroteMask s t i (i.w.getM i.f.a.toNat)) ∧
  LaneDoesWhen .mmov 2 0x21 (fun _ i => i.mo = 1) (fun s t i =>
    WroteMask s t i (i.maskBits fun l => i.w.getV l i.f.a.toNat != 0)) ∧
  LaneDoesWhen .mmov 2 0x21 (fun _ i => i.mo = 2) (fun s t i => Wrote s t i false fun _ => (i.w.getM i.f.a.toNat).setWidth 64) ∧
  LaneDoesWhen .mmov 2 0x21 (fun _ i => i.mo = 3) (fun s t i => WroteMask s t i (lo32 i.f.immValue)) ∧
  LaneDoes .elect 1 0x10 (fun s t i => WroteMask s t i ((i.w.m.getD i.f.d.toNat 0 &&& ~~~i.grp) |||
    (i.grp &&& maskOf fun l => bitOf i.act l && lowest (i.act &&& i.w.tileOf l) == l))) ∧
  LaneDoes .jget 1 0x0B (fun s t i => WroteMask s t i (i.w.j.getD i.f.a.toNat 0))

/-! ### Float arithmetic -/

/-- FADD, FSUB, FMUL, FFMA, FSCALE and FDOT2 round the exact result once in the format of MOD (FDOT2 in f32) and the packed
instructions each element once, f16 for H and bf16 for B; the events of every active lane are counted for the task, and
nothing else changes (R115, R199, R200). -/
def Obligations.FloatArithmetic : Prop :=
  LaneDoes .fadd 3 0x00 (fun s t i => WroteCounting s t i false fun l =>
    i.rounded ((i.fa l).isInf || (i.fb l).isInf) (Val.add i.mode.down (i.fa l) (i.fb l))) ∧
  LaneDoes .fsub 3 0x01 (fun s t i => WroteCounting s t i false fun l =>
    i.rounded ((i.fa l).isInf || (i.fb l).isInf) (Val.add i.mode.down (i.fa l) (i.fb l).flip)) ∧
  LaneDoes .fmul 3 0x02 (fun s t i => WroteCounting s t i false fun l =>
    i.rounded ((i.fa l).isInf || (i.fb l).isInf) (Val.mul (i.fa l) (i.fb l))) ∧
  LaneDoes .ffma 3 0x03 (fun s t i => WroteCounting s t i false fun l =>
    i.rounded ((i.fa l).isInf || (i.fb l).isInf || (i.fc l).isInf)
      (Val.add i.mode.down (Val.mul (i.fa l) (i.fb l)) (i.fc l))) ∧
  LaneDoes .fscale 3 0x0A (fun s t i => WroteCounting s t i false fun l =>
    i.rounded (i.fa l).isInf ((i.fa l).scale (i.b32 l).toInt)) ∧
  LaneDoes .fdot2 3 0x12 (fun s t i => WroteCounting s t i false fun l =>
    let el (x : Word) (e : Nat) : Val := (fltOf i.mo).decode (pairElem x e)
    let a := i.w.getV l i.f.a.toNat
    let b := i.bFloat l
    let c := scalarFlt 0 (i.w.getV l i.f.c.toNat)
    let r := deliverIn 0 i.mode ((el a 0).isInf || (el a 1).isInf || (el b 0).isInf || (el b 1).isInf || c.isInf)
      (Val.add i.mode.down (Val.add i.mode.down (Val.mul (el a 0) (el b 0)) (Val.mul (el a 1) (el b 1))) c)
    (w64 r.1, r.2)) ∧
  LaneDoes .hadd2 3 0x0B (fun s t i => WroteCounting s t i false (i.packed 1 false fun dn x y _ => Val.add dn x y)) ∧
  LaneDoes .hmul2 3 0x0C (fun s t i => WroteCounting s t i false (i.packed 1 false fun _ x y _ => Val.mul x y)) ∧
  LaneDoes .hfma2 3 0x0D (fun s t i => WroteCounting s t i false
    (i.packed 1 true fun dn x y z => Val.add dn (Val.mul x y) z)) ∧
  LaneDoes .badd2 3 0x0E (fun s t i => WroteCounting s t i false (i.packed 2 false fun dn x y _ => Val.add dn x y)) ∧
  LaneDoes .bmul2 3 0x0F (fun s t i => WroteCounting s t i false (i.packed 2 false fun _ x y _ => Val.mul x y)) ∧
  LaneDoes .bfma2 3 0x10 (fun s t i => WroteCounting s t i false
    (i.packed 2 true fun dn x y z => Val.add dn (Val.mul x y) z))

/-- FMIN and FMAX write the lesser or greater operand, with -0 below +0, the other operand beside one NaN, and the canonical
NaN for two; FSGN gives a the sign of b, its inverse or the exclusive or, and the canonical NaN for a NaN; each counts one
NaN event where it delivers the canonical NaN and no other. FCLASS writes the one class bit. FCVT converts the element of
the source slot, or the 64-bit integer, and writes the whole register or pair, or its slot of the register. REDF reduces the
pairwise tree of the tile over its active lanes, with each event of a node counted in every active lane. Each writes its
active lanes and nothing else (R201, R203, R204, R206, R112, R114, R115). -/
def Obligations.FloatSelection : Prop :=
  (∀ (c : Fields → Instr) (op : Nat) (larger : Prop), (c = .fmin ∧ op = 0x04 ∧ ¬ larger) ∨ (c = .fmax ∧ op = 0x05 ∧ larger) →
    LaneDoes c 3 op (fun s t i => ∀ (r : Nat → DWord × List Nat), (∀ l,
        let p := (i.w.getV l i.f.a.toNat).toNat % 2 ^ (fltOf i.mo).width
        let q := (i.bFloat l).toNat % 2 ^ (fltOf i.mo).width
        (i.fa l = .nan → i.fb l = .nan → r l = (w64 (if i.mo = 0 then 0x7FC00000 else if i.mo = 1 then 0x7E00 else 0x7FC0),
          [4 * i.mo])) ∧
        (i.fa l = .nan → i.fb l ≠ .nan → r l = (w64 q, [])) ∧ (i.fa l ≠ .nan → i.fb l = .nan → r l = (w64 p, [])) ∧
        (i.fa l ≠ .nan → i.fb l ≠ .nan →
          ((Val.cmp (i.fa l) (i.fb l) = -1 ∨ Val.cmp (i.fa l) (i.fb l) = 0 ∧ (i.fa l).neg = true ∧ (i.fb l).neg = false) →
            (larger → r l = (w64 q, [])) ∧ (¬ larger → r l = (w64 p, []))) ∧
          (¬ (Val.cmp (i.fa l) (i.fb l) = -1 ∨ Val.cmp (i.fa l) (i.fb l) = 0 ∧ (i.fa l).neg = true ∧ (i.fb l).neg = false) →
            (larger → r l = (w64 p, [])) ∧ (¬ larger → r l = (w64 q, []))))) →
      WroteCounting s t i false r)) ∧
  (∀ fn, fn ≤ 2 → LaneDoesWhen .fsgn 3 0x07 (fun _ i => i.fn = fn) (fun s t i => WroteCounting s t i false fun l =>
    let half := 2 ^ ((fltOf i.mo).width - 1)
    let p := (i.w.getV l i.f.a.toNat).toNat % 2 ^ (fltOf i.mo).width
    let sa := p / half % 2
    let sb := (i.bFloat l).toNat / half % 2
    if i.fa l = .nan then (w64 (if i.mo = 0 then 0x7FC00000 else if i.mo = 1 then 0x7E00 else 0x7FC0), [4 * i.mo])
    else (w64 (p % half + half * if fn = 0 then sb else if fn = 1 then 1 - sb else (sa + sb) % 2), []))) ∧
  LaneDoes .fclass 3 0x09 (fun s t i => Wrote s t i false fun l =>
    w64 (2 ^ match (fltOf i.mo).decode ((i.w.getV l i.f.a.toNat).toNat % 2 ^ (fltOf i.mo).width) with
      | .nan => 8
      | .inf neg => if neg then 0 else 7
      | .fin neg m _ => if m = 0 then (if neg then 3 else 4) else if m < 2 ^ (fltOf i.mo).mb then (if neg then 2 else 5)
          else if neg then 1 else 6)) ∧
  LaneDoes .fcvt 3 0x08 (fun s t i =>
    let im := i.f.imm.toNat
    let sf := bits im 4 0
    let df := bits i.fn 7 3
    let slot := 32 / fcvtSlots df
    let x (l : Nat) : Val :=
      if bits im 14 14 = 1 then Val.ofInt (if sf = 0x0E then (i.w.getV2 l i.f.a.toNat).toInt else (i.w.getV2 l i.f.a.toNat).toNat)
      else decodeElem sf ((i.w.getV l i.f.a.toNat).toNat / 2 ^ (32 / fcvtSlots sf * bits im 10 8) % 2 ^ fmtBits sf)
    WroteCounting s t i (decide (bits im 15 15 = 1)) fun l =>
      if bits im 15 15 = 1 then
        (w64 (encodeInt 64 (df == 0x0E) i.mode (x l)).1,
          if sf < 8 then counters (groupOf sf) (encodeInt 64 (df == 0x0E) i.mode (x l)).2 else [])
      else if fcvtSlots df = 1 then
        (w64 (convert sf df i.mode (bits im 7 7 = 1) (x l)).1, (convert sf df i.mode (bits im 7 7 = 1) (x l)).2)
      else
        (w64 (insertField 32 (i.w.getV l i.f.d.toNat).toNat (convert sf df i.mode (bits im 7 7 = 1) (x l)).1
          (slot * bits im 13 11) slot), (convert sf df i.mode (bits im 7 7 = 1) (x l)).2)) ∧
  LaneDoes .redf 3 0x11 (fun s t i =>
    let fl := fltOf i.mo
    let leaf (k : Nat) : Option Nat :=
      if bitOf i.act k then some ((i.w.getV k i.f.a.toNat).toNat % 2 ^ fl.width) else none
    let node (p q : Nat) : Nat × List Nat :=
      if bits i.fn 4 3 = 0 then deliverIn i.mo i.mode ((fl.decode p).isInf || (fl.decode q).isInf)
        (Val.add i.mode.down (fl.decode p) (fl.decode q))
      else (minMax fl (bits i.fn 4 3 == 2) p q, [])
    let top (l : Nat) : Option Nat × List Nat := redTree node leaf i.w.partLog (l / i.w.tileSize * i.w.tileSize)
    ∀ r : Nat → DWord × List Nat, (∀ l p, (top l).1 = some p →
        (fl.decode p = .nan → (r l).1 = w64 (if i.mo = 0 then 0x7FC00000 else if i.mo = 1 then 0x7E00 else 0x7FC0)) ∧
        (fl.decode p ≠ .nan → (r l).1 = w64 p) ∧
        (r l).2 = if bits i.fn 4 3 = 0 ∧ 1 < popCount (i.act &&& i.w.tileOf l) then (top l).2
          else if fl.decode p = .nan then [4 * i.mo] else []) →
      WroteCounting s t i false r) ∧
  (∀ (node : Nat → Nat → Nat × List Nat) (leaf : Nat → Option Nat) (b k : Nat),
    redTree node leaf 0 b = (leaf b, []) ∧
    redTree node leaf (k + 1) b = match redTree node leaf k b, redTree node leaf k (b + 2 ^ k) with
      | (none, e), (q, f) => (q, e ++ f)
      | (some p, e), (none, f) => (some p, e ++ f)
      | (some p, e), (some q, f) => (some (node p q).1, e ++ f ++ (node p q).2))

/-- Every instruction of the function pipe is a producer of its result in each active lane: the quotient and remainder of
R99, the rounded square root and quotient, and for the others the function of R208 with its events. Zeros, infinities, NaN
and negative inputs of RSQ and LOG2 give what Table 8.5 says (R207, R208). -/
def Obligations.FunctionPipe : Prop :=
  LaneDoes .rcp 4 0x00 (fun s t i => ProducedCounting s t i fun l => functionOf 0 (i.w.getV l i.f.a.toNat) |>.map w64 id) ∧
  LaneDoes .rsq 4 0x01 (fun s t i => ProducedCounting s t i fun l => functionOf 1 (i.w.getV l i.f.a.toNat) |>.map w64 id) ∧
  LaneDoes .exp2 4 0x03 (fun s t i => ProducedCounting s t i fun l => functionOf 3 (i.w.getV l i.f.a.toNat) |>.map w64 id) ∧
  LaneDoes .log2 4 0x04 (fun s t i => ProducedCounting s t i fun l => functionOf 4 (i.w.getV l i.f.a.toNat) |>.map w64 id) ∧
  LaneDoes .sinpi 4 0x05 (fun s t i => ProducedCounting s t i fun l => functionOf 5 (i.w.getV l i.f.a.toNat) |>.map w64 id) ∧
  LaneDoes .cospi 4 0x06 (fun s t i => ProducedCounting s t i fun l => functionOf 6 (i.w.getV l i.f.a.toNat) |>.map w64 id) ∧
  LaneDoes .tanh 4 0x07 (fun s t i => ProducedCounting s t i fun l => functionOf 7 (i.w.getV l i.f.a.toNat) |>.map w64 id) ∧
  LaneDoes .sigm 4 0x08 (fun s t i => ProducedCounting s t i fun l => functionOf 8 (i.w.getV l i.f.a.toNat) |>.map w64 id) ∧
  LaneDoes .sqrt 4 0x02 (fun s t i => ProducedCounting s t i fun l =>
    let a := scalarFlt 0 (i.w.getV l i.f.a.toNat)
    (deliverIn 0 i.mode a.isInf (Val.sqrt a)).map w64 id) ∧
  LaneDoes .fdiv 4 0x09 (fun s t i => ProducedCounting s t i fun l =>
    let a := scalarFlt 0 (i.w.getV l i.f.a.toNat)
    let b := scalarFlt 0 (i.bFloat l)
    (deliverIn 0 i.mode (a.isInf || b.isInf) (Val.div a b)).map w64 id) ∧
  LaneDoes .idiv 4 0x0A (fun s t i => Produced s t i (i.laneVals i.wide fun l => tyTrunc i.mo
    (if i.bi l = 0 then 0 else satInt (tyWidth i.mo) (tySigned i.mo) ((i.ai l).tdiv (i.bi l)))) []) ∧
  LaneDoes .irem 4 0x0B (fun s t i => Produced s t i (i.laneVals i.wide fun l => tyTrunc i.mo
    (if i.bi l = 0 then i.ai l else (i.ai l).tmod (i.bi l))) []) ∧
  (∀ op a, (fltOf 0).decode a.toNat = .nan → (functionOf op a).1 = 0x7FC00000) ∧
  [0, 1, 3, 4, 5, 6, 7, 8].map (fun op => (functionOf op 0x00000000#32).1) =
    [0x7F800000, 0x7F800000, 0x3F800000, 0xFF800000, 0x00000000, 0x3F800000, 0x00000000, 0x3F000000] ∧
  [0, 1, 3, 4, 5, 6, 7, 8].map (fun op => (functionOf op 0x80000000#32).1) =
    [0xFF800000, 0xFF800000, 0x3F800000, 0xFF800000, 0x80000000, 0x3F800000, 0x80000000, 0x3F000000] ∧
  [0, 1, 3, 4, 5, 6, 7, 8].map (fun op => (functionOf op 0x7F800000#32).1) =
    [0x00000000, 0x00000000, 0x7F800000, 0x7F800000, 0x7FC00000, 0x7FC00000, 0x3F800000, 0x3F800000] ∧
  [0, 1, 3, 4, 5, 6, 7, 8].map (fun op => (functionOf op 0xFF800000#32).1) =
    [0x80000000, 0x7FC00000, 0x00000000, 0x7FC00000, 0x7FC00000, 0x7FC00000, 0xBF800000, 0x00000000] ∧
  (∀ m e, m ≠ 0 → ∀ a, (fltOf 0).decode a.toNat = .fin true m e →
    (functionOf 1 a).1 = 0x7FC00000 ∧ (functionOf 4 a).1 = 0x7FC00000)

/-- A producer that waits for no reply completes: its registers are full and hold its values, registers and lanes that it
does not name keep theirs, and only its thread changes, in a warp and in a lead thread (R65, R68). -/
def Obligations.ProducerWriteback : Prop :=
  (∀ (s : State) (core slot n : Nat) (w : Warp) (p : Producer), s.warp? core slot = some w → w.prods[n]? = some p →
    p.replies = 0 → p.flags = [] →
    ∃ t w', exec (.producerWriteback (.warp core slot) n) s = .next t ∧ OnlyWarp s t core slot ∧
      t.warp? core slot = some w' ∧ (∀ r, r ∈ w'.empty ↔ r ∈ w.empty ∧ r ∉ p.regs) ∧
      (∀ q, q ∈ w'.prods ↔ q ∈ w.prods ∧ q.id ≠ p.id) ∧
      (∀ l r, l < w.lanes.length → (∀ e ∈ p.vals, ¬ (e.1 = l ∧ e.2.1 = r)) →
        look (w'.lane l).v r = look (w.lane l).v r) ∧
      (∀ l r x pre post, l < w.lanes.length → p.vals = pre ++ (l, r, x) :: post →
        (∀ e ∈ post, ¬ (e.1 = l ∧ e.2.1 = r)) → look (w'.lane l).v r = some (lo32 x))) ∧
  (∀ (s : State) (core slot n : Nat) (c : Crew) (p : Producer), s.crew? core slot = some c → c.lead.prods[n]? = some p →
    p.replies = 0 →
    ∃ t c', exec (.producerWriteback (.lead core slot) n) s = .next t ∧ OnlyCrew s t core slot ∧
      t.crew? core slot = some c' ∧ (∀ r, r ∈ c'.lead.empty ↔ r ∈ c.lead.empty ∧ r ∉ p.regs) ∧
      (∀ l r x, p.vals = [(l, r, x)] → r ≠ 0 → look c'.lead.k r = some x))

/-! ### The lead engine -/

/-- The fourteen operations of R146 write k[D] := trunc(x, 64), SCMP 1 or 0 under the condition of Table 6.4, SSEL the
chosen operand, SLI the operand and SBITS the bits of its seven forms; only the lead thread's PC, instruction count and k[D]
change, and a write of k0 has no effect. A MOD beyond those of R146 and R147 raises ILLEGAL (R65, R146 to R149). -/
def Obligations.LeadArithmetic : Prop :=
  LeadDoes .sadd 0 0x00 (fun s t i => LeadWrote s t i (i.a + i.b)) ∧
  LeadDoes .ssub 0 0x01 (fun s t i => LeadWrote s t i (i.a - i.b)) ∧
  LeadDoes .smul 0 0x02 (fun s t i => LeadWrote s t i (i.a * i.b)) ∧
  LeadDoesWhen .smulh 0 0x03 (fun _ i => i.mo = 0) (fun s t i => LeadWrote s t i (i64 (i.a.toInt * i.b.toInt / 2 ^ 64))) ∧
  LeadDoesWhen .smulh 0 0x03 (fun _ i => i.mo = 1) (fun s t i => LeadWrote s t i (w64 (i.a.toNat * i.b.toNat / 2 ^ 64))) ∧
  LeadDoesWhen .sdiv 0 0x04 (fun _ i => i.mo = 0) (fun s t i =>
    LeadWrote s t i (if i.b = 0 then 0 else i64 (min (2 ^ 63 - 1) (i.a.toInt.tdiv i.b.toInt)))) ∧
  LeadDoesWhen .sdiv 0 0x04 (fun _ i => i.mo = 1) (fun s t i => LeadWrote s t i (i.a / i.b)) ∧
  LeadDoesWhen .srem 0 0x05 (fun _ i => i.mo = 0) (fun s t i =>
    LeadWrote s t i (if i.b = 0 then i.a else i64 (i.a.toInt.tmod i.b.toInt))) ∧
  LeadDoesWhen .srem 0 0x05 (fun _ i => i.mo = 1) (fun s t i => LeadWrote s t i (i.a % i.b)) ∧
  LeadDoes .sand 0 0x06 (fun s t i => LeadWrote s t i (i.a &&& i.b)) ∧
  LeadDoes .sor 0 0x07 (fun s t i => LeadWrote s t i (i.a ||| i.b)) ∧
  LeadDoes .sxor 0 0x08 (fun s t i => LeadWrote s t i (i.a ^^^ i.b)) ∧
  LeadDoes .sshl 0 0x09 (fun s t i => LeadWrote s t i (i.a <<< i.b.toNat)) ∧
  LeadDoes .sshr 0 0x0A (fun s t i => LeadWrote s t i (i.a >>> i.b.toNat)) ∧
  LeadDoes .ssra 0 0x0B (fun s t i => LeadWrote s t i (i.a.sshiftRight i.b.toNat)) ∧
  LeadDoesWhen .smin 0 0x0C (fun _ i => i.mo = 0) (fun s t i => LeadWrote s t i (if i.a.toInt ≤ i.b.toInt then i.a else i.b)) ∧
  LeadDoesWhen .smin 0 0x0C (fun _ i => i.mo = 1) (fun s t i => LeadWrote s t i (if i.a.toNat ≤ i.b.toNat then i.a else i.b)) ∧
  LeadDoesWhen .smax 0 0x0D (fun _ i => i.mo = 0) (fun s t i => LeadWrote s t i (if i.a.toInt ≤ i.b.toInt then i.b else i.a)) ∧
  LeadDoesWhen .smax 0 0x0D (fun _ i => i.mo = 1) (fun s t i => LeadWrote s t i (if i.a.toNat ≤ i.b.toNat then i.b else i.a)) ∧
  (∀ (mo : Nat) (p : DWord → DWord → Prop), (mo, p) ∈ ([(0, fun a b => a = b), (1, fun a b => a ≠ b),
      (2, fun a b => a.toInt < b.toInt), (3, fun a b => a.toInt ≥ b.toInt), (4, fun a b => a.toNat < b.toNat),
      (5, fun a b => a.toNat ≥ b.toNat), (6, fun a b => a.toInt ≤ b.toInt), (7, fun a b => a.toInt > b.toInt),
      (8, fun a b => a.toNat ≤ b.toNat), (9, fun a b => a.toNat > b.toNat)] : List (Nat × (DWord → DWord → Prop))) →
    LeadDoesWhen .scmp 0 0x0E (fun _ i => i.mo = mo ∧ p i.a i.b) (fun s t i => LeadWrote s t i 1) ∧
    LeadDoesWhen .scmp 0 0x0E (fun _ i => i.mo = mo ∧ ¬ p i.a i.b) (fun s t i => LeadWrote s t i 0)) ∧
  (∀ (c : Fields → Instr) (op n : Nat), (c, op, n) ∈ ([(.sadd, 0x00, 0), (.ssub, 0x01, 0), (.smul, 0x02, 0), (.smulh, 0x03, 1),
      (.sdiv, 0x04, 1), (.srem, 0x05, 1), (.sand, 0x06, 0), (.sor, 0x07, 0), (.sxor, 0x08, 0), (.sshl, 0x09, 0),
      (.sshr, 0x0A, 0), (.ssra, 0x0B, 0), (.smin, 0x0C, 1), (.smax, 0x0D, 1), (.scmp, 0x0E, 9)] :
      List ((Fields → Instr) × Nat × Nat)) → LeadIllegalWhen c 0 op (fun f => n < f.mod.toNat)) ∧
  LeadDoes .ssel 0 0x0F (fun s t i => LeadWrote s t i (if i.kc ≠ 0 then i.a else i.b)) ∧
  LeadDoes .sli 0 0x10 (fun s t i => LeadWrote s t i i.b) ∧
  LeadDoesWhen .sbits 0 0x11 (fun _ i => i.mo = 0) (fun s t i => LeadWrote s t i (w64 (popN 64 i.a.toNat))) ∧
  LeadDoesWhen .sbits 0 0x11 (fun _ i => i.mo = 1) (fun s t i => LeadWrote s t i (w64 (clzN 64 i.a.toNat))) ∧
  LeadDoesWhen .sbits 0 0x11 (fun _ i => i.mo = 2) (fun s t i => LeadWrote s t i (w64 (ctzN 64 i.a.toNat))) ∧
  LeadDoesWhen .sbits 0 0x11 (fun _ i => i.mo = 3) (fun s t i => LeadWrote s t i (w64 (brevN 64 i.a.toNat))) ∧
  LeadDoesWhen .sbits 0 0x11 (fun _ i => i.mo = 4) (fun s t i => LeadWrote s t i (i64
    (extractField 64 false i.a.toNat (bits i.b.toNat 5 0) (min (bits i.b.toNat 14 8) 64)))) ∧
  LeadDoesWhen .sbits 0 0x11 (fun _ i => i.mo = 5) (fun s t i => LeadWrote s t i (i64
    (extractField 64 true i.a.toNat (bits i.b.toNat 5 0) (min (bits i.b.toNat 14 8) 64)))) ∧
  LeadDoesWhen .sbits 0 0x11 (fun _ i => i.mo = 6) (fun s t i => LeadWrote s t i (w64
    (insertField 64 i.kc.toNat i.a.toNat (bits i.b.toNat 5 0) (min (bits i.b.toNat 14 8) 64))))

/-- SBR, SBC under its four conditions, SCALL and SJMP set the PC; calls push the link to a depth of 16; SCALL at depth 16
and SJMP to 2^32 or more fault with BOUNDS, which stops the context; SRET takes the last link, and at depth 0 ends the
thread (R153, R159). -/
def Obligations.LeadControl : Prop :=
  LeadDoes .sbr 0 0x14 (fun s t i => LeadBecame s t i { i.c.lead.past i.f with pc := targetOf i.f i.pc }) ∧
  (∀ (mo : Nat) (p : Int → Prop), (mo, p) ∈ ([(0, fun x => x ≠ 0), (1, fun x => x = 0), (2, fun x => x < 0),
      (3, fun x => 0 ≤ x)] : List (Nat × (Int → Prop))) →
    LeadDoesWhen .sbc 0 0x15 (fun _ i => i.mo = mo ∧ p i.a.toInt)
      (fun s t i => LeadBecame s t i { i.c.lead.past i.f with pc := targetOf i.f i.pc }) ∧
    LeadDoesWhen .sbc 0 0x15 (fun _ i => i.mo = mo ∧ ¬ p i.a.toInt)
      (fun s t i => LeadBecame s t i { i.c.lead.past i.f with pc := i.link })) ∧
  LeadDoesWhen .scall 0 0x16 (fun _ i => i.c.lead.stack.length < 16) (fun s t i => LeadBecame s t i
    { i.c.lead.past i.f with pc := targetOf i.f i.pc, stack := i.link :: i.c.lead.stack }) ∧
  LeadDoesWhen .scall 0 0x16 (fun _ i => 16 ≤ i.c.lead.stack.length) (fun s t i =>
    t = s.trapLead i.core i.slot Cls.bounds ((targetOf i.f i.pc).setWidth 64)) ∧
  LeadDoesWhen .sjmp 0 0x18 (fun _ i => i.a.toNat < 2 ^ 32 ∧ i.mo = 0) (fun s t i => LeadBecame s t i
    { i.c.lead.past i.f with pc := lo32 i.a }) ∧
  LeadDoesWhen .sjmp 0 0x18 (fun _ i => i.a.toNat < 2 ^ 32 ∧ i.mo = 1 ∧ i.c.lead.stack.length < 16) (fun s t i =>
    LeadBecame s t i { i.c.lead.past i.f with pc := lo32 i.a, stack := i.link :: i.c.lead.stack }) ∧
  LeadDoesWhen .sjmp 0 0x18 (fun _ i => 2 ^ 32 ≤ i.a.toNat) (fun s t i => t = s.trapLead i.core i.slot Cls.bounds i.a) ∧
  (∀ pc r, LeadDoesWhen .sret 0 0x17 (fun _ i => i.c.lead.stack = pc :: r) (fun s t i => LeadBecame s t i
    { i.c.lead.past i.f with pc := pc, stack := r })) ∧
  LeadDoesWhen .sret 0 0x17 (fun s i => i.c.lead.stack = [] ∧ i.c.lead.prods = [] ∧ (Caller.lead i).released s = .ok s)
    (fun s t i => ∃ u, LeadBecame s u i (({ i.c.lead with ended := true } : Lead).past i.f) ∧
      t = u.checkCrew (crewKey i.core i.slot))

/-- SRDX reads the completion counters, the decision queue's length, the call depth, CYCLE, TIME and INSTR with the reading
instruction counted; SWRX replaces a completion counter at once; SWAITQ passes once its counter has reached the value and
otherwise waits; DQPUSH appends an entry while one of the 16 is free and otherwise waits (R144, R154 to R156). -/
def Obligations.LeadRegisters : Prop :=
  (∀ n, n < 8 → LeadDoesWhen .srdx 0 0x1A (fun _ i => i.f.a.toNat = 0x20 + n) (fun s t i =>
    LeadWrote s t i (i.c.q.getD n 0))) ∧
  LeadDoesWhen .srdx 0 0x1A (fun _ i => i.f.a.toNat = 0x28) (fun s t i => LeadWrote s t i (w64 i.c.dq.length)) ∧
  LeadDoesWhen .srdx 0 0x1A (fun _ i => i.f.a.toNat = 0x29) (fun s t i => LeadWrote s t i (w64 i.c.lead.stack.length)) ∧
  LeadDoesWhen .srdx 0 0x1A (fun _ i => i.f.a.toNat = 0x10) (fun s t i => LeadWrote s t i (w64 (s.cycleOf i.core))) ∧
  LeadDoesWhen .srdx 0 0x1A (fun _ i => i.f.a.toNat = 0x11) (fun s t i => LeadWrote s t i s.time) ∧
  LeadDoesWhen .srdx 0 0x1A (fun _ i => i.f.a.toNat = 0x12) (fun s t i => LeadWrote s t i (i.c.lead.instr + 1)) ∧
  (∀ n, n < 8 → LeadDoesWhen .swrx 0 0x1B (fun _ i => i.f.a.toNat = 0x20 + n) (fun s t i =>
    OnlyCrew s t i.core i.slot ∧
      t.crew? i.core i.slot = some { i.c with q := setNth i.c.q n i.b, lead := i.c.lead.past i.f })) ∧
  LeadDoesWhen .swaitq 0 0x1C (fun _ i => i.b.toNat ≤ (i.c.q.getD i.f.a.toNat 0).toNat) (fun s t i =>
    t = i.done (s.observe (crewKey i.core i.slot) i.f.a.toNat)) ∧
  LeadDoesWhen .swaitq 0 0x1C (fun _ i => (i.c.q.getD i.f.a.toNat 0).toNat < i.b.toNat) (fun s t i =>
    LeadBecame s t i { i.c.lead with wait := .retry, sp := i.f.live, swaits := true }) ∧
  LeadDoesWhen .dqpush 0 0x19 (fun s i => i.c.dq.length < 16 ∧ (Caller.lead i).performed s = .ok s) (fun s t i =>
    ∃ u, OnlyCrew s u i.core i.slot ∧ t = u.trimDq (crewKey i.core i.slot) ∧ u.crew? i.core i.slot =
      some { i.c with dq := i.c.dq ++ [{ data := i.mo == 1, value := i.b }], lead := i.c.lead.past i.f }) ∧
  LeadDoesWhen .dqpush 0 0x19 (fun _ i => 16 ≤ i.c.dq.length) (fun s t i =>
    LeadBecame s t i { i.c.lead with wait := .retry, sp := i.f.live, swaits := false })

/-! ### The sequencer -/

/-- LBR, LBRC under its four conditions, LCALL, LRET and LJMP: an active lane goes to its target, an inactive one past the
instruction, and LCALL and LJMP.call write the link at once; nothing else changes (R168). -/
def Obligations.LaneBranches : Prop :=
  LaneDoesWhen .lbr 1 0x00 (fun s i => splitTiles sameOut s i = none) (fun s t i =>
    Branched s t i (fun _ => targetOf i.f i.pc) id) ∧
  (∀ (mo : Nat) (p : Int → Bool), (mo = 0 ∧ p = fun x => decide (x ≠ 0)) ∨ (mo = 1 ∧ p = fun x => decide (x = 0)) ∨
      (mo = 2 ∧ p = fun x => decide (x < 0)) ∨ (mo = 3 ∧ p = fun x => decide (0 ≤ x)) →
    LaneDoesWhen .lbrc 1 0x01
      (fun s i => i.mo = mo ∧ splitTiles (fun _ i l => (i.lbrcTarget l).toNat) s i = none) (fun s t i =>
      Branched s t i (fun l => if p (i.a32 l).toInt then targetOf i.f i.pc else i.pc + BitVec.ofNat 32 i.f.len) id)) ∧
  LaneDoesWhen .lcall 1 0x02 (fun s i => splitTiles sameOut s i = none) (fun s t i =>
    Branched s t i (fun _ => targetOf i.f i.pc) fun x => x.setV i.f.d.toNat (i.pc + BitVec.ofNat 32 i.f.len)) ∧
  LaneDoesWhen .lret 1 0x03 (fun s i => splitTiles (fun _ i l => (i.a32 l).toNat) s i = none) (fun s t i =>
    Branched s t i (fun l => i.w.getV l i.f.a.toNat) id) ∧
  LaneDoesWhen .ljmp 1 0x04 (fun s i => i.mo = 0 ∧ splitTiles (fun _ i l => (i.a32 l).toNat) s i = none) (fun s t i =>
    Branched s t i (fun l => i.w.getV l i.f.a.toNat) id) ∧
  LaneDoesWhen .ljmp 1 0x04 (fun s i => i.mo = 1 ∧ splitTiles (fun _ i l => (i.a32 l).toNat) s i = none) (fun s t i =>
    Branched s t i (fun l => i.w.getV l i.f.a.toNat) fun x => x.setV i.f.d.toNat (i.pc + BitVec.ofNat 32 i.f.len))

/-- A matching entry is consumed and decides the branch, or is produced, as 32 or 64 bits; without an entry they wait, or
fault with DQMISMATCH once the lead thread has ended; an entry of the other tag faults too; off convergence both, which take
no predicate, raise DIVERGE with the lanes that break it (R83, R169, R170). -/
def Obligations.UniformDecisions : Prop :=
  (∀ v, LaneDoesWhen .ubr 1 0x05 (fun s i => converged s i = none ∧ s.dqNext i.w = .entry { data := false, value := v })
    (fun s t i => ∃ u, t = i.consume u ∧
      Branched s u i (fun _ => if v ≠ 0 then targetOf i.f i.pc else i.pc + BitVec.ofNat 32 i.f.len) id)) ∧
  (∀ v, LaneDoesWhen .dqpop 1 0x06
    (fun s i => i.mo = 0 ∧ converged s i = none ∧ s.dqNext i.w = .entry { data := true, value := v })
    (fun s t i => ∃ u, t = i.consume u ∧ Produced s u i (i.laneVals false fun _ => (lo32 v).setWidth 64) [])) ∧
  (∀ v, LaneDoesWhen .dqpop 1 0x06
    (fun s i => i.mo = 1 ∧ converged s i = none ∧ s.dqNext i.w = .entry { data := true, value := v })
    (fun s t i => ∃ u, t = i.consume u ∧ Produced s u i (i.laneVals true fun _ => v) [])) ∧
  LaneDoesWhen .ubr 1 0x05 (fun s i => converged s i = none ∧ s.dqNext i.w = .wait) Waits ∧
  LaneDoesWhen .dqpop 1 0x06 (fun s i => converged s i = none ∧ s.dqNext i.w = .wait) Waits ∧
  LaneDoesWhen .ubr 1 0x05 (fun s i => converged s i = none ∧ s.dqNext i.w = .none) (fun s t i =>
    t = i.raise s Cls.dqmismatch i.act (fun _ => 0) fun _ => 0) ∧
  LaneDoesWhen .dqpop 1 0x06 (fun s i => converged s i = none ∧ s.dqNext i.w = .none) (fun s t i =>
    t = i.raise s Cls.dqmismatch i.act (fun _ => 0) fun _ => 0) ∧
  (∀ v, LaneDoesWhen .ubr 1 0x05 (fun s i => converged s i = none ∧ s.dqNext i.w = .entry { data := true, value := v })
    (fun s t i => t = i.raise s Cls.dqmismatch i.act (fun _ => 0) fun _ => 1)) ∧
  (∀ v, LaneDoesWhen .dqpop 1 0x06 (fun s i => converged s i = none ∧ s.dqNext i.w = .entry { data := false, value := v })
    (fun s t i => t = i.raise s Cls.dqmismatch i.act (fun _ => 0) fun _ => 1)) ∧
  (∀ (m : Word) (c : Fields → Instr) (op : Nat), (c, op) ∈ ([(.ubr, 0x05), (.dqpop, 0x06)] : List ((Fields → Instr) × Nat)) →
    LaneDoesWhen c 1 op (fun s i => i.act ≠ 0 ∧ converged s i = some m) (fun s t i =>
      t = i.raise s Cls.diverge i.act (fun _ => 0) fun _ => m.setWidth 64))

/-- JOIN, LEAVE and JSET change a join mask and re-evaluate the releases; WAITJ makes members wait and lets the others pass;
when every member of a mask waits at it, all its waiters go on past their WAITJ, and before that none does (R171, R172). -/
def Obligations.JoinMasks : Prop :=
  LaneDoes .join 1 0x07 (fun s t i => Ended s t i ({ i.w with
    j := setNth i.w.j i.f.a.toNat (i.w.j.getD i.f.a.toNat 0 ||| i.act) } : Warp).checkJoins) ∧
  LaneDoes .leave 1 0x08 (fun s t i => Ended s t i ({ i.w with
    j := setNth i.w.j i.f.a.toNat (i.w.j.getD i.f.a.toNat 0 &&& ~~~i.act) } : Warp).checkJoins) ∧
  LaneDoes .jset 1 0x0A (fun s t i => Ended s t i ({ i.w with
    j := setNth i.w.j i.f.d.toNat (i.w.getM i.f.a.toNat &&& i.w.live) } : Warp).checkJoins) ∧
  LaneDoesWhen .waitj 1 0x09 (fun s i => splitTiles (fun _ i l => if bitOf i.joinA l then 1 else 0) s i = none ∧
      i.act &&& i.joinA = 0 ∧ i.released s 0 = .ok s) (fun s t i =>
    ∃ w' : Warp, OnlyWarp s t i.core i.slot ∧ t.warp? i.core i.slot = some w'.checkJoins ∧ i.Passed i.w w') ∧
  LaneDoesWhen .waitj 1 0x09 (fun s i => splitTiles (fun _ i l => if bitOf i.joinA l then 1 else 0) s i = none ∧
      i.act &&& i.joinA ≠ 0 ∧ i.released s (i.act &&& i.joinA) = .ok s) (fun s t i =>
    ∃ w' : Warp, OnlyWarp s t i.core i.slot ∧ t.warp? i.core i.slot = some w'.checkJoins ∧ w'.j = i.w.j ∧
      ∀ l, l < i.w.lanes.length → bitOf i.grp l = true →
        if bitOf i.act l ∧ bitOf i.joinA l then
          (w'.lane l).pc = (i.w.lane l).pc ∧ (w'.lane l).wait = .join i.f.a.toNat ∧ (w'.lane l).adv = i.f.len
        else w'.lane l = (i.w.lane l).past i.f) ∧
  (∀ (w : Warp) (j : Nat), (w.lanes.any (·.atJoin j) = true) → ((lanesOf (w.j.getD j 0)).all fun l => (w.lane l).atJoin j) = true →
    ∀ l, l < w.lanes.length → (w.checkJoin j).lane l = if (w.lane l).atJoin j then (w.lane l).pass else w.lane l) ∧
  (∀ (w : Warp) (j : Nat), ((lanesOf (w.j.getD j 0)).all fun l => (w.lane l).atJoin j) = false → w.checkJoin j = w)

/-- BAR with a form or count that the open instance does not take raises BOUNDS; otherwise the active lanes of BAR or GBAR
arrive at the instance and wait, and the barriers of the crew or gang are examined; an instance with a count is complete
when that many have arrived, and one without when all live lanes have (R173). -/
def Obligations.Barriers : Prop :=
  LaneDoesWhen .bar 1 0x0C (fun s i => splitTiles sameOut s i = none ∧ i.act ≠ 0 ∧ i.released s i.act = .ok s ∧
      barBad ((look s.crews (i.w.crew.getD 0)).bind fun c => look c.bars i.f.a.toNat) (i.mo == 1) i.count 512 = false)
    (fun s t i => t = ((i.await s i.act fun _ => .bar i.f.a.toNat).onCrewKey (i.w.crew.getD 0) fun c =>
      { c with bars := put c.bars i.f.a.toNat (Barrier.arrive
        ((look s.crews (i.w.crew.getD 0)).bind fun c => look c.bars i.f.a.toNat) (i.mo == 1) i.count
        (warpKey i.core i.slot) i.act i.pc (s.resident i.core i.w)) }).checkBars (i.w.crew.getD 0)) ∧
  LaneDoesWhen .bar 1 0x0C (fun s i => splitTiles sameOut s i = none ∧ i.act ≠ 0 ∧
      barBad ((look s.crews (i.w.crew.getD 0)).bind fun c => look c.bars i.f.a.toNat) (i.mo == 1) i.count 512 = true)
    (fun s t i => t = i.raise s Cls.bounds i.act (fun _ => 0) fun _ => w64 i.f.a.toNat) ∧
  (∀ g, LaneDoesWhen .gbar 1 0x0D (fun s i => splitTiles sameOut s i = none ∧ i.act ≠ 0 ∧ i.released s i.act = .ok s ∧
      ((look s.crews (i.w.crew.getD 0)).elim 0 (·.gang)) = g ∧
      barBad ((look s.gangs g).bind fun x => look x.gbars i.f.a.toNat) (i.mo == 1) i.count 8192 = false)
    (fun s t i => t = ((i.await (s.shareWrites i.core i.w.ctx) i.act fun _ => .gbar i.f.a.toNat).onGang g fun x =>
      { x with gbars := put x.gbars i.f.a.toNat (Barrier.arrive ((look s.gangs g).bind fun x => look x.gbars i.f.a.toNat)
        (i.mo == 1) i.count (warpKey i.core i.slot) i.act i.pc (s.resident i.core i.w)) }).checkGbars g)) ∧
  (∀ (b : Option Barrier) (counted : Bool) (n limit : Nat), barBad b counted n limit = true ↔
    (counted = true ∧ (n = 0 ∨ limit < n)) ∨ ∃ x, b = some x ∧ (x.counted ≠ counted ∨ (counted = true ∧ x.count ≠ n))) ∧
  (∀ (b : Barrier) (live : Nat), b.full live = true ↔
    if b.counted then b.count ≤ b.total else b.total = live)

/-- EXIT ends its active lanes, once what they issued is performed where R280 asks it: they are live no longer, their bits
are clear in every join mask, their PCs read as all ones, and the registers and masks of the warp stand; the warp of the
last live lanes leaves its slot. PARTSET on a converged, unbound warp sets the tile size to 2^MOD, and on a bound one raises
ILLEGAL. LPCRD reads the PC of a live lane, and all ones for an exited one (R171, R175, R177, R186, R280). -/
def Obligations.ExitTilesAndPcs : Prop :=
  (∀ u : State, LaneDoesWhen .exit 1 0x0E (fun s i => splitTiles sameOut s i = none ∧ i.act ≠ 0 ∧ i.joining = 0 ∧
      i.w.live &&& ~~~i.act ≠ 0 ∧ (i.exiting = 0 ∧ u = s ∨
        i.exiting ≠ 0 ∧ (Caller.warp { i with act := i.exiting } i.exiting).released s = .ok u ∧ u.warp? i.core i.slot = some i.w))
    (fun _ t i => (∀ a, t.mem.read a = u.mem.read a) ∧ ∃ w', t.warp? i.core i.slot = some w' ∧ w'.live = i.w.live &&& ~~~i.act ∧
      w'.j = i.w.j.map (· &&& ~~~i.act) ∧ w'.m = i.w.m ∧ w'.lanes.length = i.w.lanes.length ∧
      ∀ l, l < i.w.lanes.length → look (w'.lane l).v = look (i.w.lane l).v ∧
        (bitOf i.act l = true → (w'.lane l).pc = 0xFFFFFFFF#32 ∧ (w'.lane l).wait = .none))) ∧
  (∀ u : State, LaneDoesWhen .exit 1 0x0E (fun s i => splitTiles sameOut s i = none ∧ i.act ≠ 0 ∧ i.act = i.w.live ∧
      i.joining = 0 ∧ i.w.prods = [] ∧ (Caller.warp { i with act := i.exiting } i.exiting).released s = .ok u ∧
      u.warp? i.core i.slot = some i.w)
    (fun _ t i => t.warp? i.core i.slot = none)) ∧
  LaneDoesWhen .partset 1 0x0F (fun s i => converged s i = none ∧ i.w.chain.bound = none) (fun s t i =>
    Ended s t i { i.w with partLog := i.mo }) ∧
  LaneDoesWhen .partset 1 0x0F (fun s i => converged s i = none ∧ i.w.chain.bound ≠ none) (fun s t i =>
    t = i.raise s Cls.illegal i.act (fun _ => 0) fun _ => (encodeW0 1 0x0F i.f).setWidth 64) ∧
  (∀ w : Warp, w.tileSize = 2 ^ w.partLog) ∧
  LaneDoes .lpcrd 1 0x13 (fun s t i => Wrote s t i false fun l =>
    let k := (i.w.getV l i.f.a.toNat).toNat % 32
    (if bitOf i.w.live k then (i.w.lane k).pc else 0xFFFFFFFF#32).setWidth 64)

/-! ### Traps -/

/-- A lane fault with a handler has no effect of the instruction: the handler lanes stand at the trap entry, TCAUSE, TPC and
TLANES name the fault, TADDR and TDATA hold the detail of the lanes in which it arose, and other lanes keep all but their
age. A class without handler, a trap entry of 0, a fault in a handler (as DOUBLE) and every lead fault stop the context,
which is counted and killed (R43, R159, R181, R183, R184). -/
def Obligations.FaultsTaken : Prop :=
  (∀ (s : State) (core slot : Nat) (i : Src) (f : LaneFlt) (w : Warp) (x : Ctx) (b : Nat × Nat),
    s.warp? core slot = some w → s.ctx? w.ctx = some x → w.handler = 0 → hasHandler f.cls = true → x.trapOff ≠ 0 →
    x.trapBounds = some b → w.chain.bound = none →
    ∃ (u : State) (w' : Warp), s.trap core slot i f = u.tidyLeases ∧ u.warp? core slot = some w' ∧ u.mem = s.mem ∧ w'.handler = f.active ∧
      w'.tpc = i.pc ∧ w'.tlanes = f.lanes ∧ bits w'.tcause.toNat 7 0 = f.cls % 256 ∧ w'.live = w.live ∧
      w'.m = w.m ∧ w'.j = w.j ∧ w'.instr = w.instr ∧
      ∀ l, l < w.lanes.length → look (w'.lane l).v = look (w.lane l).v ∧
        if bitOf f.active l then
          (w'.lane l).pc = x.trapOff ∧ (w'.lane l).wait = .none ∧
            (w'.lane l).taddr = (if bitOf f.lanes l then f.addr l else 0) ∧
            (w'.lane l).tdata = (if bitOf f.lanes l then f.data l else 0)
        else w'.lane l = if bitOf w.live l then { w.lane l with age := 0 } else w.lane l) ∧
  (∀ (s : State) (core slot : Nat) (i : Src) (f : LaneFlt) (w : Warp) (x : Ctx),
    s.warp? core slot = some w → s.ctx? w.ctx = some x →
    (w.handler ≠ 0 → s.trap core slot i f = s.stop w.ctx Cls.double (s.taskNo w.task) (w.qual (lowest f.lanes)) i.pc
      (f.addr (lowest f.lanes)) (dieOf core)) ∧
    (w.handler = 0 → hasHandler f.cls = false ∨ x.trapOff = 0 → s.trap core slot i f = s.stop w.ctx f.cls
      (s.taskNo w.task) (w.qual (lowest f.lanes)) i.pc (f.addr (lowest f.lanes)) (dieOf core))) ∧
  (∀ (s : State) (core slot cls : Nat) (c : Crew) (d : DWord), s.crew? core slot = some c →
    s.trapLead core slot cls d = s.stop c.ctx cls (s.taskNo c.task) (2 ^ 8 + slot * 2 ^ 9) c.lead.pc d (dieOf core)) ∧
  (∀ (s : State) (c cls source qual unit : Nat) (fpc : Word) (faddr : DWord) (x : Ctx), s.ctx? c = some x →
    s.runs c = true → ∃ u : State, u.ctx? c = some { x with
        faults := put x.faults cls (satAdd 0xFFFF (count x.faults cls) 1),
        kill := some { status := if cls = Cls.killed then 2 else 1, cls, source, qual, fpc, faddr, done := 0, reset := 0,
                       start := s.time, emptyTable := false } } ∧
      { u with ctxs := s.ctxs } = s ∧
      s.stop c cls source qual fpc faddr unit = if cls = Cls.world then (u.killStep c).alarm unit 1 else u.killStep c) ∧
  (∀ (s : State) (c cls source qual unit : Nat) (fpc : Word) (faddr : DWord), s.runs c = false →
    s.stop c cls source qual fpc faddr unit = s)

/-- TRAP and BRK raise SWTRAP and BRK in their active lanes with the code of IMM19, and BRK of a lead thread stops its
context; NOP has no effect in either stream. RTE: each active handler lane waits with its resume PC, which is TPC, the PC
after the trapping instruction or a register; when every live handler lane has returned, each takes its resume PC and the
handler is over. Outside a handler RTE raises ILLEGAL, and one that would leave the lanes of a bound tile at two PCs DIVERGE
(R180, R182, R185). -/
def Obligations.TrapInstructions : Prop :=
  LaneDoesWhen .trap 1 0x11 (fun s i => splitTiles sameOut s i = none ∧ i.act ≠ 0) (fun s t i =>
    t = i.raise s Cls.swtrap i.act (fun _ => 0) fun _ => w64 i.f.imm.toNat) ∧
  LaneDoesWhen .brk 12 0x02 (fun _ i => i.act ≠ 0) (fun s t i =>
    t = i.raise s Cls.brk i.act (fun _ => 0) fun _ => w64 i.f.imm.toNat) ∧
  LeadDoes .brk 12 0x02 (fun s t i => t = s.trapLead i.core i.slot Cls.brk (w64 i.f.imm.toNat)) ∧
  LaneDoes .nop 12 0x00 (fun s t i => Ended s t i i.w) ∧
  LeadDoes .nop 12 0x00 (fun s t i => LeadBecame s t i (i.c.lead.past i.f)) ∧
  (∀ mo resume, (mo = 0 ∧ resume = fun (i : Iss) (_ : Nat) => i.w.tpc) ∨
      (mo = 1 ∧ resume = fun (i : Iss) (_ : Nat) => i.w.tpc + w32 (4 * bits i.w.tcause.toNat 11 9)) ∨
      (mo = 2 ∧ resume = fun (i : Iss) (l : Nat) => i.w.getV l i.f.a.toNat) →
    LaneDoesWhen .rte 1 0x12 (fun _ i => i.mo = mo ∧ i.w.handler ≠ 0 ∧ i.rteSplit = false) (fun s t i =>
      ∃ u w', Ended s u i i.w ∧ u.warp? i.core i.slot = some w' ∧ OnlyWarp s t i.core i.slot ∧
        t.warp? i.core i.slot = some (w'.rte i.act (resume i) i.f.live))) ∧
  LaneDoesWhen .rte 1 0x12 (fun _ i => i.w.handler ≠ 0 ∧ i.rteSplit = true) (fun s t i =>
    t = i.raise s Cls.diverge i.act (fun _ => 0) fun _ => i.act.setWidth 64) ∧
  LaneDoesWhen .rte 1 0x12 (fun _ i => i.w.handler = 0 ∧ i.act ≠ 0) (fun s t i =>
    t = i.raise s Cls.illegal i.act (fun _ => 0) fun _ => (encodeW0 1 0x12 i.f).setWidth 64) ∧
  (∀ (w : Warp) (act : Word) (resume : Nat → Word) (sp : Option Word), w.handler ≠ 0 → w.handler &&& w.live &&& ~~~act = 0 →
    w.lanes.length = 32 →
    (w.rte act resume sp).handler = 0 ∧ ∀ l, l < 32 → bitOf (act &&& w.handler &&& w.live) l = true →
      ((w.rte act resume sp).lane l).pc = resume l ∧ ((w.rte act resume sp).lane l).wait = .none) ∧
  (∀ (w : Warp) (act : Word) (resume : Nat → Word) (sp : Option Word) (k : Nat), w.handler ≠ 0 → w.lanes.length = 32 →
    bitOf (w.handler &&& w.live &&& ~~~act) k = true → (∀ r, (w.lane k).wait ≠ .rte r) →
    (w.rte act resume sp).handler = w.handler ∧ ∀ l, l < 32 → bitOf act l = true →
      ((w.rte act resume sp).lane l).pc = (w.lane l).pc ∧ ((w.rte act resume sp).lane l).wait = .rte (resume l))

/-! ### Counters and identification -/

/-- CTRRD reads CYCLE, TIME, INSTR with the reading instruction counted, and in lanes the trap registers; FPEVRD reads a
counter of the task, in a lane once its earlier float atomics are counted; GETID reads lane, warp slot, core, cluster, die
and partition in lanes, and the rank in a lead thread; each writes its destination and nothing else (R210, R212, R363). -/
def Obligations.SystemReads : Prop :=
  LaneDoesWhen .ctrrd 12 0x01 (fun _ i => i.f.a.toNat = 0x10) (fun s t i => Wrote s t i true fun _ => w64 (s.cycleOf i.core)) ∧
  LaneDoesWhen .ctrrd 12 0x01 (fun _ i => i.f.a.toNat = 0x11) (fun s t i => Wrote s t i true fun _ => s.time) ∧
  LaneDoesWhen .ctrrd 12 0x01 (fun _ i => i.f.a.toNat = 0x12) (fun s t i => Wrote s t i true fun _ => i.w.instr + 1) ∧
  LaneDoesWhen .ctrrd 12 0x01 (fun _ i => i.f.a.toNat = 0x18) (fun s t i =>
    Wrote s t i false fun _ => i.w.tcause.setWidth 64) ∧
  LaneDoesWhen .ctrrd 12 0x01 (fun _ i => i.f.a.toNat = 0x19) (fun s t i => Wrote s t i false fun _ => i.w.tpc.setWidth 64) ∧
  LaneDoesWhen .ctrrd 12 0x01 (fun _ i => i.f.a.toNat = 0x1A) (fun s t i =>
    Wrote s t i false fun _ => i.w.tlanes.setWidth 64) ∧
  LaneDoesWhen .ctrrd 12 0x01 (fun _ i => i.f.a.toNat = 0x1B) (fun s t i => Wrote s t i true fun l => (i.w.lane l).taddr) ∧
  LaneDoesWhen .ctrrd 12 0x01 (fun _ i => i.f.a.toNat = 0x1C) (fun s t i => Wrote s t i true fun l => (i.w.lane l).tdata) ∧
  LeadDoesWhen .ctrrd 12 0x01 (fun _ i => i.f.a.toNat = 0x10) (fun s t i => LeadWrote s t i (w64 (s.cycleOf i.core))) ∧
  LeadDoesWhen .ctrrd 12 0x01 (fun _ i => i.f.a.toNat = 0x11) (fun s t i => LeadWrote s t i s.time) ∧
  LeadDoesWhen .ctrrd 12 0x01 (fun _ i => i.f.a.toNat = 0x12) (fun s t i => LeadWrote s t i (i.c.lead.instr + 1)) ∧
  LaneDoesWhen .fpevrd 12 0x04 (fun s i => s.countsDue i = false) (fun s t i =>
    Wrote s t i true fun _ => s.fpCounter i.w.task i.f.a.toNat) ∧
  LeadDoes .fpevrd 12 0x04 (fun s t i => LeadWrote s t i (s.fpCounter i.c.task i.f.a.toNat)) ∧
  LaneDoesWhen .getid 11 0x03 (fun _ i => i.f.a.toNat = 0x00) (fun s t i => Wrote s t i false fun l => w64 l) ∧
  LaneDoesWhen .getid 11 0x03 (fun _ i => i.f.a.toNat = 0x01) (fun s t i => Wrote s t i false fun _ => w64 i.slot) ∧
  LaneDoesWhen .getid 11 0x03 (fun _ i => i.f.a.toNat = 0x09) (fun s t i => Wrote s t i false fun _ => w64 i.core) ∧
  LaneDoesWhen .getid 11 0x03 (fun _ i => i.f.a.toNat = 0x0A) (fun s t i => Wrote s t i false fun _ => w64 (i.core / 16)) ∧
  LaneDoesWhen .getid 11 0x03 (fun _ i => i.f.a.toNat = 0x0B) (fun s t i => Wrote s t i false fun _ => w64 (i.core / 1024)) ∧
  LaneDoesWhen .getid 11 0x03 (fun _ i => i.f.a.toNat = 0x0E) (fun s t i => Wrote s t i false fun l =>
    w64 (l % 2 ^ i.w.partLog * 256 + l / 2 ^ i.w.partLog * 8 + i.w.partLog)) ∧
  LeadDoesWhen .getid 11 0x03 (fun _ i => i.f.a.toNat = 0x04) (fun s t i => LeadWrote s t i (w64 i.c.rank))

/-! ### Steps -/

/-- For a turn of a sequencer, of a lead engine and of a second slot: when the words at the PC of the first group of the
first warp in order (the first lead thread in rotation that may issue) decode to an instruction i, and exec i goes on
without holding the group, the step is exec of i. Around it a sequencer's step lets groups and warps grow older and notes
the candidates for the second slot, and a lead engine's step notes the slot for the rotation. On core 0 of a cluster a
request that its Badger may perform comes first. Which turn comes is the schedule of the model (log 4) (R58, R142, R164,
R165, R359). -/
def Obligations.StepRunsDecoded : Prop :=
  (∀ (s v a u t : State) (core slot : Nat) (ks : List Nat) (r : List Turn) (w x : Warp) (g : Word) (gs ws : List Word) (i : Instr),
    s.pkg.tripped = false → s.second = none → s.inbox = .warp core :: r → v = { s.tick with inbox := r } →
    (core % 16 = 0 → v.badgerYields (core / 16) = true ∨ v.badgerNext (core / 16) = none) →
    v.warpOrder core = slot :: ks → s.warp? core slot = some w → w.groups = g :: gs →
    a = ({ v with badgers := if core % 16 = 0 then s.badgers.filter (· != core / 16) else s.badgers } : State).ageGroups core slot →
    (∀ h, (w.seconds gs).head? = some h → 224 ≤ w.ageOf h → a.clash core slot g h = false) →
    u = { a with second := if a.beside core slot g (w.seconds gs) = [] then none
                           else some (core, slot, a.beside core slot g (w.seconds gs)) } →
    u.warp? core slot = some x →
    u.fetch (u.laneWho core slot x (lowest g)) (u.codeOf x).1 (u.codeOf x).2.1 (u.codeOf x).2.2
      (x.lane (lowest g)).pc.toNat = .ok ws →
    decodeWords .lane x.crew.isNone ws = .ok i →
    exec i { u with cur := .lanes core slot g } = .next t → (t.warp? core slot).any (fun x : Warp => x.held g) = false →
    step s = .next (t.ageWarps core slot)) ∧
  (∀ (s u t : State) (core slot : Nat) (r : List Turn) (c : Crew) (ws : List Word) (i : Instr),
    s.pkg.tripped = false → s.second = none → s.inbox = .lead core :: r → u = { s.tick with inbox := r } →
    ((List.range 4).map fun n => (((look s.rot core).getD (15, 3)).2 + 1 + n) % 4).find? (u.leadMay core) = some slot →
    s.crew? core slot = some c →
    u.fetch (u.leadWho core slot c) c.code c.codeLo c.codeHi c.lead.pc.toNat = .ok ws →
    decodeWords .lead false ws = .ok i → exec i { u with cur := .lead core slot } = .next t →
    (t.crew? core slot).any (fun x : Crew => x.lead.wait == Wait.retry) = false →
    step s = .next { t with rot := put t.rot core (((look t.rot core).getD (15, 3)).1, slot) }) ∧
  (∀ (s u t : State) (core slot : Nat) (w : Warp) (g : Word) (gs ws : List Word) (i : Instr),
    s.pkg.tripped = false → s.second = some (core, slot, g :: gs) → u = { s.tick with second := none } →
    s.warp? core slot = some w → u.runs w.ctx = true → (lanesOf g).all w.may = true →
    u.fetch (u.laneWho core slot w (lowest g)) (u.codeOf w).1 (u.codeOf w).2.1 (u.codeOf w).2.2
      (w.lane (lowest g)).pc.toNat = .ok ws →
    decodeWords .lane w.crew.isNone ws = .ok i →
    exec i { u with cur := .lanes core slot g } = .next t → (t.warp? core slot).any (fun x : Warp => x.held g) = false →
    step s = .next t)

/-- Every state has a next state, whatever its memory holds and whatever is scheduled. A scheduled event acts on the state
in which the time of the step has passed, and the performance of a request at a Badger takes a cycle of core 0 of its
cluster, which a tenant warp that is ready has every second time (R359); with every clock stopped by a trip nothing but a
cold reset has an effect (R12). The schedule is the model's own (log 4). -/
def Obligations.StepsGoOn : Prop :=
  (∀ s : State, ∃ t, step s = .next t) ∧
  (∀ (s : State) (i : Instr) (r : List Turn), s.pkg.tripped = false → s.second = none → s.inbox = .event i :: r →
    isaOf i = none → (∀ id, i ≠ .atomicRequestPerform id) → step s = exec i { s.tick with inbox := r }) ∧
  (∀ (s v : State) (id : Nat) (r : List Turn), s.pkg.tripped = false → s.second = none →
    s.inbox = .event (.atomicRequestPerform id) :: r → v = { s.tick with inbox := r } →
    ((∀ a, look s.atoms id = some a → a.badger = none) → step s = exec (.atomicRequestPerform id) v) ∧
    (∀ a k, look s.atoms id = some a → a.badger = some k →
      (v.badgerYields k = true → step s = .next v) ∧
      (v.badgerYields k = false → ∀ (bs : List Nat) (t : State),
        bs = (if v.tenantReady (k * 16) then k :: s.badgers.filter (· != k) else s.badgers.filter (· != k)) →
        exec (.atomicRequestPerform id) { v with badgers := bs } = .next t → step s = .next (t.ageWarps (k * 16) 15)))) ∧
  (∀ s : State, s.pkg.tripped = true → (∀ r, s.inbox ≠ .event .coldReset :: r) →
    step s = .next { s with inbox := s.inbox.drop 1 }) ∧
  (∀ (s : State) (r : List Turn), s.pkg.tripped = true → s.inbox = .event .coldReset :: r →
    ∃ t, step s = .next t ∧ t.pkg.tripped = false)

/-- An instruction of either stream in an illegal form raises ILLEGAL with W0 before any effect; one whose register fields
name no register raises REGNUM with its detail; a lead instruction that finds a register empty raises EMPTY under policy 1
and is attempted again otherwise. Words that decode to nothing raise ILLEGAL with W0 in every lane of the group, and stop
the context of a lead thread (R70, R71, R82, R83). -/
def Obligations.EncodingFaults : Prop :=
  (∀ (n : Instr) (eng op : Nat) (f : Fields) (s : State) (i : Iss), isaOf n = some (eng, op, f) →
    s.laneIss eng op f = some i →
    ((f.formOk && (illegal? .lane i.w.crew.isNone eng op f).isNone) = false → exec n s = .next
      (i.raiseAll s Cls.illegal ((encodeW0 eng op f).setWidth 64))) ∧
    (∀ d, (f.formOk && (illegal? .lane i.w.crew.isNone eng op f).isNone) = true → regBad .lane eng op f i.w.regs = some d →
      exec n s = .next (i.raiseAll s Cls.regnum (w64 d)))) ∧
  (∀ (n : Instr) (eng op : Nat) (f : Fields) (s : State) (i : LIss), isaOf n = some (eng, op, f) →
    s.leadIss eng op f = some i →
    ((f.formOk && (illegal? .lead false eng op f).isNone) = false → exec n s = .next
      (s.trapLead i.core i.slot Cls.illegal ((encodeW0 eng op f).setWidth 64))) ∧
    (∀ d, (f.formOk && (illegal? .lead false eng op f).isNone) = true → regBad .lead eng op f 0 = some d →
      exec n s = .next (s.trapLead i.core i.slot Cls.regnum (w64 d))) ∧
    ((f.formOk && (illegal? .lead false eng op f).isNone) = true → regBad .lead eng op f 0 = none →
      (f.live.isSome && s.stopping (.gang i.c.gang)) = false →
      (∀ d, ready .lead eng op f i.c.lead.empty i.c.lead.hold = .empty d →
        exec n s = .next (s.trapLead i.core i.slot Cls.empty (w64 d))) ∧
      (ready .lead eng op f i.c.lead.empty i.c.lead.hold = .wait → exec n s = .next (i.retry s)))) ∧
  (∀ (s : State) (core slot : Nat) (w : Warp) (g : Word) (ws : List Word) (e : DecodeError), s.warp? core slot = some w →
    s.fetch (s.laneWho core slot w (lowest g)) (s.codeOf w).1 (s.codeOf w).2.1 (s.codeOf w).2.2
      (w.lane (lowest g)).pc.toNat = .ok ws → decodeWords .lane w.crew.isNone ws = .error e →
    ∃ src : Src, src.pc = (w.lane (lowest g)).pc ∧ s.fetchGroup core slot g = .idle (s.trap core slot src
      { cls := Cls.illegal, lanes := g, active := g, addr := fun _ => 0, data := fun _ => (ws.getD 0 0).setWidth 64 })) ∧
  (∀ (s : State) (core slot : Nat) (c : Crew) (ws : List Word) (e : DecodeError), s.crew? core slot = some c →
    s.fetch (s.leadWho core slot c) c.code c.codeLo c.codeHi c.lead.pc.toNat = .ok ws → decodeWords .lead false ws = .error e →
    s.fetchLead core slot = .idle (s.trapLead core slot Cls.illegal ((ws.getD 0 0).setWidth 64)))

/-! ### Memory and reset -/

/-- In a canonical memory bytes stored are read back in little-endian order; every other byte reads as before; the memory
stays canonical; besides memory a store changes the waits that it ends, the bytes of older stores that stand buffered, and
the mark of a guard word that it rewrites, and nothing else; two canonical memories that read alike are the same (R1, R122,
R370). The canonical form and the mark are the model's (log 3, log 57). -/
def Obligations.MemoryOfBytes : Prop :=
  (∀ (s : State) (pa n v : Nat), s.memOk → natOf ((s.store pa (bytesOf n v)).mem.readN pa n) = v % 2 ^ (8 * n)) ∧
  (∀ (s : State) (pa a : Nat) (bs : List Byte), a < pa ∨ pa + bs.length ≤ a → (s.store pa bs).mem.read a = s.mem.read a) ∧
  (∀ (s : State) (pa : Nat) (bs : List Byte), s.memOk → (s.store pa bs).memOk) ∧
  (∀ (s : State) (pa : Nat) (bs : List Byte),
    { s.store pa bs with mem := s.mem, warps := s.warps, images := s.images, wbuf := s.wbuf, syncs := s.syncs } = s ∧
    (s.store pa bs).wbuf.map (fun e => { e with bytes := [] }) = s.wbuf.map (fun e => { e with bytes := [] })) ∧
  (∀ (m n : Memory), m.wf = true → n.wf = true → (∀ a, m.read a = n.read a) → m = n)

/-- From every state whose device memory is in canonical form (addresses strictly rising, no byte listed that reads as an
unlisted one does), a step gives a state whose memory is: no instruction, operation or event, no save, scrub, isolation or
reset leaves a second value at an address. The form is the model's (log 3); State.reset has it (ResetValues). -/
def Obligations.MemoryStaysCanonical : Prop := ∀ s t : State, s.memOk → step s = .next t → t.memOk

/-- After reset BOOTSTAT, MBSTAT, ALARM and ERRCNT0..5 read 0, ALARMCFG its default, the clock class is 2.4 GHz, no die is
up, no virtual device, context, task, warp or crew exists, and nothing waits to leave the part. The ring pointers and TIME
are 0 by the choice of log 1, and memory lists nothing by log 3. -/
def Obligations.ResetValues : Prop :=
  State.reset.bootstat = 0 ∧ State.reset.pkg.cls = 2 ∧ State.reset.pkg.tripped = false ∧ State.reset.mbstat = 0 ∧
  State.reset.alarmReg = 0 ∧ State.reset.mb.alarmCfg = 0x00800020#32 ∧ State.reset.mb.mgw = 0 ∧ State.reset.mb.mgr = 0 ∧
  State.reset.mb.mgDrop = 0 ∧ State.reset.errcnt = List.replicate 6 0 ∧ State.reset.time = 0 ∧ State.reset.vds = [] ∧
  State.reset.ctxs = [] ∧ State.reset.tasks = [] ∧ State.reset.warps = [] ∧ State.reset.crews = [] ∧
  State.reset.out = [] ∧ State.reset.memOk ∧ State.reset.second = none ∧
  (∀ i ∈ State.reset.dies, i.up = false)

/-! ### The access unit -/

/-- Index, VALID, world, permissions, alignment, bounds, owner, world of the page, lost line and line check are judged in
this order, each failure with its class, and an access that passes all has the device address that translation gives (R226).
-/
def Obligations.HandleChecks : Prop :=
  ∀ (s : State) (who : Who) (h : Nat) (o : Int) (q : Ask),
    (4096 ≤ h → s.access who h o q = .fail 1 Cls.bounds false) ∧
    (h < 4096 → Entry.valid (s.entry who h) = false → s.access who h o q = .fail 2 Cls.perm false) ∧
    (h < 4096 → Entry.valid (s.entry who h) = true → Entry.secure (s.entry who h) ≠ who.secure →
      s.access who h o q = .fail 3 Cls.world false) ∧
    (h < 4096 → Entry.valid (s.entry who h) = true → Entry.secure (s.entry who h) = who.secure →
      Entry.combined (s.entry who h) = false ∨ q.ok4 (s.entry who h) = false → s.access who h o q = .fail 4 Cls.perm false) ∧
    (h < 4096 → Entry.valid (s.entry who h) = true → Entry.secure (s.entry who h) = who.secure →
      Entry.combined (s.entry who h) = true → q.ok4 (s.entry who h) = true →
      (o % (q.align : Int) ≠ 0 → s.access who h o q = .fail 5 Cls.misalign false) ∧
      (o % (q.align : Int) = 0 → o < 0 ∨ (Entry.length (s.entry who h) : Int) < o + q.w →
        s.access who h o q = .fail 6 Cls.bounds false) ∧
      (o % (q.align : Int) = 0 → 0 ≤ o → o + q.w ≤ (Entry.length (s.entry who h) : Int) → ∀ pa sec,
        s.locate who (s.entry who h) o.toNat q.acc = .ok (.dev pa) sec →
        (q.own = true → Entry.kind (s.entry who h) = 1 → s.mayTouch who (pa / 512) = false →
          s.access who h o q = .fail 7 Cls.owner false) ∧
        (q.own = false ∨ Entry.kind (s.entry who h) ≠ 1 ∨ s.mayTouch who (pa / 512) = true →
          (Entry.space (s.entry who h) ≤ 3 → sec ≠ Entry.secure (s.entry who h) →
            s.access who h o q = .fail 8 Cls.world false) ∧
          (3 < Entry.space (s.entry who h) ∨ sec = Entry.secure (s.entry who h) →
            (pa / 64 ∈ s.lost → s.access who h o q = .fail 11 Cls.coherenceLost false) ∧
            (pa / 64 ∉ s.lost → q.check = true → s.lineBad pa sec = true →
              s.access who h o q = .fail 10 Cls.dataCheck false) ∧
            (pa / 64 ∉ s.lost → q.check = false ∨ s.lineBad pa sec = false →
              s.access who h o q = .ok (.dev pa) sec)))))

/-- A load whose checks pass is a producer of the bytes that each active lane sees at its address, or of the bytes of the
tile, extended by MOD; nothing else changes but who holds the lines and grains. TQUERY writes the tile's parameters and
HQUERY a word of the handle entry (R150, R225, R230, R233, R234). -/
def Obligations.Loads : Prop :=
  (∀ pa, LaneDoesWhen .ld 5 0x00 (fun s i =>
      i.act ≠ 0 ∧ (Caller.warp i i.act).reaches s
        (fun l => { h := (Caller.warp i i.act).handle l, o := i.offset l, q := readAsk (accessWidth i.mo) }) pa ∧
      (ordered i.fn = true → (Caller.warp i i.act).acquired s = .ok s) ∧
      (Caller.warp i i.act).clear s pa (accessWidth i.mo))
    (fun s t i => ∃ u, Touched s u ∧
      Produced u t i (i.loaded fun l => s.seeN i.core (.lane i.core i.slot l) (pa l) (accessWidth i.mo)) [])) ∧
  (∀ pa, LeadDoesWhen .sld 0 0x12 (fun s i => (Caller.lead i).reaches s
        (fun l => { h := (Caller.lead i).handle l, o := i.offset, q := readAsk (accessWidth i.mo) }) (fun _ => pa) ∧
      (Caller.lead i).clear s (fun _ => pa) (accessWidth i.mo))
    (fun s t i => ∃ u, Touched s u ∧
      LeadProduced u t i (leadExtend i.mo (natOf (s.seeN i.core (.lead i.core i.slot) pa (accessWidth i.mo)))))) ∧
  (∀ at_ : Nat → Nat × Nat × Nat, LaneDoesWhen .ldt 5 0x02 (fun s i =>
      i.act ≠ 0 ∧ i.reachesTile s (i.tileAsk (accessWidth i.mo) (decide (bits i.fn 6 6 = 1)) true false) at_ ∧
      (ordered i.fn = true → (Caller.warp i i.act).acquired s = .ok s) ∧
      ∀ l ∈ lanesOf i.act, s.atomOnTile (.lane i.core i.slot l) (at_ l).1 (at_ l).2.1 (at_ l).2.2 (accessWidth i.mo) = false)
    (fun s t i => Produced (i.corrected s at_ (accessWidth i.mo)) t i
      (i.loaded fun l => s.tileBytes i.w l (at_ l).1 (at_ l).2.1 (at_ l).2.2 (accessWidth i.mo)) [])) ∧
  (∀ tile : Nat → Tile, LaneDoesWhen .tquery 5 0x06 (fun s i => ∀ l ∈ lanesOf i.act, ∃ k n,
      s.tileRef i.w.crew (i.w.getV l i.f.a.toNat) = .at k n (tile l))
    (fun s t i => Wrote s t i true fun l => (tile l).query)) ∧
  LaneDoesWhen .hquery 5 0x07 (fun _ i => ∀ l ∈ lanesOf i.act, (i.w.getV l i.f.a.toNat).toNat < 4096)
    (fun s t i => Wrote s t i true fun l => w64 (field256
      (s.entry (s.laneWho i.core i.slot i.w l) (i.w.getV l i.f.a.toNat).toNat) (64 * i.mo) 64)) ∧
  (∀ (mo : Nat) (bs : List Byte), (mo = 0 ∨ mo = 1 → loadWords mo bs = [lo32 (w64 (natOf bs % 2 ^ 32))]) ∧
    (mo = 2 → loadWords mo bs = [(BitVec.ofNat 16 (natOf bs)).signExtend 32]) ∧
    (mo = 3 → loadWords mo bs = [(BitVec.ofNat 16 (natOf bs)).setWidth 32]) ∧
    (mo = 4 → loadWords mo bs = [(BitVec.ofNat 8 (natOf bs)).signExtend 32]) ∧
    (mo = 5 → loadWords mo bs = [(BitVec.ofNat 8 (natOf bs)).setWidth 32]))

/-- A store whose checks pass puts the bytes of each active lane at its address, lane by lane in rising order, after what an
ordered form releases, and the thread goes past the instruction (R150, R225, R229, R230). -/
def Obligations.Stores : Prop :=
  (∀ (pa : Nat → Nat) (u : State), LaneDoesWhen .st 5 0x01 (fun s i =>
      i.act ≠ 0 ∧ (Caller.warp i i.act).reaches s
        (fun l => { h := (Caller.warp i i.act).handle l, o := i.offset l, q := writeAsk (accessWidth i.mo) }) pa ∧
      (if ordered i.fn then (Caller.warp i i.act).released s
       else (Caller.warp i i.act).storeGate (Caller.warp i i.act).handle s) = .ok u ∧
      (Caller.warp i i.act).clear u pa (accessWidth i.mo))
    (fun _ t i => t = i.done ((lanesOf i.act).foldl (fun s l => (Caller.warp i i.act).put1 s l
      ((Caller.warp i i.act).handle l) (i.offset l).toNat (.dev (pa l)) (i.dataBytes l (accessWidth i.mo))) u))) ∧
  (∀ (pa : Nat) (u : State), LeadDoesWhen .sst 0 0x13 (fun s i => (Caller.lead i).reaches s
        (fun l => { h := (Caller.lead i).handle l, o := i.offset, q := writeAsk (accessWidth i.mo) }) (fun _ => pa) ∧
      (if ordered i.fn then (Caller.lead i).released s else (Caller.lead i).storeGate (Caller.lead i).handle s) = .ok u ∧
      (Caller.lead i).clear u (fun _ => pa) (accessWidth i.mo))
    (fun _ t i => t = i.done ((Caller.lead i).put1 u 0 ((Caller.lead i).handle 0) i.offset.toNat (.dev pa)
      (bytesOf (accessWidth i.mo) i.kc.toNat)))) ∧
  (∀ (at_ : Nat → Nat × Nat × Nat) (u : State), LaneDoesWhen .stt 5 0x03 (fun s i =>
      i.act ≠ 0 ∧ i.reachesTile s (i.tileAsk (accessWidth i.mo) (decide (bits i.fn 6 6 = 1))
        (decide (accessWidth i.mo < 4)) true) at_ ∧ u.crews = s.crews ∧ u.gangs = s.gangs ∧
      (if ordered i.fn then (Caller.warp i i.act).released s = .ok u
       else u = s ∧ (Caller.warp i i.act).unfenced s = true) ∧
      ∀ l ∈ lanesOf i.act, u.atomOnTile (.lane i.core i.slot l) (at_ l).1 (at_ l).2.1 (at_ l).2.2 (accessWidth i.mo) = false)
    (fun _ t i => t = i.done ((lanesOf i.act).foldl (fun s l =>
        s.laneTile i.core i.slot l (at_ l).1 (at_ l).2.1 (at_ l).2.2 (i.dataBytes l (accessWidth i.mo)))
      (if accessWidth i.mo < 4 then i.corrected u at_ (accessWidth i.mo) else u))))

/-- To a COHERENT region a store stands pending, or in the buffer of a lease that the warp holds on the line; to an OWNED
region, in a canonical memory, its bytes are there at once, every other byte as before, and the grain is claimed; to a
GUARDED region it is buffered. A lane sees its own pending bytes where they lie, and it and every other agent see elsewhere
what was there before (R119, R122, R266, R276, R283). -/
def Obligations.StoresByKind : Prop :=
  (∀ (s : State) (i : Iss) (m : Word) (l h o pa : Nat) (bs : List Byte),
    (Entry.kind (s.entry ((Caller.warp i m).who s l) h) = 3 → s.leaseOf i.core i.slot (pa / 64) = none →
      (Caller.warp i m).put1 s l h o (.dev pa) bs = { s with pending := s.pending ++
        [{ core := i.core, agent := .lane i.core i.slot l, ctx := i.w.ctx, pa, bytes := bs }] }) ∧
    (∀ x, Entry.kind (s.entry ((Caller.warp i m).who s l) h) = 3 → s.leaseOf i.core i.slot (pa / 64) = some x →
      (Caller.warp i m).put1 s l h o (.dev pa) bs = { s with leaseBuf := s.leaseBuf ++ [(x.id, pa, bs)] }) ∧
    (Entry.kind (s.entry ((Caller.warp i m).who s l) h) = 1 → s.memOk →
      (∀ k, k < bs.length → ((Caller.warp i m).put1 s l h o (.dev pa) bs).mem.read (pa + k) = bs.getD k 0) ∧
      (∀ a, a < pa ∨ pa + bs.length ≤ a → ((Caller.warp i m).put1 s l h o (.dev pa) bs).mem.read a = s.mem.read a) ∧
      Owner.claimed (((Caller.warp i m).put1 s l h o (.dev pa) bs).ownerOf (pa / 512)) = true ∧
      (∀ g, g ≠ pa / 512 → ((Caller.warp i m).put1 s l h o (.dev pa) bs).ownerOf g = s.ownerOf g)) ∧
    (Entry.kind (s.entry ((Caller.warp i m).who s l) h) = 2 → ∃ e : WEntry,
      (Caller.warp i m).put1 s l h o (.dev pa) bs =
        { s with nextId := s.nextId + 1, wbuf := s.wbuf ++ [e] } ∧
      e.core = i.core ∧ e.agent = .lane i.core i.slot l ∧ e.loc = .dev pa ∧ e.bytes = bs ∧ e.die = false ∧ e.gang = false ∧
      e.passed = false ∧ e.held = none) ∧
    (∀ v ep x, Entry.kind (s.entry ((Caller.warp i m).who s l) h) = 2 → ∃ e : WEntry,
      (Caller.warp i m).put1 s l h o (.peer v ep x) bs = { s with nextId := s.nextId + 1, wbuf := s.wbuf ++ [e] } ∧
      e.loc = .peer v ep x ∧ e.bytes = bs ∧ e.passed = false ∧ e.held = none) ∧
    (∀ p x, (Caller.warp i m).put1 s l h o (.host p x) bs = s.emit (.hostWrite p x bs))) ∧
  (∀ (s : State) (core : Nat) (p : Pending) (b : Agent) (core' a : Nat),
    (∀ k, k < p.bytes.length → (∀ c j l, p.agent = .lane c j l → (s.warp? c j).all (fun w : Warp => w.leases == []) = true) →
      ({ s with pending := s.pending ++ [p] } : State).see core p.agent (p.pa + k) = p.bytes.getD k 0) ∧
    (a < p.pa ∨ p.pa + p.bytes.length ≤ a →
      ({ s with pending := s.pending ++ [p] } : State).see core p.agent a = s.see core p.agent a) ∧
    (b ≠ p.agent → ({ s with pending := s.pending ++ [p] } : State).see core' b a = s.see core' b a))

/-- Tiles are allocated lane by lane in rising order, the lowest free number of each, within the crew's quota, or the first
lane that fails faults; they are freed likewise; a lane of WAITA whose word meets the condition goes on and the others wait;
PREF changes nothing; a fence with nothing of its lanes unpublished is over at once, and otherwise begins their release
(R231, R232, R235 to R237). -/
def Obligations.TilesAndWaits : Prop :=
  (∀ k c c' ns, LaneDoesWhen .talloc 5 0x04 (fun s i => i.act ≠ 0 ∧ i.w.crew = some k ∧ look s.crews k = some c ∧
      c.allocAll i.mo (i.fn % 32) (fun l => (i.b32 l).toNat) (lanesOf i.act) = .ok (c', ns))
    (fun s t i => Wrote { s with crews := put s.crews k c' } t i false fun l =>
      w64 ((if i.mo = 2 then 2 ^ 12 + c.rank * 2 ^ 8 else 0) + count ns l))) ∧
  (∀ k c cls l, LaneDoesWhen .talloc 5 0x04 (fun s i => i.act ≠ 0 ∧ i.w.crew = some k ∧ look s.crews k = some c ∧
      c.allocAll i.mo (i.fn % 32) (fun l => (i.b32 l).toNat) (lanesOf i.act) = .error (l, cls))
    (fun s t i => t = i.raise s cls ((1 : Word) <<< l) (fun _ => 0) fun _ => 0)) ∧
  (∀ (c : Crew) (level fmt rows cols n : Nat) (c' : Crew), c.alloc level fmt rows cols = .ok (n, c') →
    1 ≤ rows ∧ rows ≤ 4096 ∧ 1 ≤ cols ∧ cols ≤ 4096 ∧ n < 256 ∧ look c.tiles n = none ∧
      (∀ m, m < n → (look c.tiles m).isSome) ∧
      c' = { c with tiles := put c.tiles n { level, fmt, rows, cols, bytes := [], bad := [], single := [] } } ∧
      c.charged (level == 1) + tileSize level fmt rows cols ≤ (if level = 1 then c.acc else c.scr)) ∧
  (∀ k c tile, LaneDoesWhen .tfree 5 0x05 (fun s i => i.act ≠ 0 ∧ i.w.crew = some k ∧ look s.crews k = some c ∧
      (∀ l ∈ lanesOf i.act, ∃ t, s.tileRef (some k) (i.w.getV l i.f.a.toNat) = .at k (tile l) t ∧
        (bits (i.w.getV l i.f.a.toNat).toNat 12 12 = 1 → bits (i.w.getV l i.f.a.toNat).toNat 11 8 = c.rank) ∧
        c.names (k, tile l) = false ∧ s.atomsOn k (tile l) = false))
    (fun s t i => t = i.done (((lanesOf i.act).map tile).foldl (fun s n => s.freeTile k n) s))) ∧
  (∀ at_ : Nat → Nat × Nat × Nat, LaneDoesWhen .waita 5 0x08 (fun s i =>
      i.act ≠ 0 ∧ i.reachesTile s (i.tileAsk 4 false true false) at_ ∧
      ∀ l ∈ lanesOf i.act, s.atomOnTile (.lane i.core i.slot l) (at_ l).1 (at_ l).2.1 (at_ l).2.2 4 = false)
    (fun s t i => OnlyWarp (i.corrected s at_ 4) t i.core i.slot ∧ ∃ w', t.warp? i.core i.slot = some w' ∧
      ∀ l, l < i.w.lanes.length → bitOf i.grp l = true → (w'.lane l).pc = if bitOf i.act l ∧
          waitaHolds i.mo (w32 (natOf (s.tileBytes i.w l (at_ l).1 (at_ l).2.1 (at_ l).2.2 4))) (i.w.getV l i.f.c.toNat) = false
        then (i.w.lane l).pc else (i.w.lane l).pc + BitVec.ofNat 32 i.f.len)) ∧
  LaneDoes .pref 5 0x09 (fun s t i => ∃ u : State, Touched s u ∧ u.owners = s.owners ∧ Ended u t i i.w) ∧
  (∀ u v, LaneDoesWhen .fence 5 0x0A (fun s i => i.act ≠ 0 ∧ (Caller.warp i i.act).completion s = .ok v ∧
      (if i.mo = 0 then (Caller.warp i i.act).acquired v else (Caller.warp i i.act).performed v) = .ok u ∧
      (i.mo = 0 ∨ (Caller.warp i i.act).unpublished u (fun _ => true) = []))
    (fun _ t i => t = i.done u)) ∧
  (∀ u v e es, LaneDoesWhen .fence 5 0x0A (fun s i => i.act ≠ 0 ∧ i.mo ≠ 0 ∧ (Caller.warp i i.act).completion s = .ok v ∧
      (Caller.warp i i.act).performed v = .ok u ∧ (Caller.warp i i.act).unpublished u (fun _ => true) = e :: es)
    (fun _ t i => t = i.done ((Caller.warp i i.act).release u .fence (max 4 (bits i.fn 5 3)) (e :: es) 0 0).2))

/-! ### The atomic service -/

/-- Each of the fifteen atomic instructions whose lanes pass the checks of R245 makes its requests at device addresses or
tile words, in rising order of lanes; a returning form is a producer that awaits the replies; memory is unchanged; the lanes
go past, but those of BWAIT wait (R244, R245, R247 to R253, R258). -/
def Obligations.AtomicRequests : Prop :=
  ∀ (c : Fields → Instr) (op : Nat), (c, op) ∈ ([(.aadd, 0x00), (.aand, 0x01), (.aor, 0x02), (.axor, 0x03), (.amin, 0x04),
      (.amax, 0x05), (.axchg, 0x06), (.acas, 0x07), (.ainc, 0x08), (.adec, 0x09), (.afadd, 0x0A), (.red, 0x0B),
      (.binit, 0x0C), (.arrive, 0x0D), (.bwait, 0x0E)] : List ((Fields → Instr) × Nat)) →
    (∀ (pa : Nat → Nat) (u : State), LaneDoesWhen c 6 op (fun s i =>
        i.act ≠ 0 ∧ bits i.fn 6 6 = 0 ∧ i.badCount = 0 ∧ (Caller.warp i i.act).reaches s i.atomRef pa ∧
        (Caller.warp i i.act).atomGate i s = .ok u ∧ u.cutOff i.core = false ∧ u.warp? i.core i.slot = some i.w ∧
        ∀ l ∈ lanesOf i.act, u.leaseOf i.core i.slot (pa l / 64) = none)
      (fun _ t i =>
        (i.atomBound u (Caller.warp i i.act) = [] → AtomsAsked u t i none fun l => .mem (.dev (pa l))) ∧
        (i.atomBound u (Caller.warp i i.act) ≠ [] →
          AtomsAsked { u with nextId := u.nextId + 1 } t i (some u.nextId) (fun l => .mem (.dev (pa l))) ∧
          ∃ r, look t.releases u.nextId = some r ∧ r.kind = .arrive ∧ r.entries = i.atomBound u (Caller.warp i i.act)))) ∧
    (∀ (at_ : Nat → Nat × Nat × Nat) (u : State), LaneDoesWhen c 6 op (fun s i =>
        i.act ≠ 0 ∧ bits i.fn 6 6 = 1 ∧ i.badCount = 0 ∧
        i.reachesTile s (i.tileAsk (atomWidth i.atomOp i.mo) false true true) at_ ∧
        (Caller.warp i i.act).atomGate i s = .ok u ∧ u.crews = s.crews ∧ u.gangs = s.gangs ∧
        u.warp? i.core i.slot = some i.w)
      (fun _ t i => AtomsAsked u t i none fun l => .tile (at_ l).1 (at_ l).2.1 (at_ l).2.2))

/-- The new value of AADD to ADEC at 32 bits and AADD to ACAS at 64 bits and of AFADD; a compare that fails or would write
the old value writes nothing. In a canonical memory BINIT leaves PHASE, EXPECTED twice and FLAGS 1; an arrival of all that
is pending completes the phase, of less lowers the count, of more, or at an object without FLAGS 1, changes nothing; PHASE
has passed a value when it is 1 to 2^31 - 1 beyond it (R247, R252, R253). -/
def Obligations.AtomicValues : Prop :=
  (∀ a b n : Word, ∀ mo, mo = 0 ∨ mo = 1 → ∀ op, op ≤ 9 →
    (atomValue op mo 0 a.toNat b.toNat n.toNat).1 = match op with
      | 0 => some (a + b).toNat | 1 => some (a &&& b).toNat | 2 => some (a ||| b).toNat | 3 => some (a ^^^ b).toNat
      | 4 => some (if mo = 0 then (if a.toInt ≤ b.toInt then a else b) else (if a.toNat ≤ b.toNat then a else b)).toNat
      | 5 => some (if mo = 0 then (if a.toInt ≤ b.toInt then b else a) else (if a.toNat ≤ b.toNat then b else a)).toNat
      | 6 => some b.toNat
      | 7 => if a = b ∧ n ≠ a then some n.toNat else none
      | 8 => some (if b.toNat ≤ a.toNat then (0 : Word) else a + 1).toNat
      | _ => some (if a = 0 ∨ b.toNat < a.toNat then b else a - 1).toNat) ∧
  (∀ a b n : DWord, ∀ mo, mo = 6 ∨ mo = 7 → ∀ op, op ≤ 7 →
    (atomValue op mo 0 a.toNat b.toNat n.toNat).1 = match op with
      | 0 => some (a + b).toNat | 1 => some (a &&& b).toNat | 2 => some (a ||| b).toNat | 3 => some (a ^^^ b).toNat
      | 4 => some (if mo = 6 then (if a.toInt ≤ b.toInt then a else b) else (if a.toNat ≤ b.toNat then a else b)).toNat
      | 5 => some (if mo = 6 then (if a.toInt ≤ b.toInt then b else a) else (if a.toNat ≤ b.toNat then b else a)).toNat
      | 6 => some b.toNat
      | _ => if a = b ∧ n ≠ a then some n.toNat else none) ∧
  (∀ (a b : Word) (rnd n : Nat), atomValue 0x0A 0 rnd a.toNat b.toNat n =
    (some (deliverIn 0 (modeOf rnd) ((scalarFlt 0 a).isInf || (scalarFlt 0 b).isInf)
      (Val.add (modeOf rnd).down (scalarFlt 0 a) (scalarFlt 0 b))).1,
     (deliverIn 0 (modeOf rnd) ((scalarFlt 0 a).isInf || (scalarFlt 0 b).isInf)
      (Val.add (modeOf rnd).down (scalarFlt 0 a) (scalarFlt 0 b))).2)) ∧
  (∀ (s : State) (id pa : Nat) (a : AtomReq), a.place = .mem (.dev pa) → s.memOk →
    (s.performBinit id a).mem.readN pa 16 = barrierBytes (a.operand.getD 1 0).toNat (a.operand.headD 0).toNat
      (a.operand.headD 0).toNat 1) ∧
  (∀ (s : State) (id pa n ph ex pe : Nat) (a : AtomReq), a.place = .mem (.dev pa) → s.memOk → (a.operand.headD 0).toNat = n →
    ph < 2 ^ 32 → ex < 2 ^ 32 → pe < 2 ^ 32 → s.mem.readN pa 16 = barrierBytes ph ex pe 1 →
    (pe = n → (s.performArrive id a).mem.readN pa 16 = barrierBytes ((ph + 1) % 2 ^ 32) ex ex 1) ∧
    (n < pe → (s.performArrive id a).mem.readN pa 16 = barrierBytes ph ex (pe - n) 1) ∧
    (pe < n → (s.performArrive id a).mem = s.mem)) ∧
  (∀ (s : State) (id pa fl : Nat) (a : AtomReq), a.place = .mem (.dev pa) → (barrierOf (s.mem.readN pa 16)).2.2.2 = fl →
    fl ≠ 1 → (s.performArrive id a).mem = s.mem) ∧
  (∀ phase ph : Nat, phase < 2 ^ 32 → ph < 2 ^ 32 →
    (passed phase ph = true ↔ ∃ d, 1 ≤ d ∧ d ≤ 2 ^ 31 - 1 ∧ (ph + d) % 2 ^ 32 = phase))

/-- A request that nothing comes before and no lease holds up, at an access unit or at a Badger whose turn is its VD's: a
value atomic leaves the new value in its bytes, every other byte as before, and has the old one as its reply; BINIT, ARRIVE
and BWAIT act on the object. On a line under a lease it is set aside. A reply that has come is delivered; a waiter that
found the table full asks again; a request that may leave its lane is accepted when an entry is free (R247, R249, R252 to
R258). -/
def Obligations.AtomicsPerformed : Prop :=
  (∀ (s u : State) (id : Nat) (a : AtomReq), look s.atoms id = some a → a.ready = true → s.atomBehind id a = false →
    s.underLease a = false → (∀ pa, a.place = .mem (.dev pa) → pa / 64 ∉ s.lost) →
    (a.badger = none ∧ u = s ∨ ∃ b n, a.badger = some b ∧ s.drrTurn b = some (s.vdOf a.ctx, n) ∧
      u = { s with drr := put s.drr b (s.vdOf a.ctx, n - 1) }) → u.ownFirst a = u → u.poisoned a = false →
    (∀ pa x p, a.op ≤ 0x09 → a.place = .mem (.dev pa) → s.memOk → a.prod = some p →
      (atomValue a.op a.mod (bits a.fn 2 0) (natOf (s.mem.readN pa (atomWidth a.op a.mod)))
        (a.operand.headD 0).toNat (a.operand.getD 1 0).toNat).1 = some x →
      ∃ t, exec (.atomicRequestPerform id) s = .next t ∧
        t.mem.readN pa (atomWidth a.op a.mod) = bytesOf (atomWidth a.op a.mod) x ∧
        (∀ b, b < pa ∨ pa + atomWidth a.op a.mod ≤ b → t.mem.read b = s.mem.read b) ∧
        look t.atoms id = some { a with reply := some (wordsOf (s.mem.readN pa (atomWidth a.op a.mod))), retry := false }) ∧
    (a.op = 0x0C → exec (.atomicRequestPerform id) s = .next ((u.takePlace a).performBinit id a)) ∧
    (a.op = 0x0D → exec (.atomicRequestPerform id) s = .next ((u.takePlace a).performArrive id a)) ∧
    (a.op = 0x0E → exec (.atomicRequestPerform id) s = .next ((u.takePlace a).performBwait id a))) ∧
  (∀ (s : State) (id : Nat) (a : AtomReq), look s.atoms id = some a → a.ready = true → s.atomBehind id a = false →
    s.underLease a = true →
    exec (.atomicRequestPerform id) s = .next { s with atoms := put s.atoms id { a with aside := true } }) ∧
  (∀ (s : State) (id : Nat) (a : AtomReq) (v : List Word), look s.atoms id = some a → a.reply = some v →
    exec (.replyArrival id) s = .next (s.deliverAtom id a v)) ∧
  (∀ (s : State) (id : Nat) (a : AtomReq), look s.atoms id = some a → a.retry = true →
    exec (.bwaitRetry id) s = .next (s.accept id { a with retry := false })) ∧
  (∀ (s : State) (id b : Nat) (a : AtomReq), look s.atoms id = some a → s.mayLeave id a = true →
    s.badgerOf a = some b → s.creditFree (s.vdOf a.ctx) b = true → s.queuedAhead id a = false →
    exec (.badgerCreditRelease id) s = .next { s with
      nextId := s.nextId + 1, atoms := put s.atoms id { a with accepted := true, order := s.nextId, badger := some b } })

/-! ### The home engine -/

/-- When their checks pass at device addresses: GACQ and GTRY make a guard request and their lanes wait for its answer; GREL
makes a release of the writes bound to its guard; PUBLISH performs the writes of its range at home, or ends at once; DISCARD
cancels those that nothing has released; OWNQ reads the owner; MOVE disclaims grains or gives them to a crew, and no other
grain changes; LEASE asks for its lines and waits; UNLEASE stores what the granted leases buffered when every one is held,
and gives its status (R266 to R272, R278, R279, R285, R287). -/
def Obligations.HomeInstructions : Prop :=
  (∀ (pa : Nat) (u : State) (c : Fields → Instr) (op : Nat) (once : Bool),
      (c, op, once) ∈ ([(.gacq, 0x02, false), (.gtry, 0x03, true)] : List ((Fields → Instr) × Nat × Bool)) →
    (∀ w, LaneDoesWhen c 7 op (fun s i => i.act ≠ 0 ∧ i.elect.reaches s i.elect.guardRef (fun _ => pa) ∧
        i.elect.acquired s = .ok s ∧ i.elect.leasedOut s pa = false ∧ s.cutOff i.core = false ∧
        s.fenced (.lane i.core i.slot (lowest i.act)) = false ∧
        u = (s.performWhere fun p => p.agent == .lane i.core i.slot (lowest i.act) && p.pa / 64 == pa / 64) ∧
        u.warp? i.core i.slot = some w)
      (fun _ t i => ∃ (v : State) (w' : Warp), t = v.serveGuard pa ∧ v.nextId = u.nextId + 1 ∧
        v.guards = put u.guards u.nextId { thread := .warp i.core i.slot, lane := lowest i.act, group := i.act,
                                           ctx := i.w.ctx, pa, shared := i.mo == 1, once, dest := i.f.d.toNat,
                                           unqueued := !once && decide (8192 ≤ u.guardsAt (homeHub pa)), reply := none } ∧
        v.warp? i.core i.slot = some w' ∧ i.Stands w w' i.act (.reply u.nextId) ∧
        (∀ k, k ≠ warpKey i.core i.slot → look v.warps k = look u.warps k) ∧
        { v with guards := u.guards, warps := u.warps, nextId := u.nextId } = u)) ∧
    (∀ k, LeadDoesWhen c 7 op (fun s i => (Caller.lead i).reaches s (Caller.lead i).guardRef (fun _ => pa) ∧
        (Caller.lead i).acquired s = .ok s ∧ (Caller.lead i).leasedOut s pa = false ∧ s.cutOff i.core = false ∧
        s.fenced (.lead i.core i.slot) = false ∧
        u = (s.performWhere fun p => p.agent == .lead i.core i.slot && p.pa / 64 == pa / 64) ∧
        u.crew? i.core i.slot = some k)
      (fun _ t i => ∃ v : State, t = v.serveGuard pa ∧ v.nextId = u.nextId + 1 ∧
        v.guards = put u.guards u.nextId { thread := .lead i.core i.slot, lane := 0, group := 0, ctx := i.c.ctx, pa,
                                           shared := i.mo == 1, once, dest := i.f.d.toNat,
                                           unqueued := !once && decide (8192 ≤ u.guardsAt (homeHub pa)), reply := none } ∧
        v.crew? i.core i.slot = some { k with lead := i.stands k.lead (.reply u.nextId) } ∧
        (∀ n, n ≠ crewKey i.core i.slot → look v.crews n = look u.crews n) ∧
        { v with guards := u.guards, crews := u.crews, nextId := u.nextId } = u))) ∧
  (∀ (pa : Nat) (u : State) (w : Warp), LaneDoesWhen .grel 7 0x04 (fun s i => i.act ≠ 0 ∧
      i.elect.reaches s i.elect.guardRef (fun _ => pa) ∧ i.elect.atPeer s (i.elect.handle (lowest i.act)) = false ∧
      i.elect.outstanding s = [] ∧ i.elect.performed s = .ok u ∧ u.warp? i.core i.slot = some w)
    (fun _ t i => Ended { u with
      nextId := u.nextId + 1, wbuf := (u.passWrites i.core).wbuf,
      releases := put u.releases u.nextId
        (i.elect.grelOf u pa (.lane i.core i.slot (lowest i.act)) i.act (lowest i.act)) } t i w)) ∧
  (∀ (pa : Nat) (u : State) (k : Crew), LeadDoesWhen .grel 7 0x04 (fun s i =>
      (Caller.lead i).reaches s (Caller.lead i).guardRef (fun _ => pa) ∧
      (Caller.lead i).atPeer s ((Caller.lead i).handle 0) = false ∧
      (Caller.lead i).outstanding s = [] ∧ (Caller.lead i).performed s = .ok u ∧ u.crew? i.core i.slot = some k)
    (fun _ t i => OnlyCrew { u with
        nextId := u.nextId + 1, wbuf := (u.passWrites i.core).wbuf,
        releases := put u.releases u.nextId ((Caller.lead i).grelOf u pa (.lead i.core i.slot) 0 0) } t i.core i.slot ∧
      t.crew? i.core i.slot = some { k with lead := k.lead.past i.f })) ∧
  (∀ (pa : Nat) (sec : Bool) (lo hi : Nat), LaneDoesWhen .publish 7 0x07 (fun s i => i.act ≠ 0 ∧
      i.elect.rangeOut s (lowest i.act) (i.elect.homeOff (lowest i.act)) 1 publishOk = .ok (.dev pa) sec ∧
      lo = Entry.base (s.entry (i.elect.who s (lowest i.act)) (i.elect.handle (lowest i.act))) +
        (i.elect.homeOff (lowest i.act)).toNat ∧ hi = lo + i.elect.len (lowest i.act) ∧
      (Entry.kind (s.entry (i.elect.who s (lowest i.act)) (i.elect.handle (lowest i.act))) ≠ 2 ∨
        Entry.space (s.entry (i.elect.who s (lowest i.act)) (i.elect.handle (lowest i.act))) ≠ 1 ∧
          (i.elect.scope 4 ≤ 1 ∨ s.unpublishedIn i.core i.w.ctx lo hi = [])))
    (fun s t i => Ended s t i i.w)) ∧
  (∀ (pa : Nat) (sec : Bool) (lo hi : Nat) (at_ : WEntry → Nat), LaneDoesWhen .publish 7 0x07 (fun s i => i.act ≠ 0 ∧
      i.elect.rangeOut s (lowest i.act) (i.elect.homeOff (lowest i.act)) 1 publishOk = .ok (.dev pa) sec ∧
      lo = Entry.base (s.entry (i.elect.who s (lowest i.act)) (i.elect.handle (lowest i.act))) +
        (i.elect.homeOff (lowest i.act)).toNat ∧ hi = lo + i.elect.len (lowest i.act) ∧
      Entry.kind (s.entry (i.elect.who s (lowest i.act)) (i.elect.handle (lowest i.act))) = 2 ∧
      Entry.space (s.entry (i.elect.who s (lowest i.act)) (i.elect.handle (lowest i.act))) ≠ 1 ∧ 2 ≤ i.elect.scope 4 ∧
      ∀ e ∈ s.unpublishedIn i.core i.w.ctx lo hi, s.translate (i.elect.who s (lowest i.act)) e.va 2 =
        .ok (.dev (at_ e)) (i.elect.who s (lowest i.act)).secure)
    (fun s t i => t = i.done ((s.unpublishedIn i.core i.w.ctx lo hi).foldl (fun s e =>
      if i.elect.scope 4 ≤ 3 then s.keepBelow e none true (.dev (at_ e)) else s.publishAt e (at_ e)) s))) ∧
  (∀ (pa : Nat) (sec : Bool) (lo hi : Nat), LeadDoesWhen .publish 7 0x07 (fun s i =>
      (Caller.lead i).rangeOut s 0 ((Caller.lead i).homeOff 0) 1 publishOk = .ok (.dev pa) sec ∧
      lo = Entry.base (s.entry ((Caller.lead i).who s 0) ((Caller.lead i).handle 0)) + ((Caller.lead i).homeOff 0).toNat ∧
      hi = lo + (Caller.lead i).len 0 ∧
      (Entry.kind (s.entry ((Caller.lead i).who s 0) ((Caller.lead i).handle 0)) ≠ 2 ∨
        Entry.space (s.entry ((Caller.lead i).who s 0) ((Caller.lead i).handle 0)) ≠ 1 ∧
          ((Caller.lead i).scope 4 ≤ 1 ∨ s.unpublishedIn i.core i.c.ctx lo hi = [])))
    (fun s t i => LeadBecame s t i (i.c.lead.past i.f))) ∧
  (∀ (pa : Nat) (sec : Bool) (lo hi : Nat) (at_ : WEntry → Nat), LeadDoesWhen .publish 7 0x07 (fun s i =>
      (Caller.lead i).rangeOut s 0 ((Caller.lead i).homeOff 0) 1 publishOk = .ok (.dev pa) sec ∧
      lo = Entry.base (s.entry ((Caller.lead i).who s 0) ((Caller.lead i).handle 0)) + ((Caller.lead i).homeOff 0).toNat ∧
      hi = lo + (Caller.lead i).len 0 ∧ Entry.kind (s.entry ((Caller.lead i).who s 0) ((Caller.lead i).handle 0)) = 2 ∧
      Entry.space (s.entry ((Caller.lead i).who s 0) ((Caller.lead i).handle 0)) ≠ 1 ∧ 2 ≤ (Caller.lead i).scope 4 ∧
      ∀ e ∈ s.unpublishedIn i.core i.c.ctx lo hi, s.translate ((Caller.lead i).who s 0) e.va 2 =
        .ok (.dev (at_ e)) ((Caller.lead i).who s 0).secure)
    (fun s t i => t = i.done ((s.unpublishedIn i.core i.c.ctx lo hi).foldl (fun s e =>
      if (Caller.lead i).scope 4 ≤ 3 then s.keepBelow e none true (.dev (at_ e)) else s.publishAt e (at_ e)) s))) ∧
  (∀ (s : State) (e : WEntry) (pa : Nat), s.memOk →
    (∀ x ∈ (s.publishAt e pa).wbuf, x.id ≠ e.id) ∧
    (∀ n, n < e.bytes.length → (s.publishAt e pa).mem.read (pa + n) = e.bytes.getD n 0) ∧
    ∀ a, a < pa ∨ pa + e.bytes.length ≤ a → (s.publishAt e pa).mem.read a = s.mem.read a) ∧
  (∀ (pa : Nat) (sec : Bool) (b : BitVec 256) (o n : Nat) (es : List WEntry), LaneDoesWhen .discard 7 0x08 (fun s i => i.act ≠ 0 ∧
      (i.elect.rangeOut s (lowest i.act) (i.elect.homeOff (lowest i.act)) 1 publishOk).unparked = .ok (.dev pa) sec ∧
      b = s.entry (i.elect.who s (lowest i.act)) (i.elect.handle (lowest i.act)) ∧
      o = Entry.base b + (i.elect.homeOff (lowest i.act)).toNat ∧ n = i.elect.len (lowest i.act) ∧
      es = if Entry.space b = 1 then s.unpublishedFor i.core i.w.ctx (Entry.endpt b) (o / 64 * 64) ((o + n + 63) / 64 * 64)
        else s.unpublishedIn i.core i.w.ctx (o / 64 * 64) ((o + n + 63) / 64 * 64))
    (fun s t i =>
      (Entry.kind b ≠ 2 → Ended (s.dropCopies i.core i.w.ctx o (o + n)) t i i.w) ∧
      (Entry.kind b = 2 → Ended (({ s with wbuf := s.wbuf.filter fun e =>
          !(((es.filter fun e => !s.outOfReach e).map (·.id)).contains e.id) } : State).dropCopies i.core i.w.ctx
        (o / 64 * 64) ((o + n + 63) / 64 * 64)) t i i.w))) ∧
  (∀ (pa : Nat) (sec : Bool) (b : BitVec 256) (o n : Nat) (es : List WEntry), LeadDoesWhen .discard 7 0x08 (fun s i =>
      ((Caller.lead i).rangeOut s 0 ((Caller.lead i).homeOff 0) 1 publishOk).unparked = .ok (.dev pa) sec ∧
      b = s.entry ((Caller.lead i).who s 0) ((Caller.lead i).handle 0) ∧
      o = Entry.base b + ((Caller.lead i).homeOff 0).toNat ∧ n = (Caller.lead i).len 0 ∧
      es = if Entry.space b = 1 then s.unpublishedFor i.core i.c.ctx (Entry.endpt b) (o / 64 * 64) ((o + n + 63) / 64 * 64)
        else s.unpublishedIn i.core i.c.ctx (o / 64 * 64) ((o + n + 63) / 64 * 64))
    (fun s t i =>
      (Entry.kind b ≠ 2 → LeadBecame (s.dropCopies i.core i.c.ctx o (o + n)) t i (i.c.lead.past i.f)) ∧
      (Entry.kind b = 2 → LeadBecame (({ s with wbuf := s.wbuf.filter fun e =>
          !(((es.filter fun e => !s.outOfReach e).map (·.id)).contains e.id) } : State).dropCopies i.core i.c.ctx
        (o / 64 * 64) ((o + n + 63) / 64 * 64)) t i (i.c.lead.past i.f)))) ∧
  (∀ (s : State) (core ctx lo hi : Nat), { s.dropCopies core ctx lo hi with dieDir := s.dieDir } = s) ∧
  (∀ pa : Nat → Nat, LaneDoesWhen .ownq 7 0x01 (fun s i => i.act ≠ 0 ∧ (Caller.warp i i.act).reaches s
      (fun l => { h := (Caller.warp i i.act).handle l, o := (Caller.warp i i.act).homeOff l,
                  q := { w := 1, align := 1, acc := 1, ok4 := ownqOk, own := false } }) pa)
    (fun s t i => Wrote s t i true fun l => ownqPair (s.ownerOf (pa l / 512)) i.core i.w.ctx)) ∧
  (∀ (e : DWord) (core ctx : Nat), (ownqPair e core ctx).getLsbD 31 = Owner.claimed e ∧
    (ownqPair e core ctx).getLsbD 30 = Owner.names e core ctx ∧ (ownqPair e core ctx).getLsbD 29 = Owner.parked e ∧
    bits (ownqPair e core ctx).toNat 11 0 = Owner.core e ∧ bits (ownqPair e core ctx).toNat 13 12 = Owner.slot e ∧
    bits (ownqPair e core ctx).toNat 63 32 = Owner.moves e) ∧
  (∀ (u : State) (w : Warp) (target : Option Nat), LaneDoesWhen .move 7 0x00 (fun s i => i.act ≠ 0 ∧
      (∀ l ∈ lanesOf i.act, ∃ pa sec, (Caller.warp i i.act).moveOut s l = .ok (.dev pa) sec) ∧
      (Caller.warp i i.act).performed s = .ok u ∧ u.warp? i.core i.slot = some w ∧
      (i.f.simm < 0 ∧ target = none ∨
        0 ≤ i.f.simm ∧ ∃ k, target = some k ∧ k < 2 ^ 14 ∧ u.crewRank i.w.crew i.f.simm.toNat = target) ∧
      (∀ l ∈ lanesOf i.act, ∀ g ∈ (Caller.warp i i.act).moveGrains u l,
        (Owner.claimed (u.ownerOf g.1) = true → Owner.mine (u.ownerOf g.1) i.core i.w.ctx = true) ∧
        ∀ l' ∈ lanesOf i.act, l' ≠ l → ∀ g' ∈ (Caller.warp i i.act).moveGrains u l', g'.1 ≠ g.1))
    (fun _ t i => ∃ x : State, Ended x t i w ∧ { x with owners := u.owners, wbuf := u.wbuf } = u ∧
      x.wbuf = (u.passWrites i.core).wbuf ∧
      (∀ l ∈ lanesOf i.act, ∀ g ∈ (Caller.warp i i.act).moveGrains u l,
        Owner.claimed (x.ownerOf g.1) = target.isSome ∧
        ∀ k, target = some k → Owner.core (x.ownerOf g.1) = k / 4 ∧ Owner.slot (x.ownerOf g.1) = k % 4) ∧
      ∀ g, (∀ l ∈ lanesOf i.act, ∀ e ∈ (Caller.warp i i.act).moveGrains u l, e.1 ≠ g) → x.ownerOf g = u.ownerOf g)) ∧
  (∀ (pa : Nat → Nat) (ls : List (Nat × Nat)), LaneDoesWhen .lease 7 0x05 (fun s i => i.act ≠ 0 ∧
      (Caller.warp i i.act).acquired s = .ok s ∧ (Caller.warp i i.act).reaches s
        (fun l => { h := (Caller.warp i i.act).handle l, o := (Caller.warp i i.act).off32 l,
                    q := { w := 64, align := 64, acc := 3, ok4 := leaseOk, own := false } }) pa ∧
      ls = leaseLines ((lanesOf i.act).map fun l => (Entry.base (s.entry ((Caller.warp i i.act).who s l)
        ((Caller.warp i i.act).handle l)) + (Caller.warp i i.act).off32 l, pa l)) ∧
      i.w.leases.length + ls.length ≤ 2 ∧ ∀ x ∈ i.w.leases, ∀ y ∈ ls, x.va < y.1)
    (fun s t i => ∀ xs : List Lease, xs = mapIx (fun n (x : Nat × Nat) =>
        { id := s.nextId + n, line := x.2 / 64, loc := .dev x.2, va := x.1, core := i.core, slot := i.slot,
          hold := i.f.imm.toNat, granted := false, ended := none, start := 0 }) 0 ls →
      OnlyWarp { s with nextId := s.nextId + ls.length, leaseQ := s.leaseQ ++ xs.take 1 } t i.core i.slot ∧
      ∃ w', t.warp? i.core i.slot = some w' ∧
        i.Stands { i.w with leases := i.w.leases ++ xs } w' i.act (.reply (s.nextId + ls.length - 1)))) ∧
  (∀ va pa : Nat, leaseLines [(va, pa)] = [(va / 64 * 64, pa / 64 * 64)]) ∧
  LaneDoesWhen .unlease 7 0x06 (fun s i => i.act ≠ 0 ∧
      (s.unleaseStatus i.w = 0 → s.warpFence i.core i.slot = none)) (fun s t i => ∀ u : State,
    u = (if s.unleaseStatus i.w = 0 then s.commitLeases i.core i.slot i.w.granted else s) →
    t = i.commit ((u.onWarp i.core i.slot fun w => { w with leases := w.leases.filter fun x => !x.granted }).tidyLeases)
      (fun _ x => x.setV i.f.d.toNat (w32 (s.unleaseStatus i.w)))) ∧
  (∀ (s : State) (core slot id pa : Nat) (bs : List Byte) (ls : List Lease), s.memOk → s.pending = [] →
    s.leaseBuf = [(id, pa, bs)] → (∃ x ∈ ls, x.id = id) →
    (∀ n, n < bs.length → (s.commitLeases core slot ls).mem.read (pa + n) = bs.getD n 0) ∧
    ∀ a, a < pa ∨ pa + bs.length ≤ a → (s.commitLeases core slot ls).mem.read a = s.mem.read a) ∧
  (∀ (s : State) (w : Warp), (w.granted = [] → s.unleaseStatus w = 3) ∧
    (w.granted ≠ [] → (∀ x ∈ w.granted, s.holds x = true) → s.unleaseStatus w = 0) ∧
    ((∃ x ∈ w.granted, s.holds x = false) → (∃ x ∈ w.granted, x.ended = some 2) → s.unleaseStatus w = 2) ∧
    ((∃ x ∈ w.granted, s.holds x = false) → (∀ x ∈ w.granted, x.ended ≠ some 2) → s.unleaseStatus w = 1))

/-- A request on a free guard word is granted, shared ones together; otherwise it waits, or is answered 1 when it asks once,
and 2 when reserved bits are set. A request that found the store full is made again; an answer is delivered; a release
writes its entries back and then takes effect, and ends without effect when its context does not run; held writes are forced
out; a pending store, in a canonical memory, puts its bytes and no others; a lease is granted when the line is free, and
ends when its cycles are over (R271 to R277, R280, R283, R285, R288). A word whose release could not be published whole is
granted to nobody by the choice of log 57. -/
def Obligations.HomeEvents : Prop :=
  (∀ (s : State) (pa id : Nat) (r : GuardReq), bits (s.guardWord pa) 62 32 = 0 → s.mustPublish pa r.thread = false →
    (s.syncRec pa).stuck = false →
    (r.shared = false → s.guardWord pa = 0 → State.serveList pa [(id, r)] false s =
      (s.homeWrite pa (bytesOf 8 (2 ^ 63))).replyGuard id 0) ∧
    (r.shared = true → s.guardWord pa < 2 ^ 32 - 1 → State.serveList pa [(id, r)] false s =
      (s.homeWrite pa (bytesOf 8 (s.guardWord pa + 1))).replyGuard id 0) ∧
    (grantable r.shared (s.guardWord pa) = false → r.once = true → State.serveList pa [(id, r)] false s = s.replyGuard id 1) ∧
    (grantable r.shared (s.guardWord pa) = false → r.once = false → State.serveList pa [(id, r)] false s = s)) ∧
  (∀ (s : State) (pa id : Nat) (r : GuardReq), bits (s.guardWord pa) 62 32 ≠ 0 →
    State.serveList pa [(id, r)] false s = s.replyGuard id 2) ∧
  (∀ (s : State) (pa id : Nat) (r : GuardReq), bits (s.guardWord pa) 62 32 = 0 → (s.syncRec pa).stuck = true →
    State.serveList pa [(id, r)] false s = if r.once then s.replyGuard id 1 else s) ∧
  (∀ (s : State) (pa n : Nat), s.memOk → n < 2 ^ 64 → (s.homeWrite pa (bytesOf 8 n)).guardWord pa = n ∧
    ∀ a, a < pa ∨ pa + 8 ≤ a → (s.homeWrite pa (bytesOf 8 n)).mem.read a = s.mem.read a) ∧
  (∀ (s : State) (id : Nat) (g : GuardReq), look s.guards id = some g → g.unqueued = true →
    s.guardsAt (homeHub g.pa) < 8192 → exec (.guardRequestRetry id) s =
      .next (({ s with guards := put s.guards id { g with unqueued := false } } : State).serveGuard g.pa)) ∧
  (∀ (s : State) (id v : Nat) (g : GuardReq), look s.atoms id = none → look s.guards id = some g → g.reply = some v →
    exec (.replyArrival id) s = .next (s.deliverGuard id g v)) ∧
  (∀ (s : State) (id : Nat) (r : Release), look s.releases id = some r → r.wait = .none → r.failed = none →
    (s.runs r.ctx = true → (s.wbuf.filter fun e => r.entries.contains e.id) = [] →
      exec (.releaseWritebackComplete id) s = .next (s.takeEffect id r)) ∧
    (∀ e x pa, s.runs r.ctx = true → (s.wbuf.filter fun e => r.entries.contains e.id) = [e] → 4 ≤ r.scope →
      s.cutOff e.core = false → e.loc = .dev x → s.translate (r.who s id e.ctx e.core) e.va 2 = .ok (.dev pa) (s.worldOf e.core) →
      pa / 64 ∉ s.lost → exec (.releaseWritebackComplete id) s = .next ((s.publishAt e pa).takeEffect id r)) ∧
    (s.runs r.ctx = false → exec (.releaseWritebackComplete id) s = .next { s with releases := drop s.releases id })) ∧
  (∀ (s : State) (id pa : Nat) (shared : Bool) (r : Release) (core slot l : Nat), r.kind = .grel pa shared →
    r.agent = .lane core slot l → s.leased (pa / 64) = false → s.heldIn pa shared = true → s.takeEffect id r =
      ({ s with releases := drop s.releases id } : State).dropGuard pa shared r.scope (.warp core slot)) ∧
  (∀ (s : State) (obj : Nat) (e : WEntry) (es : List WEntry), s.wbuf.filter (fun e => e.held == some obj) = e :: es →
    (∃ g ∈ s.guards, g.2.pa = obj ∧ g.2.reply = none ∧ g.2.unqueued = false ∧ s.mustPublish obj g.2.thread = true) →
    (∀ r ∈ s.releases, r.2.kind ≠ .forced obj) → ∃ t r, exec (.forcedPublish obj) s = .next t ∧
      look t.releases s.nextId = some r ∧ r.kind = .forced obj ∧ r.entries = (e :: es).map (·.id) ∧ r.scope = 4 ∧
      r.agent = e.heldBy.1 ∧ r.pc = e.heldBy.2 ∧ { t with releases := s.releases, nextId := s.nextId } = s) ∧
  (∀ (s : State) (core line : Nat) (p : Pending), p ∈ s.pending → p.core = core → p.pa / 64 = line →
    s.fenced p.agent = false → s.cutOff core = false → line ∉ s.lost →
    exec (.homeDirectoryRequest core line) s = .next (s.performWhere fun p =>
      p.core == core && p.pa / 64 == line && !s.fenced p.agent)) ∧
  (∀ (s : State) (p : Pending), s.pending = [p] → s.leased (p.pa / 64) = false → s.memOk →
    (s.performWhere fun _ => true).pending = [] ∧
    (∀ k, k < p.bytes.length → (s.performWhere fun _ => true).mem.read (p.pa + k) = p.bytes.getD k 0) ∧
    ∀ a, a < p.pa ∨ p.pa + p.bytes.length ≤ a → (s.performWhere fun _ => true).mem.read a = s.mem.read a) ∧
  (∀ (s : State) (core slot : Nat) (w : Warp) (x : Lease), s.warp? core slot = some w →
    w.leases.find? (fun x => !x.granted && s.firstLease x) = some x → s.runs w.ctx = true → s.leased x.line = false →
    s.asideOn x.line = false → s.cutOff core = false → s.leasesOn core < 16 → x.line ∉ s.lost → s.pending = [] →
    ∃ t w', exec (.leaseGrant core slot) s = .next t ∧ t.warp? core slot = some w' ∧ t.mem = s.mem ∧
      (w'.leases = w.leases.map fun y => if y.id = x.id then { y with granted := true, start := s.cycleOf core } else y) ∧
      ∀ l, l < w.lanes.length → w'.lane l = if (w.lane l).wait = .reply x.id then (w.lane l).pass else w.lane l) ∧
  (∀ (s : State) (core line : Nat), ∃ u : State, exec (.leaseExpiry core line) s = .next u.tidyLeases ∧
    { u with warps := s.warps } = s ∧ ∀ k w, look s.warps k = some w → ∃ w', look u.warps k = some w' ∧
      { w' with leases := w.leases } = w ∧ w'.leases = w.leases.map fun x : Lease =>
        if x.core = core ∧ x.line = line ∧ x.granted = true ∧ x.ended = none ∧ x.start + x.hold ≤ s.cycleOf core then
          { x with ended := some 1 } else x)

/-! ### The chain unit -/

/-- LADD, LSUB, LNEG, LSHL, LSHR, LSRA, LMULW and LMONT on tiles that their group fills are producers of their exact result
modulo 2^N in every tile, by limbs, with the flags C and V; LMULW also of its high word; LCMP of -1, 0 or 1, signed or not,
with no flags (R293, R297, R301, R302, R304). -/
def Obligations.ChainArithmetic : Prop :=
  LaneDoesWhen .ladd 8 0x02 (fun s i => chainDiv true s i = none ∧ (i.fn % 2 = 1 → i.w.chainBusy (i.w.tilesIn i.grp) = false))
    (fun s t i => ChainProduced s t i
      (fun t => (i.val i.f.a.toNat t + i.intB t + i.carryIn t) % 2 ^ i.intBits)
      (fun t => decide (2 ^ i.intBits ≤ i.val i.f.a.toNat t + i.intB t + i.carryIn t))
      (fun t => outside i.intBits (sgn i.intBits (i.val i.f.a.toNat t) + sgn i.intBits (i.intB t) + i.carryIn t))) ∧
  LaneDoesWhen .lsub 8 0x03 (fun s i => chainDiv true s i = none ∧ (i.fn % 2 = 1 → i.w.chainBusy (i.w.tilesIn i.grp) = false))
    (fun s t i => ChainProduced s t i
      (fun t => (((i.val i.f.a.toNat t : Int) - i.intB t - i.carryIn t) % ((2 ^ i.intBits : Nat) : Int)).toNat)
      (fun t => decide (i.val i.f.a.toNat t < i.intB t + i.carryIn t))
      (fun t => outside i.intBits (sgn i.intBits (i.val i.f.a.toNat t) - sgn i.intBits (i.intB t) - i.carryIn t))) ∧
  LaneDoesWhen .lneg 8 0x04 (fun s i => chainDiv true s i = none) (fun s t i => ChainProduced s t i
    (fun t => ((-(i.val i.f.a.toNat t : Int)) % ((2 ^ i.intBits : Nat) : Int)).toNat)
    (fun t => i.val i.f.a.toNat t != 0) (fun t => i.val i.f.a.toNat t == 2 ^ (i.intBits - 1))) ∧
  LaneDoesWhen .lshl 8 0x05 (fun s i => chainDiv true s i = none) (fun s t i => ChainProduced s t i
    (fun t => if i.intBits ≤ i.chainCount t then 0 else i.val i.f.a.toNat t * 2 ^ i.chainCount t % 2 ^ i.intBits)
    (fun t => decide (1 ≤ i.chainCount t ∧ i.chainCount t ≤ i.intBits) &&
      (i.val i.f.a.toNat t).testBit (i.intBits - i.chainCount t))
    (fun t => decide (1 ≤ i.chainCount t) && !(if i.intBits ≤ i.chainCount t then i.val i.f.a.toNat t == 0
      else !outside i.intBits (sgn i.intBits (i.val i.f.a.toNat t) * (2 ^ i.chainCount t : Nat))))) ∧
  LaneDoesWhen .lshr 8 0x06 (fun s i => chainDiv true s i = none) (fun s t i => ChainProduced s t i
    (fun t => if i.intBits ≤ i.chainCount t then 0 else i.val i.f.a.toNat t / 2 ^ i.chainCount t)
    (fun t => decide (1 ≤ i.chainCount t ∧ i.chainCount t ≤ i.intBits) && (i.val i.f.a.toNat t).testBit (i.chainCount t - 1))
    (fun _ => false)) ∧
  LaneDoesWhen .lsra 8 0x07 (fun s i => chainDiv true s i = none) (fun s t i => ChainProduced s t i
    (fun t => (sgn i.intBits (i.val i.f.a.toNat t) / ((2 ^ min (i.chainCount t) i.intBits : Nat) : Int) %
      ((2 ^ i.intBits : Nat) : Int)).toNat)
    (fun t => decide (1 ≤ i.chainCount t) && (i.val i.f.a.toNat t).testBit (min (i.chainCount t) i.intBits - 1))
    (fun _ => false)) ∧
  LaneDoesWhen .lmulw 8 0x09 (fun s i => chainDiv true s i = none ∧ bits i.fn 7 7 = 0) (fun s t i => ∀ w : Nat → Nat,
    (∀ t, w t = if i.f.immB then i.f.immValue.toNat % 2 ^ i.limbBits else i.limb i.f.b.toNat (i.baseOf t)) →
    ChainProduced s t i (fun t => (i.val i.f.a.toNat t * w t + i.val i.f.c.toNat t) % 2 ^ i.intBits)
      (fun t => (i.val i.f.a.toNat t * w t + i.val i.f.c.toNat t) / 2 ^ i.intBits != 0) (fun _ => false)) ∧
  LaneDoesWhen .lmulw 8 0x09 (fun s i => chainDiv true s i = none ∧ bits i.fn 7 7 = 1) (fun s t i => ∀ w : Nat → Nat,
    (∀ t, w t = if i.f.immB then i.f.immValue.toNat % 2 ^ i.limbBits else i.limb i.f.b.toNat (i.baseOf t)) →
    ∃ vals, Produced s t i vals ((i.w.tilesIn i.grp).map fun t =>
        (t, (i.val i.f.a.toNat t * w t + i.val i.f.c.toNat t) / 2 ^ i.intBits != 0, false)) (i.w.tilesIn i.grp) ∧
      (∀ e ∈ i.limbVals (fun t => (i.val i.f.a.toNat t * w t + i.val i.f.c.toNat t) % 2 ^ i.intBits), e ∈ vals) ∧
      ∀ t ∈ i.w.tilesIn i.grp, ∀ e ∈ i.writes (i.baseOf t) (bits i.fn 6 0)
        (w64 ((i.val i.f.a.toNat t * w t + i.val i.f.c.toNat t) / 2 ^ i.intBits)), e ∈ vals) ∧
  LaneDoesWhen .lmont 8 0x0A (fun s i => chainDiv true s i = none ∧ (i.fn % 2 = 1 → i.w.chainBusy (i.w.tilesIn i.grp) = false))
    (fun s t i => ∀ y : Nat → Nat, (∀ t, y t =
        (let x := i.val i.f.a.toNat t + if i.fn % 2 = 1 ∧ i.w.carry t then 2 ^ i.intBits else 0
         (x + x % 2 ^ i.limbBits * i.limb i.f.c.toNat (i.baseOf t) % 2 ^ i.limbBits * i.val i.f.b.toNat t) / 2 ^ i.limbBits)) →
      ChainProduced s t i (fun t => y t % 2 ^ i.intBits) (fun t => (y t).testBit i.intBits) (fun _ => false)) ∧
  LaneDoesWhen .lcmp 8 0x08 (fun s i => chainDiv true s i = none ∧ bits i.mo 1 1 = 0) (fun s t i => Produced s t i
    (i.laneVals false fun l =>
      let a := sgn i.intBits (i.val i.f.a.toNat (l / i.w.tileSize))
      let b := sgn i.intBits (i.intB (l / i.w.tileSize))
      ((if a < b then 0xFFFFFFFF#32 else if a = b then 0 else 1) : Word).setWidth 64) [] (i.w.tilesIn i.grp)) ∧
  LaneDoesWhen .lcmp 8 0x08 (fun s i => chainDiv true s i = none ∧ bits i.mo 1 1 = 1) (fun s t i => Produced s t i
    (i.laneVals false fun l =>
      let a := i.val i.f.a.toNat (l / i.w.tileSize)
      let b := i.intB (l / i.w.tileSize)
      ((if a < b then 0xFFFFFFFF#32 else if a = b then 0 else 1) : Word).setWidth 64) [] (i.w.tilesIn i.grp))

/-- LBIND binds the tiles and clears the flags, or raises QUOTA where the task has no limbs; LUNBIND unbinds them; LCARRY
writes the flag of each tile to a mask; LSTAT produces the flag word and may clear the flags, and gives 0 when unbound; the
arithmetic of a chain whose group does not fill its tiles, or under a predicate, raises DIVERGE (R295, R296, R298, R299,
R303). -/
def Obligations.ChainState : Prop :=
  LaneDoesWhen .lbind 8 0x00 (fun s i => lbindDiv s i = none ∧ s.limbs i.w.task = true ∧
      i.w.chainBusy (List.range 32) = false) (fun s t i =>
    Ended s t i { i.w with chain := { bound := some (if bits i.mo 0 0 = 1 then 64 else 32), c := 0, o := 0 } }) ∧
  LaneDoesWhen .lbind 8 0x00 (fun s i => lbindDiv s i = none ∧ s.limbs i.w.task = false) (fun s t i =>
    t = i.raise s Cls.quota i.act (fun _ => 0) fun _ => 0) ∧
  LaneDoesWhen .lunbind 8 0x01 (fun s i => lunbindDiv s i = none ∧ i.w.chain.bound ≠ none ∧
      i.w.chainBusy (List.range 32) = false) (fun s t i =>
    Ended s t i { i.w with chain := { bound := none, c := 0, o := 0 } }) ∧
  LaneDoesWhen .lunbind 8 0x01 (fun _ i => i.w.chain.bound = none) (fun s t i => Ended s t i i.w) ∧
  LaneDoesWhen .lcarry 8 0x0B (fun s i => chainDiv false s i = none ∧ i.w.chainBusy (i.w.tilesIn i.grp) = false)
    (fun s t i => WroteMask s t i (i.maskBits fun l => l % i.w.tileSize == 0 &&
      (if i.fn = 1 then i.w.overflow (l / i.w.tileSize) else i.w.carry (l / i.w.tileSize)))) ∧
  LaneDoesWhen .lstat 8 0x0C (fun s i => lstatDiv s i = none ∧ i.w.chain.bound ≠ none ∧
      i.w.chainBusy (i.w.tilesIn i.grp) = false) (fun s t i => Produced s t i
    ((lanesOf i.act).map fun l => (l, i.f.d.toNat, i.w.flagWord.setWidth 64))
    (if bits i.mo 1 1 = 1 then (i.w.tilesIn i.grp).map fun t => (t, false, false) else []) (i.w.tilesIn i.grp)) ∧
  LaneDoesWhen .lstat 8 0x0C (fun _ i => i.w.chain.bound = none ∧ i.w.chainBusy (i.w.tilesIn i.grp) = false)
    (fun s t i => Produced s t i ((lanesOf i.act).map fun l => (l, i.f.d.toNat, 0)) [] (i.w.tilesIn i.grp)) ∧
  LaneDoesWhen .lbind 8 0x00 (fun s i => lbindDiv s i = none ∧ s.limbs i.w.task = true ∧
      i.w.chainBusy (List.range 32) = true) (fun s t i => t = i.retry s) ∧
  LaneDoesWhen .lcarry 8 0x0B (fun s i => chainDiv false s i = none ∧ i.w.chainBusy (i.w.tilesIn i.grp) = true)
    (fun s t i => t = i.retry s) ∧
  LaneDoesWhen .lstat 8 0x0C (fun s i => lstatDiv s i = none ∧ i.w.chainBusy (i.w.tilesIn i.grp) = true)
    (fun s t i => t = i.retry s) ∧
  (∀ (c : Fields → Instr) (op : Nat), (c, op) ∈ ([(.ladd, 2), (.lsub, 3), (.lneg, 4), (.lshl, 5), (.lshr, 6), (.lsra, 7),
      (.lcmp, 8), (.lmulw, 9), (.lmont, 10)] : List ((Fields → Instr) × Nat)) →
    ∀ (s : State) (f : Fields) (i : Iss), s.laneIss 8 op f = some i → i.wellPlaced = true → i.unstopped s = true →
      chainDiv true s i ≠ none → ∀ m : Word, m = (if i.act = 0 then i.grp else i.act) →
      exec (c f) s = .next (({ i with act := m } : Iss).raise s Cls.diverge m (fun _ => 0) fun _ => i.grp.setWidth 64))

/-! ### The matrix unit -/

/-- With a free place in the queue of eight and their checks passed, WLOAD, WDROP, WCHECK, MXISSUE, ACCZERO and ACCDRAIN
append one command and end, WLOAD declaring its frame, WDROP removing it and WCHECK waiting for its answer; with the queue
full they are attempted again. MXFENCE counts a fence in its lanes; MXWAIT passes at its count and else waits; ACCRD
produces and ACCWR stores accumulators; MXSTAT reads the unit (R317 to R332). -/
def Obligations.MatrixInstructions : Prop :=
  (∀ o n tl, LeadDoesWhen .wload 9 0x00 (fun s i => i.c.mx.length < 8 ∧
      s.tileRef (some (crewKey i.core i.slot)) (asTileWord i.a.toNat) = .at o n tl ∧
      offReach (crewKey i.core i.slot) (o, n, tl) = false ∧ (weightCols tl.fmt).isSome ∧ tl.cols % 32 = 0 ∧
      macrosOf tl.fmt tl.cols tl.rows ≤ 16 ∧
      i.c.macrosBut i.f.d.toNat + macrosOf tl.fmt tl.cols tl.rows ≤ i.c.macros)
    (fun s t i => i.Queued s t (.make 0 [asTileWord i.a.toNat] [(o, n)] i.f.d.toNat [] (some i.f.b.toNat) 0 [])
      { i.c with frames := put i.c.frames i.f.d.toNat { fmt := tl.fmt, k := tl.cols, n := tl.rows, lost := false } })) ∧
  LeadDoesWhen .wdrop 9 0x01 (fun _ i => i.c.mx.length < 8) (fun s t i =>
    i.Queued s t (.make 1 [] [] i.f.a.toNat [] none 0 []) { i.c with frames := drop i.c.frames i.f.a.toNat }) ∧
  LeadDoesWhen .wcheck 9 0x02 (fun _ i => i.c.mx.length < 8) (fun s t i =>
    OnlyCrew { s with stamp := s.stamp + 1 } t i.core i.slot ∧ ∃ c', t.crew? i.core i.slot = some c' ∧
      c'.mx = i.c.mx ++ [{ MxCmd.make 2 [] [] i.f.a.toNat [] none i.f.d.toNat [] with id := s.stamp }] ∧
      c'.lead.pc = i.c.lead.pc ∧ c'.lead.wait = Wait.reply s.stamp ∧ c'.lead.adv = i.f.len ∧ c'.lead.k = i.c.lead.k) ∧
  (∀ (u : State) (w0 : Warp), LaneDoesWhen .mxfence 9 0x03 (fun s i => (Caller.warp i i.act).performed s = .ok u ∧
      u.warp? i.core i.slot = some w0) (fun _ t i =>
    ∃ w : Warp, { w with lanes := w0.lanes } = w0 ∧ w.lanes.length = w0.lanes.length ∧ Ended u t i w ∧
      ∀ l, l < w0.lanes.length → w.lane l =
        if bitOf i.act l then { w0.lane l with fences := (w0.lane l).fences + 1 } else w0.lane l)) ∧
  (∀ b c u, LeadDoesWhen .mxissue 9 0x04 (fun s i => i.c.mx.length < 8 ∧ c = crewKey i.core i.slot ∧
      s.blockAt c (asTileWord i.a.toNat) (lo32 i.b).toNat 64 64 = .ok b ∧
      u = s.correctBlock (dieOf i.core) c (asTileWord i.a.toNat) (lo32 i.b).toNat 64 ∧
      firstBad ((MxParams.of b).checks u c i.c b) = none)
    (fun s t i => ∃ c' x, t.crew? i.core i.slot = some c' ∧ c'.mx = i.c.mx ++ [x] ∧ x.id = s.stamp ∧ x.op = 4 ∧
      x.block = b ∧ x.frame = (MxParams.of b).frame ∧ x.q = some (MxParams.of b).qc ∧ x.started = false ∧ x.row = 0 ∧
      (∀ r n, (r, n) ∈ x.fences ↔ r ∈ (MxParams.of b).parts ∧ ∃ e, s.rankWarp c r = some e ∧ n = e.2.named + 1) ∧
      c'.lead = i.c.lead.past i.f ∧ t.mem = s.mem)) ∧
  (∀ b k c u, LaneDoesWhen .mxissue 9 0x04 (fun s i => i.act ≠ 0 ∧ i.w.crew = some k ∧ look s.crews k = some c ∧
      c.mx.length < 8 ∧ s.blockAt k (i.elect.tileWord (lowest i.act)) (i.b32 (lowest i.act)).toNat 64 64 = .ok b ∧
      u = s.correctBlock (dieOf i.core) k (i.elect.tileWord (lowest i.act)) (i.b32 (lowest i.act)).toNat 64 ∧
      firstBad ((MxParams.of b).checks u k c b) = none)
    (fun s t _ => ∃ c' x, look t.crews k = some c' ∧ c'.mx = c.mx ++ [x] ∧ x.id = s.stamp ∧ x.op = 4 ∧ x.block = b ∧
      x.q = some (MxParams.of b).qc ∧ x.started = false ∧ t.mem = s.mem)) ∧
  (∀ k c, LaneDoesWhen .mxwait 9 0x05 (fun s i => i.grp = i.w.live ∧ i.w.crew = some k ∧ look s.crews k = some c ∧
      (i.b false (lowest i.w.live)).toNat ≤ (c.q.getD i.f.a.toNat 0).toNat)
    (fun s t i => t = i.done (s.observe k i.f.a.toNat))) ∧
  (∀ k c, LaneDoesWhen .mxwait 9 0x05 (fun s i => i.grp = i.w.live ∧ i.w.crew = some k ∧ look s.crews k = some c ∧
      (c.q.getD i.f.a.toNat 0).toNat < (i.b false (lowest i.w.live)).toNat) Waits) ∧
  LaneDoesWhen .mxwait 9 0x05 (fun _ i => i.grp ≠ i.w.live) (fun s t i => t = i.retry s) ∧
  LeadDoesWhen .mxwait 9 0x05 (fun _ i => i.b.toNat ≤ (i.c.q.getD i.f.a.toNat 0).toNat) (fun s t i =>
    t = i.done (s.observe (crewKey i.core i.slot) i.f.a.toNat)) ∧
  (∀ n tl, LeadDoesWhen .acczero 9 0x06 (fun s i => i.c.mx.length < 8 ∧
      s.tileRef (some (crewKey i.core i.slot)) (asTileWord i.a.toNat) = .at (crewKey i.core i.slot) n tl ∧ tl.level = 1)
    (fun s t i => i.Queued s t (.make 6 [asTileWord i.a.toNat] [(crewKey i.core i.slot, n)] 0 [] (some i.f.b.toNat) 0 [])
      i.c)) ∧
  (∀ at_ : Nat → Nat × Nat × Nat, LaneDoesWhen .accrd 9 0x07 (fun s i =>
      i.act ≠ 0 ∧ i.reachesAcc s (i.tileAsk (4 * i.accCount) false true false) at_)
    (fun s t i => Produced (i.corrected s at_ (4 * i.accCount)) t i
      ((lanesOf i.act).flatMap fun l => mapIx (fun n x => (l, i.f.d.toNat + n, x.setWidth 64)) 0
      (wordsOf (s.tileBytes i.w l (at_ l).1 (at_ l).2.1 (at_ l).2.2 (4 * i.accCount)))) [])) ∧
  (∀ at_ : Nat → Nat × Nat × Nat, LaneDoesWhen .accwr 9 0x08 (fun s i =>
      i.act ≠ 0 ∧ i.reachesAcc s (i.tileAsk (4 * i.accCount) false false true) at_ ∧ (Caller.warp i i.act).unfenced s = true)
    (fun s t i => t = i.done ((lanesOf i.act).foldl (fun s l => s.laneTile i.core i.slot l (at_ l).1 (at_ l).2.1 (at_ l).2.2
      (i.dataBytes l (4 * i.accCount))) s))) ∧
  (∀ b u k, LeadDoesWhen .accdrain 9 0x09 (fun s i => i.c.mx.length < 8 ∧
      s.blockAt (crewKey i.core i.slot) (asTileWord i.a.toNat) (lo32 i.b).toNat 32 32 = .ok b ∧
      u = s.correctBlock (dieOf i.core) (crewKey i.core i.slot) (asTileWord i.a.toNat) (lo32 i.b).toNat 32 ∧
      u.crew? i.core i.slot = some k ∧ firstBad ((Drain.of b).checks u (crewKey i.core i.slot) b) = none)
    (fun _ t i => ∃ x, i.Queued u t x k ∧ x.op = 9 ∧ x.block = b ∧ x.q = some (Drain.of b).qc ∧ x.started = false)) ∧
  LeadDoes .mxstat 9 0x0A (fun s t i => LeadWrote s t i i.c.mxstat) ∧
  (∀ (c : Fields → Instr) (op : Nat), (c, op) ∈ ([(.wload, 0x00), (.wdrop, 0x01), (.wcheck, 0x02), (.mxissue, 0x04),
      (.acczero, 0x06), (.accdrain, 0x09)] : List ((Fields → Instr) × Nat)) →
    LeadDoesWhen c 9 op (fun _ i => 8 ≤ i.c.mx.length) (fun s t i => t = i.retry s))

/-- The first command of a crew starts once its fences are met and no producer has its operands to write, a WDROP dropping
its weights; an ACCZERO, which leaves zeros in its tile, or a WDROP that has started leaves the queue with its completion
counter raised by 1 and memory as before; a hung engine is reset and the context stops with ENGINE_RESET; a frame whose
check fails is lost and no other (R317, R318, R326, R328, R335). -/
def Obligations.MatrixEngine : Prop :=
  (∀ (s : State) (core slot : Nat) (c : Crew) (x : MxCmd) (r : List MxCmd), s.crew? core slot = some c → c.mx = x :: r →
    x.started = false → s.runs c.ctx = true → c.done = false → s.fencesMet (crewKey core slot) x = true →
    s.operandsDue (crewKey core slot) x = false → s.mxError x = none →
    ∃ t c', exec (.matrixCommandStart core slot) s = .next t ∧ OnlyCrew s t core slot ∧ t.crew? core slot = some c' ∧
      c'.mx = { x with started := true, regs := s.mxRegs (crewKey core slot) x } :: r ∧
      (x.op = 1 → look c'.weights x.frame = none) ∧
      { c' with mx := c.mx, weights := c.weights } = c) ∧
  (∀ (s : State) (core slot : Nat) (c : Crew) (x : MxCmd) (r : List MxCmd), s.crew? core slot = some c → c.mx = x :: r →
    x.started = true → s.runs c.ctx = true → c.done = false → x.op = 6 ∨ x.op = 1 → x.ev = [] → c.lead.ended = false →
    ∃ t c', exec (.matrixCommandComplete core slot) s = .next t ∧ t.crew? core slot = some c' ∧ c'.mx = r ∧ t.mem = s.mem ∧
      (∀ q, x.q = some q → q < c.q.length → c'.q.getD q 0 = c.q.getD q 0 + 1) ∧
      (∀ n tl, x.op = 6 → x.tiles = [(crewKey core slot, n)] → look c.tiles n = some tl →
        ∃ tl', look c'.tiles n = some tl' ∧ ∀ a, a < tl.rows * tl.stride → tl'.readN a 1 = [0])) ∧
  (∀ (s : State) (core slot : Nat) (c : Crew) (x : MxCmd) (r : List MxCmd), s.crew? core slot = some c → c.mx = x :: r →
    x.started = true → s.runs c.ctx = true → c.done = false →
    exec (.matrixEngineHang core slot) s = .next ((s.resetMatrix core c.ctx).stop c.ctx Cls.engineReset (s.taskNo c.task)
      (slot * 2 ^ 9) 0xFFFFFFFF#32 0 (dieOf core))) ∧
  (∀ (s : State) (core slot n : Nat) (c : Crew) (w : Weights), s.crew? core slot = some c → look c.weights n = some w →
    w.lost = false → c.mx = [] →
    ∃ t c', exec (.macroCrcScrub core [(slot, n)]) s = .next t ∧ t.crew? core slot = some c' ∧ t.mem = s.mem ∧
      look c'.weights n = some { w with lost := true } ∧ ∀ m, m ≠ n → look c'.weights m = look c.weights m)

/-! ### Copies -/

/-- With fewer than 16 copies in the crew's queue, the block read and every check passed, each of the six copy instructions
of either stream enters its copy under the next ticket and writes the ticket; with 16, a lead thread's is attempted again.
CPYQ writes the state word of a ticket; CPYCAN too, and ends a copy that has not completed. The next queued copy starts; one
with nothing left to do ends: it leaves the queue, its status is remembered by its ticket, and its counter goes up by 1
(R337, R347 to R349, R352). -/
def Obligations.Copies : Prop :=
  (∀ (c : Fields → Instr) (op n : Nat), (c, op, n) ∈ ([(.cpy, 0, 128), (.cpyg, 1, 128), (.cpys, 2, 128), (.cpyf, 3, 128),
      (.ckpt, 4, 192), (.ckload, 5, 192)] : List ((Fields → Instr) × Nat × Nat)) → ∀ (b : List Byte) (v w : State),
    (∀ x, LeadDoesWhen c 10 op (fun s i => i.c.copies.length < 16 ∧
        s.blockAt (crewKey i.core i.slot) (asTileWord i.a.toNat) (lo32 i.b).toNat n 64 = .ok b ∧
        v = s.correctBlock (dieOf i.core) (crewKey i.core i.slot) (asTileWord i.a.toNat) (lo32 i.b).toNat n ∧
        firstBad ((CpDesc.of b).step3 op ++ (CpDesc.of b).step456 op v ((Caller.lead i).who v 0) (crewKey i.core i.slot) ++
          (CpDesc.of b).step7 op ++ (CpDesc.of b).step8 op v ((Caller.lead i).who v 0) (crewKey i.core i.slot)) = none ∧
        (Caller.lead i).unfenced v = true ∧ (Caller.lead i).performed v = .ok w ∧ w.crew? i.core i.slot = some x)
      (fun _ t i => ∃ u job, OnlyCrew w u i.core i.slot ∧
        u.crew? i.core i.slot = some { x.nextTicket.2 with copies := x.copies ++ [job] } ∧
        job.ticket = (if i.c.ticket = 2 ^ 32 - 1 then 1 else i.c.ticket + 1) ∧ job.op = op ∧ job.desc = b ∧
        job.issuer = .lead i.core i.slot ∧ job.started = false ∧ job.done = 0 ∧ job.out = 0 ∧ job.wait = Wait.none ∧
        t = i.write u (w64 job.ticket))) ∧
    LeadDoesWhen c 10 op (fun _ i => 16 ≤ i.c.copies.length) (fun s t i => t = i.retry s) ∧
    (∀ k x y, LaneDoesWhen c 10 op (fun s i => i.act ≠ 0 ∧ i.w.crew = some k ∧ look s.crews k = some x ∧ x.copies.length < 16 ∧
        s.blockAt k (i.elect.tileWord (lowest i.act)) (i.b32 (lowest i.act)).toNat n 64 = .ok b ∧
        v = s.correctBlock (dieOf i.core) k (i.elect.tileWord (lowest i.act)) (i.b32 (lowest i.act)).toNat n ∧
        firstBad ((CpDesc.of b).step3 op ++ (CpDesc.of b).step456 op v (i.elect.who v (lowest i.act)) k ++
          (CpDesc.of b).step7 op ++ (CpDesc.of b).step8 op v (i.elect.who v (lowest i.act)) k) = none ∧
        i.elect.unfenced v = true ∧ i.elect.performed v = .ok w ∧ look w.crews k = some y)
      (fun _ t i => ∃ u job, { u with crews := w.crews } = w ∧ (∀ j, j ≠ k → look u.crews j = look w.crews j) ∧
        look u.crews k = some { y.nextTicket.2 with copies := y.copies ++ [job] } ∧
        job.ticket = (if x.ticket = 2 ^ 32 - 1 then 1 else x.ticket + 1) ∧ job.op = op ∧ job.desc = b ∧
        job.issuer = .lane i.core i.slot (lowest i.act) ∧ job.started = false ∧ job.done = 0 ∧ job.out = 0 ∧
        job.wait = Wait.none ∧ t = i.elect.status u job.ticket)) ∧
    (∀ k x, LaneDoesWhen c 10 op (fun s i => i.act ≠ 0 ∧ i.w.crew = some k ∧ look s.crews k = some x ∧ 16 ≤ x.copies.length)
      (fun s t i => t = i.retry s))) ∧
  LeadDoes .cpyq 10 6 (fun s t i => LeadWrote s t i (w64 (i.c.copyState (i.a.toNat % 2 ^ 32)))) ∧
  (∀ k x, LaneDoesWhen .cpyq 10 6 (fun s i => i.act ≠ 0 ∧ i.w.crew = some k ∧ look s.crews k = some x) (fun s t i =>
    t = i.elect.status s (x.copyState (i.w.getV (lowest i.act) i.f.a.toNat).toNat))) ∧
  LeadDoesWhen .cpycan 10 7 (fun _ i => i.c.recent (i.a.toNat % 2 ^ 32) = false ∨
      i.c.copies.find? (fun y => y.ticket == i.a.toNat % 2 ^ 32) = none) (fun s t i =>
    LeadWrote s t i (w64 (i.c.copyState (i.a.toNat % 2 ^ 32)))) ∧
  (∀ y, LeadDoesWhen .cpycan 10 7 (fun _ i => i.c.recent (i.a.toNat % 2 ^ 32) = true ∧
      i.c.copies.find? (fun y => y.ticket == i.a.toNat % 2 ^ 32) = some y) (fun s t i =>
    t = i.write (s.copyEnd (crewKey i.core i.slot) y (2 ^ 8)) (w64 (i.c.copyState (i.a.toNat % 2 ^ 32))))) ∧
  (∀ k x n, LaneDoesWhen .cpycan 10 7 (fun s i => i.act ≠ 0 ∧ i.w.crew = some k ∧ look s.crews k = some x ∧
      n = (i.w.getV (lowest i.act) i.f.a.toNat).toNat ∧
      (x.recent n = false ∨ x.copies.find? (fun y => y.ticket == n) = none))
    (fun s t i => t = i.elect.status s (x.copyState n))) ∧
  (∀ k x y n, LaneDoesWhen .cpycan 10 7 (fun s i => i.act ≠ 0 ∧ i.w.crew = some k ∧ look s.crews k = some x ∧
      n = (i.w.getV (lowest i.act) i.f.a.toNat).toNat ∧ x.recent n = true ∧ x.copies.find? (fun y => y.ticket == n) = some y)
    (fun s t i => t = i.elect.status (s.copyEnd k y (2 ^ 8)) (x.copyState n))) ∧
  (∀ (s : State) (core slot : Nat) (c : Crew) (x : Copy), s.crew? core slot = some c →
    c.copies.find? (fun y => !y.started) = some x → s.runs c.ctx = true →
    ∃ t, exec (.copyStart core slot) s = .next t ∧ OnlyCrew s t core slot ∧ t.crew? core slot = some { c with
      copies := c.copies.map fun y => if y.ticket = x.ticket then { y with started := true } else y }) ∧
  (∀ (s : State) (core slot ticket : Nat) (r : CpRun), s.cpRun core slot ticket = some r → r.x.started = true →
    r.x.wait = Wait.none → s.runs r.c.ctx = true → r.over = true →
    exec (.copyComplete core slot ticket) s = .next (s.copyEnd r.k r.x (if r.x.op = 5 ∧ r.partly then 2 ^ 16 else 0))) ∧
  (∀ (s : State) (k st : Nat) (c : Crew) (x : Copy), look s.crews k = some c → c.lead.ended = false →
    x.ev = [] → ∃ c', look (s.copyEnd k x st).crews k = some c' ∧ c'.copies = c.copies.filter (fun y => y.ticket != x.ticket) ∧
      (c.recent x.ticket = true → look c'.tickets x.ticket = some st) ∧
      ((CpDesc.of x.desc).qen = true → (CpDesc.of x.desc).qc < c.q.length →
        c'.q.getD (CpDesc.of x.desc).qc 0 = c.q.getD (CpDesc.of x.desc).qc 0 + 1) ∧
      ((CpDesc.of x.desc).qen = false → c'.q = c.q) ∧ (s.copyEnd k x st).mem = s.mem)

/-! ### Continuations -/

/-- CONT without join counters gives status 0 while the context's quota holds, 1 with the record in the overflow area while
it has room, else 2. CWAIT goes past with the lanes whose counter reads 0, and the others wait at their counters. YIELD
stops the threads of a unit that is being saved, and otherwise goes on. MEASURE notes its buffer in a task that is measured,
and raises QUOTA in one that is not (R364, R365, R369, R370, R372, R398). -/
def Obligations.ContinuationInstructions : Prop :=
  (∀ (pa : Nat → Nat) (u v : State) (st : List (Nat × Nat)), LaneDoesWhen .cont 11 0x00 (fun s i => i.act ≠ 0 ∧
      (∀ l ∈ lanesOf i.act, ∃ sec, i.contOut s l = (0, .ok (.dev (if i.noJoin l then 0 else pa l)) sec)) ∧
      (Caller.warp i i.act).released s = .ok u ∧
      (∀ l ∈ lanesOf i.act, i.noJoin l = false → u.leased (pa l / 64) = false) ∧
      i.emitAll (fun l => .dev (pa l)) (lanesOf i.act) u = (st, v))
    (fun _ t i => t = i.write v false fun l => w64 (count st l))) ∧
  (∀ (s : State) (i : Iss) (l : Nat), i.noJoin l = true → i.recWord l 3 = 0 → i.contCheck s l = none →
    i.contOut s l = (0, .ok (.dev 0) false)) ∧
  (∀ (s : State) (i : Iss) (l : Nat) (x : Ctx), i.noJoin l = true → s.ctx? i.w.ctx = some x →
    (s.gathered i.w.ctx (clusterOf i.core) < x.quota → (i.emit (fun _ => .dev 0) s l).1 = 0 ∧
      (i.emit (fun _ => .dev 0) s l).2.mem = s.mem) ∧
    (x.quota ≤ s.gathered i.w.ctx (clusterOf i.core) → x.overflow.length < x.ovCap →
      (i.emit (fun _ => .dev 0) s l).1 = 1 ∧ ∃ r y, (i.emit (fun _ => .dev 0) s l).2.ctx? i.w.ctx = some y ∧
        y.overflow = x.overflow ++ [r] ∧ r.key.entry = i.recWord l 1 ∧ r.key.code = (i.recWord l 0).toNat ∧
        r.key.task = i.w.task ∧ r.joinH = none ∧ r.payload = (List.range 12).map (fun n => i.recWord l (4 + n))) ∧
    (x.quota ≤ s.gathered i.w.ctx (clusterOf i.core) → x.ovCap ≤ x.overflow.length →
      (i.emit (fun _ => .dev 0) s l).1 = 2)) ∧
  (∀ (s : State) (i : Iss) (l pa : Nat) (x : Ctx), i.noJoin l = false → s.ctx? i.w.ctx = some x → s.memOk →
    s.gathered i.w.ctx (clusterOf i.core) < x.quota ∨ x.overflow.length < x.ovCap →
    natOf ((i.emit (fun _ => .dev pa) s l).2.mem.readN pa 4) = (natOf (s.mem.readN pa 4) + 1) % 2 ^ 32 ∧
    ∀ a, a < pa ∨ pa + 4 ≤ a → (i.emit (fun _ => .dev pa) s l).2.mem.read a = s.mem.read a) ∧
  (∀ pa, LaneDoesWhen .cwait 11 0x01 (fun s i => i.act ≠ 0 ∧
      (Caller.warp i i.act).reaches s (Caller.warp i i.act).cwaitRef pa ∧ (Caller.warp i i.act).acquired s = .ok s ∧
      (Caller.warp i i.act).clear s pa 4 ∧
      ∀ p ∈ s.pending, ∀ l ∈ lanesOf i.act, p.agent = .lane i.core i.slot l → p.pa / 64 ≠ pa l / 64)
    (fun s t i => OnlyWarp s t i.core i.slot ∧ ∃ w', t.warp? i.core i.slot = some w' ∧
      ∀ l, l < i.w.lanes.length → bitOf i.grp l = true →
        if bitOf i.act l ∧ natOf (s.mem.readN (pa l) 4) ≠ 0 then
          (w'.lane l).pc = (i.w.lane l).pc ∧ (w'.lane l).wait = .cwait (pa l)
        else (w'.lane l).pc = (i.w.lane l).pc + BitVec.ofNat 32 i.f.len)) ∧
  LaneDoesWhen .yield 11 0x02 (fun s i => i.grp = i.w.live ∧
      (s.stopping (i.w.unit s i.core i.slot) && i.w.unleased) = false)
    (fun s t i => Ended s t i { i.w with age := 0 }) ∧
  LaneDoesWhen .yield 11 0x02 (fun s i => i.grp = i.w.live ∧
      (s.stopping (i.w.unit s i.core i.slot) && i.w.unleased) = true)
    (fun s t i => OnlyWarp s t i.core i.slot ∧ ∃ w', t.warp? i.core i.slot = some w' ∧
      ∀ l, l < i.w.lanes.length → bitOf i.grp l = true → (w'.lane l).wait = .stopped ∧ (w'.lane l).pc = (i.w.lane l).pc) ∧
  LaneDoesWhen .yield 11 0x02 (fun _ i => i.grp ≠ i.w.live) (fun s t i => t = i.retry s) ∧
  LeadDoesWhen .yield 11 0x02 (fun s i => s.stopping (.gang i.c.gang) = false) (fun s t i =>
    LeadBecame { s with rot := put s.rot i.core (((look s.rot i.core).getD (15, 3)).1, i.slot) } t i (i.c.lead.past i.f)) ∧
  LeadDoesWhen .yield 11 0x02 (fun s i => s.stopping (.gang i.c.gang) = true) (fun s t i =>
    LeadBecame s t i { i.c.lead with wait := .stopped, sp := none }) ∧
  LaneDoesWhen .measure 12 0x03 (fun s i => i.act ≠ 0 ∧
      s.bufferCheck (i.elect.who s (lowest i.act)) (i.elect.handle (lowest i.act)) (i.elect.off32 (lowest i.act))
        (i.elect.reg (lowest i.act) i.f.c.toNat) = none ∧
      ∃ x, s.task? i.w.task = some x ∧ x.measured = true ∧ x.buffers.length < 64)
    (fun s t i => t = i.done (s.onTask i.w.task fun x => x.note
      { handle := i.elect.handle (lowest i.act), off := i.elect.off32 (lowest i.act),
        len := i.elect.reg (lowest i.act) i.f.c.toNat, pc := i.pc, qual := i.w.qual (lowest i.act) })) ∧
  LeadDoesWhen .measure 12 0x03 (fun s i =>
      s.bufferCheck ((Caller.lead i).who s 0) ((Caller.lead i).handle 0) ((Caller.lead i).off32 0) i.kc.toNat = none ∧
      ∃ x, s.task? i.c.task = some x ∧ x.measured = true ∧ x.buffers.length < 64)
    (fun s t i => t = i.done (s.onTask i.c.task fun x => x.note
      { handle := (Caller.lead i).handle 0, off := (Caller.lead i).off32 0, len := i.kc.toNat, pc := i.pc,
        qual := 2 ^ 8 + i.slot * 2 ^ 9 })) ∧
  LaneDoesWhen .measure 12 0x03 (fun s i => i.act ≠ 0 ∧
      s.bufferCheck (i.elect.who s (lowest i.act)) (i.elect.handle (lowest i.act)) (i.elect.off32 (lowest i.act))
        (i.elect.reg (lowest i.act) i.f.c.toNat) = none ∧
      ∃ x, s.task? i.w.task = some x ∧ (x.measured = false ∨ 64 ≤ x.buffers.length))
    (fun s t i => t = i.raise s Cls.quota ((1 : Word) <<< lowest i.act) (fun _ => 0) fun _ => 0) ∧
  LeadDoesWhen .measure 12 0x03 (fun s i =>
      s.bufferCheck ((Caller.lead i).who s 0) ((Caller.lead i).handle 0) ((Caller.lead i).off32 0) i.kc.toNat = none ∧
      ∃ x, s.task? i.c.task = some x ∧ (x.measured = false ∨ 64 ≤ x.buffers.length))
    (fun s t i => t = i.raise s Cls.quota 0)

/-! ### Dispatch -/

/-- A task without dependences is released; a gang is placed whole on a cluster where it fits and that is offered to it,
never while a virtual device below its floor there has work that fits; one that has waited 65,536 cycles reserves its cores;
a task whose work has ended hashes its next buffer, and with none left completes and is waited for no longer. A group leaves
the gather store 2,048 cycles after its oldest record, at most 32 records as one warp, is placed on its cluster, and after
2,048 cycles more elsewhere; an overflow record returns when its cluster has room (R357, R358, R360, R367 to R369, R390,
R397, R398). -/
def Obligations.DispatchEvents : Prop :=
  (∀ (s : State) (n : Nat) (t : Task), s.task? n = some t → t.released = false → t.deps = [] → s.runs t.ctx = true →
    s.outweighed t = false → ∃ u, exec (.taskDependenceRelease n) s = .next u ∧
      u.task? n = some { t with released := true, order := s.stamp, waiting := s.dies.map (·.cycle) } ∧ { u with tasks := s.tasks } = s) ∧
  (∀ (s : State) (n cluster ix : Nat) (t : Task) (cores : List Nat) (h : Header) (ds : List (Nat × Tile)),
    s.task? n = some t → t.nextIx = some ix → s.gangDue cluster n t = true →
    s.gangCores cluster (some n) t.ctx t.need t.crewCount = some cores → s.offered cluster n t.ctx = true →
    s.readCode (s.dispatchWho (.hash n) t.ctx (cluster * 16) (some t.args) t.answers) t.code = .ok h ds →
    ∃ u g, exec (.gangPlacement n cluster) s = .next u ∧ look u.gangs s.nextId = some g ∧ g.ctx = t.ctx ∧ g.task = n ∧
      g.cluster = cluster ∧ g.x = ix % t.gx ∧ g.y = ix / t.gx % t.gy ∧ g.z = ix / (t.gx * t.gy) ∧
      g.crews.length = t.crewCount ∧ u.mem = s.mem ∧
      (∀ k c, look s.clusters k = some c → ∃ c', look u.clusters k = some c' ∧ c'.reserve.all (fun r => r.1 != n) = true)) ∧
  (∀ (s : State) (n cluster a : Nat) (t : Task) (v : Vd), s.task? n = some t → (a, v) ∈ s.vds →
    0 < s.shortfall cluster a → s.shortfall cluster (s.vdOf t.ctx) ≤ 0 → s.wants cluster a = true →
    exec (.gangPlacement n cluster) s = .next s) ∧
  (∀ (s : State) (n cluster ix : Nat) (t : Task) (cores : List Nat), s.task? n = some t → t.nextIx = some ix →
    s.gangDue cluster n t = true → t.waiting.getD (cluster / 64) 0 + 65536 ≤ s.clusterCycle cluster →
    (∀ e ∈ s.clusters, e.2.reserve.all (fun r => r.1 != n) = true) →
    cores = ((coresIn cluster).filter fun c => t.need.onEmpty c && s.open? c (some n) t.ctx) → t.crewCount ≤ cores.length →
    exec (.gangReservation n cluster) s = .next { s with
      clusters := adjust s.clusters cluster fun k => { k with reserve := k.reserve ++ [(n, cores.take t.crewCount)] } }) ∧
  (∀ (s : State) (n : Nat) (t : Task) (b : Buffer) (bs : List Byte), s.task? n = some t → firstBuffer t.buffers = some b →
    t.worked = true → t.wait = Wait.none → s.runs t.ctx = true →
    s.hubRead (s.hashWho n t) b.handle b.off b.len 1 Entry.pr = .ok bs →
    ∃ u t', exec (.measureHashing n) s = .next u ∧ u.task? n = some t' ∧ t'.buffers = t.buffers.erase b ∧
      t'.failed = t.failed ∧ u.mem = s.mem ∧
      ∀ x, s.ctx? t.ctx = some x → u.ctx? t.ctx = some { x with ext := x.ext + 1, chain := BitVec.ofNat 256 (natOf (sha256
        (bytesOf 32 x.chain.toNat ++ [0x52, 0x53, 0x4C, 0x54] ++ bytesOf 8 bs.length ++ sha256 bs))) }) ∧
  (∀ (s : State) (n : Nat) (t : Task), s.task? n = some t → t.worked = true → t.buffers = [] → t.wait = Wait.none →
    s.runs t.ctx = true → t.failed = none →
    ∃ u, exec (.taskCompletionPoint n) s = .next u ∧ u.task? n = none ∧
      ∀ m t', u.task? m = some t' → n ∉ t'.deps) ∧
  (∀ (s : State) (cluster t : Nat) (key : GroupKey), minOf ((s.groupOf cluster key).map (·.since)) = some t →
    s.runs key.ctx = true → t + 2048 ≤ s.clusterCycle cluster →
    ∃ u c, exec (.continuationGatherTimeout cluster key) s = .next u ∧ look u.contWarps s.nextId = some c ∧ c.key = key ∧
      c.cluster = cluster ∧ c.recs = (s.groupOf cluster key).take 32 ∧ u.mem = s.mem ∧
      u.gather = s.gather.filter (fun r => !((c.recs.map fun r => r.id).contains r.id))) ∧
  (∀ (s : State) (id core k : Nat) (ks : List Nat) (c : ContWarp) (h : Header), look s.contWarps id = some c →
    c.wait = Wait.none → s.runs c.key.ctx = true → s.open? core none c.key.ctx = true → s.freeSlots core = k :: ks →
    s.contHeader core c = .ok h → h.entryOk c.key.entry.toNat = true → s.fits core (c.need h) = true →
    s.contTurn (clusterOf core) c = true →
    (clusterOf core = c.cluster → ∃ u, exec (.continuationPlacement id core) s = .next u ∧ look u.contWarps id = none ∧
      u.warp? core k = some (c.warp h (s.cycleOf core)) ∧ u.mem = s.mem) ∧
    (c.since + 2048 ≤ s.clusterCycle c.cluster → s.contFits c.cluster c = false →
      ∃ u, exec (.continuationRemotePlacement id core) s = .next u ∧
      look u.contWarps id = none ∧ u.warp? core k = some (c.warp h (s.cycleOf core)) ∧ u.mem = s.mem)) ∧
  (∀ (c : ContWarp) (h : Header) (cycle l : Nat), c.recs.length ≤ 32 → l < 32 →
    bitOf (c.warp h cycle).live l = decide (l < c.recs.length) ∧
    (∀ r, c.recs[l]? = some r → ((c.warp h cycle).lane l).pc = c.key.entry ∧ ((c.warp h cycle).lane l).joinCtr = r.joinH ∧
      ∀ n, n < r.payload.length → look ((c.warp h cycle).lane l).v n = some (r.payload.getD n 0))) ∧
  (∀ (s : State) (n : Nat) (x : Ctx) (r : ContRec), s.ctx? n = some x →
    x.overflow.find? (fun r => decide (s.gathered n r.cluster < x.quota)) = some r → s.runs n = true →
    ∃ u x', exec (.overflowRecordReturn n) s = .next u ∧ u.ctx? n = some x' ∧
      x'.overflow = x.overflow.filter (fun y => y.id != r.id) ∧ u.mem = s.mem)

/-- A virtual device at or below its floor is not pre-empted; for the unit chosen, the cheapest of the options that meet the
deadline is taken, a discard at once, and with none a save that misses it; a save at half the deadline, and a drain at the
deadline, becomes a whole save; a unit with nothing in flight leaves as an image, and an image is restored with its
registers, masks and PCs, its lanes that waited for nothing standing where they stood; a parked unit gives way, and returns
once its counters read 0, those outside the part being read. The first Owl timer at the limit stops the context; a unit past
its MAXRUN is noted once (R47 to R49, R361, R371, R373, R376 to R378). -/
def Obligations.PreemptionAndOwl : Prop :=
  (∀ (s : State) (u : UnitId) (p : Parts), s.parts u = some p → s.runs p.ctx = true → s.chosen u p = true →
    (∀ n cost, cheapest (s.options p) = some (n, cost) → n ≠ 2 → exec (.preemptionDecision u) s = .next { s with
      preempts := s.preempts ++ [{ unit := u, option := n, start := s.cycleOf p.core, missed := false, full := false,
                                   parked := false, die := none }] }) ∧
    (∀ cost g x, cheapest (s.options p) = some (2, cost) → p.gang = some (g, x) →
      exec (.preemptionDecision u) s = .next (s.discardGang p x)) ∧
    (s.options p = [] → exec (.preemptionDecision u) s = .next { s with
      preempts := s.preempts ++ [{ unit := u, option := 1, start := s.cycleOf p.core, missed := true, full := false,
                                   parked := false, die := none }] })) ∧
  (∀ (s : State) (u : UnitId) (p : Parts), s.parts u = some p →
    0 ≤ s.shortfall (clusterOf p.core) (s.vdOf p.ctx) → exec (.preemptionDecision u) s = .next s) ∧
  (∀ l : List (Nat × Nat), (cheapest l = none ↔ l = []) ∧ ∀ x, cheapest l = some x → x ∈ l ∧ ∀ y ∈ l, x.2 ≤ y.2) ∧
  (∀ (s : State) (u : UnitId) (p : Parts) (x : Preempt), s.parts u = some p → s.preempts.find? (fun x => x.unit == u) = some x →
    x.full = false →
    (x.option = 1 → x.start + s.deadline p / 2 ≤ s.cycleOf p.core → exec (.fullSaveTimeout u) s = .next { s with
      preempts := s.preempts.map fun q => if q.unit = u then { q with full := true } else q }) ∧
    (x.option = 0 → x.start + s.deadline p ≤ s.cycleOf p.core → exec (.drainDeadlineExpiry u) s = .next { s with
      preempts := s.preempts.map fun q => if q.unit = u then { q with full := true, missed := true } else q })) ∧
  (∀ (s : State) (u : UnitId) (p : Parts) (x : Preempt), s.parts u = some p → s.preempts.find? (fun x => x.unit == u) = some x →
    s.runs p.ctx = true → x.full = true ∨ x.option = 1 ∧ p.stopped = true →
    exec (.gangSaveComplete u) s = .next ((s.onPreempt u fun y =>
      { y with missed := y.missed || decide (x.start + s.deadline p < s.cycleOf p.core) }).trySave p u
        (if x.full then 1 else 0)).finishSaves) ∧
  (∀ (s t : State) (p q : Parts) (u : UnitId) (how : Nat), s.pending = [] → s.heldBy p = [] → s.saveBusy p = false →
    t = s.pauseMatrix p how → t.parts u = some q →
    ∃ img, look (s.trySave p u how).images t.nextId = some img ∧ img.ctx = q.ctx ∧ img.task = q.task ∧ img.how = how ∧
      (∀ e ∈ q.warps, look (s.trySave p u how).warps e.1 = none) ∧
      ∀ e ∈ q.crews, look (s.trySave p u how).crews e.1 = none) ∧
  (∀ (s : State) (n cluster : Nat) (x : Image), look s.images n = some x → s.runs x.ctx = true →
    s.imageTurn cluster x = true →
    (x.how ≠ 2 → exec (.gangRestore n cluster) s = .next (s.restore n cluster x)) ∧
    (x.how = 2 → x.far = [] → s.countersZero x = true →
      exec (.parkedUnitRestore n cluster) s = .next (s.restore n cluster x)) ∧
    (x.how = 2 → x.far ≠ [] → exec (.parkedUnitRestore n cluster) s = .next (s.askSaved n x))) ∧
  (∀ (s : State) (n cluster core k old : Nat) (ks : List Nat) (img : Image) (w : Warp), look s.images n = some img →
    s.imageBad img = false → img.gang = none → img.warps = [(old, w)] → img.wbuf = [] → img.releases = [] → img.pending = [] →
    s.imageCores cluster img = some [core] → s.freeSlots core = k :: ks →
    ∃ w', (s.restore n cluster img).warp? core k = some w' ∧ look (s.restore n cluster img).images n = none ∧
      w'.m = w.m ∧ w'.j = w.j ∧ w'.live = w.live ∧ w'.elapsed = img.elapsed ∧
      ∀ l, l < w.lanes.length → (w'.lane l).v = (w.lane l).v ∧
        ((w.lane l).wait = Wait.none → (w'.lane l).pc = (w.lane l).pc ∧ (w'.lane l).wait = Wait.none)) ∧
  (∀ (s : State) (u : UnitId) (p : Parts), s.parts u = some p → s.runs p.ctx = true → p.parked = true →
    s.crowded (clusterOf p.core) p.ctx = true → s.preempted u = false →
    exec (.parkedUnitSave u) s = .next (s.trySave p u 2)) ∧
  (∀ (s : State) (u : UnitId) (p : Parts) (limit : Nat), s.parts u = some p → s.runs p.ctx = true →
    p.scan ≤ s.residentOf p → limit = (s.vd? (s.vdOf p.ctx)).elim (2 ^ 24) (fun v => v.config.barLimit) →
    (∀ t, p.timers.find? (fun t => decide (t.start + limit ≤ p.scan)) = some t →
      exec (.owlScan u) s = .next (s.barrierTimeout p t p.scan)) ∧
    (∀ g x, p.gang = some (g, x) → (∀ t ∈ p.timers, p.scan < t.start + limit) →
      ∃ t, exec (.owlScan u) s = .next t ∧ look t.gangs g = (look s.gangs g).map (fun y => { y with scan := y.scan + 4096 }) ∧
        { t with gangs := s.gangs } = s)) ∧
  (∀ (s : State) (g : Nat) (x : Gang) (p : Parts) (t : Task), s.parts (.gang g) = some p → p.gang = some (g, x) →
    s.runs p.ctx = true → s.task? p.task = some t → t.maxrun ≠ 0 → x.overrun = false → t.maxrun < s.residentOf p →
    ∃ v, exec (.maxrunOverrun (.gang g)) s = .next ((s.onGang g fun y => { y with overrun := true }).postVd (s.vdOf p.ctx) v) ∧
      v.kind = 7 ∧ v.status = 3 ∧ v.fclass = 1 ∧ v.fpc = clusterOf p.core ∧ v.detail = t.maxrun ∧ v.source = s.taskNo p.task)

/-! ### Queue interfaces -/

/-- KICK fills the FIFO of 64 words or counts a drop; PWPTR and EVRPTR take an index below the ring's size; a 1 in KDROP or
EVDROP of QSTAT clears that count; before READY, kicks and writes of PWPTR and QSTAT are dropped and counted; a record that
has waited the time threshold raises the interrupt. The oldest kick word launches its graph or leaves a record of its
failure. A packet taken moves PRPTR past it, a measured one extends the chain, and one that completes posts its record when
its EVENT bit is set (R21, R380, R385, R386, R393 to R397). -/
def Obligations.QueueInterfaces : Prop :=
  (∀ (s : State) (q : Nat) (v : Word) (x : Qi), s.ready = true → s.qi? q = some x → x.bound = true → x.closing = false →
    (∃ t, exec (.kick q v) s = .next t ∧ { t with qis := s.qis } = s ∧ t.qi? q = some (if x.kicks.length < 64 then
        { x with kicks := x.kicks ++ [v] } else { x with kdrop := satAdd 0xFFF x.kdrop 1 })) ∧
    (∃ t, exec (.pwptrWrite q v) s = .next t ∧ { t with qis := s.qis } = s ∧ t.qi? q = some (if v.toNat < 2 ^ x.k then
        { x with pw := v.toNat } else x)) ∧
    (x.records = [] → ∃ t, exec (.evrptrWrite q v) s = .next t ∧ { t with qis := s.qis } = s ∧ t.qi? q = some
        (if v.toNat < 2 ^ x.e then { x with evr := v.toNat } else x)) ∧
    (∃ t y, exec (.qstatClear q v) s = .next t ∧ { t with qis := s.qis } = s ∧ t.qi? q = some y ∧
      { y with kdrop := x.kdrop, evdrop := x.evdrop } = x ∧ y.kdrop = (if bits v.toNat 27 16 ≠ 0 then 0 else x.kdrop) ∧
      y.evdrop = if bits v.toNat 15 0 ≠ 0 then 0 else x.evdrop)) ∧
  (∀ (s : State) (q : Nat) (v : Word) (i : Instr), s.ready = false → i ∈ [.kick q v, .pwptrWrite q v, .qstatClear q v] →
    exec i s = .next (s.onPkg fun p => { p with kickDrops := p.kickDrops + 1 })) ∧
  (∀ (s : State) (q : Nat) (x : Qi), s.qi? q = some x → x.bound = true → bitOf x.evctl 31 = true →
    bits x.evctl.toNat 30 16 ≠ 0 → 0 < x.unsignalled → x.oldest + 1000 * bits x.evctl.toNat 30 16 ≤ s.time.toNat →
    ∃ t, exec (.eventInterruptTimer q) s = .next t ∧ t.qi? q = some { x with unsignalled := 0 } ∧
      (bitOf x.remap 31 = true → t.out = .msix (bits x.remap.toNat 11 0) :: s.out)) ∧
  (∀ (s : State) (q : Nat) (x : Qi) (v : Vd) (w : Word) (ws : List Word), s.qi? q = some x → s.takes x = true →
    x.kicks = w :: ws → s.launchHeld x = false → s.vd? x.vd = some v →
    (look v.graphs (bits w.toNat 11 0) = none → exec (.kickLaunch q) s = .next (s.refuseKick q w Cls.bounds)) ∧
    (∀ g e args, look v.graphs (bits w.toNat 11 0) = some g → e = s.entry (x.who q) g.argHandle →
      args = slotEntry e (bits w.toNat 23 12) g.slotSize →
      (argsFit e = false → exec (.kickLaunch q) s = .next (s.refuseKick q w Cls.perm)) ∧
      (argsFit e = true → Entry.length e < (bits w.toNat 23 12 + 1) * g.slotSize →
        exec (.kickLaunch q) s = .next (s.refuseKick q w Cls.bounds)) ∧
      (argsFit e = true → (bits w.toNat 23 12 + 1) * g.slotSize ≤ Entry.length e →
        g.tasks.any (s.boundless x.vd) = false → ∀ data, s.measuredGraph (x.who q) args g.tasks = .ok data →
        s.matcherRoom x.vd (g.regions.foldl (fun n l => n + l.length) 0) = true →
        ∃ t y b, exec (.kickLaunch q) s = .next t ∧ t.qi? q = some y ∧ y.kicks = ws ∧ y.seq = x.seq + 1 ∧
          y.begun = x.begun ++ [b] ∧ b.type = 256 ∧ b.work = some s.nextId ∧ b.words = [w] ∧ look t.launches s.nextId =
            some { qi := q, graph := bits w.toNat 11 0, word := w, left := g.tasks.length, failed := none }))) ∧
  (∀ (s : State) (q : Nat) (x : Qi) (p : Pkt), s.qi? q = some x → p.measured = false → x.ib = [] →
    (s.consume q p).qi? q = some { x with pr := (x.pr + (1 + p.count)) % 2 ^ x.k, answers := [], extData := [], extErr := [] } ∧
    { s.consume q p with qis := s.qis } = s) ∧
  (∀ (s : State) (q : Nat) (x : Qi) (p : Pkt) (c : Ctx), s.qi? q = some x → p.measured = true → s.ctx? x.ctx = some c →
    (s.consume q p).ctx? x.ctx = some { c with ext := c.ext + 1, chain := BitVec.ofNat 256 (natOf (sha256
      (bytesOf 32 c.chain.toNat ++ [0x50, 0x4B, 0x54, 0x53] ++ bytesOf 8 (bytesOfWords (p.hdr :: p.words)).length ++
        sha256 (bytesOfWords (p.hdr :: p.words))))) }) ∧
  (∀ (s : State) (q : Nat) (p : Pkt), p.event = false → s.pktDone q p 0 0 = s) ∧
  (∀ (s : State) (q : Nat) (p : Pkt), p.event = true → s.pktDone q p 0 0 =
    s.post q { source := 0xFFFF0000 + p.type, kind := 1, detail := p.index })

/-- Each packet at the head of its queue with its accesses allowed: NOP, LAUNCH (accepted or refused), IB_CALL, SET_HANDLE,
WRITE_DATA, WAIT_VALUE (satisfied at once or begun, and later), GRAPH_REG, GRAPH_DROP, FREQ_HINT and MEASURE act when they
are taken; SIGNAL, RECEIPT and FENCE when they are the oldest begun; a bad header stops the queue; a signature made is
written (R216, R381 to R384, R387 to R391, R397, R399). How they are split into steps is the model's (log 35). -/
def Obligations.Packets : Prop :=
  (∀ s q x p, s.Offers q 0x00 x p → exec (.nopPacket q) s = .next ((s.consume q p).pktDone q p 0 0)) ∧
  (∀ s q x p regions data, s.Offers q 0x01 x p → s.launchHeld x = false →
    s.judge (x.who q) p.words (descField p.words 2 2) false = .ok regions → s.boundless x.vd p.words = false →
    s.measuredData (x.who q) p.words (s.entry (x.who q) (descField p.words 2 2)) = .ok data →
    s.matcherRoom x.vd regions.length = true →
    ∃ t y task b, exec (.launch q) s = .next t ∧ t.qi? q = some y ∧ y.seq = x.seq + 1 ∧ y.begun = x.begun ++ [b] ∧
      b.type = 1 ∧ b.work = some s.nextId ∧ b.event = p.event ∧ t.task? s.nextId = some task ∧ task.ctx = x.ctx ∧
      task.qi = q ∧ task.number = x.taskNo 0 ∧ task.desc = p.words ∧ task.packet = p.index ∧ task.released = false ∧
      task.args = s.entry (x.who q) (descField p.words 2 2) ∧ task.gangsDone = 0) ∧
  (∀ s q x p cls, s.Offers q 0x01 x p → s.launchHeld x = false →
    s.judge (x.who q) p.words (descField p.words 2 2) false = .error (.fail cls) →
    exec (.launch q) s = .next (s.refuseLaunch q p cls)) ∧
  (∀ s q x p, s.Offers q 0x02 x p → p.measured = false → p.event = false → 0 < p.word 3 → x.ib = [] →
    ∃ t y, exec (.ibCall q) s = .next t ∧ t.qi? q = some y ∧ { t with qis := s.qis } = s ∧
      y.ib = [{ handle := p.word 0, off := p.wide 1, len := p.word 3, pos := 0 }] ∧
      y.pr = (x.pr + (1 + p.count)) % 2 ^ x.k) ∧
  (∀ s q x p e, s.Offers q 0x04 x p → s.pending = [] → s.inFlight x.ctx (p.word 0) = false →
    e = BitVec.ofNat 256 (natOf (bytesOfWords (p.words.drop 1))) →
    (s.entryOk x.vd e = true → s.ownersFit x.vd x.ctx (p.word 0) e = true → exec (.setHandle q) s = .next (((s.consume q p).onCtx x.ctx fun c =>
      { c with handles := put c.handles (p.word 0) e }).pktDone q p 0 0)) ∧
    (s.entryOk x.vd e = false ∨ s.ownersFit x.vd x.ctx (p.word 0) e = false → exec (.setHandle q) s = .next (((s.consume q p).onCtx x.ctx fun c =>
      { c with handles := put c.handles (p.word 0) 0 }).pktDone q p 1 0))) ∧
  (∀ s q x p, s.Offers q 0x05 x p →
    (∀ u, s.hubWrite (x.who q) (p.word 0) (p.wide 1) 4 (bytesOfWords (p.words.drop 3)) = .ok u →
      exec (.writeData q) s = .next ((u.consume q p).pktDone q p 0 0)) ∧
    (∀ cls, s.hubWrite (x.who q) (p.word 0) (p.wide 1) 4 (bytesOfWords (p.words.drop 3)) = .error (.fail cls) →
      exec (.writeData q) s = .next ((s.consume q p).pktDone q p 1 cls))) ∧
  (∀ s q x p bs, s.Offers q 0x06 x p → s.hubRead (x.who q) (p.word 0) (p.wide 1) 4 4 Entry.pr = .ok bs →
    (valueMeets (p.word 5) (w32 (natOf bs)) (w32 (p.word 3)) (w32 (p.word 4)) = true →
      exec (.waitValue q) s = .next ((s.consume q p).pktDone q p 0 0)) ∧
    (valueMeets (p.word 5) (w32 (natOf bs)) (w32 (p.word 3)) (w32 (p.word 4)) = false →
      exec (.waitValue q) s = .next ((s.consume q p).begin q p none))) ∧
  (∀ (s : State) q (x : Qi) (b : Packet) bs, s.qi? q = some x → x.begun.find? (fun b => b.type == 6) = some b → s.active x = true →
    s.hubRead (x.who q) (b.pkt.word 0) (b.pkt.wide 1) 4 4 Entry.pr = .ok bs →
    (valueMeets (b.pkt.word 5) (w32 (natOf bs)) (w32 (b.pkt.word 3)) (w32 (b.pkt.word 4)) = true →
      exec (.waitValueSatisfied q) s = .next (s.endBegun q b 0 0)) ∧
    (valueMeets (b.pkt.word 5) (w32 (natOf bs)) (w32 (b.pkt.word 3)) (w32 (b.pkt.word 4)) = false →
      exec (.waitValueSatisfied q) s = .next (s.onQi q Qi.clear))) ∧
  (∀ (w value mask : Word), (valueMeets 0 w value mask = true ↔ w &&& mask = value) ∧
    (valueMeets 1 w value mask = true ↔ w &&& mask ≠ value) ∧
    (valueMeets 2 w value mask = true ↔ value.toNat ≤ (w &&& mask).toNat) ∧
    (valueMeets 3 w value mask = true ↔ value.toInt ≤ (w &&& mask).toInt)) ∧
  (∀ s q x b u, s.Turn q 0x07 x b →
    s.hubWrite (x.who q) (b.pkt.word 0) (b.pkt.wide 1) 4 (bytesOf 4 (b.pkt.word 3)) = .ok u →
    exec (.signal q) s = .next (u.endBegun q b 0 0)) ∧
  (∀ s q x p g, s.Offers q 0x08 x p → s.graphOf (x.who q) x.vd p = .ok g → s.graphBusy x.vd (p.word 0) = false →
    exec (.graphReg q) s = .next ((((s.consume q p).onVd x.vd fun v => { v with graphs := put v.graphs (p.word 0) g }).onCtx
      x.ctx fun c => { c with quota := p.word 5, ovCap := p.word 6 }).pktDone q p 0 0)) ∧
  (∀ s q x p, s.Offers q 0x09 x p → exec (.graphDrop q) s = .next (((s.consume q p).onVd x.vd fun v =>
    { v with graphs := drop v.graphs (p.word 0) }).pktDone q p 0 0)) ∧
  (∀ s q x p, s.Offers q 0x0A x p → p.measured = false →
    (s.tenants.length ≠ 1 → exec (.freqHint q) s = .next ((s.consume q p).pktDone q p 0 0)) ∧
    (s.tenants.length = 1 → ∃ u : State, exec (.freqHint q) s = .next (u.pktDone q p 0 0) ∧
      (∀ v, s.vd? x.vd = some v → u.vd? x.vd = some { v with hint := some (p.word 0) }) ∧
      ∃ y : Qi, u.qi? q = some y ∧ y.hold = some s.time.toNat)) ∧
  (∀ s q x p bs, s.Offers q 0x0B x p → s.hubRead (x.who q) (p.word 0) (p.wide 1) (p.word 3) 1 Entry.pr = .ok bs →
    exec (.measurePacket q) s = .next (((s.consume q p).extend x.ctx (if p.word 4 = 1 then [0x43, 0x4F, 0x44, 0x45]
      else if p.word 4 = 2 then [0x41, 0x52, 0x47, 0x53] else [0x52, 0x53, 0x4C, 0x54]) bs).pktDone q p 0 0)) ∧
  (∀ s q x b leaf u, s.Turn q 0x0C x b → s.pkg.signing = [] → s.receiptCheck (x.who q) (b.pkt.word 0) (b.pkt.wide 1) = none →
    s.takeLeaf = some (leaf, u) → ∃ t g, exec (.receipt q) s = .next t ∧ { t with pkg := u.pkg } = u ∧
      t.pkg.signing = [g] ∧ g.qi = q ∧ g.leaf = leaf ∧ g.made = false ∧ g.handle = b.pkt.word 0 ∧ g.off = b.pkt.wide 1 ∧
      g.body = u.receiptBody q x (bytesOfWords (b.words.drop 3))) ∧
  (∀ s q x b cls, s.Turn q 0x0C x b → s.pkg.signing = [] →
    s.receiptCheck (x.who q) (b.pkt.word 0) (b.pkt.wide 1) = some cls →
    exec (.receipt q) s = .next (s.receiptDone q b 1 cls 0)) ∧
  (∀ s q x b, s.Turn q 0x0E x b → exec (.fencePacket q) s = .next (s.endBegun q b 0 0)) ∧
  (∀ s q x cls hdr, s.qi? q = some x → s.takes x = true → x.kicks = [] → s.head q x = .bad cls hdr →
    exec (.invalidPacket q) s = .next (s.stopQueue q cls x.index hdr)) ∧
  (∀ (s u : State) q (x : Qi) b g s1, s.qi? q = some x → s.pkg.signing.find? (fun g => g.qi == q) = some g → x.wait = Wait.none →
    s1 = s.onPkg (fun p => { p with signing := p.signing.map fun g => if g.qi = q then { g with made := true } else g }) →
    s1.hubWrite (x.who q) g.handle g.off 1 (receiptBytes g.leaf g.body) = .ok u → (u.signed q).qi? q = some x →
    x.begun.find? (fun b => b.type == 0x0C) = some b → (u.signed q).active x = true →
    exec (.receiptSignatureComplete q) s = .next ((u.signed q).receiptDone q b 0 0 g.leaf))

/-! ### The mailbox -/

/-- A command is ignored while BUSY is 1 and before the mailbox is served; one that RECOVERY or the alarm bars completes
with 0x03 or 0x04, an unknown opcode with 0x01, and the commands that the alarm lets through are the seven of R439; every
other command is accepted with BUSY and its tag and performed (R422, R424, R439). -/
def Obligations.MailboxAccepts : Prop :=
  (∀ (c : Byte → Instr) (op : Nat), (c, op) ∈ ([(.mgmtRing, 0x01), (.infoRead, 0x02), (.pkgReset, 0x03), (.vdCreate, 0x10),
      (.vdAdmit, 0x11), (.vdResize, 0x12), (.vdEvict, 0x13), (.vdReset, 0x14), (.vdDestroy, 0x15), (.ctxCreate, 0x20),
      (.ctxKill, 0x21), (.ctxDestroy, 0x22), (.ctxSetroot, 0x23), (.qiBind, 0x30), (.qiUnbind, 0x31), (.qiRestart, 0x32),
      (.alarmClear, 0x40), (.epSet, 0x60), (.dieReset, 0x61), (.rcptKey, 0x70)] : List ((Byte → Instr) × Nat)) →
    ∀ (s : State) (tag : Byte),
      (s.mailboxOn = false ∨ s.mb.busy = true ∧ s.mb.wait ≠ some .update → exec (c tag) s = .next s) ∧
      (∀ r, s.mailboxOn = true → s.mb.busy = false → s.barred op = some r →
        exec (c tag) s = .next ((s.accepted tag.toNat).mbDone r)) ∧
      (s.mailboxFree op → exec (c tag) s = .next ((s.accepted tag.toNat).perform op FwImage.empty))) ∧
  (∀ s : State, s.pkg.recovery = true → s.barred 0x10 = some 3 ∧ s.barred 0x02 = none ∧
    (s.mb.alarmLevel < 2 → s.barred 0x51 = none)) ∧
  (∀ (s : State) (op : Nat), s.pkg.recovery = false → 2 ≤ s.mb.alarmLevel → op < 0x10000 →
    (s.barred op = none ↔ op ∈ [0x02, 0x03, 0x15, 0x22, 0x31, 0x40, 0x70]) ∧ (s.barred op = none ∨ s.barred op = some 4)) ∧
  (∀ (s : State) (w : Word), s.mailboxOn = true → s.mb.busy = false → 0x71 ≤ bits w.toNat 15 0 →
    ∃ t, exec (.mailboxBadOpcode w) s = .next t ∧ t.mb.busy = false ∧ t.mb.result = 1 ∧ t.mb.tag = bits w.toNat 23 16 ∧
      { t with mb := s.mb } = s)

/-- MGMT_RING sets the ring with its pointers at 0, INFO_READ fills MBARG, PKG_RESET begins a package warm reset, RCPT_KEY
gives the key, FW_IMAGE begins a live update, FW_RECOVER writes a slot, ALARM_CLEAR clears the count, and the level unless
it is 3, EP_SET writes an endpoint, and DIE_RESET begins a die reset; each with its RESULT (R403, R424, R439, R451, R457).
-/
def Obligations.PackageCommands : Prop :=
  (∀ (s : State) (tag : Byte), s.mailboxFree 0x01 → 6 ≤ s.argN 2 → s.argN 2 ≤ 16 →
    ∃ t, exec (.mgmtRing tag) s = .next t ∧ t.Completed tag 0 ∧ t.mb.mgBase = some (s.argQ 0) ∧ t.mb.mgLog2 = s.argN 2 ∧
      t.mb.mgw = 0 ∧ t.mb.mgr = 0 ∧ { t with mb := s.mb } = s) ∧
  (∀ (s : State) (tag : Byte) (ws : List Word), s.mailboxFree 0x02 → s.info (s.argN 0) = some ws →
    ∃ t, exec (.infoRead tag) s = .next t ∧ t.Completed tag 0 ∧ t.mb.arg = ws ++ s.mb.arg.drop ws.length ∧
      { t with mb := s.mb } = s) ∧
  (∀ (s : State) (tag : Byte), s.mailboxFree 0x03 → s.pkg.signing = [] → ∃ t, exec (.pkgReset tag) s = .next t ∧ t.mb.busy = true ∧
      t.mb.wait = some .reset ∧ t.pkg.ready = false ∧ t.pkg.stage = 2 ∧ t.vds = [] ∧ t.ctxs = [] ∧ t.warps = [] ∧
      t.crews = [] ∧ t.mem = s.mem ∧ t.time = s.time ∧ t.pkg.slots = s.pkg.slots) ∧
  (∀ (s : State) (tag : Byte), s.mailboxFree 0x70 → s.pkg.keysErased = false → ∃ t, exec (.rcptKey tag) s = .next t ∧
      t.Completed tag 0 ∧ { t with mb := s.mb } = s ∧ t.mb.arg.take 15 = wordsOf receiptKey) ∧
  (∀ (s : State) (tag : Byte) (img : FwImage), s.mailboxFree 0x50 → s.pkg.standby = true → s.pkg.imageOk img = true →
    ∃ t u, exec (.fwImage tag img) s = .next t ∧ t.mb.busy = true ∧ t.mb.wait = some .update ∧ t.pkg.update = some u ∧
      u.image = img ∧ u.slot = 1 - s.pkg.runSlot ∧ u.phase = 0 ∧ t.pkg.standby = false ∧
      t.pkg.slots = setNth s.pkg.slots (1 - s.pkg.runSlot) (img.version, true)) ∧
  (∀ (s : State) (tag : Byte) (img : FwImage), s.mailboxFree 0x51 → s.pkg.recovery = true → s.argN 3 ≤ 1 →
    s.pkg.imageOk img = true → ∃ t, exec (.fwRecover tag img) s = .next t ∧ t.Completed tag 0 ∧
      t.pkg.slots = setNth s.pkg.slots (s.argN 3) (img.version, true)) ∧
  (∀ (s : State) (tag : Byte), s.mailboxFree 0x40 → s.mb.alarmLevel = 3 → ∃ t, exec (.alarmClear tag) s = .next t ∧
      t.Completed tag 0 ∧ t.mb.alarmCount = 0 ∧ t.mb.alarmLevel = 3) ∧
  (∀ (s : State) (tag : Byte), s.mailboxFree 0x40 → s.mb.alarmLevel ≠ 3 → (∀ e ∈ s.vds, e.2.state ≠ 4) →
    ∃ t, exec (.alarmClear tag) s = .next t ∧ t.Completed tag 0 ∧ t.mb.alarmCount = 0 ∧ t.mb.alarmLevel = 0) ∧
  (∀ (s : State) (tag : Byte) (e : BitVec 128), s.mailboxFree 0x60 → s.argN 0 < 512 →
    e = BitVec.ofNat 128 (s.argQ 1 + 2 ^ 64 * s.argQ 3) → endpointOk (s.argN 0) e = true →
    e.getLsbD 127 = false ∨ s.endpointGranted (s.argN 0) e = true →
    ∃ t, exec (.epSet tag) s = .next t ∧ t.Completed tag 0 ∧ look t.endpoints (s.argN 0) = some e ∧
      { t with mb := s.mb, endpoints := s.endpoints } = s) ∧
  (∀ (s : State) (tag : Byte), s.mailboxFree 0x61 → s.argN 0 < 4 → s.dies.length = 4 → (∀ n, n < 4 → (s.die n).step = 0) →
    (∃ n, n < 4 ∧ n ≠ s.argN 0 ∧ (s.die n).up = true) → s.residents = [] → ∃ t, exec (.dieReset tag) s = .next t ∧
      t.Completed tag 0 ∧ (t.die (s.argN 0)).up = false ∧ (t.die (s.argN 0)).step = 2 ∧ t.mem = s.mem)

/-- VD_CREATE, VD_ADMIT (admitted, or refused with 0x02 and unchanged), VD_RESIZE of a VD not resident, VD_EVICT, VD_RESET
and VD_DESTROY complete, or wait for the scrub, with the VD in its new state; the scrub leaves 0 in all memory of the VD and
every other byte as before (R425, R426, R431, R434, R444). Which clusters admission takes is the model's choice (log 9). -/
def Obligations.VirtualDeviceCommands : Prop :=
  (∀ (s : State) (tag : Byte) (vd : Nat) (c : VdConfig), s.mailboxFree 0x10 → parseConfig (bytesOfWords s.mb.arg) = some (vd, c) →
    s.vd? vd = none → s.firstQi vd = none →
    ∃ t, exec (.vdCreate tag) s = .next t ∧ t.Completed tag 0 ∧ t.vd? vd = some (Vd.fresh c)) ∧
  (∀ (s : State) (tag : Byte) (v : Vd) (a : Admitted), s.mailboxFree 0x11 → s.argN 0 < 1024 → s.vd? (s.argN 0) = some v →
    v.state = 1 → s.admission (s.argN 0) v.config = some a → s.firstQi (s.argN 0) = none →
    ∃ t v', exec (.vdAdmit tag) s = .next t ∧ t.Completed tag 0 ∧ t.vd? (s.argN 0) = some v' ∧ v'.state = 2 ∧
      v'.clusters = a.clusters ∧ v'.held = a.held ∧ v'.msixBase = a.msixBase ∧ v'.msixLen = a.msixLen ∧
      v'.config = v.config) ∧
  (∀ (s : State) (tag : Byte) (v : Vd), s.mailboxFree 0x11 → s.argN 0 < 1024 → s.vd? (s.argN 0) = some v → v.state = 1 →
    s.admission (s.argN 0) v.config = none →
    ∃ t, exec (.vdAdmit tag) s = .next t ∧ t.Completed tag 2 ∧ { t with mb := s.mb } = s) ∧
  (∀ (s : State) (tag : Byte) (vd : Nat) (c : VdConfig) (v : Vd), s.mailboxFree 0x12 →
    parseConfig (bytesOfWords s.mb.arg) = some (vd, c) → s.vd? vd = some v → v.state = 1 → s.firstQi vd = none →
    ∃ t, exec (.vdResize tag) s = .next t ∧ t.Completed tag 0 ∧ t.vd? vd = some { v with config := c }) ∧
  (∀ (s : State) (tag : Byte) (v : Vd), s.mailboxFree 0x13 → s.argN 0 < 1024 → s.vd? (s.argN 0) = some v → v.state = 2 →
    s.firstQi (s.argN 0) = none → s.gangs = [] → s.warps = [] →
    ∃ t v', exec (.vdEvict tag) s = .next t ∧ t.Completed tag 0 ∧ t.vd? (s.argN 0) = some v' ∧ v'.state = 1 ∧
      v'.clusters = [] ∧ v'.held = [] ∧ v'.config = v.config) ∧
  (∀ (s : State) (tag : Byte) (v : Vd), s.mailboxFree 0x14 → s.argN 0 < 1024 → s.vd? (s.argN 0) = some v → v.state = 2 →
    s.firstQi (s.argN 0) = none → s.ctxsOf (s.argN 0) = [] → s.mb.alarmLevel < 2 →
    ∃ t v', exec (.vdReset tag) s = .next t ∧ t.Completed tag 0 ∧ t.vd? (s.argN 0) = some v' ∧ v'.state = 2 ∧
      v'.clusters = v.clusters ∧ v'.held = v.held) ∧
  (∀ (s : State) (tag : Byte) (v : Vd), s.mailboxFree 0x15 → s.argN 0 < 1024 → s.vd? (s.argN 0) = some v → v.state = 2 →
    s.ctxsOf (s.argN 0) = [] →
    ∃ t v', exec (.vdDestroy tag) s = .next t ∧ t.mb.busy = true ∧ t.mb.wait = some (.scrub (s.argN 0)) ∧
      t.vd? (s.argN 0) = some v' ∧ v'.state = 3 ∧ ∀ q x, t.qi? q = some x → x.vd = s.argN 0 → x.bound = false) ∧
  (∀ (s : State) (vd : Nat), s.mb.wait = some (.scrub vd) → s.firstQi vd = none →
    ∃ t, exec (.vdScrubComplete vd) s = .next t ∧ t.mb.busy = false ∧ t.vd? vd = none ∧
      (∀ g ∈ Config.vdMemory vd, ∀ a, g.1 ≤ a → a < g.1 + g.2 → t.mem.read a = 0) ∧
      ∀ a, (∀ g ∈ Config.vdMemory vd, a < g.1 ∨ g.1 + g.2 ≤ a) → t.mem.read a = s.mem.read a)

/-- CTX_CREATE makes a context with its root, trap entry, PASID and measurement chain; CTX_KILL and CTX_DESTROY begin its
kill and wait for it; CTX_SETROOT changes the root, drops its translations and waits; QI_BIND binds an interface with its
rings at 0 when every argument is allowed; QI_UNBIND and QI_RESTART change it as they say (R37, R396, R413, R423, R435,
R436, R440). -/
def Obligations.ContextCommands : Prop :=
  (∀ (s : State) (tag : Byte) (root : Option Nat) (v : Vd), s.mailboxFree 0x20 → rootOf (s.argQ 2) = some root →
    s.argN 0 < 1024 → s.argN 1 < 64 → s.argN 4 < 4096 → s.vd? (s.argN 0) = some v → v.state = 2 →
    s.ctx? (ctxKey (s.argN 0) (s.argN 1)) = none →
    ∃ t x, exec (.ctxCreate tag) s = .next t ∧ t.Completed tag 0 ∧ t.ctx? (ctxKey (s.argN 0) (s.argN 1)) = some x ∧
      x.vd = s.argN 0 ∧ x.num = s.argN 1 ∧ x.root = root ∧ x.trapCode = s.argN 4 ∧ x.trapOff = w32 (s.argN 5) ∧
      x.handles = [] ∧ x.kill = none ∧ t.mb.arg = w32 x.pasid :: s.mb.arg.drop 1 ∧
      x.chain = BitVec.ofNat 256 (natOf (sha256 (bytesOf 2 (s.argN 0) ++ bytesOf 1 (s.argN 1))))) ∧
  (∀ (s : State) (tag : Byte) (c : Nat) (x : Ctx) (i : Byte → Instr) (op : Nat),
    (i, op) ∈ ([(.ctxKill, 0x21), (.ctxDestroy, 0x22)] : List ((Byte → Instr) × Nat)) → s.mailboxFree op →
    s.argN 0 < 1024 → s.argN 1 < 64 → c = ctxKey (s.argN 0) (s.argN 1) → s.ctx? c = some x → x.kill = none →
    (∀ e ∈ s.qis, e.2.records = []) →
    ∃ t, exec (i tag) s = .next t ∧ t.mb.busy = true ∧ t.mb.wait = some (.kills (s.argN 0) [c] op) ∧ t.runs c = false) ∧
  (∀ (s : State) (tag : Byte) (c : Nat) (x : Ctx) (root : Option Nat), s.mailboxFree 0x23 → rootOf (s.argQ 2) = some root →
    s.argN 0 < 1024 → s.argN 1 < 64 → c = ctxKey (s.argN 0) (s.argN 1) → s.ctx? c = some x → s.pending = [] →
    ∃ t, exec (.ctxSetroot tag) s = .next t ∧ t.mb.busy = true ∧ t.mb.wait = some (.inval c) ∧
      t.ctx? c = some { x with root } ∧ ∀ e ∈ t.tlb, e.ctx = c → e.host = true) ∧
  (∀ (s : State) (tag : Byte) (v : Vd) (x : Ctx) (ring ev : BitVec 256), s.mailboxFree 0x30 → s.argN 0 < 4096 →
    s.argN 1 < 1024 → s.argN 2 < 64 → s.argN 3 < 4096 → s.argN 7 < 4096 → 10 ≤ s.argN 6 → s.argN 6 ≤ 22 → 6 ≤ s.argN 10 →
    s.argN 10 ≤ 16 → bits (w32 (s.argN 11)).toNat 30 12 = 0 → s.vd? (s.argN 1) = some v → v.state = 2 →
    s.ctx? (ctxKey (s.argN 1) (s.argN 2)) = some x → (∀ y, s.qi? (s.argN 0) = some y → y.bound = false) →
    s.mayBind (s.argN 1) v (hubOfQi (s.argN 0)) (bits (w32 (s.argN 11)).toNat 11 0) = true →
    ring = (look x.handles (s.argN 3)).getD 0 → ev = (look x.handles (s.argN 7)).getD 0 →
    ringFits ring (s.argQ 4) (4 * 2 ^ s.argN 6) 4 (Entry.pr ring) = true →
    ringFits ev (s.argQ 8) (32 * 2 ^ s.argN 10) 32 (Entry.pw ev && Entry.kind ev != 0) = true →
    ∃ t y, exec (.qiBind tag) s = .next t ∧ t.Completed tag 0 ∧ t.qi? (s.argN 0) = some y ∧ y.bound = true ∧
      y.vd = s.argN 1 ∧ y.ctx = ctxKey (s.argN 1) (s.argN 2) ∧ y.ringH = s.argN 3 ∧ y.ringOff = s.argQ 4 ∧ y.k = s.argN 6 ∧
      y.evH = s.argN 7 ∧ y.evOff = s.argQ 8 ∧ y.e = s.argN 10 ∧ y.pw = 0 ∧ y.pr = 0 ∧ y.evw = 0 ∧ y.evr = 0 ∧
      y.stopped = false ∧ { t with mb := s.mb, qis := s.qis } = s) ∧
  (∀ (s : State) (tag : Byte) (x : Qi), s.argN 0 < 4096 → s.qi? (s.argN 0) = some x → x.bound = true → x.closing = false →
    (s.mailboxFree 0x31 → x.begun = [] → ∃ t, exec (.qiUnbind tag) s = .next t ∧ t.Completed tag 0 ∧
      t.qi? (s.argN 0) = some { x with stopped := true, kicks := [], bound := false }) ∧
    (s.mailboxFree 0x32 → ∃ t, exec (.qiRestart tag) s = .next t ∧ t.Completed tag 0 ∧
      t.qi? (s.argN 0) = some { x with stopped := false }))

/-! ### Registers that the host writes -/

/-- MGRPTR and FQRPTR take an index below the ring's size, MGDROP clears its count, QRESTART lets a stopped queue of its own
VD go on, INVSUB enters an invalidation, FRESP answers an open FID, and EVCTL, ALARMCFG, MBARG while no command runs, FPSEL
and FPTHR take their fields; nothing else changes (R415, R437). -/
def Obligations.HostRegisters : Prop :=
  (∀ (s : State) (v : Word), ∃ t, exec (.mgrptrWrite v) s = .next t ∧ { t with mb := s.mb } = s ∧
    t.mb = { s.mb with mgr := if v.toNat < 2 ^ s.mb.mgLog2 then v.toNat else s.mb.mgr }) ∧
  (∀ (s : State) (v : Word), ∃ t, exec (.mgdropClear v) s = .next t ∧ { t with mb := s.mb } = s ∧
    t.mb = { s.mb with mgDrop := if bits v.toNat 15 0 ≠ 0 then 0 else s.mb.mgDrop }) ∧
  (∀ (s : State) (vd : Nat) (v : Word) (x : Vd), s.vd? vd = some x → ∃ t, exec (.fqrptrWrite vd v) s = .next t ∧
    { t with vds := s.vds } = s ∧ t.vd? vd = some { x with fqr := if v.toNat < 2 ^ x.config.fqLog2 then v.toNat else x.fqr }) ∧
  (∀ (s : State) (vd : Nat) (v : Word) (x : Qi), s.qi? (bits v.toNat 11 0) = some x → x.bound = true →
    (x.vd = vd → ∃ t, exec (.qrestart vd v) s = .next t ∧ { t with qis := s.qis } = s ∧
      t.qi? (bits v.toNat 11 0) = some { x with stopped := false }) ∧
    (x.vd ≠ vd → exec (.qrestart vd v) s = .next s)) ∧
  (∀ (s : State) (vd : Nat) (v : DWord) (x : Ctx) (y : Vd) (e : BitVec 256), s.ctx? (ctxKey vd (bits v.toNat 63 58)) = some x →
    s.vd? vd = some y → e = (look x.handles (bits v.toNat 57 46)).getD 0 → Entry.valid e = true →
    Entry.space e = 0 ∨ Entry.space e = 4 → Entry.kind e = 3 → Entry.pr e = true → Entry.pw e = true →
    bits v.toNat 45 0 % 32 = 0 → bits v.toNat 45 0 + 32 ≤ Entry.length e →
    ∃ t i, exec (.invsub vd v) s = .next t ∧ t.vd? vd = some { y with invals := y.invals ++ [i] } ∧
      i.ctx = ctxKey vd (bits v.toNat 63 58) ∧ i.handle = bits v.toNat 57 46 ∧ i.off = bits v.toNat 45 0 ∧
      i.wait = Wait.none ∧ { t with vds := s.vds } = s) ∧
  (∀ (s : State) (vd : Nat) (v : Word) (x : Vd) (f : Fid), s.vd? vd = some x → look x.fids (bits v.toNat 23 0) = some f →
    (bits v.toNat 30 24 = 0 → exec (.fresp vd v) s = .next ((s.onVd vd fun x =>
      { x with fids := drop x.fids (bits v.toNat 23 0) }).wakePark (some (fidKey vd (bits v.toNat 23 0))) none f.ctx f.page
        false (bitOf v 31))) ∧
    (bits v.toNat 30 24 ≠ 0 → exec (.fresp vd v) s = .next s)) ∧
  (∀ (s : State) (q : Nat) (v : DWord) (x : Qi), s.qi? q = some x → s.ready = true → x.bound = true → x.closing = false →
    x.unsignalled = 0 → ∃ t, exec (.plainRegisterWrite (.evctl q) v) s = .next t ∧ { t with qis := s.qis } = s ∧
      t.qi? q = some { x with evctl := lo32 v }) ∧
  (∀ (s : State) (v : DWord), alarmLevelOf s.mb.alarmCount (lo32 v) ≤ s.mb.alarmLevel →
    ∃ t, exec (.plainRegisterWrite .alarmCfg v) s = .next t ∧ { t with mb := s.mb } = s ∧
      t.mb = { s.mb with alarmCfg := lo32 v }) ∧
  (∀ (s : State) (n : Nat) (v : DWord),
    (s.mb.busy = false → ∃ t, exec (.plainRegisterWrite (.mbarg n) v) s = .next t ∧ { t with mb := s.mb } = s ∧
      t.mb = { s.mb with arg := setNth s.mb.arg n (lo32 v) }) ∧
    (s.mb.busy = true → s.mb.wait ≠ some .update → exec (.plainRegisterWrite (.mbarg n) v) s = .next s)) ∧
  (∀ (s : State) (vd : Nat) (v : DWord) (x : Vd), s.vd? vd = some x → (s.ctx? (ctxKey vd (bits v.toNat 29 24))).isSome →
    ∃ t, exec (.plainRegisterWrite (.fpsel vd) v) s = .next t ∧ { t with vds := s.vds } = s ∧
      t.vd? vd = some { x with fpsel := lo32 v &&& 0x3F00001F#32 }) ∧
  (∀ (s : State) (vd : Nat) (v : DWord) (x : Vd) (c : Ctx), s.vd? vd = some x → bits x.fpsel.toNat 4 0 ≤ 23 →
    s.ctx? (ctxKey vd (bits x.fpsel.toNat 29 24)) = some c → ∃ t, exec (.plainRegisterWrite (.fpthr vd) v) s = .next t ∧
      { t with ctxs := s.ctxs } = s ∧ t.ctx? (ctxKey vd (bits x.fpsel.toNat 29 24)) =
        some { c with fpThr := put c.fpThr (bits x.fpsel.toNat 4 0) (v.toNat % 2 ^ 48) })

/-! ### Translation -/

/-- A walk that finds a translation caches it unless it is stale, and its waiters go on or learn how it failed; a deferred
fault gets its FID once there is room; a host page answered is cached, and one not there is asked for; an answer to a page
request replays its units or turns the interface off; an ATS invalidation drops what matches and is answered when nothing
uses it; an invalidation of a VD is done when the context is quiet; a host-backed page is fetched where a region is free
(R409, R411 to R414, R418 to R420). -/
def Obligations.TranslationEvents : Prop :=
  (∀ (s : State) (id : Nat) (w : Walk), look s.walks id = some w → w.host = false → w.phase = 0 →
    (∀ tr, s.walkTables w.ctx w.page w.acc = .ok tr → w.stale = false → exec (.pageWalkComplete id) s =
      .next (((s.dropWalk id).tlbFill
        (TlbEntry.mk w.ctx w.page false tr.frame tr.secure (tr.rights1 &&& tr.rights2))).wakeWalk id none)) ∧
    (∀ tr, s.walkTables w.ctx w.page w.acc = .ok tr → w.stale = true →
      exec (.pageWalkComplete id) s = .next ((s.dropWalk id).wakeWalk id none)) ∧
    (∀ f, s.walkTables w.ctx w.page w.acc = .error f → f ≠ .hostBacked →
      exec (.pageWalkComplete id) s = .next ((s.dropWalk id).wakeWalk id
        (some { ctx := w.ctx, page := w.page, acc := w.acc, host := false, out := f })))) ∧
  (∀ (s : State) (e : TlbEntry), (s.tlbFill e).tlb.head? = some e ∧ { s.tlbFill e with tlb := s.tlb } = s ∧
    ∀ x ∈ (s.tlbFill e).tlb, x = e ∨ x ∈ s.tlb) ∧
  (∀ (s : State) (vd : Nat) (v : Vd) (a : Agent) (f : Fid) (r : List (Agent × Fid)), s.vd? vd = some v → v.waiting = (a, f) :: r →
    v.fids.length < 1024 → v.fqFull = false → s.vdOf f.ctx = vd →
    v.fids.find? (fun e => e.2.ctx == f.ctx && e.2.page == f.va / 4096) = none →
    ∃ t v', exec (.faultRecordDeferredWrite vd) s = .next t ∧ t.vd? vd = some v' ∧ v'.waiting = r ∧
      ∃ e ∈ v'.fids, e.2.ctx = f.ctx ∧ e.2.page = f.va / 4096 ∧ e.2.cause = f.cause) ∧
  (∀ (s : State) (id : Nat) (w : Walk), look s.walks id = some w → w.host = true → w.phase = 0 → w.stale = false →
    (∀ frame rights, covers rights (needRights w.acc) = true → exec (.atsTranslationCompletion id (some (frame, rights))) s =
      .next ((((s.dropWalk id).tlbFill (TlbEntry.mk w.ctx w.page true frame false rights)).wakeWalk id none).wakePark none
        (some id) w.ctx w.page true false)) ∧
    exec (.atsTranslationCompletion id none) s = .next ((s.askPage id w).wakeWalk id
      (some { ctx := w.ctx, page := w.page, acc := w.acc, host := true, out := .hostBacked }))) ∧
  (∀ (s : State) (id : Nat) (w : Walk), s.mayAsk w.hub = true → (s.askPage id w).out = .pageRequest id :: s.out ∧
    look (s.askPage id w).walks id = some { w with phase := 1 }) ∧
  (∀ (s : State) (id : Nat) (w : Walk), look s.walks id = some w → w.host = true → w.phase = 1 →
    exec (.pageRequestGroupResponse id .success) s =
      .next (((s.dropWalk id).wakePark none (some id) w.ctx w.page true false).sendHeld w.hub) ∧
    exec (.pageRequestGroupResponse id .invalid) s =
      .next (((s.dropWalk id).wakePark none (some id) w.ctx w.page true true).sendHeld w.hub)) ∧
  (∀ (s : State) (id : Nat) (w : Walk) (h : Hub), s.walks = [(id, w)] → w.host = true → w.phase = 1 →
    s.hubs[w.hub]? = some h → (∀ e ∈ s.qis, e.2.records = []) →
    ∃ t h', exec (.pageRequestGroupResponse id .failure) s = .next t ∧ t.hubs[w.hub]? = some h' ∧ h'.priOff = true ∧
      t.walks = []) ∧
  (∀ (s : State) (hub : Nat) (h : Hub), s.hubs[hub]? = some h → ∃ t h', exec (.priReenable hub) s = .next t ∧
    t.hubs[hub]? = some h' ∧ h'.priOff = false ∧ t.mem = s.mem) ∧
  (∀ (s : State) (hub pasid page pages : Nat) (h : Hub), s.hubs[hub]? = some h → h.invals.length < 32 →
    ∃ t, exec (.atsInvalidationRequest hub pasid page pages) s = .next t ∧
      t.hubs[hub]? = some { h with invals := h.invals ++ [(pasid, page, pages)] } ∧
      (∀ e ∈ t.tlb, e ∈ s.tlb ∧ ¬ (e.host = true ∧ page ≤ e.page ∧ e.page < page + pages ∧ s.hasPasid e.ctx pasid = true)) ∧
      ∀ e ∈ s.tlb, e.host = false → e ∈ t.tlb) ∧
  (∀ (s : State) (hub pasid page pages : Nat) (h : Hub) (r : List (Nat × Nat × Nat)), s.hubs[hub]? = some h →
    h.invals = (pasid, page, pages) :: r →
    (s.exts = [] → ∃ t, exec (.atsInvalidationCompletion hub) s = .next t ∧ t.hubs[hub]? = some { h with invals := r } ∧
      t.out = .invalidationCompletion hub :: s.out) ∧
    (∀ e ∈ s.exts, ∀ a, e.2.loc = .host pasid a → exec (.atsInvalidationCompletion hub) s = .next s)) ∧
  (∀ (s : State) (vd : Nat) (v : Vd) (x : Inval) (xs : List Inval) (b : List Byte), s.vd? vd = some v → v.invals = x :: xs →
    x.wait = Wait.none → (∀ c, s.mb.wait ≠ some (.inval c)) →
    s.hubRead (s.controlWho vd x) x.handle x.off 32 32 (fun e => Entry.pr e && Entry.pw e) = .ok b →
    (s.invalOf vd b = none → exec (.invalidationComplete vd) s = .next (s.writeDone vd x 2)) ∧
    (∀ c range, s.invalOf vd b = some (c, range) → s.pending = [] → s.quiet c = true →
      exec (.invalidationComplete vd) s = .next ((s.invalidateCtx c range).writeDone vd x 1))) ∧
  (∀ (s : State) (c : Nat) (lo n : Nat), ∀ e ∈ (s.invalidateCtx c (some (lo, n))).tlb,
    e ∈ s.tlb ∧ ¬ (e.ctx = c ∧ e.host = false ∧ lo ≤ e.page ∧ e.page < lo + n)) ∧
  (∀ (s : State) (id : Nat) (w : Walk) (v : Vd) (victims : List Nat) (data : List Byte), look s.walks id = some w →
    w.host = false → w.phase = 2 → s.vd? (s.vdOf w.ctx) = some v → s.hbLeaf (s.vdOf w.ctx) v w.ctx w.page = none →
    exec (.hbPageServiceComplete id victims none data) s = .next (s.serviced id w false)) ∧
  (∀ (s : State) (id ipa level at_ e size : Nat) (w : Walk) (v : Vd) (data : List Byte), look s.walks id = some w →
    w.host = false → w.phase = 2 → s.vd? (s.vdOf w.ctx) = some v → s.hbLeaf (s.vdOf w.ctx) v w.ctx w.page = some ipa →
    leaf2 s.mem [0, 1, 2, 3] (Config.stage2Root (s.vdOf w.ctx)) ipa = some (level, at_, e) → size = 2 ^ (39 - 9 * level) →
    (s.regionless (s.vdOf w.ctx) size = true →
      exec (.hbPageServiceComplete id [] none data) s = .next (s.serviced id w true)) ∧
    (∀ r, s.pending = [] → s.regionFree (s.vdOf w.ctx) r size = true → data.length = size →
      exec (.hbPageServiceComplete id [] (some r) data) s =
        .next ((((s.storeFresh r data).store at_ (bytesOf 8 (setEntry e (r / 4096) true))).onVd (s.vdOf w.ctx) fun v =>
          { v with slots := put v.slots (ipa / size * size / 4096) (bits e 51 12) }).serviced id w false)))

/-! ### Links -/

/-- An answer with the length asked for, a poisoned, refused or missing one, ends its request for the agent that waits; a
read of a peer that an endpoint exposes to it is answered with the bytes, one that none exposes is refused; a poisoned
inbound request is reported; a CRC error of a flit changes nothing; a failed module trains the link again, which then has
one less (R226, R446, R449, R450, R452, R454). -/
def Obligations.LinkEvents : Prop :=
  (∀ (s : State) (id a p : Nat) (e : Ext) (data : List Byte), look s.exts id = some e → e.loc = .host p a →
    (data.length = e.kind.size → exec (.pcieCompletion id .ok data) s = .next (s.answerExt id e (.ok data))) ∧
    exec (.pcieCompletion id .poisoned data) s = .next (s.answerExt id e (.error Cls.dataCheck)) ∧
    exec (.pcieCompletion id .unsupported data) s = .next (s.answerExt id e (.error Cls.pageFatal)) ∧
    exec (.pcieCompletionTimeout id) s = .next (s.answerExt id e (.error (Cls.pageFatal + 256)))) ∧
  (∀ (s : State) (id v n a : Nat) (e : Ext) (data : List Byte), look s.exts id = some e → e.loc = .peer v n a →
    (data.length = e.kind.size → exec (.cihamResponse id .ok data) s = .next (s.answerExt id e (.ok data))) ∧
    exec (.cihamResponse id .perm data) s = .next (s.answerExt id e (.error Cls.perm)) ∧
    exec (.cihamRequestTimeout id) s = .next (s.answerExt id e (.error (Cls.pageFatal + 256)))) ∧
  (∀ (s : State) (id q : Nat) (x : Qi) (e : Ext) (data : List Byte), look s.exts id = some e → e.agent = .queue q →
    s.runs e.ctx = true → s.qi? q = some x → (drop s.exts id).any (fun y => y.2.group == e.group) = true →
    ∃ t : State, s.answerExt id e (.ok data) = t ∧ t.qi? q = some { x with extData := (e.loc, data) :: x.extData } ∧
      look t.exts id = none ∧ t.mem = s.mem) ∧
  (∀ (s : State) (r : PeerRequest), s.inbound = [] → s.exposed r = none → ∃ t, exec (.cihamInboundRequest r) s = .next t ∧
    t.out = .peerReply r.endpoint 1 [] :: s.out ∧ t.mem = s.mem ∧ t.inbound = []) ∧
  (∀ (s : State) (r : PeerRequest) (c h n : Nat) (bs : List Byte) (x : Inbound), s.inbound = [] → r.op = .read n →
    x = { req := r, wait := .none, answers := [], extData := [], extErr := [] } → s.exposed r = some (c, h) →
    ({ s with nextId := s.nextId + 1, inbound := [(s.nextId, x)] } : State).hubRead (s.peerWho s.nextId c x) h r.offset n
      (peerAlign n) (permits 1) = .ok bs →
    ∃ t, exec (.cihamInboundRequest r) s = .next t ∧ t.out = .peerReply r.endpoint 0 bs :: s.out ∧ t.mem = s.mem) ∧
  (∀ (s : State) (hub : Nat), exec (.inboundPoisonedRequest hub) s = .next { s with out := .aer hub :: s.out }) ∧
  (∀ (s : State) (link : Nat), exec (.flitCrcError link) s = .next s) ∧
  (∀ (s : State) (link : Nat), link ≤ 4 → (link < 4 → s.dieUp link = true) → 13 ≤ s.modules link →
    exec (.linkModuleFailure link) s = .next { s with training := link :: s.training }) ∧
  (∀ (s : State) (link : Nat), link < s.links.length → s.training.contains link = true → 12 ≤ s.modules link → s.residents = [] →
    ∃ t, exec (.linkRetrainComplete link) s = .next t ∧ t.links = setNth s.links link (s.modules link) ∧
      t.training = s.training.filter (fun n => n != link) ∧ t.mem = s.mem)

/-! ### Power, boot and firmware -/

/-- A cold reset leaves reset values, flash and fuses apart; a boot stage without failures leads to the next, admitting dies
after stage 0x04 and zeroing memory after 0x05, and READY is set after 0x06; with no bootable image the part is in RECOVERY.
FLR is a package warm reset once stage 0x04 is complete, held during a live update, and before that is not carried out. A
die at its throttle or trip threshold lowers the class, stops launches (also where the lowered class leaves it too hot) or
stops the clocks, and lets go when cool. A live update imports, once no packet of any queue is partly taken, takes over or
is rolled back after 2 ms; a standby takes over from a complex that fails (R12, R19 to R27, R401 to R404). -/
def Obligations.PowerBootAndFirmware : Prop :=
  (∀ s : State, ∃ t, exec .coldReset s = .next t ∧ t.bootstat = 0 ∧ t.mem = [] ∧ t.vds = [] ∧ t.ctxs = [] ∧ t.warps = [] ∧
    t.crews = [] ∧ t.time = 0 ∧ t.pkg.slots = s.pkg.slots ∧ t.pkg.rollback = s.pkg.rollback ∧
    t.pkg.reserved = s.pkg.reserved ∧ t.pkg.tripped = false) ∧
  (∀ (s : State) (r : BootResult), s.pkg.ready = false → s.pkg.tripped = false → s.pkg.recovery = false →
    s.pkg.dieless = false → r.fails = [] → s.pkg.stage < 7 → (s.pkg.stage = 1 → s.pkg.bootSlot.isSome) →
    ∃ t, exec (.bootStageComplete r) s = .next t ∧ t.pkg.stage = s.pkg.stage + 1 ∧
      (s.pkg.stage = 4 → (∀ d ∈ t.dies, d.up = true) ∧ t.pkg.cls = 2) ∧ (s.pkg.stage = 5 → t.mem = []) ∧
      (s.pkg.stage = 6 → t.pkg.ready = true) ∧ (s.pkg.stage ≠ 6 → t.pkg.ready = false)) ∧
  (∀ (s : State) (r : BootResult), s.pkg.ready = false → s.pkg.tripped = false → s.pkg.recovery = false →
    s.pkg.dieless = false → s.pkg.stage = 1 → s.pkg.bootSlot = none →
    ∃ t, exec (.bootStageComplete r) s = .next t ∧ t.pkg.recovery = true ∧ t.pkg.stage = 2) ∧
  (∀ s : State, 4 ≤ s.pkg.stage → s.pkg.update = none → s.pkg.signing = [] → ∃ t, exec .flr s = .next t ∧ t.pkg.ready = false ∧ t.pkg.stage = 2 ∧
    t.mb.busy = false ∧ t.vds = [] ∧ t.ctxs = [] ∧ t.warps = [] ∧ t.mem = s.mem ∧ t.time = s.time) ∧
  (∀ s : State, 4 ≤ s.pkg.stage → s.pkg.update.isSome → exec .flr s = .next (s.onPkg fun p => { p with resetHeld := true })) ∧
  (∀ s : State, s.pkg.stage < 4 → exec .flr s = .next s) ∧
  (∀ (s : State) (die temp : Nat), die < 6 → Config.throttleAt die ≤ temp →
    (s.pkg.cls ≤ 2 → s.pkg.clsTarget = none → s.residents = [] → ∃ t, exec (.throttleThresholdCrossed die temp) s = .next t ∧
      t.pkg.throttled = true ∧ t.mem = s.mem) ∧
    (2 < s.pkg.cls → s.pkg.clsTarget = none → ∃ t, exec (.throttleThresholdCrossed die temp) s = .next t ∧
      t.pkg.throttled = s.pkg.throttled ∧ t.pkg.capped = true ∧
      (s.pkg.clk100 ≠ 0 → ∃ c, t.pkg.clsTarget = some c ∧ c ≤ 2))) ∧
  (∀ (s : State) (die temp : Nat), die < 6 → temp < Config.throttleAt die → (s.sense die temp).pkg.hot = false →
    ∃ t, exec (.throttleRecovery die temp) s = .next t ∧ t.pkg.throttled = false ∧ t.pkg.capped = false) ∧
  (∀ (s : State) (die temp : Nat), die < 6 → Config.tripAt die ≤ temp → ∃ t, exec (.tripThresholdCrossed die temp) s = .next t ∧
    t.pkg.tripped = true ∧ t.out = .surpriseDown :: s.out) ∧
  (∀ (s : State) (c : Nat), s.pkg.clsTarget = some c → s.pkg.capped = false ∨ s.residents = [] →
    ∃ t, exec .clockClassChangeDone s = .next t ∧ t.pkg.cls = c ∧ t.pkg.clk100 = 16 + 4 * c ∧
      (c = 2 → ∀ e ∈ t.vds, e.2.hold = false) ∧
      (c ≤ 2 → s.pkg.capped = true → s.pkg.hotDies ≠ [] → t.pkg.throttled = true)) ∧
  (∀ (s : State) (u : Update), s.pkg.update = some u → u.phase = 0 →
    (u.image.imports = true → ((∀ e ∈ s.qis, e.2.partly = false) →
      ∃ t, exec (.standbyImportComplete true) s = .next t ∧ t.pkg.standby = true ∧
        t.pkg.update = some { u with phase := 1, since := s.time.toNat } ∧ { t with pkg := s.pkg } = s) ∧
      ∀ e ∈ s.qis, e.2.partly = true → e.2.stopped = false → exec (.standbyImportComplete true) s = .next s) ∧
    (s.pkg.resetHeld = false → s.mb.held = none → ∃ t, exec (.standbyImportComplete false) s = .next t ∧
      t.pkg.update = none ∧ t.pkg.standby = false ∧ t.mb.busy = false ∧ t.mb.result = 1 ∧
      t.pkg.activeHub = s.pkg.activeHub)) ∧
  (∀ (s : State) (u : Update), s.pkg.update = some u → u.phase = 1 → s.pkg.resetHeld = false → s.mb.held = none →
    (s.time.toNat ≤ u.since + 2000000 → s.pkg.signing = [] → ∃ t, exec .liveUpdateTakeover s = .next t ∧
      t.pkg.activeHub = 1 - s.pkg.activeHub ∧ t.pkg.runSlot = u.slot ∧ t.pkg.rollback = max s.pkg.rollback u.image.version ∧
      t.pkg.update = none ∧ t.mb.busy = false ∧ t.mb.result = 0) ∧
    (u.since + 2000000 ≤ s.time.toNat → ∃ t, exec .liveUpdateRollback s = .next t ∧
      t.pkg.activeHub = s.pkg.activeHub ∧ t.pkg.update = none ∧ t.mb.busy = false ∧ t.mb.result = 3)) ∧
  (∀ s : State, s.pkg.standby = true → s.pkg.update = none → s.pkg.ready = true → s.pkg.signing = [] →
    (∀ e ∈ s.qis, e.2.partly = false) → ∃ t, exec .activeComplexFailure s = .next t ∧
      t.pkg.activeHub = 1 - s.pkg.activeHub ∧ t.pkg.standby = false ∧ t.qis = s.qis ∧ t.mem = s.mem)

/-! ### Dies and kills -/

/-- The steps of a die's warm reset follow one another from the units saved to the die admitted again with its links at 24
modules, and step 4 waits until the die has answered every request that it accepted; a save past its deadline stops its
context; an isolated die is down and named by no directory entry; HBM channels leave and return; a clock glitch adds 16 to
the alarm; the end of a metering window changes nothing (R428, R439, R457 to R460). -/
def Obligations.DieEvents : Prop :=
  (∀ (s : State) (d : Nat), d < s.dies.length →
    ((s.die d).step = 2 → s.unitsOn d = [] → exec (.dieUnitsSaved d) s = .next (s.onDie d fun x => { x with step := 4 })) ∧
    ((s.die d).step = 4 → (s.die d).isolated = false →
      ((∀ e ∈ s.atoms, e.2.onDie d = false) → exec (.dieQuiesced d) s = .next (s.onDie d fun x => { x with step := 5 })) ∧
      ∀ e ∈ s.atoms, e.2.onDie d = true → exec (.dieQuiesced d) s = .next s) ∧
    ((s.die d).step = 4 → (s.die d).isolated = true → s.unanswered d = [] → (∀ e ∈ s.atoms, e.2.onDie d = false) → ∃ t, exec (.dieQuiesced d) s = .next t ∧
      (t.die d).step = 6 ∧ t.mem = s.mem) ∧
    ((s.die d).step = 5 → s.pending = [] → (∀ e ∈ s.wbuf, dieOf e.core ≠ d) → ∃ t, exec (.dieWritebackDone d) s = .next t ∧
      (t.die d).step = 6 ∧ (∀ e ∈ t.dir, d ∉ e.2.1) ∧ t.mem = s.mem) ∧
    ((s.die d).step = 6 → ∃ t, exec (.dieSelftestDone d true) s = .next t ∧ (t.die d).step = 7) ∧
    ((s.die d).step = 6 → s.residents = [] → ∃ t, exec (.dieSelftestDone d false) s = .next t ∧ (t.die d).step = 0 ∧
      (t.die d).up = (s.die d).up) ∧
    ((s.die d).step = 7 → s.residents = [] → ∃ t, exec (.dieLinkRetrained d true) s = .next t ∧ (t.die d).up = true ∧
      (t.die d).step = 0 ∧ (t.die d).isolated = false ∧ t.links = setNth s.links d 24)) ∧
  (∀ (s : State) (d : Nat) (u : UnitId) (p : Parts) (x : Preempt), s.parts u = some p →
    s.preempts.find? (fun x => x.unit == u) = some x → (s.die d).step = 2 → x.die = some d →
    x.start + s.deadline p ≤ s.cycleOf p.core → exec (.dieSaveDeadlineExpiry d u) s = .next (s.stopDie d p.ctx)) ∧
  (∀ (s : State) (d : Nat), d < s.dies.length → (s.die d).up = true → (s.die d).isolated = false → (s.die d).step = 0 →
    s.ctxs = [] → s.vds = [] → s.probes = [] → (∀ e ∈ s.qis, e.2.records = []) → ∃ t, exec (.dieIsolation d) s = .next t ∧
      (t.die d).up = false ∧ (t.die d).isolated = true ∧ (t.die d).step = 2 ∧ (∀ e ∈ t.dir, d ∉ e.2.1) ∧
      ∀ e ∈ t.wbuf, ¬ (dieOf e.core = d ∧ e.held.isSome)) ∧
  (∀ (s : State) (chan : Nat), chan < 512 →
    (chan ∉ s.pkg.chanOut → ∃ t, exec (.hbmChannelLeaveOrRejoin chan false) s = .next t ∧
      t.pkg.chanOut = s.pkg.chanOut ++ [chan] ∧ t.mb.capGen = (s.mb.capGen + 2) % 65536) ∧
    (chan ∈ s.pkg.chanOut → ∃ t, exec (.hbmChannelLeaveOrRejoin chan true) s = .next t ∧
      t.pkg.chanOut = s.pkg.chanOut.filter (· != chan) ∧ t.mb.capGen = (s.mb.capGen + 2) % 65536)) ∧
  (∀ (s : State) (hub : Nat), hub < 2 → exec (.clockSupplyGlitch hub) s = .next (s.alarm (4 + hub) 16)) ∧
  (∀ (s : State) (src n : Nat), alarmLevelOf (satAdd 0xFFFF s.mb.alarmCount n) s.mb.alarmCfg ≤ s.mb.alarmLevel →
    (s.alarm src n).mb.alarmCount = satAdd 0xFFFF s.mb.alarmCount n ∧ (s.alarm src n).mb.alarmLevel = s.mb.alarmLevel) ∧
  (∀ s : State, exec .meteringWindowEnd s = .next s)

/-- The first kill of a context marks it with status, class, source, PC and address, and later ones change nothing; an
engine that has drained is scrubbed of the context and marked done; one that has not by its timeout is reset; with all done
and the records written, the context is left without a kill, its handle table emptied where the command says so (R43, R440
to R443). -/
def Obligations.KillAndDrain : Prop :=
  (∀ (s : State) (c cls src qual : Nat) (pc : Word) (fa : DWord) (unit : Nat), s.runs c = true → cls ≠ Cls.world →
    cls ≠ Cls.killed → (∀ e ∈ s.qis, e.2.records = []) → ∃ k, ((s.stop c cls src qual pc fa unit).ctx? c).bind (·.kill) = some k ∧
      k.status = 1 ∧ k.cls = cls ∧ k.source = src ∧ k.fpc = pc ∧ k.faddr = fa ∧ k.done = 0) ∧
  (∀ (s : State) (c cls src qual : Nat) (pc : Word) (fa : DWord) (unit : Nat), s.runs c = false →
    s.stop c cls src qual pc fa unit = s) ∧
  (∀ (s : State) (c n : Nat) (x : Ctx) (k : Kill), s.ctx? c = some x → x.kill = some k → n < 10 → k.done.testBit n = false →
    s.drained c n = true → k.done ||| 2 ^ n ≠ 1023 → ∃ t, exec (.engineDrainDone c n) s = .next t ∧
      t.ctx? c = some { x with kill := some { k with done := k.done ||| 2 ^ n } } ∧
      (n = 2 → (∀ e ∈ t.warps, e.2.ctx ≠ c) ∧ (∀ e ∈ t.crews, e.2.ctx ≠ c) ∧ ∀ e ∈ t.gangs, e.2.ctx ≠ c) ∧
      (n = 3 → (∀ e ∈ t.wbuf, e.ctx ≠ c) ∧ ∀ e ∈ t.pending, e.ctx ≠ c) ∧ (n = 4 → ∀ e ∈ t.atoms, e.2.ctx ≠ c) ∧
      (n = 8 → ∀ e ∈ t.tlb, e.ctx ≠ c) ∧ (n = 9 → ∀ e ∈ t.exts, e.2.ctx ≠ c)) ∧
  (∀ (s : State) (c : Nat) (x : Ctx) (k : Kill), s.ctx? c = some x → x.kill = some k → k.done = 1023 → s.drained c 10 = true →
    s.mb.wait = none → ∃ t, exec (.engineDrainDone c 10) s = .next t ∧ t.ctx? c =
      some { x with kill := none, overflow := [], handles := if k.emptyTable then [] else x.handles }) ∧
  (∀ (s : State) (c n : Nat) (x : Ctx) (k : Kill), s.ctx? c = some x → x.kill = some k → n < 10 → k.done.testBit n = false →
    s.drained c n = false → k.start.toNat + drainTimeout n ≤ s.time.toNat → s.killAwaited c = false →
    exec (.killDrainTimeout c n) s = .next (((s.escalate c n).onKill c fun k =>
      { k with reset := k.reset ||| 2 ^ n }).engineDone c n))
end

