-- ==== Sys2Proof/Laws/Guard.lean ====
section
/-! SUPPORT. What serving the queue of a guard can do, said once: it writes guard words, answers requests and sends probes,
and touches nothing else. -/

namespace Sys2Proof.Machine

/-- Guard words, the directories, the waits for counters, the answers of guard requests and the probes apart, a state is
another. -/
def State.SameButGuards (s t : State) : Prop :=
  { t with mem := s.mem, warps := s.warps, images := s.images, patched := s.patched, dir := s.dir, dieDir := s.dieDir,
           guards := s.guards, probes := s.probes } = s

theorem State.SameButGuards.refl (s : State) : s.SameButGuards s := rfl

theorem State.SameButGuards.trans {s t u : State} (h : s.SameButGuards t) (k : t.SameButGuards u) : s.SameButGuards u := by
  unfold State.SameButGuards at *
  rw [← h, ← k]

theorem State.homeWrite_frame (s : State) (pa : Nat) (bs : List Byte) : s.SameButGuards (s.homeWrite pa bs) := rfl

theorem State.replyGuard_frame (s : State) (id status : Nat) : s.SameButGuards (s.replyGuard id status) := rfl

theorem State.grantGuard_frame (s : State) (id pa : Nat) (shared : Bool) : s.SameButGuards (s.grantGuard id pa shared) :=
  (s.homeWrite_frame pa _).trans (State.replyGuard_frame _ _ _)

theorem State.probe_frame (s : State) (line : Nat) (agent : Option Agent) : s.SameButGuards (s.probe line agent) := by
  unfold State.probe
  split
  · rfl
  · dsimp only
    split <;> rfl

theorem State.serveList_frame (pa : Nat) (rs : List (Nat × GuardReq)) (held : Bool) (s : State) :
    s.SameButGuards (State.serveList pa rs held s) := by
  induction rs generalizing s held with
  | nil => rfl
  | cons r rs ih =>
    obtain ⟨id, r⟩ := r
    simp only [State.serveList]
    repeat' split
    all_goals first
      | exact ih _ _
      | exact (State.replyGuard_frame _ _ _).trans (ih _ _)
      | exact (State.grantGuard_frame _ _ _ _).trans (ih _ _)

theorem State.serveGuard_frame (s : State) (pa : Nat) : s.SameButGuards (s.serveGuard pa) := by
  unfold State.serveGuard
  split
  · exact State.probe_frame s _ _
  · exact State.serveList_frame pa _ false s

theorem State.serveGuards_frame (s : State) (pas : List Nat) : s.SameButGuards (s.serveGuards pas) := by
  unfold State.serveGuards
  induction pas generalizing s with
  | nil => rfl
  | cons p ps ih => exact (s.serveGuard_frame p).trans (ih _)

theorem State.withdrawGuards_frame (s : State) (gone : GuardReq → Bool) : s.SameButGuards (s.withdrawGuards gone) :=
  State.SameButGuards.trans (t := { s with guards := keep s.guards fun _ g => !gone g }) rfl (State.serveGuards_frame _ _)

/-- Contexts, queue interfaces, virtual devices, tasks and the mailbox stand as they were. -/
theorem State.SameButGuards.rest {s t : State} (h : s.SameButGuards t) :
    t.ctxs = s.ctxs ∧ t.qis = s.qis ∧ t.vds = s.vds ∧ t.tasks = s.tasks ∧ t.mb = s.mb ∧ t.pkg = s.pkg ∧ t.crews = s.crews ∧
      t.gangs = s.gangs ∧ t.wbuf = s.wbuf ∧ t.pending = s.pending ∧ t.atoms = s.atoms := by
  unfold State.SameButGuards at h
  rw [← h]
  exact ⟨rfl, rfl, rfl, rfl, rfl, rfl, rfl, rfl, rfl, rfl, rfl⟩

end Sys2Proof.Machine
end

