-- ==== Sys2Proof/Laws/Store.lean ====
section
/-! SUPPORT. The laws of sparse stores, of lists changed by index, and of device memory: a read after a write, and the
canonical form kept by every memory operation. -/

namespace Sys2Proof.Machine

/-! ### Sparse stores -/

variable {α : Type}

@[simp] theorem look_put_self (m : SMap α) (n : Nat) (x : α) : look (put m n x) n = some x := by
  induction m with
  | nil => simp [put, look]
  | cons e r ih =>
    obtain ⟨k, v⟩ := e
    by_cases h1 : n < k
    · simp [put, look, h1]
    · by_cases h2 : n = k
      · simp [put, look, h2]
      · have h3 : ¬ k = n := fun h => h2 h.symm
        simp [put, look, h1, h2, h3, ih]

theorem look_put_ne (m : SMap α) {n k : Nat} (x : α) (h : k ≠ n) : look (put m n x) k = look m k := by
  have h' : ¬ n = k := fun e => h e.symm
  induction m with
  | nil => simp [put, look, h']
  | cons e r ih =>
    obtain ⟨j, v⟩ := e
    by_cases h1 : n < j
    · simp [put, look, h1, h']
    · by_cases h2 : n = j
      · subst h2; simp [put, look, h']
      · by_cases h3 : j = k
        · subst h3; simp [put, look, h1, h2]
        · simp [put, look, h1, h2, h3, ih]

theorem look_adjust_self (m : SMap α) (n : Nat) (g : α → α) : look (adjust m n g) n = (look m n).map g := by
  cases h : look m n <;> simp [adjust, h]

theorem look_adjust_ne (m : SMap α) {n k : Nat} (g : α → α) (h : k ≠ n) : look (adjust m n g) k = look m k := by
  cases e : look m n
  · simp [adjust, e]
  · simp [adjust, e, look_put_ne m _ h]

theorem look_drop_self (m : SMap α) (n : Nat) : look (drop m n) n = none := by
  induction m with
  | nil => rfl
  | cons e r ih =>
    obtain ⟨k, v⟩ := e
    unfold drop at ih ⊢
    rw [List.filter_cons]
    by_cases h : k = n
    · simpa [h] using ih
    · simpa [h, look] using ih

theorem look_drop_ne (m : SMap α) {n k : Nat} (h : k ≠ n) : look (drop m n) k = look m k := by
  induction m with
  | nil => rfl
  | cons e r ih =>
    obtain ⟨j, v⟩ := e
    unfold drop at ih ⊢
    rw [List.filter_cons]
    by_cases h1 : j = n
    · have h2 : ¬ n = k := fun e => h e.symm
      simpa [h1, look, h2] using ih
    · by_cases h2 : j = k
      · subst h2; simp [h1, look]
      · simp [h1, look, h2, ih]

theorem look_mapS {β : Type} (m : SMap α) (g : Nat → α → β) (n : Nat) :
    look (m.map fun e => (e.1, g e.1 e.2)) n = (look m n).map (g n) := by
  induction m with
  | nil => rfl
  | cons e r ih =>
    obtain ⟨k, v⟩ := e
    by_cases h : k = n
    · subst h; simp [look]
    · simp [look, h, ih]

@[simp] theorem look_mapS' (m : SMap α) (g : Nat → α → α) (n : Nat) : look (mapS m g) n = (look m n).map (g n) :=
  look_mapS m g n

/-! ### Lists changed by index -/

@[simp] theorem length_mapIx {β : Type} (g : Nat → α → β) (n : Nat) (xs : List α) : (mapIx g n xs).length = xs.length := by
  induction xs generalizing n with
  | nil => rfl
  | cons x r ih => simp [mapIx, ih]

theorem getElem?_mapIx {β : Type} (g : Nat → α → β) (n : Nat) (xs : List α) (l : Nat) :
    (mapIx g n xs)[l]? = xs[l]?.map (g (n + l)) := by
  induction xs generalizing n l with
  | nil => simp [mapIx]
  | cons x r ih =>
    cases l with
    | zero => simp [mapIx]
    | succ l => simp [mapIx, ih, Nat.add_comm, Nat.add_left_comm]

/-! ### Device memory -/

theorem Memory.wf_tail {c : Host.Cell} {m : Memory} (h : Memory.wf (c :: m) = true) : Memory.wf m = true := by
  cases m with
  | nil => rfl
  | cons d r => simp [Memory.wf] at h; exact h.2

/-- Below the first cell of a canonical memory nothing is listed. -/
theorem Memory.read_below {m : Memory} {a : Nat} (h : m.wf = true) (ha : ∀ c ∈ m.head?, a < c.1) : m.read a = unlisted := by
  induction m with
  | nil => rfl
  | cons c r ih =>
    have hc : a < c.1 := ha c (by simp)
    have hne : ¬ c.1 = a := by omega
    have hr : Memory.read r a = unlisted := by
      apply ih (Memory.wf_tail h)
      intro d hd
      cases r with
      | nil => simp at hd
      | cons d' r' =>
        simp at hd; subst hd
        simp [Memory.wf] at h
        omega
    obtain ⟨k, b⟩ := c
    simpa [Memory.read, hne] using hr

theorem Memory.read_write_self {m : Memory} (h : m.wf = true) (a : Nat) (b : Byte) : (m.write a b).read a = b := by
  induction m with
  | nil => by_cases hb : b = unlisted <;> simp [Memory.write, Memory.read, hb]
  | cons c r ih =>
    obtain ⟨k, v⟩ := c
    by_cases h1 : a < k
    · by_cases hb : b = unlisted
      · simp only [Memory.write, h1, hb, if_true]
        exact Memory.read_below h (by simp; exact h1)
      · simp [Memory.write, h1, hb, Memory.read]
    · by_cases h2 : a = k
      · subst h2
        by_cases hb : b = unlisted
        · have : Memory.read r a = unlisted := by
            apply Memory.read_below (Memory.wf_tail h)
            intro d hd
            cases r with
            | nil => simp at hd
            | cons d' r' =>
              simp at hd; subst hd
              simp [Memory.wf] at h
              exact h.1.2
          simp [Memory.write, hb, this]
        · simp [Memory.write, hb, Memory.read]
      · have h3 : ¬ k = a := fun e => h2 e.symm
        simp [Memory.write, h1, h2, Memory.read, h3, ih (Memory.wf_tail h)]

theorem Memory.read_write_ne (m : Memory) {a k : Nat} (b : Byte) (h : k ≠ a) : (m.write a b).read k = m.read k := by
  have h' : ¬ a = k := fun e => h e.symm
  induction m with
  | nil => by_cases hb : b = unlisted <;> simp [Memory.write, Memory.read, hb, h']
  | cons c r ih =>
    obtain ⟨j, v⟩ := c
    by_cases h1 : a < j
    · by_cases hb : b = unlisted <;> simp [Memory.write, h1, hb, Memory.read, h']
    · by_cases h2 : a = j
      · subst h2
        by_cases hb : b = unlisted <;> simp [Memory.write, hb, Memory.read, h']
      · by_cases h3 : j = k
        · subst h3; simp [Memory.write, h1, h2, Memory.read]
        · simp [Memory.write, h1, h2, Memory.read, h3, ih]

/-- The canonical form, by its head. -/
theorem Memory.wf_cons (c : Host.Cell) (m : Memory) :
    Memory.wf (c :: m) = true ↔ c.2 ≠ unlisted ∧ (∀ d ∈ m.head?, c.1 < d.1) ∧ m.wf = true := by
  cases m with
  | nil => simp [Memory.wf]
  | cons d r => simp [Memory.wf, and_assoc]

theorem Memory.write_head (m : Memory) (a : Nat) (b : Byte) (n : Nat) (hn : n < a) (hm : ∀ d ∈ m.head?, n < d.1)
    (h : m.wf = true) : ∀ d ∈ (m.write a b).head?, n < d.1 := by
  cases m with
  | nil => by_cases hb : b = unlisted <;> simp [Memory.write, hb, hn]
  | cons c r =>
    obtain ⟨k, v⟩ := c
    have hk : n < k := by simpa using hm (k, v)
    by_cases h1 : a < k
    · by_cases hb : b = unlisted <;> simp [Memory.write, h1, hb, hk, hn]
    · by_cases h2 : a = k
      · subst h2
        by_cases hb : b = unlisted
        · intro d hd
          have := ((Memory.wf_cons _ _).1 h).2.1 d (by simpa [Memory.write, hb] using hd)
          simp at this; omega
        · simp [Memory.write, hb, hn]
      · simp [Memory.write, h1, h2, hk]

theorem Memory.wf_write {m : Memory} (h : m.wf = true) (a : Nat) (b : Byte) : (m.write a b).wf = true := by
  induction m with
  | nil => by_cases hb : b = unlisted <;> simp [Memory.write, hb, Memory.wf]
  | cons c r ih =>
    obtain ⟨k, v⟩ := c
    obtain ⟨hv, hh, hr⟩ := (Memory.wf_cons _ _).1 h
    by_cases h1 : a < k
    · by_cases hb : b = unlisted
      · simpa [Memory.write, h1, hb] using h
      · simp only [Memory.write, h1, hb, if_true, if_false]
        exact (Memory.wf_cons _ _).2 ⟨hb, by simp; exact h1, h⟩
    · by_cases h2 : a = k
      · subst h2
        by_cases hb : b = unlisted
        · simpa [Memory.write, hb] using hr
        · simp only [Memory.write, hb, if_false, lt_irrefl, if_true]
          exact (Memory.wf_cons _ _).2 ⟨hb, hh, hr⟩
      · simp only [Memory.write, h1, h2, if_false]
        exact (Memory.wf_cons _ _).2 ⟨hv, Memory.write_head r a b k (by omega) hh hr, ih hr⟩

theorem Memory.wf_writeN {m : Memory} (h : m.wf = true) (a : Nat) (bs : List Byte) : (m.writeN a bs).wf = true := by
  induction bs generalizing m a with
  | nil => exact h
  | cons b r ih => exact ih (Memory.wf_write h a b) (a + 1)

theorem Memory.read_writeN_out (m : Memory) (a : Nat) (bs : List Byte) {k : Nat} (hk : k < a ∨ a + bs.length ≤ k) :
    (m.writeN a bs).read k = m.read k := by
  induction bs generalizing m a with
  | nil => rfl
  | cons b r ih =>
    simp only [List.length_cons] at hk
    rw [Memory.writeN, ih (m.write a b) (a + 1) (by omega), Memory.read_write_ne m b (by omega)]

theorem Memory.read_writeN_in {m : Memory} (h : m.wf = true) (a : Nat) (bs : List Byte) {n : Nat} (hn : n < bs.length) :
    (m.writeN a bs).read (a + n) = bs[n] := by
  induction bs generalizing m a n with
  | nil => simp at hn
  | cons b r ih =>
    cases n with
    | zero =>
      rw [Memory.writeN, Memory.read_writeN_out _ _ _ (by omega)]
      simpa using Memory.read_write_self h a b
    | succ n =>
      have := ih (Memory.wf_write h a b) (a + 1) (n := n) (by simpa using hn)
      rw [Memory.writeN, show a + (n + 1) = a + 1 + n by omega, this]
      simp

theorem Memory.head_filter (m : Memory) (p : Host.Cell → Bool) (n : Nat) (hm : ∀ d ∈ m.head?, n < d.1) (h : m.wf = true) :
    ∀ d ∈ (m.filter p).head?, n < d.1 := by
  induction m with
  | nil => simp
  | cons c r ih =>
    have hc : n < c.1 := hm c (by simp)
    obtain ⟨-, hh, hr⟩ := (Memory.wf_cons _ _).1 h
    by_cases hp : p c = true
    · simp [List.filter, hp, hc]
    · simp only [List.filter, hp]
      exact ih (fun d hd => by have := hh d hd; omega) hr

theorem Memory.wf_filter {m : Memory} (h : m.wf = true) (p : Host.Cell → Bool) : Memory.wf (m.filter p) = true := by
  induction m with
  | nil => rfl
  | cons c r ih =>
    obtain ⟨hv, hh, hr⟩ := (Memory.wf_cons _ _).1 h
    by_cases hp : p c = true
    · simp only [List.filter, hp]
      exact (Memory.wf_cons _ _).2 ⟨hv, Memory.head_filter r p c.1 hh hr, ih hr⟩
    · simp only [List.filter, hp]
      exact ih hr

theorem Memory.wf_zero {m : Memory} (h : m.wf = true) (a n : Nat) : (m.zero a n).wf = true := Memory.wf_filter h _

theorem Memory.read_zero (m : Memory) (a n k : Nat) :
    (m.zero a n).read k = if a ≤ k ∧ k < a + n then unlisted else m.read k := by
  induction m with
  | nil => simp [Memory.zero, Memory.read]
  | cons c r ih =>
    obtain ⟨j, v⟩ := c
    unfold Memory.zero at ih ⊢
    rw [List.filter_cons]
    split
    · rename_i h1
      have h1' : ¬ (a ≤ j ∧ j < a + n) := by simp at h1; omega
      by_cases h2 : j = k
      · subst h2; simp [Memory.read, h1']
      · simpa [Memory.read, h2] using ih
    · rename_i h1
      have h1' : a ≤ j ∧ j < a + n := by simp at h1; omega
      rw [ih]
      by_cases h2 : j = k
      · subst h2; simp [h1']
      · simp [Memory.read, h2]

end Sys2Proof.Machine
end

