-- ==== Sys2Proof/Laws/Issue.lean ====
section
/-! SUPPORT. What the issue of an instruction does (R83), and the laws of the ways an instruction ends: each says once all
that the operation changes. -/

namespace Sys2Proof.Machine

open Host (Outcome)

/-! ### Lanes of a warp -/

theorem Warp.lane_onLanes (w : Warp) (g : Nat → Lane → Lane) (l : Nat) (hl : l < w.lanes.length) :
    (w.onLanes g).lane l = g l (w.lane l) := by
  have h : (mapIx g 0 w.lanes)[l]? = (w.lanes[l]?).map (g l) := by simpa using getElem?_mapIx g 0 w.lanes l
  simp [Warp.onLanes, Warp.lane, List.getD_eq_getElem?_getD, h, List.getElem?_eq_getElem hl]

@[simp] theorem Warp.length_onLanes (w : Warp) (g : Nat → Lane → Lane) : (w.onLanes g).lanes.length = w.lanes.length :=
  length_mapIx g 0 w.lanes

theorem Warp.lane_onMask (w : Warp) (m : Word) (g : Nat → Lane → Lane) (l : Nat) (hl : l < w.lanes.length) :
    (w.onMask m g).lane l = if bitOf m l then g l (w.lane l) else w.lane l :=
  Warp.lane_onLanes w _ l hl

@[simp] theorem Warp.length_onMask (w : Warp) (m : Word) (g : Nat → Lane → Lane) :
    (w.onMask m g).lanes.length = w.lanes.length := length_mapIx _ 0 w.lanes

/-! ### One warp or one crew changed -/

theorem State.warp?_onWarp (s : State) (c k : Nat) (g : Warp → Warp) :
    (s.onWarp c k g).warp? c k = (s.warp? c k).map g := look_adjust_self s.warps _ g

theorem State.onWarp_only (s : State) (c k : Nat) (g : Warp → Warp) : OnlyWarp s (s.onWarp c k g) c k where
  rest := rfl
  others _ hj := look_adjust_ne s.warps g hj
  memory _ := rfl

theorem State.crew?_onCrew (s : State) (c k : Nat) (g : Crew → Crew) :
    (s.onCrew c k g).crew? c k = (s.crew? c k).map g := look_adjust_self s.crews _ g

theorem State.onCrew_only (s : State) (c k : Nat) (g : Crew → Crew) : OnlyCrew s (s.onCrew c k g) c k where
  rest := rfl
  others _ hj := look_adjust_ne s.crews g hj
  memory _ := rfl

/-! ### Going past -/

theorem Iss.passed_advance (i : Iss) (w : Warp) : i.Passed w (w.advance i.grp i.f).counted where
  same := rfl
  instr := rfl
  count := by simp [Warp.counted, Warp.advance]
  gone l hl hb := by
    have := Warp.lane_onMask w i.grp (fun _ x =>
      { x with pc := x.pc + i.f.step, wait := .none, hold := false, age := 0, answers := [], extData := [], extErr := [],
               lastSp := if i.f.live.isSome then i.f.live else x.lastSp }) l hl
    rw [hb] at this
    exact this
  stay l hl hb := by
    have := Warp.lane_onMask w i.grp (fun _ x =>
      { x with pc := x.pc + i.f.step, wait := .none, hold := false, age := 0, answers := [], extData := [], extErr := [],
               lastSp := if i.f.live.isSome then i.f.live else x.lastSp }) l hl
    rw [hb] at this
    exact this

theorem Iss.commitWarp_ended {i : Iss} {s : State} (h : s.warp? i.core i.slot = some i.w) (g : Warp → Warp) :
    Ended s (i.commitWarp s g) i (g i.w) :=
  ⟨State.onWarp_only s _ _ _, _, by simp [Iss.commitWarp, State.warp?_onWarp, h], i.passed_advance (g i.w)⟩

theorem Iss.commit_ended {i : Iss} {s : State} (h : s.warp? i.core i.slot = some i.w) (g : Nat → Lane → Lane) :
    Ended s (i.commit s g) i (i.w.onMask i.act g) :=
  i.commitWarp_ended h fun w => w.onMask i.act g

/-! ### Registers of a lane -/

theorem Lane.setV_self (x : Lane) (r : Nat) (v : Word) : look (x.setV r v).v r = some v := look_put_self x.v r v

theorem Lane.setV_ne (x : Lane) {r k : Nat} (v : Word) (h : k ≠ r) : look (x.setV r v).v k = look x.v k :=
  look_put_ne x.v v h

/-- A lane with a register or pair written is otherwise as it was. -/
theorem Lane.setW_rest (x : Lane) (wide : Bool) (r : Nat) (v : DWord) :
    { x.setW wide r v with v := x.v, bad := x.bad, marks := x.marks } = x := by
  cases wide <;> rfl

theorem Iss.write_holds (i : Iss) (wide : Bool) (v : Nat → DWord) :
    i.Holds wide i.f.d.toNat v (i.w.onMask i.act fun l x => x.setW wide i.f.d.toNat (v l)) where
  same := rfl
  count := by simp
  low l hl hb := by
    rw [Warp.lane_onMask _ _ _ l hl, hb]
    cases wide
    · exact Lane.setV_self _ _ _
    · exact (Lane.setV_ne _ _ (by omega)).trans (Lane.setV_self _ _ _)
  high hw l hl hb := by
    subst hw
    rw [Warp.lane_onMask _ _ _ l hl, hb]
    exact Lane.setV_self _ _ _
  regs l r hl h1 h2 := by
    rw [Warp.lane_onMask _ _ _ l hl]
    by_cases hb : bitOf i.act l = true
    · rw [hb]
      cases wide
      · exact Lane.setV_ne _ _ h1
      · exact (Lane.setV_ne _ _ (h2 rfl)).trans (Lane.setV_ne _ _ h1)
    · simp [hb]
  stay l hl hb := by rw [Warp.lane_onMask _ _ _ l hl]; simp [hb]
  rest l hl := by
    rw [Warp.lane_onMask _ _ _ l hl]
    by_cases hb : bitOf i.act l = true
    · rw [hb]; exact Lane.setW_rest _ _ _ _
    · simp [hb]

/-- All that a lane instruction which writes a register does. -/
theorem Iss.write_wrote {i : Iss} {s : State} (h : s.warp? i.core i.slot = some i.w) (wide : Bool) (v : Nat → DWord) :
    Wrote s (i.write s wide v) i wide v :=
  ⟨_, i.write_holds wide v, i.commit_ended h _⟩

/-- All that a lane instruction which writes a mask register does. -/
theorem Iss.writeMask_wrote {i : Iss} {s : State} (h : s.warp? i.core i.slot = some i.w) (p : Nat → Bool) :
    WroteMask s (i.writeMask s p) i (i.maskBits p) :=
  i.commitWarp_ended h fun w => w.setM i.f.d.toNat ((w.m.getD i.f.d.toNat 0 &&& ~~~i.act) ||| (i.act &&& maskOf p))

/-! ### Producers -/

theorem Lane.mark_rest (x : Lane) (r : Nat) : { x.mark r with marks := x.marks } = x := rfl

theorem Lane.marks_rest (rs : List Nat) (x : Lane) :
    { rs.foldl (fun (x : Lane) r => x.mark r) x with marks := x.marks } = x := by
  induction rs generalizing x with
  | nil => rfl
  | cons r rs ih =>
    have h := ih (x.mark r)
    have : { rs.foldl (fun (x : Lane) r => x.mark r) (x.mark r) with marks := x.marks }
        = { ({ rs.foldl (fun (x : Lane) r => x.mark r) (x.mark r) with marks := (x.mark r).marks } : Lane) with
            marks := x.marks } := rfl
    rw [List.foldl_cons, this, h]
    rfl

/-- All that a lane instruction which ends as a producer does. -/
theorem Iss.produce_produced {i : Iss} {s : State} (h : s.warp? i.core i.slot = some i.w)
    (vals : List (Nat × Nat × DWord)) (flags : List (Nat × Bool × Bool)) :
    Produced s (i.produce s vals flags) i vals flags := by
  have h' : ({ s with nextId := s.nextId + 1 } : State).warp? i.core i.slot = some i.w := h
  obtain ⟨h1, h2⟩ := i.commitWarp_ended h' (fun w =>
    { w.markAll i.act (destRegs .lane i.eng i.op i.f) with
      empty := ((w.markAll i.act (destRegs .lane i.eng i.op i.f)).empty ++ destRegs .lane i.eng i.op i.f).dedup,
      prods := (w.markAll i.act (destRegs .lane i.eng i.op i.f)).prods ++
        [{ id := s.nextId, regs := destRegs .lane i.eng i.op i.f, vals, replies := 0, flags }] })
  refine ⟨_, h1, h2, rfl, fun r => ?_, rfl, ?_, fun l hl => ?_⟩
  · simp [Warp.markAll, Warp.onMask, Warp.onLanes]
  · simp [Warp.markAll]
  · show { (i.w.onMask i.act fun _ x => (destRegs .lane i.eng i.op i.f).foldl (fun (x : Lane) r => x.mark r) x).lane l with
      marks := (i.w.lane l).marks } = i.w.lane l
    rw [Warp.lane_onMask _ _ _ l hl]
    by_cases hb : bitOf i.act l = true
    · rw [hb]; exact Lane.marks_rest _ _
    · simp [hb]

theorem Iss.produceWide_produced {i : Iss} {s : State} (h : s.warp? i.core i.slot = some i.w) (wide : Bool)
    (v : Nat → DWord) : Produced s (i.produceWide s wide v) i (i.laneVals wide v) [] := i.produce_produced h _ _

/-! ### The lead thread -/

theorem LIss.commit_became {i : LIss} {s : State} (h : s.crew? i.core i.slot = some i.c) (g : Lead → Lead) :
    LeadBecame s (i.commit s g) i ((g i.c.lead).past i.f) :=
  ⟨State.onCrew_only s _ _ _, by
    show (s.onCrew i.core i.slot _).crew? i.core i.slot = _
    rw [State.crew?_onCrew, h]; rfl⟩

theorem LIss.onLead_became {i : LIss} {s : State} (h : s.crew? i.core i.slot = some i.c) (g : Lead → Lead) :
    LeadBecame s (s.onLead i.core i.slot g) i (g i.c.lead) :=
  ⟨State.onCrew_only s _ _ _, by
    show (s.onCrew i.core i.slot _).crew? i.core i.slot = _
    rw [State.crew?_onCrew, h]; rfl⟩

theorem LIss.setK_holds (i : LIss) (v : DWord) : i.Holds v (i.c.lead.setK i.f.d.toNat v) where
  value h := by simp [Lead.setK, h]
  zero h := by simp [Lead.setK, h]
  others r hr := by
    by_cases h : i.f.d.toNat = 0
    · simp [Lead.setK, h]
    · simp only [Lead.setK, h, if_false]; exact look_put_ne _ _ hr
  rest := by
    by_cases h : i.f.d.toNat = 0 <;> simp [Lead.setK, h]

/-- All that a lead instruction which writes a register does. -/
theorem LIss.write_wrote {i : LIss} {s : State} (h : s.crew? i.core i.slot = some i.c) (v : DWord) :
    LeadWrote s (i.write s v) i v := ⟨_, i.setK_holds v, i.commit_became h _⟩

/-! ### The issue (R83) -/

/-- The state in which an instruction of the lane stream issues. -/
theorem State.laneIss_spec {s : State} {eng op : Nat} {f : Fields} {i : Iss} (h : s.laneIss eng op f = some i) :
    s.cur = .lanes i.core i.slot i.grp ∧ s.warp? i.core i.slot = some i.w ∧ i.eng = eng ∧ i.op = op ∧ i.f = f ∧
      i.act = activeOf i.w i.grp f ∧ i.pc = (i.w.lane (lowest i.grp)).pc := by
  unfold State.laneIss at h
  split at h
  · rename_i core slot grp hc
    split at h
    · rename_i w hw
      cases h
      exact ⟨hc, hw, rfl, rfl, rfl, rfl, rfl⟩
    · cases h
  · cases h

/-- What an instruction's issue is, given its thread. -/
theorem issue_lane {s : State} {eng op : Nat} {f : Fields} {i : Iss} (h : s.laneIss eng op f = some i)
    (div : State → Iss → Option Word) (k : State → Iss → State) (kl : State → LIss → State) :
    issue eng op f s div k kl = .next (issueLanes eng op f s i.core i.slot i.grp i.w div k) := by
  obtain ⟨hc, hw, -⟩ := State.laneIss_spec h
  simp [issue, hc, hw]

/-- An instruction that nothing holds back has its effect. -/
theorem issue_goes {s : State} {eng op : Nat} {f : Fields} {i : Iss} (h : s.laneIss eng op f = some i)
    (hg : i.goes s = true) {div : State → Iss → Option Word} (hd : div s i = none) (k : State → Iss → State)
    (kl : State → LIss → State) : issue eng op f s div k kl = .next (k s i) := by
  rw [issue_lane h]
  obtain ⟨-, -, rfl, rfl, rfl, ha, hp⟩ := State.laneIss_spec h
  have hi : Iss.mk i.core i.slot i.w i.grp (activeOf i.w i.grp i.f) (i.w.lane (lowest i.grp)).pc i.eng i.op i.f = i := by
    rw [← ha, ← hp]
  simp only [Iss.goes, Iss.wellPlaced, Iss.unstopped, Iss.readable, Bool.and_eq_true, Bool.not_eq_true',
    decide_eq_true_eq, Option.isNone_iff_eq_none] at hg
  obtain ⟨⟨⟨⟨hf, hl⟩, hr⟩, hs⟩, hq, hb⟩ := hg
  rw [ha] at hq
  simp only [issueLanes, hi]
  simp [hf, hl, hr, hs, hd, hq, hb]

theorem laneInstr_goes {s : State} {eng op : Nat} {f : Fields} {i : Iss} (h : s.laneIss eng op f = some i)
    (hg : i.goes s = true) (k : State → Iss → State) : laneInstr eng op f s k = .next (k s i) :=
  issue_goes h hg rfl k _

/-- The state in which an instruction of the lead stream issues. -/
theorem State.leadIss_spec {s : State} {eng op : Nat} {f : Fields} {i : LIss} (h : s.leadIss eng op f = some i) :
    s.cur = .lead i.core i.slot ∧ s.crew? i.core i.slot = some i.c ∧ i.eng = eng ∧ i.op = op ∧ i.f = f ∧
      i.pc = i.c.lead.pc := by
  unfold State.leadIss at h
  split at h
  · rename_i core slot hc
    split at h
    · rename_i c hw
      cases h
      exact ⟨hc, hw, rfl, rfl, rfl, rfl⟩
    · cases h
  · cases h

/-- An instruction of the lead stream that nothing holds back has its effect. -/
theorem issue_goes_lead {s : State} {eng op : Nat} {f : Fields} {i : LIss} (h : s.leadIss eng op f = some i)
    (hg : i.goes s = true) (div : State → Iss → Option Word) (k : State → Iss → State) (kl : State → LIss → State) :
    issue eng op f s div k kl = .next (kl s i) := by
  obtain ⟨hc, hw, rfl, rfl, rfl, hp⟩ := State.leadIss_spec h
  have hi : LIss.mk i.core i.slot i.c i.c.lead.pc i.eng i.op i.f = i := by rw [← hp]
  simp only [LIss.goes, Bool.and_eq_true, Bool.not_eq_true', decide_eq_true_eq, Option.isNone_iff_eq_none] at hg
  obtain ⟨⟨⟨⟨⟨hf, hl⟩, hr⟩, hs⟩, hq⟩, hb⟩ := hg
  simp only [issue, hc, hw, issueLead, hi]
  simp [hf, hl, hr, hs, hq, hb]

theorem leadInstr_goes {s : State} {eng op : Nat} {f : Fields} {i : LIss} (h : s.leadIss eng op f = some i)
    (hg : i.goes s = true) (k : State → LIss → State) : leadInstr eng op f s k = .next (k s i) :=
  issue_goes_lead h hg _ _ _

end Sys2Proof.Machine
end

