-- ==== Sys2Proof/Laws/Kill.lean ====
section
/-! SUPPORT. What ending leases and the KILL step leave of a context, while no record waits for its event ring. -/

namespace Sys2Proof.Machine

/-- No record waits for its event ring. -/
def State.Recorded (s : State) : Prop := ∀ e ∈ s.qis, e.2.records = []

theorem look_mem {α : Type} {m : SMap α} {n : Nat} {x : α} (h : look m n = some x) : (n, x) ∈ m := by
  induction m with
  | nil => simp [look] at h
  | cons e m ih =>
    obtain ⟨k, y⟩ := e
    simp only [look] at h
    split at h
    · obtain rfl := Option.some.inj h
      subst_vars
      exact List.mem_cons_self
    · exact List.mem_cons_of_mem _ (ih h)

theorem State.flush_recorded {s : State} (h : s.Recorded) (q : Nat) : s.flush q = s := by
  unfold State.flush
  split
  · rfl
  · rename_i x hx
    have : x.records = [] := h _ (look_mem hx)
    split
    · simp [this, State.flushN]
    · rfl

theorem State.flushAll_recorded {s : State} (h : s.Recorded) : s.flushAll = s := by
  have key : ∀ l : List (Nat × Qi), l.foldl (fun s e => State.flush s e.1) s = s := by
    intro l
    induction l with
    | nil => rfl
    | cons e l ih => simp only [List.foldl_cons, State.flush_recorded h, ih]
  exact key _

/-- Leases ended: the buffers of what has gone, the probes for it and the guards served apart, a state is the same. -/
theorem State.tidyLeases_frame {s : State} (h : s.Recorded) :
    s.tidyLeases.ctxs = s.ctxs ∧ s.tidyLeases.qis = s.qis ∧ s.tidyLeases.vds = s.vds ∧ s.tidyLeases.mb = s.mb ∧
      s.tidyLeases.pkg = s.pkg ∧ s.tidyLeases.crews = s.crews ∧ s.tidyLeases.gangs = s.gangs := by
  have key : ∀ (a : State) (pas : List Nat), a.Recorded →
      (a.serveGuards pas).flushAll.ctxs = a.ctxs ∧ (a.serveGuards pas).flushAll.qis = a.qis ∧
        (a.serveGuards pas).flushAll.vds = a.vds ∧ (a.serveGuards pas).flushAll.mb = a.mb ∧
        (a.serveGuards pas).flushAll.pkg = a.pkg ∧ (a.serveGuards pas).flushAll.crews = a.crews ∧
        (a.serveGuards pas).flushAll.gangs = a.gangs := by
    intro a pas ha
    obtain ⟨k1, k2, k3, -, k5, k6, k7, k8, -⟩ := (State.serveGuards_frame a pas).rest
    have hu : (a.serveGuards pas).Recorded := by intro e he; rw [k2] at he; exact ha e he
    rw [State.flushAll_recorded hu]
    exact ⟨k1, k2, k3, k5, k6, k7, k8⟩
  unfold State.tidyLeases
  exact key _ _ h

/-- The KILL step drops what the context holds of the overflow area and keeps the rest of it, its kill among that. -/
theorem State.killStep_ctx {s : State} (h : s.Recorded) (c : Nat) :
    (s.killStep c).ctx? c = (s.ctx? c).map fun x => { x with overflow := [] } := by
  unfold State.killStep
  dsimp only
  rw [State.ctx?, (State.withdrawGuards_frame _ _).rest.1]
  rw [(State.tidyLeases_frame _).1]
  · simp [State.onCtx, State.onVd, look_adjust_self]
    rfl
  · intro e he
    simp only [State.onCtx, State.onVd] at he
    simp only [mapS, List.mem_map] at he
    obtain ⟨a, ha, rfl⟩ := he
    have := h a ha
    dsimp only
    split <;> exact this

end Sys2Proof.Machine
end

