-- ==== Sys2Proof/Laws/Memory.lean ====
section
/-! SUPPORT. What every operation that writes device memory does to it: the bytes it leaves, and that the memory keeps its
canonical form. -/

namespace Sys2Proof.Machine

/-! ### The memory after an operation -/

@[simp] theorem State.store_mem (s : State) (pa : Nat) (bs : List Byte) : (s.store pa bs).mem = s.mem.writeN pa bs := rfl

@[simp] theorem State.storeFresh_mem (s : State) (pa : Nat) (bs : List Byte) :
    (s.storeFresh pa bs).mem = s.mem.writeN pa bs := rfl

@[simp] theorem State.storeHub_mem (s : State) (pa : Nat) (bs : List Byte) :
    (s.storeHub pa bs).mem = s.mem.writeN pa bs := rfl

@[simp] theorem State.homeWrite_mem (s : State) (pa : Nat) (bs : List Byte) :
    (s.homeWrite pa bs).mem = s.mem.writeN pa bs := rfl

@[simp] theorem State.write_mem (s : State) (pa : Nat) (bs : List Byte) : (s.write pa bs).mem = s.mem.writeN pa bs := rfl

@[simp] theorem State.unstick_mem (s : State) (pa n : Nat) : (s.unstick pa n).mem = s.mem := rfl

@[simp] theorem State.overtake_mem (s : State) (pa : Nat) (bs : List Byte) (p : WEntry → Bool) :
    (s.overtake pa bs p).mem = s.mem := rfl

/-- A directory entry that a write changes leaves the bytes. -/
@[simp] theorem State.dirWrite_mem (s : State) (line die : Nat) : (s.dirWrite line die).mem = s.mem := by
  unfold State.dirWrite
  split
  · split <;> rfl
  · rfl

@[simp] theorem State.dieTake_mem (s : State) (line die : Nat) (cores : List Nat) :
    (s.dieTake line die cores).mem = s.mem := rfl

@[simp] theorem State.coreOwn_mem (s : State) (line core : Nat) : (s.coreOwn line core).mem = s.mem := by
  simp [State.coreOwn]

@[simp] theorem State.notePatch_mem (s : State) (core l : Nat) (m : DWord) : (s.notePatch core l m).mem = s.mem := by
  unfold State.notePatch
  split <;> rfl

/-- The check value of a line leaves the bytes. -/
@[simp] theorem State.patchLine_mem (s : State) (core pa n : Nat) : (s.patchLine core pa n).mem = s.mem := by
  unfold State.patchLine
  split
  · rfl
  · exact State.notePatch_mem _ _ _ _

@[simp] theorem State.coreStore_mem (s : State) (core pa : Nat) (bs : List Byte) :
    (s.coreStore core pa bs).mem = s.mem.writeN pa bs := by
  simp [State.coreStore]

@[simp] theorem State.publishAt_mem (s : State) (e : WEntry) (pa : Nat) :
    (s.publishAt e pa).mem = s.mem.writeN pa e.bytes := by
  simp [State.publishAt]

/-! ### Bytes read after a store -/

/-- A byte that a store covers. -/
theorem State.store_read_in {s : State} (h : s.memOk) (pa : Nat) (bs : List Byte) {n : Nat} (hn : n < bs.length) :
    (s.store pa bs).mem.read (pa + n) = bs[n] := by
  rw [State.store_mem, Memory.read_writeN_in h pa bs hn]

/-- A byte that a store does not cover. -/
theorem State.store_read_out (s : State) (pa : Nat) (bs : List Byte) {a : Nat} (ha : a < pa ∨ pa + bs.length ≤ a) :
    (s.store pa bs).mem.read a = s.mem.read a := Memory.read_writeN_out s.mem pa bs ha

/-! ### The canonical form -/

/-- Memory with bytes written keeps its form. -/
theorem State.memOk_of_writeN {s t : State} (h : s.memOk) {pa : Nat} {bs : List Byte} (ht : t.mem = s.mem.writeN pa bs) :
    t.memOk := by
  unfold State.memOk
  rw [ht]
  exact Memory.wf_writeN h pa bs

theorem State.store_memOk {s : State} (h : s.memOk) (pa : Nat) (bs : List Byte) : (s.store pa bs).memOk :=
  State.memOk_of_writeN h (s.store_mem pa bs)

theorem State.storeFresh_memOk {s : State} (h : s.memOk) (pa : Nat) (bs : List Byte) : (s.storeFresh pa bs).memOk :=
  State.memOk_of_writeN h (s.storeFresh_mem pa bs)

theorem State.storeHub_memOk {s : State} (h : s.memOk) (pa : Nat) (bs : List Byte) : (s.storeHub pa bs).memOk :=
  State.memOk_of_writeN h (s.storeHub_mem pa bs)

theorem State.homeWrite_memOk {s : State} (h : s.memOk) (pa : Nat) (bs : List Byte) : (s.homeWrite pa bs).memOk :=
  State.memOk_of_writeN h (s.homeWrite_mem pa bs)

theorem State.coreStore_memOk {s : State} (h : s.memOk) (core pa : Nat) (bs : List Byte) : (s.coreStore core pa bs).memOk :=
  State.memOk_of_writeN h (s.coreStore_mem core pa bs)

theorem State.publishAt_memOk {s : State} (h : s.memOk) (e : WEntry) (pa : Nat) : (s.publishAt e pa).memOk :=
  State.memOk_of_writeN h (s.publishAt_mem e pa)

/-- A fold over states keeps the form when each step does. -/
theorem memOk_foldl {α : Type} {f : State → α → State} (hf : ∀ s a, s.memOk → (f s a).memOk) (xs : List α) {s : State}
    (h : s.memOk) : (xs.foldl f s).memOk := by
  induction xs generalizing s with
  | nil => exact h
  | cons x xs ih => exact ih (hf s x h)

theorem State.performWhere_memOk {s : State} (h : s.memOk) (p : Pending → Bool) : (s.performWhere p).memOk :=
  memOk_foldl (fun _ p hs => State.coreStore_memOk hs p.core p.pa p.bytes) _ h

/-- A queue of guard requests served writes guard words only. -/
theorem State.serveList_memOk (pa : Nat) (rs : List (Nat × GuardReq)) (held : Bool) {s : State} (h : s.memOk) :
    (State.serveList pa rs held s).memOk := by
  induction rs generalizing s held with
  | nil => exact h
  | cons r rs ih =>
    obtain ⟨id, r⟩ := r
    simp only [State.serveList]
    repeat' split
    all_goals first
      | exact ih _ h
      | exact ih _ (State.homeWrite_memOk h _ _)

@[simp] theorem State.probe_mem (s : State) (line : Nat) (a : Option Agent) : (s.probe line a).mem = s.mem := by
  unfold State.probe
  split
  · rfl
  · dsimp only
    split <;> rfl

theorem State.serveGuard_memOk {s : State} (h : s.memOk) (pa : Nat) : (s.serveGuard pa).memOk := by
  unfold State.serveGuard
  split
  · simpa [State.memOk] using h
  · exact State.serveList_memOk pa _ false h

theorem State.dropGuard_memOk {s : State} (h : s.memOk) (pa : Nat) (shared : Bool) (scope : Nat) (t : Thread) :
    (s.dropGuard pa shared scope t).memOk := by
  unfold State.dropGuard
  refine State.serveGuard_memOk ?_ pa
  exact Memory.wf_writeN h _ _

/-- The memory of reset is canonical. -/
theorem State.reset_memOk : State.reset.memOk := rfl

end Sys2Proof.Machine
end

