-- ==== Sys2Proof/Laws/PerInstr.lean ====
section
/-! SUPPORT. The family `Opcode`: every instruction of the two streams has its own place in the opcode map, and is read
back from it. -/

namespace Sys2Proof.Laws.Opcode

open Sys2Proof

/-- An instruction of the streams has an engine of the thirteen and an operation of six bits, and the opcode map gives it
back for them (R52, Table 3.10). -/
def Statement (i : Instr) : Prop :=
  ∀ eng op f, isaOf i = some (eng, op, f) → eng < 13 ∧ op < 64 ∧ ofOp eng op f = some i

/-- An instruction with a place in the map that the map gives back. -/
theorem placed {i : Instr} {e o : Nat} {g : Fields} (h : isaOf i = some (e, o, g)) (he : e < 13) (ho : o < 64)
    (hi : ofOp e o g = some i) : Statement i := fun eng op f hf => by
  rw [h] at hf
  obtain ⟨rfl, rfl, rfl⟩ := hf
  exact ⟨he, ho, hi⟩

/-- An operation or event is no instruction of a stream. -/
theorem event {i : Instr} (h : isaOf i = none) : Statement i := fun eng op f hf => by
  rw [h] at hf
  exact absurd hf (by simp)

theorem coldReset : Statement .coldReset := event rfl
theorem bootStageComplete (a0) : Statement (.bootStageComplete a0) := event rfl
theorem throttleThresholdCrossed (a0 a1) : Statement (.throttleThresholdCrossed a0 a1) := event rfl
theorem throttleRecovery (a0 a1) : Statement (.throttleRecovery a0 a1) := event rfl
theorem tripThresholdCrossed (a0 a1) : Statement (.tripThresholdCrossed a0 a1) := event rfl
theorem flr : Statement .flr := event rfl
theorem clockClassChangeDone : Statement .clockClassChangeDone := event rfl
theorem sadd (f : Fields) : Statement (.sadd f) := placed rfl (by decide) (by decide) rfl
theorem ssub (f : Fields) : Statement (.ssub f) := placed rfl (by decide) (by decide) rfl
theorem smul (f : Fields) : Statement (.smul f) := placed rfl (by decide) (by decide) rfl
theorem smulh (f : Fields) : Statement (.smulh f) := placed rfl (by decide) (by decide) rfl
theorem sdiv (f : Fields) : Statement (.sdiv f) := placed rfl (by decide) (by decide) rfl
theorem srem (f : Fields) : Statement (.srem f) := placed rfl (by decide) (by decide) rfl
theorem sand (f : Fields) : Statement (.sand f) := placed rfl (by decide) (by decide) rfl
theorem sor (f : Fields) : Statement (.sor f) := placed rfl (by decide) (by decide) rfl
theorem sxor (f : Fields) : Statement (.sxor f) := placed rfl (by decide) (by decide) rfl
theorem sshl (f : Fields) : Statement (.sshl f) := placed rfl (by decide) (by decide) rfl
theorem sshr (f : Fields) : Statement (.sshr f) := placed rfl (by decide) (by decide) rfl
theorem ssra (f : Fields) : Statement (.ssra f) := placed rfl (by decide) (by decide) rfl
theorem smin (f : Fields) : Statement (.smin f) := placed rfl (by decide) (by decide) rfl
theorem smax (f : Fields) : Statement (.smax f) := placed rfl (by decide) (by decide) rfl
theorem scmp (f : Fields) : Statement (.scmp f) := placed rfl (by decide) (by decide) rfl
theorem ssel (f : Fields) : Statement (.ssel f) := placed rfl (by decide) (by decide) rfl
theorem sli (f : Fields) : Statement (.sli f) := placed rfl (by decide) (by decide) rfl
theorem sbits (f : Fields) : Statement (.sbits f) := placed rfl (by decide) (by decide) rfl
theorem sld (f : Fields) : Statement (.sld f) := placed rfl (by decide) (by decide) rfl
theorem sst (f : Fields) : Statement (.sst f) := placed rfl (by decide) (by decide) rfl
theorem sbr (f : Fields) : Statement (.sbr f) := placed rfl (by decide) (by decide) rfl
theorem sbc (f : Fields) : Statement (.sbc f) := placed rfl (by decide) (by decide) rfl
theorem scall (f : Fields) : Statement (.scall f) := placed rfl (by decide) (by decide) rfl
theorem sret (f : Fields) : Statement (.sret f) := placed rfl (by decide) (by decide) rfl
theorem sjmp (f : Fields) : Statement (.sjmp f) := placed rfl (by decide) (by decide) rfl
theorem dqpush (f : Fields) : Statement (.dqpush f) := placed rfl (by decide) (by decide) rfl
theorem srdx (f : Fields) : Statement (.srdx f) := placed rfl (by decide) (by decide) rfl
theorem swrx (f : Fields) : Statement (.swrx f) := placed rfl (by decide) (by decide) rfl
theorem swaitq (f : Fields) : Statement (.swaitq f) := placed rfl (by decide) (by decide) rfl
theorem lbr (f : Fields) : Statement (.lbr f) := placed rfl (by decide) (by decide) rfl
theorem lbrc (f : Fields) : Statement (.lbrc f) := placed rfl (by decide) (by decide) rfl
theorem lcall (f : Fields) : Statement (.lcall f) := placed rfl (by decide) (by decide) rfl
theorem lret (f : Fields) : Statement (.lret f) := placed rfl (by decide) (by decide) rfl
theorem ljmp (f : Fields) : Statement (.ljmp f) := placed rfl (by decide) (by decide) rfl
theorem ubr (f : Fields) : Statement (.ubr f) := placed rfl (by decide) (by decide) rfl
theorem dqpop (f : Fields) : Statement (.dqpop f) := placed rfl (by decide) (by decide) rfl
theorem join (f : Fields) : Statement (.join f) := placed rfl (by decide) (by decide) rfl
theorem leave (f : Fields) : Statement (.leave f) := placed rfl (by decide) (by decide) rfl
theorem waitj (f : Fields) : Statement (.waitj f) := placed rfl (by decide) (by decide) rfl
theorem jset (f : Fields) : Statement (.jset f) := placed rfl (by decide) (by decide) rfl
theorem jget (f : Fields) : Statement (.jget f) := placed rfl (by decide) (by decide) rfl
theorem bar (f : Fields) : Statement (.bar f) := placed rfl (by decide) (by decide) rfl
theorem gbar (f : Fields) : Statement (.gbar f) := placed rfl (by decide) (by decide) rfl
theorem exit (f : Fields) : Statement (.exit f) := placed rfl (by decide) (by decide) rfl
theorem partset (f : Fields) : Statement (.partset f) := placed rfl (by decide) (by decide) rfl
theorem elect (f : Fields) : Statement (.elect f) := placed rfl (by decide) (by decide) rfl
theorem trap (f : Fields) : Statement (.trap f) := placed rfl (by decide) (by decide) rfl
theorem rte (f : Fields) : Statement (.rte f) := placed rfl (by decide) (by decide) rfl
theorem lpcrd (f : Fields) : Statement (.lpcrd f) := placed rfl (by decide) (by decide) rfl
theorem iadd (f : Fields) : Statement (.iadd f) := placed rfl (by decide) (by decide) rfl
theorem isub (f : Fields) : Statement (.isub f) := placed rfl (by decide) (by decide) rfl
theorem imul (f : Fields) : Statement (.imul f) := placed rfl (by decide) (by decide) rfl
theorem imulh (f : Fields) : Statement (.imulh f) := placed rfl (by decide) (by decide) rfl
theorem imad (f : Fields) : Statement (.imad f) := placed rfl (by decide) (by decide) rfl
theorem imadw (f : Fields) : Statement (.imadw f) := placed rfl (by decide) (by decide) rfl
theorem iand (f : Fields) : Statement (.iand f) := placed rfl (by decide) (by decide) rfl
theorem ior (f : Fields) : Statement (.ior f) := placed rfl (by decide) (by decide) rfl
theorem ixor (f : Fields) : Statement (.ixor f) := placed rfl (by decide) (by decide) rfl
theorem ishl (f : Fields) : Statement (.ishl f) := placed rfl (by decide) (by decide) rfl
theorem ishr (f : Fields) : Statement (.ishr f) := placed rfl (by decide) (by decide) rfl
theorem isra (f : Fields) : Statement (.isra f) := placed rfl (by decide) (by decide) rfl
theorem imin (f : Fields) : Statement (.imin f) := placed rfl (by decide) (by decide) rfl
theorem imax (f : Fields) : Statement (.imax f) := placed rfl (by decide) (by decide) rfl
theorem iabs (f : Fields) : Statement (.iabs f) := placed rfl (by decide) (by decide) rfl
theorem icmp (f : Fields) : Statement (.icmp f) := placed rfl (by decide) (by decide) rfl
theorem isel (f : Fields) : Statement (.isel f) := placed rfl (by decide) (by decide) rfl
theorem ipop (f : Fields) : Statement (.ipop f) := placed rfl (by decide) (by decide) rfl
theorem iclz (f : Fields) : Statement (.iclz f) := placed rfl (by decide) (by decide) rfl
theorem ibrev (f : Fields) : Statement (.ibrev f) := placed rfl (by decide) (by decide) rfl
theorem iperm (f : Fields) : Statement (.iperm f) := placed rfl (by decide) (by decide) rfl
theorem ibfe (f : Fields) : Statement (.ibfe f) := placed rfl (by decide) (by decide) rfl
theorem ibfi (f : Fields) : Statement (.ibfi f) := placed rfl (by decide) (by decide) rfl
theorem iadds (f : Fields) : Statement (.iadds f) := placed rfl (by decide) (by decide) rfl
theorem isubs (f : Fields) : Statement (.isubs f) := placed rfl (by decide) (by decide) rfl
theorem idp4 (f : Fields) : Statement (.idp4 f) := placed rfl (by decide) (by decide) rfl
theorem idp2 (f : Fields) : Statement (.idp2 f) := placed rfl (by decide) (by decide) rfl
theorem imov (f : Fields) : Statement (.imov f) := placed rfl (by decide) (by decide) rfl
theorem shfl (f : Fields) : Statement (.shfl f) := placed rfl (by decide) (by decide) rfl
theorem vote (f : Fields) : Statement (.vote f) := placed rfl (by decide) (by decide) rfl
theorem redi (f : Fields) : Statement (.redi f) := placed rfl (by decide) (by decide) rfl
theorem scani (f : Fields) : Statement (.scani f) := placed rfl (by decide) (by decide) rfl
theorem mlog (f : Fields) : Statement (.mlog f) := placed rfl (by decide) (by decide) rfl
theorem mmov (f : Fields) : Statement (.mmov f) := placed rfl (by decide) (by decide) rfl
theorem fadd (f : Fields) : Statement (.fadd f) := placed rfl (by decide) (by decide) rfl
theorem fsub (f : Fields) : Statement (.fsub f) := placed rfl (by decide) (by decide) rfl
theorem fmul (f : Fields) : Statement (.fmul f) := placed rfl (by decide) (by decide) rfl
theorem ffma (f : Fields) : Statement (.ffma f) := placed rfl (by decide) (by decide) rfl
theorem fmin (f : Fields) : Statement (.fmin f) := placed rfl (by decide) (by decide) rfl
theorem fmax (f : Fields) : Statement (.fmax f) := placed rfl (by decide) (by decide) rfl
theorem fcmp (f : Fields) : Statement (.fcmp f) := placed rfl (by decide) (by decide) rfl
theorem fsgn (f : Fields) : Statement (.fsgn f) := placed rfl (by decide) (by decide) rfl
theorem fcvt (f : Fields) : Statement (.fcvt f) := placed rfl (by decide) (by decide) rfl
theorem fclass (f : Fields) : Statement (.fclass f) := placed rfl (by decide) (by decide) rfl
theorem fscale (f : Fields) : Statement (.fscale f) := placed rfl (by decide) (by decide) rfl
theorem hadd2 (f : Fields) : Statement (.hadd2 f) := placed rfl (by decide) (by decide) rfl
theorem hmul2 (f : Fields) : Statement (.hmul2 f) := placed rfl (by decide) (by decide) rfl
theorem hfma2 (f : Fields) : Statement (.hfma2 f) := placed rfl (by decide) (by decide) rfl
theorem badd2 (f : Fields) : Statement (.badd2 f) := placed rfl (by decide) (by decide) rfl
theorem bmul2 (f : Fields) : Statement (.bmul2 f) := placed rfl (by decide) (by decide) rfl
theorem bfma2 (f : Fields) : Statement (.bfma2 f) := placed rfl (by decide) (by decide) rfl
theorem redf (f : Fields) : Statement (.redf f) := placed rfl (by decide) (by decide) rfl
theorem fdot2 (f : Fields) : Statement (.fdot2 f) := placed rfl (by decide) (by decide) rfl
theorem rcp (f : Fields) : Statement (.rcp f) := placed rfl (by decide) (by decide) rfl
theorem rsq (f : Fields) : Statement (.rsq f) := placed rfl (by decide) (by decide) rfl
theorem sqrt (f : Fields) : Statement (.sqrt f) := placed rfl (by decide) (by decide) rfl
theorem exp2 (f : Fields) : Statement (.exp2 f) := placed rfl (by decide) (by decide) rfl
theorem log2 (f : Fields) : Statement (.log2 f) := placed rfl (by decide) (by decide) rfl
theorem sinpi (f : Fields) : Statement (.sinpi f) := placed rfl (by decide) (by decide) rfl
theorem cospi (f : Fields) : Statement (.cospi f) := placed rfl (by decide) (by decide) rfl
theorem tanh (f : Fields) : Statement (.tanh f) := placed rfl (by decide) (by decide) rfl
theorem sigm (f : Fields) : Statement (.sigm f) := placed rfl (by decide) (by decide) rfl
theorem fdiv (f : Fields) : Statement (.fdiv f) := placed rfl (by decide) (by decide) rfl
theorem idiv (f : Fields) : Statement (.idiv f) := placed rfl (by decide) (by decide) rfl
theorem irem (f : Fields) : Statement (.irem f) := placed rfl (by decide) (by decide) rfl
theorem ld (f : Fields) : Statement (.ld f) := placed rfl (by decide) (by decide) rfl
theorem st (f : Fields) : Statement (.st f) := placed rfl (by decide) (by decide) rfl
theorem ldt (f : Fields) : Statement (.ldt f) := placed rfl (by decide) (by decide) rfl
theorem stt (f : Fields) : Statement (.stt f) := placed rfl (by decide) (by decide) rfl
theorem talloc (f : Fields) : Statement (.talloc f) := placed rfl (by decide) (by decide) rfl
theorem tfree (f : Fields) : Statement (.tfree f) := placed rfl (by decide) (by decide) rfl
theorem tquery (f : Fields) : Statement (.tquery f) := placed rfl (by decide) (by decide) rfl
theorem hquery (f : Fields) : Statement (.hquery f) := placed rfl (by decide) (by decide) rfl
theorem waita (f : Fields) : Statement (.waita f) := placed rfl (by decide) (by decide) rfl
theorem pref (f : Fields) : Statement (.pref f) := placed rfl (by decide) (by decide) rfl
theorem fence (f : Fields) : Statement (.fence f) := placed rfl (by decide) (by decide) rfl
theorem aadd (f : Fields) : Statement (.aadd f) := placed rfl (by decide) (by decide) rfl
theorem aand (f : Fields) : Statement (.aand f) := placed rfl (by decide) (by decide) rfl
theorem aor (f : Fields) : Statement (.aor f) := placed rfl (by decide) (by decide) rfl
theorem axor (f : Fields) : Statement (.axor f) := placed rfl (by decide) (by decide) rfl
theorem amin (f : Fields) : Statement (.amin f) := placed rfl (by decide) (by decide) rfl
theorem amax (f : Fields) : Statement (.amax f) := placed rfl (by decide) (by decide) rfl
theorem axchg (f : Fields) : Statement (.axchg f) := placed rfl (by decide) (by decide) rfl
theorem acas (f : Fields) : Statement (.acas f) := placed rfl (by decide) (by decide) rfl
theorem ainc (f : Fields) : Statement (.ainc f) := placed rfl (by decide) (by decide) rfl
theorem adec (f : Fields) : Statement (.adec f) := placed rfl (by decide) (by decide) rfl
theorem afadd (f : Fields) : Statement (.afadd f) := placed rfl (by decide) (by decide) rfl
theorem red (f : Fields) : Statement (.red f) := placed rfl (by decide) (by decide) rfl
theorem binit (f : Fields) : Statement (.binit f) := placed rfl (by decide) (by decide) rfl
theorem arrive (f : Fields) : Statement (.arrive f) := placed rfl (by decide) (by decide) rfl
theorem bwait (f : Fields) : Statement (.bwait f) := placed rfl (by decide) (by decide) rfl
theorem atomicRequestPerform (a0) : Statement (.atomicRequestPerform a0) := event rfl
theorem bwaitRetry (a0) : Statement (.bwaitRetry a0) := event rfl
theorem badgerCreditRelease (a0) : Statement (.badgerCreditRelease a0) := event rfl
theorem replyArrival (a0) : Statement (.replyArrival a0) := event rfl
theorem producerWriteback (a0 a1) : Statement (.producerWriteback a0 a1) := event rfl
theorem move (f : Fields) : Statement (.move f) := placed rfl (by decide) (by decide) rfl
theorem ownq (f : Fields) : Statement (.ownq f) := placed rfl (by decide) (by decide) rfl
theorem gacq (f : Fields) : Statement (.gacq f) := placed rfl (by decide) (by decide) rfl
theorem gtry (f : Fields) : Statement (.gtry f) := placed rfl (by decide) (by decide) rfl
theorem grel (f : Fields) : Statement (.grel f) := placed rfl (by decide) (by decide) rfl
theorem lease (f : Fields) : Statement (.lease f) := placed rfl (by decide) (by decide) rfl
theorem unlease (f : Fields) : Statement (.unlease f) := placed rfl (by decide) (by decide) rfl
theorem publish (f : Fields) : Statement (.publish f) := placed rfl (by decide) (by decide) rfl
theorem discard (f : Fields) : Statement (.discard f) := placed rfl (by decide) (by decide) rfl
theorem guardRequestRetry (a0) : Statement (.guardRequestRetry a0) := event rfl
theorem releaseWritebackComplete (a0) : Statement (.releaseWritebackComplete a0) := event rfl
theorem forcedPublish (a0) : Statement (.forcedPublish a0) := event rfl
theorem leaseGrant (a0 a1) : Statement (.leaseGrant a0 a1) := event rfl
theorem leaseExpiry (a0 a1) : Statement (.leaseExpiry a0 a1) := event rfl
theorem dieIsolation (a0) : Statement (.dieIsolation a0) := event rfl
theorem lbind (f : Fields) : Statement (.lbind f) := placed rfl (by decide) (by decide) rfl
theorem lunbind (f : Fields) : Statement (.lunbind f) := placed rfl (by decide) (by decide) rfl
theorem ladd (f : Fields) : Statement (.ladd f) := placed rfl (by decide) (by decide) rfl
theorem lsub (f : Fields) : Statement (.lsub f) := placed rfl (by decide) (by decide) rfl
theorem lneg (f : Fields) : Statement (.lneg f) := placed rfl (by decide) (by decide) rfl
theorem lshl (f : Fields) : Statement (.lshl f) := placed rfl (by decide) (by decide) rfl
theorem lshr (f : Fields) : Statement (.lshr f) := placed rfl (by decide) (by decide) rfl
theorem lsra (f : Fields) : Statement (.lsra f) := placed rfl (by decide) (by decide) rfl
theorem lcmp (f : Fields) : Statement (.lcmp f) := placed rfl (by decide) (by decide) rfl
theorem lmulw (f : Fields) : Statement (.lmulw f) := placed rfl (by decide) (by decide) rfl
theorem lmont (f : Fields) : Statement (.lmont f) := placed rfl (by decide) (by decide) rfl
theorem lcarry (f : Fields) : Statement (.lcarry f) := placed rfl (by decide) (by decide) rfl
theorem lstat (f : Fields) : Statement (.lstat f) := placed rfl (by decide) (by decide) rfl
theorem wload (f : Fields) : Statement (.wload f) := placed rfl (by decide) (by decide) rfl
theorem wdrop (f : Fields) : Statement (.wdrop f) := placed rfl (by decide) (by decide) rfl
theorem wcheck (f : Fields) : Statement (.wcheck f) := placed rfl (by decide) (by decide) rfl
theorem mxfence (f : Fields) : Statement (.mxfence f) := placed rfl (by decide) (by decide) rfl
theorem mxissue (f : Fields) : Statement (.mxissue f) := placed rfl (by decide) (by decide) rfl
theorem mxwait (f : Fields) : Statement (.mxwait f) := placed rfl (by decide) (by decide) rfl
theorem acczero (f : Fields) : Statement (.acczero f) := placed rfl (by decide) (by decide) rfl
theorem accrd (f : Fields) : Statement (.accrd f) := placed rfl (by decide) (by decide) rfl
theorem accwr (f : Fields) : Statement (.accwr f) := placed rfl (by decide) (by decide) rfl
theorem accdrain (f : Fields) : Statement (.accdrain f) := placed rfl (by decide) (by decide) rfl
theorem mxstat (f : Fields) : Statement (.mxstat f) := placed rfl (by decide) (by decide) rfl
theorem matrixCommandStart (a0 a1) : Statement (.matrixCommandStart a0 a1) := event rfl
theorem matrixCommandComplete (a0 a1) : Statement (.matrixCommandComplete a0 a1) := event rfl
theorem matrixEngineHang (a0 a1) : Statement (.matrixEngineHang a0 a1) := event rfl
theorem macroCrcScrub (a0 a1) : Statement (.macroCrcScrub a0 a1) := event rfl
theorem cpy (f : Fields) : Statement (.cpy f) := placed rfl (by decide) (by decide) rfl
theorem cpyg (f : Fields) : Statement (.cpyg f) := placed rfl (by decide) (by decide) rfl
theorem cpys (f : Fields) : Statement (.cpys f) := placed rfl (by decide) (by decide) rfl
theorem cpyf (f : Fields) : Statement (.cpyf f) := placed rfl (by decide) (by decide) rfl
theorem ckpt (f : Fields) : Statement (.ckpt f) := placed rfl (by decide) (by decide) rfl
theorem ckload (f : Fields) : Statement (.ckload f) := placed rfl (by decide) (by decide) rfl
theorem cpyq (f : Fields) : Statement (.cpyq f) := placed rfl (by decide) (by decide) rfl
theorem cpycan (f : Fields) : Statement (.cpycan f) := placed rfl (by decide) (by decide) rfl
theorem copyStart (a0 a1) : Statement (.copyStart a0 a1) := event rfl
theorem copyComplete (a0 a1 a2) : Statement (.copyComplete a0 a1 a2) := event rfl
theorem cont (f : Fields) : Statement (.cont f) := placed rfl (by decide) (by decide) rfl
theorem cwait (f : Fields) : Statement (.cwait f) := placed rfl (by decide) (by decide) rfl
theorem yield (f : Fields) : Statement (.yield f) := placed rfl (by decide) (by decide) rfl
theorem getid (f : Fields) : Statement (.getid f) := placed rfl (by decide) (by decide) rfl
theorem nop (f : Fields) : Statement (.nop f) := placed rfl (by decide) (by decide) rfl
theorem ctrrd (f : Fields) : Statement (.ctrrd f) := placed rfl (by decide) (by decide) rfl
theorem brk (f : Fields) : Statement (.brk f) := placed rfl (by decide) (by decide) rfl
theorem measure (f : Fields) : Statement (.measure f) := placed rfl (by decide) (by decide) rfl
theorem fpevrd (f : Fields) : Statement (.fpevrd f) := placed rfl (by decide) (by decide) rfl
theorem gangPlacement (a0 a1) : Statement (.gangPlacement a0 a1) := event rfl
theorem gangReservation (a0 a1) : Statement (.gangReservation a0 a1) := event rfl
theorem continuationGatherTimeout (a0 a1) : Statement (.continuationGatherTimeout a0 a1) := event rfl
theorem continuationPlacement (a0 a1) : Statement (.continuationPlacement a0 a1) := event rfl
theorem continuationRemotePlacement (a0 a1) : Statement (.continuationRemotePlacement a0 a1) := event rfl
theorem overflowRecordReturn (a0) : Statement (.overflowRecordReturn a0) := event rfl
theorem parkedUnitSave (a0) : Statement (.parkedUnitSave a0) := event rfl
theorem parkedUnitRestore (a0 a1) : Statement (.parkedUnitRestore a0 a1) := event rfl
theorem preemptionDecision (a0) : Statement (.preemptionDecision a0) := event rfl
theorem fullSaveTimeout (a0) : Statement (.fullSaveTimeout a0) := event rfl
theorem drainDeadlineExpiry (a0) : Statement (.drainDeadlineExpiry a0) := event rfl
theorem gangSaveComplete (a0) : Statement (.gangSaveComplete a0) := event rfl
theorem gangRestore (a0 a1) : Statement (.gangRestore a0 a1) := event rfl
theorem owlScan (a0) : Statement (.owlScan a0) := event rfl
theorem maxrunOverrun (a0) : Statement (.maxrunOverrun a0) := event rfl
theorem kick (a0 a1) : Statement (.kick a0 a1) := event rfl
theorem kickLaunch (a0) : Statement (.kickLaunch a0) := event rfl
theorem pwptrWrite (a0 a1) : Statement (.pwptrWrite a0 a1) := event rfl
theorem evrptrWrite (a0 a1) : Statement (.evrptrWrite a0 a1) := event rfl
theorem qstatClear (a0 a1) : Statement (.qstatClear a0 a1) := event rfl
theorem nopPacket (a0) : Statement (.nopPacket a0) := event rfl
theorem launch (a0) : Statement (.launch a0) := event rfl
theorem ibCall (a0) : Statement (.ibCall a0) := event rfl
theorem setHandle (a0) : Statement (.setHandle a0) := event rfl
theorem writeData (a0) : Statement (.writeData a0) := event rfl
theorem waitValue (a0) : Statement (.waitValue a0) := event rfl
theorem waitValueSatisfied (a0) : Statement (.waitValueSatisfied a0) := event rfl
theorem signal (a0) : Statement (.signal a0) := event rfl
theorem graphReg (a0) : Statement (.graphReg a0) := event rfl
theorem graphDrop (a0) : Statement (.graphDrop a0) := event rfl
theorem freqHint (a0) : Statement (.freqHint a0) := event rfl
theorem measurePacket (a0) : Statement (.measurePacket a0) := event rfl
theorem receipt (a0) : Statement (.receipt a0) := event rfl
theorem fencePacket (a0) : Statement (.fencePacket a0) := event rfl
theorem invalidPacket (a0) : Statement (.invalidPacket a0) := event rfl
theorem taskDependenceRelease (a0) : Statement (.taskDependenceRelease a0) := event rfl
theorem measureHashing (a0) : Statement (.measureHashing a0) := event rfl
theorem taskCompletionPoint (a0) : Statement (.taskCompletionPoint a0) := event rfl
theorem eventInterruptTimer (a0) : Statement (.eventInterruptTimer a0) := event rfl
theorem liveUpdateTakeover : Statement .liveUpdateTakeover := event rfl
theorem liveUpdateRollback : Statement .liveUpdateRollback := event rfl
theorem activeComplexFailure : Statement .activeComplexFailure := event rfl
theorem mgmtRing (a0) : Statement (.mgmtRing a0) := event rfl
theorem infoRead (a0) : Statement (.infoRead a0) := event rfl
theorem pkgReset (a0) : Statement (.pkgReset a0) := event rfl
theorem vdCreate (a0) : Statement (.vdCreate a0) := event rfl
theorem vdAdmit (a0) : Statement (.vdAdmit a0) := event rfl
theorem vdResize (a0) : Statement (.vdResize a0) := event rfl
theorem vdEvict (a0) : Statement (.vdEvict a0) := event rfl
theorem vdReset (a0) : Statement (.vdReset a0) := event rfl
theorem vdDestroy (a0) : Statement (.vdDestroy a0) := event rfl
theorem ctxCreate (a0) : Statement (.ctxCreate a0) := event rfl
theorem ctxKill (a0) : Statement (.ctxKill a0) := event rfl
theorem ctxDestroy (a0) : Statement (.ctxDestroy a0) := event rfl
theorem ctxSetroot (a0) : Statement (.ctxSetroot a0) := event rfl
theorem qiBind (a0) : Statement (.qiBind a0) := event rfl
theorem qiUnbind (a0) : Statement (.qiUnbind a0) := event rfl
theorem qiRestart (a0) : Statement (.qiRestart a0) := event rfl
theorem alarmClear (a0) : Statement (.alarmClear a0) := event rfl
theorem fwImage (a0 a1) : Statement (.fwImage a0 a1) := event rfl
theorem fwRecover (a0 a1) : Statement (.fwRecover a0 a1) := event rfl
theorem epSet (a0) : Statement (.epSet a0) := event rfl
theorem dieReset (a0) : Statement (.dieReset a0) := event rfl
theorem rcptKey (a0) : Statement (.rcptKey a0) := event rfl
theorem mailboxBadOpcode (a0) : Statement (.mailboxBadOpcode a0) := event rfl
theorem mgrptrWrite (a0) : Statement (.mgrptrWrite a0) := event rfl
theorem mgdropClear (a0) : Statement (.mgdropClear a0) := event rfl
theorem invsub (a0 a1) : Statement (.invsub a0 a1) := event rfl
theorem invalidationComplete (a0) : Statement (.invalidationComplete a0) := event rfl
theorem fresp (a0 a1) : Statement (.fresp a0 a1) := event rfl
theorem fqrptrWrite (a0 a1) : Statement (.fqrptrWrite a0 a1) := event rfl
theorem qrestart (a0 a1) : Statement (.qrestart a0 a1) := event rfl
theorem plainRegisterWrite (a0 a1) : Statement (.plainRegisterWrite a0 a1) := event rfl
theorem pageWalkComplete (a0) : Statement (.pageWalkComplete a0) := event rfl
theorem faultRecordDeferredWrite (a0) : Statement (.faultRecordDeferredWrite a0) := event rfl
theorem hbPageServiceComplete (a0 a1 a2 a3) : Statement (.hbPageServiceComplete a0 a1 a2 a3) := event rfl
theorem atsTranslationCompletion (a0 a1) : Statement (.atsTranslationCompletion a0 a1) := event rfl
theorem pageRequestGroupResponse (a0 a1) : Statement (.pageRequestGroupResponse a0 a1) := event rfl
theorem atsInvalidationRequest (a0 a1 a2 a3) : Statement (.atsInvalidationRequest a0 a1 a2 a3) := event rfl
theorem atsInvalidationCompletion (a0) : Statement (.atsInvalidationCompletion a0) := event rfl
theorem pcieCompletion (a0 a1 a2) : Statement (.pcieCompletion a0 a1 a2) := event rfl
theorem pcieCompletionTimeout (a0) : Statement (.pcieCompletionTimeout a0) := event rfl
theorem inboundPoisonedRequest (a0) : Statement (.inboundPoisonedRequest a0) := event rfl
theorem cihamInboundRequest (a0) : Statement (.cihamInboundRequest a0) := event rfl
theorem cihamResponse (a0 a1 a2) : Statement (.cihamResponse a0 a1 a2) := event rfl
theorem cihamRequestTimeout (a0) : Statement (.cihamRequestTimeout a0) := event rfl
theorem flitCrcError (a0) : Statement (.flitCrcError a0) := event rfl
theorem linkModuleFailure (a0) : Statement (.linkModuleFailure a0) := event rfl
theorem linkRetrainComplete (a0) : Statement (.linkRetrainComplete a0) := event rfl
theorem clockSupplyGlitch (a0) : Statement (.clockSupplyGlitch a0) := event rfl
theorem engineDrainDone (a0 a1) : Statement (.engineDrainDone a0 a1) := event rfl
theorem killDrainTimeout (a0 a1) : Statement (.killDrainTimeout a0 a1) := event rfl
theorem dieUnitsSaved (a0) : Statement (.dieUnitsSaved a0) := event rfl
theorem dieQuiesced (a0) : Statement (.dieQuiesced a0) := event rfl
theorem dieWritebackDone (a0) : Statement (.dieWritebackDone a0) := event rfl
theorem dieSelftestDone (a0 a1) : Statement (.dieSelftestDone a0 a1) := event rfl
theorem dieLinkRetrained (a0 a1) : Statement (.dieLinkRetrained a0 a1) := event rfl
theorem standbyImportComplete (a0) : Statement (.standbyImportComplete a0) := event rfl
theorem receiptSignatureComplete (a0) : Statement (.receiptSignatureComplete a0) := event rfl
theorem vdScrubComplete (a0) : Statement (.vdScrubComplete a0) := event rfl
theorem priReenable (a0) : Statement (.priReenable a0) := event rfl
theorem meteringWindowEnd : Statement .meteringWindowEnd := event rfl
theorem dieSaveDeadlineExpiry (a0 a1) : Statement (.dieSaveDeadlineExpiry a0 a1) := event rfl
theorem homeDirectoryRequest (a0 a1) : Statement (.homeDirectoryRequest a0 a1) := event rfl
theorem hbmChannelLeaveOrRejoin (a0 a1) : Statement (.hbmChannelLeaveOrRejoin a0 a1) := event rfl

end Sys2Proof.Laws.Opcode
end

