-- ==== Sys2Proof/Laws/Reach.lean ====
section
/-! SUPPORT. What an access does once the checks of every lane have passed (R226, R230). -/

namespace Sys2Proof.Machine

/-- Outcomes that are all successes at device addresses let the instruction go on. -/
theorem groupOut_ok {act : Word} {f : Nat → AccOut} (h : ∀ l ∈ lanesOf act, ∃ loc sec, f l = .ok loc sec) :
    groupOut act f = .ok := by
  have h3 : ((lanesOf act).map fun l => (f l).step).filter (fun n => decide (n ≠ 0)) = [] := by
    rw [List.filter_eq_nil_iff]
    intro n hn
    obtain ⟨l, hl, rfl⟩ := List.mem_map.1 hn
    obtain ⟨loc, sec, e⟩ := h l hl
    simp [e, AccOut.step]
  unfold groupOut
  dsimp only
  rw [h3]
  simp only [List.filter_nil, minOf]
  split
  · rename_i p ps heq
    obtain ⟨l, hl, hx⟩ := List.mem_filterMap.1 (List.mem_dedup.1 (heq ▸ List.mem_cons_self .. : p ∈ _))
    obtain ⟨loc, sec, e⟩ := h l hl
    rw [e] at hx
    cases hx
  · split
    · rfl
    · rename_i x xs heq
      obtain ⟨l, hl, hx⟩ := List.mem_filterMap.1 (heq ▸ List.mem_cons_self .. : x ∈ _)
      obtain ⟨loc, sec, e⟩ := h l hl
      rw [e] at hx
      cases hx

/-- An access that passes its checks, and that its gate lets through, has its effect. -/
theorem Caller.settle_ok {c : Caller} {s : State} {ref : Nat → Ref} {pa : Nat → Nat} (h : c.reaches s ref pa)
    (hm : lanesOf c.mask = c.lanes) (acc : Nat) (kind : Nat → ExtKind) {gate : State → Except State State} {u : State}
    (hg : gate s = .ok u) (k : (Nat → Loc) → State → State) :
    c.settle s acc ref kind gate k =
      k (fun l => (s.access (c.who s l) (ref l).h (ref l).o (ref l).q).loc) u := by
  unfold Caller.settle Caller.follow
  dsimp only
  rw [groupOut_ok fun l hl => by
    obtain ⟨sec, e⟩ := h l (hm ▸ hl)
    exact ⟨_, sec, e⟩]
  simp only [hg]

/-- Where the lanes of an access that passes its checks are. -/
theorem Caller.reaches_loc {c : Caller} {s : State} {ref : Nat → Ref} {pa : Nat → Nat} (h : c.reaches s ref pa) {l : Nat}
    (hl : l ∈ c.lanes) : (s.access (c.who s l) (ref l).h (ref l).o (ref l).q).loc = .dev (pa l) := by
  obtain ⟨sec, e⟩ := h l hl
  rw [e]
  rfl

theorem lanesOf_one : lanesOf (1 : Word) = [0] := by decide

/-- A tile access that passes its checks, and that its gate lets through, has its effect. -/
theorem Iss.tiles_ok {i : Iss} {s : State} {ask : Nat → TileAsk} {at_ : Nat → Nat × Nat × Nat} (h : i.reachesTile s ask at_)
    {gate : State → Except State State} (hg : gate s = .ok s) (k : (Nat → Nat × Nat × Nat) → State → State) :
    ∃ at', (∀ l ∈ lanesOf i.act, at' l = at_ l) ∧ i.tiles s ask gate k = k at' s := by
  refine ⟨fun l => match s.tileRef i.w.crew (ask l).tw with
      | .at c t _ => (c, t, match (s.tileAccess i.w.crew (ask l).tw (ask l).row (ask l).col (ask l).w (ask l).plane
          (ask l).ecc).loc with | .dev off => off | _ => 0)
      | _ => (0, 0, 0), fun l hl => ?_, ?_⟩
  · obtain ⟨⟨t, ht⟩, sec, e⟩ := h l hl
    simp only [ht, e] <;> rfl
  · unfold Iss.tiles Iss.tilesBy
    rw [groupOut_ok fun l hl => by
      obtain ⟨-, sec, e⟩ := h l hl
      exact ⟨_, sec, e⟩]
    simp only [hg] <;> rfl

/-- Two folds over a list agree when their steps do at its members. -/
theorem foldl_congr_mem {α β : Type} (f g : β → α → β) (l : List α) (h : ∀ b, ∀ a ∈ l, f b a = g b a) (b : β) :
    l.foldl f b = l.foldl g b := by
  induction l generalizing b with
  | nil => rfl
  | cons a l ih =>
    rw [List.foldl_cons, List.foldl_cons, h b a (List.mem_cons_self ..)]
    exact ih (fun b x hx => h b x (List.mem_cons_of_mem _ hx)) _

/-- A wait for a lease or an atomic asks only where the lanes are. -/
theorem Caller.blocked_congr {c : Caller} {s : State} {f g : Nat → Loc} (h : ∀ l ∈ c.lanes, f l = g l) (n : Nat) :
    c.blocked s f n = c.blocked s g n := by
  unfold Caller.blocked
  have : ∀ ls : List Nat, (∀ l ∈ ls, f l = g l) →
      (ls.any fun l => match f l with | .dev pa => c.leasedOut s pa || s.atomOn (c.agent l) pa n || s.cutOff c.core | _ => false) =
      (ls.any fun l => match g l with | .dev pa => c.leasedOut s pa || s.atomOn (c.agent l) pa n || s.cutOff c.core | _ => false) := by
    intro ls
    induction ls with
    | nil => intro _; rfl
    | cons a ls ih =>
      intro hl
      rw [List.any_cons, List.any_cons, hl a (List.mem_cons_self ..), ih fun l m => hl l (List.mem_cons_of_mem _ m)]
  exact this _ h

/-- The claims and fills of an access change only who holds lines and grains. -/
theorem Touched.refl (s : State) : Touched s s := rfl

theorem Touched.trans {s t u : State} (h : Touched s t) (g : Touched t u) : Touched s u := by
  unfold Touched at *
  rw [← h, ← g]

theorem State.claim_touched (s : State) (who : Who) (g : Nat) : Touched s (s.claim who g) := by
  unfold State.claim
  simp only []
  split <;> rfl

theorem State.touch_touched (s : State) (who : Who) (h : Nat) (loc : Loc) : Touched s (s.touch who h loc) := by
  unfold State.touch
  split
  · split
    · exact State.claim_touched _ _ _
    · rfl
  · rfl

theorem State.filled_touched (s : State) (core : Nat) (loc : Loc) : Touched s (s.filled core loc) := by
  unfold State.filled
  split <;> rfl

theorem touched_foldl {α : Type} (f : State → α → State) (h : ∀ s a, Touched s (f s a)) (l : List α) (s : State) :
    Touched s (l.foldl f s) := by
  induction l generalizing s with
  | nil => rfl
  | cons a l ih => exact (h s a).trans (ih _)

end Sys2Proof.Machine
end

