-- ==== Sys2Proof/Laws/Receipt.lean ====
section
/-! SUPPORT. Lengths of digests, signatures and receipts: 32 bytes, 5,716 and, with a body of 128, 5,844 (Table 16.9). -/

namespace Sys2Proof.Machine

theorem Mill.turn_as {m : Mill} (h : m.as.length = 4) (k : Word) : (m.turn k).as.length = 4 := by simp [Mill.turn, h]
theorem Mill.turn_es {m : Mill} (h : m.es.length = 4) (k : Word) : (m.turn k).es.length = 4 := by simp [Mill.turn, h]

theorem shaBlock_length {hash : List Word} (h : hash.length = 8) (block : List Word) : (shaBlock hash block).length = 8 := by
  have key : ∀ (ks : List Word) (m : Mill), m.as.length = 4 → m.es.length = 4 →
      (ks.foldl Mill.turn m).as.length = 4 ∧ (ks.foldl Mill.turn m).es.length = 4 := by
    intro ks
    induction ks with
    | nil => exact fun m ha he => ⟨ha, he⟩
    | cons k ks ih => exact fun m ha he => ih _ (Mill.turn_as ha k) (Mill.turn_es he k)
  obtain ⟨ha, he⟩ := key (primes.map (rootBits 3)) { as := hash.take 4, es := hash.drop 4, next := block } (by simp [h]) (by simp [h])
  simp [shaBlock, h, ha, he]

@[simp] theorem bytesOf_length (n x : Nat) : (bytesOf n x).length = n := by
  induction n generalizing x with
  | zero => rfl
  | succ n ih => simp [bytesOf, ih]

@[simp] theorem bytesBig_length (n x : Nat) : (bytesBig n x).length = n := by simp [bytesBig]

@[simp] theorem sha256_length (bs : List Byte) : (sha256 bs).length = 32 := by
  have key : ∀ (cs : List (List Byte)) (hash : List Word), hash.length = 8 →
      (cs.foldl (fun h b => shaBlock h ((shaCut 4 16 b).map fun w => w32 (numBig w))) hash).length = 8 := by
    intro cs
    induction cs with
    | nil => exact fun _ h => h
    | cons c cs ih => exact fun hash h => ih _ (shaBlock_length h _)
  have p : primes.length = 64 := by decide +kernel
  simp [sha256, List.length_flatMap, key, p]

@[simp] theorem lmsHash_length (tree r mark : Nat) (rest : List Byte) : (lmsHash tree r mark rest).length = 32 := sha256_length _

@[simp] theorem otsChain_length (tree q i n : Nat) : (otsChain tree q i n).length = 32 := by
  cases n <;> simp [otsChain]

@[simp] theorem lmsNode_length (tree height r : Nat) : (lmsNode tree height r).length = 32 := by
  cases height <;> simp [lmsNode]

@[simp] theorem lmsPublic_length (tree : Nat) : (lmsPublic tree).length = 56 := by simp [lmsPublic]

theorem otsDigits_length {digest : List Byte} (h : digest.length = 32) : (otsDigits digest).length = 67 := by
  simp [otsDigits, List.length_flatMap, h]

@[simp] theorem otsSign_length (tree q : Nat) (message : List Byte) : (otsSign tree q message).length = 2180 := by
  simp [otsSign, List.length_flatMap, otsDigits_length]

@[simp] theorem lmsSign_length (tree q : Nat) (message : List Byte) : (lmsSign tree q message).length = 2828 := by
  simp [lmsSign, List.length_flatMap]

/-- The signature has the length that Table 16.9 gives it. -/
@[simp] theorem hssSign_length (leaf : Nat) (body : List Byte) : (hssSign leaf body).length = 5716 := by simp [hssSign]

theorem receiptBytes_length (leaf : Nat) {body : List Byte} (h : body.length = 128) : (receiptBytes leaf body).length = 5844 := by
  simp [receiptBytes, h]

/-- The public key is the 15 words of R424. -/
theorem receiptKey_length : receiptKey.length = 60 := by simp [receiptKey]

/-- What a write of the hub's leaves alone. -/
theorem State.storeHub_frame (s : State) (pa : Nat) (bs : List Byte) :
    (s.storeHub pa bs).qis = s.qis ∧ (s.storeHub pa bs).pkg = s.pkg ∧ (s.storeHub pa bs).ctxs = s.ctxs := ⟨rfl, rfl, rfl⟩

theorem State.putRun_frame (s : State) (o : Nat) (bs : List Byte) (r : Run) :
    (s.putRun o bs r).qis = s.qis ∧ (s.putRun o bs r).pkg = s.pkg ∧ (s.putRun o bs r).ctxs = s.ctxs := by
  unfold State.putRun
  dsimp only
  split <;> exact ⟨rfl, rfl, rfl⟩

/-- A write of a hub engine that may take place changes no queue interface, no context and nothing of the package, and
whether it may depends on the number of its bytes alone. -/
theorem State.hubWrite_ok {s : State} {who : Who} {h o align n : Nat} {bs : List Byte} {rs : List Run} (hn : bs.length = n)
    (hr : ∀ kind, s.reachRange who h o n { w := n, align, acc := 2, ok4 := permits 2 } kind = .ok rs) :
    ∃ u, s.hubWrite who h o align bs = .ok u ∧ u.qis = s.qis ∧ u.pkg = s.pkg ∧ u.ctxs = s.ctxs := by
  have key : ∀ (rs : List Run) (s : State), (rs.foldl (fun s r => s.putRun o bs r) s).qis = s.qis ∧
      (rs.foldl (fun s r => s.putRun o bs r) s).pkg = s.pkg ∧ (rs.foldl (fun s r => s.putRun o bs r) s).ctxs = s.ctxs := by
    intro rs
    induction rs with
    | nil => exact fun _ => ⟨rfl, rfl, rfl⟩
    | cons r rs ih =>
      intro s
      obtain ⟨a, b, c⟩ := ih (s.putRun o bs r)
      obtain ⟨a', b', c'⟩ := s.putRun_frame o bs r
      exact ⟨a.trans a', b.trans b', c.trans c'⟩
  refine ⟨_, ?_, key rs s⟩
  simp only [State.hubWrite, State.writeRuns, hn, hr]
  rfl

end Sys2Proof.Machine
end

