-- ==== Sys2Proof/Laws/State.lean ====
section
/-! SUPPORT. What each update of the state does to each of its fields. -/

namespace Sys2Proof.Machine

variable (s : State)

/-! ### setWarp -/

@[simp] theorem State.setWarp_pkg (c k : Nat) (w : Warp) : (s.setWarp c k w).pkg = s.pkg := rfl
@[simp] theorem State.setWarp_dies (c k : Nat) (w : Warp) : (s.setWarp c k w).dies = s.dies := rfl
@[simp] theorem State.setWarp_hubs (c k : Nat) (w : Warp) : (s.setWarp c k w).hubs = s.hubs := rfl
@[simp] theorem State.setWarp_links (c k : Nat) (w : Warp) : (s.setWarp c k w).links = s.links := rfl
@[simp] theorem State.setWarp_training (c k : Nat) (w : Warp) : (s.setWarp c k w).training = s.training := rfl
@[simp] theorem State.setWarp_errcnt (c k : Nat) (w : Warp) : (s.setWarp c k w).errcnt = s.errcnt := rfl
@[simp] theorem State.setWarp_mb (c k : Nat) (w : Warp) : (s.setWarp c k w).mb = s.mb := rfl
@[simp] theorem State.setWarp_endpoints (c k : Nat) (w : Warp) : (s.setWarp c k w).endpoints = s.endpoints := rfl
@[simp] theorem State.setWarp_clusters (c k : Nat) (w : Warp) : (s.setWarp c k w).clusters = s.clusters := rfl
@[simp] theorem State.setWarp_served (c k : Nat) (w : Warp) : (s.setWarp c k w).served = s.served := rfl
@[simp] theorem State.setWarp_vds (c k : Nat) (w : Warp) : (s.setWarp c k w).vds = s.vds := rfl
@[simp] theorem State.setWarp_ctxs (c k : Nat) (w : Warp) : (s.setWarp c k w).ctxs = s.ctxs := rfl
@[simp] theorem State.setWarp_qis (c k : Nat) (w : Warp) : (s.setWarp c k w).qis = s.qis := rfl
@[simp] theorem State.setWarp_tasks (c k : Nat) (w : Warp) : (s.setWarp c k w).tasks = s.tasks := rfl
@[simp] theorem State.setWarp_launches (c k : Nat) (w : Warp) : (s.setWarp c k w).launches = s.launches := rfl
@[simp] theorem State.setWarp_gangs (c k : Nat) (w : Warp) : (s.setWarp c k w).gangs = s.gangs := rfl
@[simp] theorem State.setWarp_crews (c k : Nat) (w : Warp) : (s.setWarp c k w).crews = s.crews := rfl
@[simp] theorem State.setWarp_warps (c k : Nat) (w : Warp) : (s.setWarp c k w).warps = put s.warps (warpKey c k) w := rfl
@[simp] theorem State.setWarp_gather (c k : Nat) (w : Warp) : (s.setWarp c k w).gather = s.gather := rfl
@[simp] theorem State.setWarp_contWarps (c k : Nat) (w : Warp) : (s.setWarp c k w).contWarps = s.contWarps := rfl
@[simp] theorem State.setWarp_preempts (c k : Nat) (w : Warp) : (s.setWarp c k w).preempts = s.preempts := rfl
@[simp] theorem State.setWarp_images (c k : Nat) (w : Warp) : (s.setWarp c k w).images = s.images := rfl
@[simp] theorem State.setWarp_mem (c k : Nat) (w : Warp) : (s.setWarp c k w).mem = s.mem := rfl
@[simp] theorem State.setWarp_syndrome (c k : Nat) (w : Warp) : (s.setWarp c k w).syndrome = s.syndrome := rfl
@[simp] theorem State.setWarp_patched (c k : Nat) (w : Warp) : (s.setWarp c k w).patched = s.patched := rfl
@[simp] theorem State.setWarp_pending (c k : Nat) (w : Warp) : (s.setWarp c k w).pending = s.pending := rfl
@[simp] theorem State.setWarp_wbuf (c k : Nat) (w : Warp) : (s.setWarp c k w).wbuf = s.wbuf := rfl
@[simp] theorem State.setWarp_releases (c k : Nat) (w : Warp) : (s.setWarp c k w).releases = s.releases := rfl
@[simp] theorem State.setWarp_syncs (c k : Nat) (w : Warp) : (s.setWarp c k w).syncs = s.syncs := rfl
@[simp] theorem State.setWarp_guards (c k : Nat) (w : Warp) : (s.setWarp c k w).guards = s.guards := rfl
@[simp] theorem State.setWarp_owners (c k : Nat) (w : Warp) : (s.setWarp c k w).owners = s.owners := rfl
@[simp] theorem State.setWarp_dir (c k : Nat) (w : Warp) : (s.setWarp c k w).dir = s.dir := rfl
@[simp] theorem State.setWarp_dieDir (c k : Nat) (w : Warp) : (s.setWarp c k w).dieDir = s.dieDir := rfl
@[simp] theorem State.setWarp_probes (c k : Nat) (w : Warp) : (s.setWarp c k w).probes = s.probes := rfl
@[simp] theorem State.setWarp_leaseQ (c k : Nat) (w : Warp) : (s.setWarp c k w).leaseQ = s.leaseQ := rfl
@[simp] theorem State.setWarp_leaseBuf (c k : Nat) (w : Warp) : (s.setWarp c k w).leaseBuf = s.leaseBuf := rfl
@[simp] theorem State.setWarp_lost (c k : Nat) (w : Warp) : (s.setWarp c k w).lost = s.lost := rfl
@[simp] theorem State.setWarp_atoms (c k : Nat) (w : Warp) : (s.setWarp c k w).atoms = s.atoms := rfl
@[simp] theorem State.setWarp_drr (c k : Nat) (w : Warp) : (s.setWarp c k w).drr = s.drr := rfl
@[simp] theorem State.setWarp_badgers (c k : Nat) (w : Warp) : (s.setWarp c k w).badgers = s.badgers := rfl
@[simp] theorem State.setWarp_exts (c k : Nat) (w : Warp) : (s.setWarp c k w).exts = s.exts := rfl
@[simp] theorem State.setWarp_inbound (c k : Nat) (w : Warp) : (s.setWarp c k w).inbound = s.inbound := rfl
@[simp] theorem State.setWarp_tlb (c k : Nat) (w : Warp) : (s.setWarp c k w).tlb = s.tlb := rfl
@[simp] theorem State.setWarp_walks (c k : Nat) (w : Warp) : (s.setWarp c k w).walks = s.walks := rfl
@[simp] theorem State.setWarp_time (c k : Nat) (w : Warp) : (s.setWarp c k w).time = s.time := rfl
@[simp] theorem State.setWarp_out (c k : Nat) (w : Warp) : (s.setWarp c k w).out = s.out := rfl
@[simp] theorem State.setWarp_rot (c k : Nat) (w : Warp) : (s.setWarp c k w).rot = s.rot := rfl
@[simp] theorem State.setWarp_inbox (c k : Nat) (w : Warp) : (s.setWarp c k w).inbox = s.inbox := rfl
@[simp] theorem State.setWarp_turn (c k : Nat) (w : Warp) : (s.setWarp c k w).turn = s.turn := rfl
@[simp] theorem State.setWarp_beat (c k : Nat) (w : Warp) : (s.setWarp c k w).beat = s.beat := rfl
@[simp] theorem State.setWarp_cur (c k : Nat) (w : Warp) : (s.setWarp c k w).cur = s.cur := rfl
@[simp] theorem State.setWarp_second (c k : Nat) (w : Warp) : (s.setWarp c k w).second = s.second := rfl
@[simp] theorem State.setWarp_stamp (c k : Nat) (w : Warp) : (s.setWarp c k w).stamp = s.stamp := rfl
@[simp] theorem State.setWarp_nextId (c k : Nat) (w : Warp) : (s.setWarp c k w).nextId = s.nextId := rfl

/-! ### onWarpKey -/

@[simp] theorem State.onWarpKey_pkg (k : Nat) (g : Warp → Warp) : (s.onWarpKey k g).pkg = s.pkg := rfl
@[simp] theorem State.onWarpKey_dies (k : Nat) (g : Warp → Warp) : (s.onWarpKey k g).dies = s.dies := rfl
@[simp] theorem State.onWarpKey_hubs (k : Nat) (g : Warp → Warp) : (s.onWarpKey k g).hubs = s.hubs := rfl
@[simp] theorem State.onWarpKey_links (k : Nat) (g : Warp → Warp) : (s.onWarpKey k g).links = s.links := rfl
@[simp] theorem State.onWarpKey_training (k : Nat) (g : Warp → Warp) : (s.onWarpKey k g).training = s.training := rfl
@[simp] theorem State.onWarpKey_errcnt (k : Nat) (g : Warp → Warp) : (s.onWarpKey k g).errcnt = s.errcnt := rfl
@[simp] theorem State.onWarpKey_mb (k : Nat) (g : Warp → Warp) : (s.onWarpKey k g).mb = s.mb := rfl
@[simp] theorem State.onWarpKey_endpoints (k : Nat) (g : Warp → Warp) : (s.onWarpKey k g).endpoints = s.endpoints := rfl
@[simp] theorem State.onWarpKey_clusters (k : Nat) (g : Warp → Warp) : (s.onWarpKey k g).clusters = s.clusters := rfl
@[simp] theorem State.onWarpKey_served (k : Nat) (g : Warp → Warp) : (s.onWarpKey k g).served = s.served := rfl
@[simp] theorem State.onWarpKey_vds (k : Nat) (g : Warp → Warp) : (s.onWarpKey k g).vds = s.vds := rfl
@[simp] theorem State.onWarpKey_ctxs (k : Nat) (g : Warp → Warp) : (s.onWarpKey k g).ctxs = s.ctxs := rfl
@[simp] theorem State.onWarpKey_qis (k : Nat) (g : Warp → Warp) : (s.onWarpKey k g).qis = s.qis := rfl
@[simp] theorem State.onWarpKey_tasks (k : Nat) (g : Warp → Warp) : (s.onWarpKey k g).tasks = s.tasks := rfl
@[simp] theorem State.onWarpKey_launches (k : Nat) (g : Warp → Warp) : (s.onWarpKey k g).launches = s.launches := rfl
@[simp] theorem State.onWarpKey_gangs (k : Nat) (g : Warp → Warp) : (s.onWarpKey k g).gangs = s.gangs := rfl
@[simp] theorem State.onWarpKey_crews (k : Nat) (g : Warp → Warp) : (s.onWarpKey k g).crews = s.crews := rfl
@[simp] theorem State.onWarpKey_warps (k : Nat) (g : Warp → Warp) : (s.onWarpKey k g).warps = adjust s.warps k g := rfl
@[simp] theorem State.onWarpKey_gather (k : Nat) (g : Warp → Warp) : (s.onWarpKey k g).gather = s.gather := rfl
@[simp] theorem State.onWarpKey_contWarps (k : Nat) (g : Warp → Warp) : (s.onWarpKey k g).contWarps = s.contWarps := rfl
@[simp] theorem State.onWarpKey_preempts (k : Nat) (g : Warp → Warp) : (s.onWarpKey k g).preempts = s.preempts := rfl
@[simp] theorem State.onWarpKey_images (k : Nat) (g : Warp → Warp) : (s.onWarpKey k g).images = s.images := rfl
@[simp] theorem State.onWarpKey_mem (k : Nat) (g : Warp → Warp) : (s.onWarpKey k g).mem = s.mem := rfl
@[simp] theorem State.onWarpKey_syndrome (k : Nat) (g : Warp → Warp) : (s.onWarpKey k g).syndrome = s.syndrome := rfl
@[simp] theorem State.onWarpKey_patched (k : Nat) (g : Warp → Warp) : (s.onWarpKey k g).patched = s.patched := rfl
@[simp] theorem State.onWarpKey_pending (k : Nat) (g : Warp → Warp) : (s.onWarpKey k g).pending = s.pending := rfl
@[simp] theorem State.onWarpKey_wbuf (k : Nat) (g : Warp → Warp) : (s.onWarpKey k g).wbuf = s.wbuf := rfl
@[simp] theorem State.onWarpKey_releases (k : Nat) (g : Warp → Warp) : (s.onWarpKey k g).releases = s.releases := rfl
@[simp] theorem State.onWarpKey_syncs (k : Nat) (g : Warp → Warp) : (s.onWarpKey k g).syncs = s.syncs := rfl
@[simp] theorem State.onWarpKey_guards (k : Nat) (g : Warp → Warp) : (s.onWarpKey k g).guards = s.guards := rfl
@[simp] theorem State.onWarpKey_owners (k : Nat) (g : Warp → Warp) : (s.onWarpKey k g).owners = s.owners := rfl
@[simp] theorem State.onWarpKey_dir (k : Nat) (g : Warp → Warp) : (s.onWarpKey k g).dir = s.dir := rfl
@[simp] theorem State.onWarpKey_dieDir (k : Nat) (g : Warp → Warp) : (s.onWarpKey k g).dieDir = s.dieDir := rfl
@[simp] theorem State.onWarpKey_probes (k : Nat) (g : Warp → Warp) : (s.onWarpKey k g).probes = s.probes := rfl
@[simp] theorem State.onWarpKey_leaseQ (k : Nat) (g : Warp → Warp) : (s.onWarpKey k g).leaseQ = s.leaseQ := rfl
@[simp] theorem State.onWarpKey_leaseBuf (k : Nat) (g : Warp → Warp) : (s.onWarpKey k g).leaseBuf = s.leaseBuf := rfl
@[simp] theorem State.onWarpKey_lost (k : Nat) (g : Warp → Warp) : (s.onWarpKey k g).lost = s.lost := rfl
@[simp] theorem State.onWarpKey_atoms (k : Nat) (g : Warp → Warp) : (s.onWarpKey k g).atoms = s.atoms := rfl
@[simp] theorem State.onWarpKey_drr (k : Nat) (g : Warp → Warp) : (s.onWarpKey k g).drr = s.drr := rfl
@[simp] theorem State.onWarpKey_badgers (k : Nat) (g : Warp → Warp) : (s.onWarpKey k g).badgers = s.badgers := rfl
@[simp] theorem State.onWarpKey_exts (k : Nat) (g : Warp → Warp) : (s.onWarpKey k g).exts = s.exts := rfl
@[simp] theorem State.onWarpKey_inbound (k : Nat) (g : Warp → Warp) : (s.onWarpKey k g).inbound = s.inbound := rfl
@[simp] theorem State.onWarpKey_tlb (k : Nat) (g : Warp → Warp) : (s.onWarpKey k g).tlb = s.tlb := rfl
@[simp] theorem State.onWarpKey_walks (k : Nat) (g : Warp → Warp) : (s.onWarpKey k g).walks = s.walks := rfl
@[simp] theorem State.onWarpKey_time (k : Nat) (g : Warp → Warp) : (s.onWarpKey k g).time = s.time := rfl
@[simp] theorem State.onWarpKey_out (k : Nat) (g : Warp → Warp) : (s.onWarpKey k g).out = s.out := rfl
@[simp] theorem State.onWarpKey_rot (k : Nat) (g : Warp → Warp) : (s.onWarpKey k g).rot = s.rot := rfl
@[simp] theorem State.onWarpKey_inbox (k : Nat) (g : Warp → Warp) : (s.onWarpKey k g).inbox = s.inbox := rfl
@[simp] theorem State.onWarpKey_turn (k : Nat) (g : Warp → Warp) : (s.onWarpKey k g).turn = s.turn := rfl
@[simp] theorem State.onWarpKey_beat (k : Nat) (g : Warp → Warp) : (s.onWarpKey k g).beat = s.beat := rfl
@[simp] theorem State.onWarpKey_cur (k : Nat) (g : Warp → Warp) : (s.onWarpKey k g).cur = s.cur := rfl
@[simp] theorem State.onWarpKey_second (k : Nat) (g : Warp → Warp) : (s.onWarpKey k g).second = s.second := rfl
@[simp] theorem State.onWarpKey_stamp (k : Nat) (g : Warp → Warp) : (s.onWarpKey k g).stamp = s.stamp := rfl
@[simp] theorem State.onWarpKey_nextId (k : Nat) (g : Warp → Warp) : (s.onWarpKey k g).nextId = s.nextId := rfl

/-! ### onWarp -/

@[simp] theorem State.onWarp_pkg (c k : Nat) (g : Warp → Warp) : (s.onWarp c k g).pkg = s.pkg := rfl
@[simp] theorem State.onWarp_dies (c k : Nat) (g : Warp → Warp) : (s.onWarp c k g).dies = s.dies := rfl
@[simp] theorem State.onWarp_hubs (c k : Nat) (g : Warp → Warp) : (s.onWarp c k g).hubs = s.hubs := rfl
@[simp] theorem State.onWarp_links (c k : Nat) (g : Warp → Warp) : (s.onWarp c k g).links = s.links := rfl
@[simp] theorem State.onWarp_training (c k : Nat) (g : Warp → Warp) : (s.onWarp c k g).training = s.training := rfl
@[simp] theorem State.onWarp_errcnt (c k : Nat) (g : Warp → Warp) : (s.onWarp c k g).errcnt = s.errcnt := rfl
@[simp] theorem State.onWarp_mb (c k : Nat) (g : Warp → Warp) : (s.onWarp c k g).mb = s.mb := rfl
@[simp] theorem State.onWarp_endpoints (c k : Nat) (g : Warp → Warp) : (s.onWarp c k g).endpoints = s.endpoints := rfl
@[simp] theorem State.onWarp_clusters (c k : Nat) (g : Warp → Warp) : (s.onWarp c k g).clusters = s.clusters := rfl
@[simp] theorem State.onWarp_served (c k : Nat) (g : Warp → Warp) : (s.onWarp c k g).served = s.served := rfl
@[simp] theorem State.onWarp_vds (c k : Nat) (g : Warp → Warp) : (s.onWarp c k g).vds = s.vds := rfl
@[simp] theorem State.onWarp_ctxs (c k : Nat) (g : Warp → Warp) : (s.onWarp c k g).ctxs = s.ctxs := rfl
@[simp] theorem State.onWarp_qis (c k : Nat) (g : Warp → Warp) : (s.onWarp c k g).qis = s.qis := rfl
@[simp] theorem State.onWarp_tasks (c k : Nat) (g : Warp → Warp) : (s.onWarp c k g).tasks = s.tasks := rfl
@[simp] theorem State.onWarp_launches (c k : Nat) (g : Warp → Warp) : (s.onWarp c k g).launches = s.launches := rfl
@[simp] theorem State.onWarp_gangs (c k : Nat) (g : Warp → Warp) : (s.onWarp c k g).gangs = s.gangs := rfl
@[simp] theorem State.onWarp_crews (c k : Nat) (g : Warp → Warp) : (s.onWarp c k g).crews = s.crews := rfl
@[simp] theorem State.onWarp_warps (c k : Nat) (g : Warp → Warp) : (s.onWarp c k g).warps = adjust s.warps (warpKey c k) g := rfl
@[simp] theorem State.onWarp_gather (c k : Nat) (g : Warp → Warp) : (s.onWarp c k g).gather = s.gather := rfl
@[simp] theorem State.onWarp_contWarps (c k : Nat) (g : Warp → Warp) : (s.onWarp c k g).contWarps = s.contWarps := rfl
@[simp] theorem State.onWarp_preempts (c k : Nat) (g : Warp → Warp) : (s.onWarp c k g).preempts = s.preempts := rfl
@[simp] theorem State.onWarp_images (c k : Nat) (g : Warp → Warp) : (s.onWarp c k g).images = s.images := rfl
@[simp] theorem State.onWarp_mem (c k : Nat) (g : Warp → Warp) : (s.onWarp c k g).mem = s.mem := rfl
@[simp] theorem State.onWarp_syndrome (c k : Nat) (g : Warp → Warp) : (s.onWarp c k g).syndrome = s.syndrome := rfl
@[simp] theorem State.onWarp_patched (c k : Nat) (g : Warp → Warp) : (s.onWarp c k g).patched = s.patched := rfl
@[simp] theorem State.onWarp_pending (c k : Nat) (g : Warp → Warp) : (s.onWarp c k g).pending = s.pending := rfl
@[simp] theorem State.onWarp_wbuf (c k : Nat) (g : Warp → Warp) : (s.onWarp c k g).wbuf = s.wbuf := rfl
@[simp] theorem State.onWarp_releases (c k : Nat) (g : Warp → Warp) : (s.onWarp c k g).releases = s.releases := rfl
@[simp] theorem State.onWarp_syncs (c k : Nat) (g : Warp → Warp) : (s.onWarp c k g).syncs = s.syncs := rfl
@[simp] theorem State.onWarp_guards (c k : Nat) (g : Warp → Warp) : (s.onWarp c k g).guards = s.guards := rfl
@[simp] theorem State.onWarp_owners (c k : Nat) (g : Warp → Warp) : (s.onWarp c k g).owners = s.owners := rfl
@[simp] theorem State.onWarp_dir (c k : Nat) (g : Warp → Warp) : (s.onWarp c k g).dir = s.dir := rfl
@[simp] theorem State.onWarp_dieDir (c k : Nat) (g : Warp → Warp) : (s.onWarp c k g).dieDir = s.dieDir := rfl
@[simp] theorem State.onWarp_probes (c k : Nat) (g : Warp → Warp) : (s.onWarp c k g).probes = s.probes := rfl
@[simp] theorem State.onWarp_leaseQ (c k : Nat) (g : Warp → Warp) : (s.onWarp c k g).leaseQ = s.leaseQ := rfl
@[simp] theorem State.onWarp_leaseBuf (c k : Nat) (g : Warp → Warp) : (s.onWarp c k g).leaseBuf = s.leaseBuf := rfl
@[simp] theorem State.onWarp_lost (c k : Nat) (g : Warp → Warp) : (s.onWarp c k g).lost = s.lost := rfl
@[simp] theorem State.onWarp_atoms (c k : Nat) (g : Warp → Warp) : (s.onWarp c k g).atoms = s.atoms := rfl
@[simp] theorem State.onWarp_drr (c k : Nat) (g : Warp → Warp) : (s.onWarp c k g).drr = s.drr := rfl
@[simp] theorem State.onWarp_badgers (c k : Nat) (g : Warp → Warp) : (s.onWarp c k g).badgers = s.badgers := rfl
@[simp] theorem State.onWarp_exts (c k : Nat) (g : Warp → Warp) : (s.onWarp c k g).exts = s.exts := rfl
@[simp] theorem State.onWarp_inbound (c k : Nat) (g : Warp → Warp) : (s.onWarp c k g).inbound = s.inbound := rfl
@[simp] theorem State.onWarp_tlb (c k : Nat) (g : Warp → Warp) : (s.onWarp c k g).tlb = s.tlb := rfl
@[simp] theorem State.onWarp_walks (c k : Nat) (g : Warp → Warp) : (s.onWarp c k g).walks = s.walks := rfl
@[simp] theorem State.onWarp_time (c k : Nat) (g : Warp → Warp) : (s.onWarp c k g).time = s.time := rfl
@[simp] theorem State.onWarp_out (c k : Nat) (g : Warp → Warp) : (s.onWarp c k g).out = s.out := rfl
@[simp] theorem State.onWarp_rot (c k : Nat) (g : Warp → Warp) : (s.onWarp c k g).rot = s.rot := rfl
@[simp] theorem State.onWarp_inbox (c k : Nat) (g : Warp → Warp) : (s.onWarp c k g).inbox = s.inbox := rfl
@[simp] theorem State.onWarp_turn (c k : Nat) (g : Warp → Warp) : (s.onWarp c k g).turn = s.turn := rfl
@[simp] theorem State.onWarp_beat (c k : Nat) (g : Warp → Warp) : (s.onWarp c k g).beat = s.beat := rfl
@[simp] theorem State.onWarp_cur (c k : Nat) (g : Warp → Warp) : (s.onWarp c k g).cur = s.cur := rfl
@[simp] theorem State.onWarp_second (c k : Nat) (g : Warp → Warp) : (s.onWarp c k g).second = s.second := rfl
@[simp] theorem State.onWarp_stamp (c k : Nat) (g : Warp → Warp) : (s.onWarp c k g).stamp = s.stamp := rfl
@[simp] theorem State.onWarp_nextId (c k : Nat) (g : Warp → Warp) : (s.onWarp c k g).nextId = s.nextId := rfl

/-! ### onCrewKey -/

@[simp] theorem State.onCrewKey_pkg (k : Nat) (g : Crew → Crew) : (s.onCrewKey k g).pkg = s.pkg := rfl
@[simp] theorem State.onCrewKey_dies (k : Nat) (g : Crew → Crew) : (s.onCrewKey k g).dies = s.dies := rfl
@[simp] theorem State.onCrewKey_hubs (k : Nat) (g : Crew → Crew) : (s.onCrewKey k g).hubs = s.hubs := rfl
@[simp] theorem State.onCrewKey_links (k : Nat) (g : Crew → Crew) : (s.onCrewKey k g).links = s.links := rfl
@[simp] theorem State.onCrewKey_training (k : Nat) (g : Crew → Crew) : (s.onCrewKey k g).training = s.training := rfl
@[simp] theorem State.onCrewKey_errcnt (k : Nat) (g : Crew → Crew) : (s.onCrewKey k g).errcnt = s.errcnt := rfl
@[simp] theorem State.onCrewKey_mb (k : Nat) (g : Crew → Crew) : (s.onCrewKey k g).mb = s.mb := rfl
@[simp] theorem State.onCrewKey_endpoints (k : Nat) (g : Crew → Crew) : (s.onCrewKey k g).endpoints = s.endpoints := rfl
@[simp] theorem State.onCrewKey_clusters (k : Nat) (g : Crew → Crew) : (s.onCrewKey k g).clusters = s.clusters := rfl
@[simp] theorem State.onCrewKey_served (k : Nat) (g : Crew → Crew) : (s.onCrewKey k g).served = s.served := rfl
@[simp] theorem State.onCrewKey_vds (k : Nat) (g : Crew → Crew) : (s.onCrewKey k g).vds = s.vds := rfl
@[simp] theorem State.onCrewKey_ctxs (k : Nat) (g : Crew → Crew) : (s.onCrewKey k g).ctxs = s.ctxs := rfl
@[simp] theorem State.onCrewKey_qis (k : Nat) (g : Crew → Crew) : (s.onCrewKey k g).qis = s.qis := rfl
@[simp] theorem State.onCrewKey_tasks (k : Nat) (g : Crew → Crew) : (s.onCrewKey k g).tasks = s.tasks := rfl
@[simp] theorem State.onCrewKey_launches (k : Nat) (g : Crew → Crew) : (s.onCrewKey k g).launches = s.launches := rfl
@[simp] theorem State.onCrewKey_gangs (k : Nat) (g : Crew → Crew) : (s.onCrewKey k g).gangs = s.gangs := rfl
@[simp] theorem State.onCrewKey_crews (k : Nat) (g : Crew → Crew) : (s.onCrewKey k g).crews = adjust s.crews k g := rfl
@[simp] theorem State.onCrewKey_warps (k : Nat) (g : Crew → Crew) : (s.onCrewKey k g).warps = s.warps := rfl
@[simp] theorem State.onCrewKey_gather (k : Nat) (g : Crew → Crew) : (s.onCrewKey k g).gather = s.gather := rfl
@[simp] theorem State.onCrewKey_contWarps (k : Nat) (g : Crew → Crew) : (s.onCrewKey k g).contWarps = s.contWarps := rfl
@[simp] theorem State.onCrewKey_preempts (k : Nat) (g : Crew → Crew) : (s.onCrewKey k g).preempts = s.preempts := rfl
@[simp] theorem State.onCrewKey_images (k : Nat) (g : Crew → Crew) : (s.onCrewKey k g).images = s.images := rfl
@[simp] theorem State.onCrewKey_mem (k : Nat) (g : Crew → Crew) : (s.onCrewKey k g).mem = s.mem := rfl
@[simp] theorem State.onCrewKey_syndrome (k : Nat) (g : Crew → Crew) : (s.onCrewKey k g).syndrome = s.syndrome := rfl
@[simp] theorem State.onCrewKey_patched (k : Nat) (g : Crew → Crew) : (s.onCrewKey k g).patched = s.patched := rfl
@[simp] theorem State.onCrewKey_pending (k : Nat) (g : Crew → Crew) : (s.onCrewKey k g).pending = s.pending := rfl
@[simp] theorem State.onCrewKey_wbuf (k : Nat) (g : Crew → Crew) : (s.onCrewKey k g).wbuf = s.wbuf := rfl
@[simp] theorem State.onCrewKey_releases (k : Nat) (g : Crew → Crew) : (s.onCrewKey k g).releases = s.releases := rfl
@[simp] theorem State.onCrewKey_syncs (k : Nat) (g : Crew → Crew) : (s.onCrewKey k g).syncs = s.syncs := rfl
@[simp] theorem State.onCrewKey_guards (k : Nat) (g : Crew → Crew) : (s.onCrewKey k g).guards = s.guards := rfl
@[simp] theorem State.onCrewKey_owners (k : Nat) (g : Crew → Crew) : (s.onCrewKey k g).owners = s.owners := rfl
@[simp] theorem State.onCrewKey_dir (k : Nat) (g : Crew → Crew) : (s.onCrewKey k g).dir = s.dir := rfl
@[simp] theorem State.onCrewKey_dieDir (k : Nat) (g : Crew → Crew) : (s.onCrewKey k g).dieDir = s.dieDir := rfl
@[simp] theorem State.onCrewKey_probes (k : Nat) (g : Crew → Crew) : (s.onCrewKey k g).probes = s.probes := rfl
@[simp] theorem State.onCrewKey_leaseQ (k : Nat) (g : Crew → Crew) : (s.onCrewKey k g).leaseQ = s.leaseQ := rfl
@[simp] theorem State.onCrewKey_leaseBuf (k : Nat) (g : Crew → Crew) : (s.onCrewKey k g).leaseBuf = s.leaseBuf := rfl
@[simp] theorem State.onCrewKey_lost (k : Nat) (g : Crew → Crew) : (s.onCrewKey k g).lost = s.lost := rfl
@[simp] theorem State.onCrewKey_atoms (k : Nat) (g : Crew → Crew) : (s.onCrewKey k g).atoms = s.atoms := rfl
@[simp] theorem State.onCrewKey_drr (k : Nat) (g : Crew → Crew) : (s.onCrewKey k g).drr = s.drr := rfl
@[simp] theorem State.onCrewKey_badgers (k : Nat) (g : Crew → Crew) : (s.onCrewKey k g).badgers = s.badgers := rfl
@[simp] theorem State.onCrewKey_exts (k : Nat) (g : Crew → Crew) : (s.onCrewKey k g).exts = s.exts := rfl
@[simp] theorem State.onCrewKey_inbound (k : Nat) (g : Crew → Crew) : (s.onCrewKey k g).inbound = s.inbound := rfl
@[simp] theorem State.onCrewKey_tlb (k : Nat) (g : Crew → Crew) : (s.onCrewKey k g).tlb = s.tlb := rfl
@[simp] theorem State.onCrewKey_walks (k : Nat) (g : Crew → Crew) : (s.onCrewKey k g).walks = s.walks := rfl
@[simp] theorem State.onCrewKey_time (k : Nat) (g : Crew → Crew) : (s.onCrewKey k g).time = s.time := rfl
@[simp] theorem State.onCrewKey_out (k : Nat) (g : Crew → Crew) : (s.onCrewKey k g).out = s.out := rfl
@[simp] theorem State.onCrewKey_rot (k : Nat) (g : Crew → Crew) : (s.onCrewKey k g).rot = s.rot := rfl
@[simp] theorem State.onCrewKey_inbox (k : Nat) (g : Crew → Crew) : (s.onCrewKey k g).inbox = s.inbox := rfl
@[simp] theorem State.onCrewKey_turn (k : Nat) (g : Crew → Crew) : (s.onCrewKey k g).turn = s.turn := rfl
@[simp] theorem State.onCrewKey_beat (k : Nat) (g : Crew → Crew) : (s.onCrewKey k g).beat = s.beat := rfl
@[simp] theorem State.onCrewKey_cur (k : Nat) (g : Crew → Crew) : (s.onCrewKey k g).cur = s.cur := rfl
@[simp] theorem State.onCrewKey_second (k : Nat) (g : Crew → Crew) : (s.onCrewKey k g).second = s.second := rfl
@[simp] theorem State.onCrewKey_stamp (k : Nat) (g : Crew → Crew) : (s.onCrewKey k g).stamp = s.stamp := rfl
@[simp] theorem State.onCrewKey_nextId (k : Nat) (g : Crew → Crew) : (s.onCrewKey k g).nextId = s.nextId := rfl

/-! ### onCrew -/

@[simp] theorem State.onCrew_pkg (c k : Nat) (g : Crew → Crew) : (s.onCrew c k g).pkg = s.pkg := rfl
@[simp] theorem State.onCrew_dies (c k : Nat) (g : Crew → Crew) : (s.onCrew c k g).dies = s.dies := rfl
@[simp] theorem State.onCrew_hubs (c k : Nat) (g : Crew → Crew) : (s.onCrew c k g).hubs = s.hubs := rfl
@[simp] theorem State.onCrew_links (c k : Nat) (g : Crew → Crew) : (s.onCrew c k g).links = s.links := rfl
@[simp] theorem State.onCrew_training (c k : Nat) (g : Crew → Crew) : (s.onCrew c k g).training = s.training := rfl
@[simp] theorem State.onCrew_errcnt (c k : Nat) (g : Crew → Crew) : (s.onCrew c k g).errcnt = s.errcnt := rfl
@[simp] theorem State.onCrew_mb (c k : Nat) (g : Crew → Crew) : (s.onCrew c k g).mb = s.mb := rfl
@[simp] theorem State.onCrew_endpoints (c k : Nat) (g : Crew → Crew) : (s.onCrew c k g).endpoints = s.endpoints := rfl
@[simp] theorem State.onCrew_clusters (c k : Nat) (g : Crew → Crew) : (s.onCrew c k g).clusters = s.clusters := rfl
@[simp] theorem State.onCrew_served (c k : Nat) (g : Crew → Crew) : (s.onCrew c k g).served = s.served := rfl
@[simp] theorem State.onCrew_vds (c k : Nat) (g : Crew → Crew) : (s.onCrew c k g).vds = s.vds := rfl
@[simp] theorem State.onCrew_ctxs (c k : Nat) (g : Crew → Crew) : (s.onCrew c k g).ctxs = s.ctxs := rfl
@[simp] theorem State.onCrew_qis (c k : Nat) (g : Crew → Crew) : (s.onCrew c k g).qis = s.qis := rfl
@[simp] theorem State.onCrew_tasks (c k : Nat) (g : Crew → Crew) : (s.onCrew c k g).tasks = s.tasks := rfl
@[simp] theorem State.onCrew_launches (c k : Nat) (g : Crew → Crew) : (s.onCrew c k g).launches = s.launches := rfl
@[simp] theorem State.onCrew_gangs (c k : Nat) (g : Crew → Crew) : (s.onCrew c k g).gangs = s.gangs := rfl
@[simp] theorem State.onCrew_crews (c k : Nat) (g : Crew → Crew) : (s.onCrew c k g).crews = adjust s.crews (crewKey c k) g := rfl
@[simp] theorem State.onCrew_warps (c k : Nat) (g : Crew → Crew) : (s.onCrew c k g).warps = s.warps := rfl
@[simp] theorem State.onCrew_gather (c k : Nat) (g : Crew → Crew) : (s.onCrew c k g).gather = s.gather := rfl
@[simp] theorem State.onCrew_contWarps (c k : Nat) (g : Crew → Crew) : (s.onCrew c k g).contWarps = s.contWarps := rfl
@[simp] theorem State.onCrew_preempts (c k : Nat) (g : Crew → Crew) : (s.onCrew c k g).preempts = s.preempts := rfl
@[simp] theorem State.onCrew_images (c k : Nat) (g : Crew → Crew) : (s.onCrew c k g).images = s.images := rfl
@[simp] theorem State.onCrew_mem (c k : Nat) (g : Crew → Crew) : (s.onCrew c k g).mem = s.mem := rfl
@[simp] theorem State.onCrew_syndrome (c k : Nat) (g : Crew → Crew) : (s.onCrew c k g).syndrome = s.syndrome := rfl
@[simp] theorem State.onCrew_patched (c k : Nat) (g : Crew → Crew) : (s.onCrew c k g).patched = s.patched := rfl
@[simp] theorem State.onCrew_pending (c k : Nat) (g : Crew → Crew) : (s.onCrew c k g).pending = s.pending := rfl
@[simp] theorem State.onCrew_wbuf (c k : Nat) (g : Crew → Crew) : (s.onCrew c k g).wbuf = s.wbuf := rfl
@[simp] theorem State.onCrew_releases (c k : Nat) (g : Crew → Crew) : (s.onCrew c k g).releases = s.releases := rfl
@[simp] theorem State.onCrew_syncs (c k : Nat) (g : Crew → Crew) : (s.onCrew c k g).syncs = s.syncs := rfl
@[simp] theorem State.onCrew_guards (c k : Nat) (g : Crew → Crew) : (s.onCrew c k g).guards = s.guards := rfl
@[simp] theorem State.onCrew_owners (c k : Nat) (g : Crew → Crew) : (s.onCrew c k g).owners = s.owners := rfl
@[simp] theorem State.onCrew_dir (c k : Nat) (g : Crew → Crew) : (s.onCrew c k g).dir = s.dir := rfl
@[simp] theorem State.onCrew_dieDir (c k : Nat) (g : Crew → Crew) : (s.onCrew c k g).dieDir = s.dieDir := rfl
@[simp] theorem State.onCrew_probes (c k : Nat) (g : Crew → Crew) : (s.onCrew c k g).probes = s.probes := rfl
@[simp] theorem State.onCrew_leaseQ (c k : Nat) (g : Crew → Crew) : (s.onCrew c k g).leaseQ = s.leaseQ := rfl
@[simp] theorem State.onCrew_leaseBuf (c k : Nat) (g : Crew → Crew) : (s.onCrew c k g).leaseBuf = s.leaseBuf := rfl
@[simp] theorem State.onCrew_lost (c k : Nat) (g : Crew → Crew) : (s.onCrew c k g).lost = s.lost := rfl
@[simp] theorem State.onCrew_atoms (c k : Nat) (g : Crew → Crew) : (s.onCrew c k g).atoms = s.atoms := rfl
@[simp] theorem State.onCrew_drr (c k : Nat) (g : Crew → Crew) : (s.onCrew c k g).drr = s.drr := rfl
@[simp] theorem State.onCrew_badgers (c k : Nat) (g : Crew → Crew) : (s.onCrew c k g).badgers = s.badgers := rfl
@[simp] theorem State.onCrew_exts (c k : Nat) (g : Crew → Crew) : (s.onCrew c k g).exts = s.exts := rfl
@[simp] theorem State.onCrew_inbound (c k : Nat) (g : Crew → Crew) : (s.onCrew c k g).inbound = s.inbound := rfl
@[simp] theorem State.onCrew_tlb (c k : Nat) (g : Crew → Crew) : (s.onCrew c k g).tlb = s.tlb := rfl
@[simp] theorem State.onCrew_walks (c k : Nat) (g : Crew → Crew) : (s.onCrew c k g).walks = s.walks := rfl
@[simp] theorem State.onCrew_time (c k : Nat) (g : Crew → Crew) : (s.onCrew c k g).time = s.time := rfl
@[simp] theorem State.onCrew_out (c k : Nat) (g : Crew → Crew) : (s.onCrew c k g).out = s.out := rfl
@[simp] theorem State.onCrew_rot (c k : Nat) (g : Crew → Crew) : (s.onCrew c k g).rot = s.rot := rfl
@[simp] theorem State.onCrew_inbox (c k : Nat) (g : Crew → Crew) : (s.onCrew c k g).inbox = s.inbox := rfl
@[simp] theorem State.onCrew_turn (c k : Nat) (g : Crew → Crew) : (s.onCrew c k g).turn = s.turn := rfl
@[simp] theorem State.onCrew_beat (c k : Nat) (g : Crew → Crew) : (s.onCrew c k g).beat = s.beat := rfl
@[simp] theorem State.onCrew_cur (c k : Nat) (g : Crew → Crew) : (s.onCrew c k g).cur = s.cur := rfl
@[simp] theorem State.onCrew_second (c k : Nat) (g : Crew → Crew) : (s.onCrew c k g).second = s.second := rfl
@[simp] theorem State.onCrew_stamp (c k : Nat) (g : Crew → Crew) : (s.onCrew c k g).stamp = s.stamp := rfl
@[simp] theorem State.onCrew_nextId (c k : Nat) (g : Crew → Crew) : (s.onCrew c k g).nextId = s.nextId := rfl

/-! ### onLead -/

@[simp] theorem State.onLead_pkg (c k : Nat) (g : Lead → Lead) : (s.onLead c k g).pkg = s.pkg := rfl
@[simp] theorem State.onLead_dies (c k : Nat) (g : Lead → Lead) : (s.onLead c k g).dies = s.dies := rfl
@[simp] theorem State.onLead_hubs (c k : Nat) (g : Lead → Lead) : (s.onLead c k g).hubs = s.hubs := rfl
@[simp] theorem State.onLead_links (c k : Nat) (g : Lead → Lead) : (s.onLead c k g).links = s.links := rfl
@[simp] theorem State.onLead_training (c k : Nat) (g : Lead → Lead) : (s.onLead c k g).training = s.training := rfl
@[simp] theorem State.onLead_errcnt (c k : Nat) (g : Lead → Lead) : (s.onLead c k g).errcnt = s.errcnt := rfl
@[simp] theorem State.onLead_mb (c k : Nat) (g : Lead → Lead) : (s.onLead c k g).mb = s.mb := rfl
@[simp] theorem State.onLead_endpoints (c k : Nat) (g : Lead → Lead) : (s.onLead c k g).endpoints = s.endpoints := rfl
@[simp] theorem State.onLead_clusters (c k : Nat) (g : Lead → Lead) : (s.onLead c k g).clusters = s.clusters := rfl
@[simp] theorem State.onLead_served (c k : Nat) (g : Lead → Lead) : (s.onLead c k g).served = s.served := rfl
@[simp] theorem State.onLead_vds (c k : Nat) (g : Lead → Lead) : (s.onLead c k g).vds = s.vds := rfl
@[simp] theorem State.onLead_ctxs (c k : Nat) (g : Lead → Lead) : (s.onLead c k g).ctxs = s.ctxs := rfl
@[simp] theorem State.onLead_qis (c k : Nat) (g : Lead → Lead) : (s.onLead c k g).qis = s.qis := rfl
@[simp] theorem State.onLead_tasks (c k : Nat) (g : Lead → Lead) : (s.onLead c k g).tasks = s.tasks := rfl
@[simp] theorem State.onLead_launches (c k : Nat) (g : Lead → Lead) : (s.onLead c k g).launches = s.launches := rfl
@[simp] theorem State.onLead_gangs (c k : Nat) (g : Lead → Lead) : (s.onLead c k g).gangs = s.gangs := rfl
@[simp] theorem State.onLead_crews (c k : Nat) (g : Lead → Lead) : (s.onLead c k g).crews = adjust s.crews (crewKey c k) fun x => { x with lead := g x.lead } := rfl
@[simp] theorem State.onLead_warps (c k : Nat) (g : Lead → Lead) : (s.onLead c k g).warps = s.warps := rfl
@[simp] theorem State.onLead_gather (c k : Nat) (g : Lead → Lead) : (s.onLead c k g).gather = s.gather := rfl
@[simp] theorem State.onLead_contWarps (c k : Nat) (g : Lead → Lead) : (s.onLead c k g).contWarps = s.contWarps := rfl
@[simp] theorem State.onLead_preempts (c k : Nat) (g : Lead → Lead) : (s.onLead c k g).preempts = s.preempts := rfl
@[simp] theorem State.onLead_images (c k : Nat) (g : Lead → Lead) : (s.onLead c k g).images = s.images := rfl
@[simp] theorem State.onLead_mem (c k : Nat) (g : Lead → Lead) : (s.onLead c k g).mem = s.mem := rfl
@[simp] theorem State.onLead_syndrome (c k : Nat) (g : Lead → Lead) : (s.onLead c k g).syndrome = s.syndrome := rfl
@[simp] theorem State.onLead_patched (c k : Nat) (g : Lead → Lead) : (s.onLead c k g).patched = s.patched := rfl
@[simp] theorem State.onLead_pending (c k : Nat) (g : Lead → Lead) : (s.onLead c k g).pending = s.pending := rfl
@[simp] theorem State.onLead_wbuf (c k : Nat) (g : Lead → Lead) : (s.onLead c k g).wbuf = s.wbuf := rfl
@[simp] theorem State.onLead_releases (c k : Nat) (g : Lead → Lead) : (s.onLead c k g).releases = s.releases := rfl
@[simp] theorem State.onLead_syncs (c k : Nat) (g : Lead → Lead) : (s.onLead c k g).syncs = s.syncs := rfl
@[simp] theorem State.onLead_guards (c k : Nat) (g : Lead → Lead) : (s.onLead c k g).guards = s.guards := rfl
@[simp] theorem State.onLead_owners (c k : Nat) (g : Lead → Lead) : (s.onLead c k g).owners = s.owners := rfl
@[simp] theorem State.onLead_dir (c k : Nat) (g : Lead → Lead) : (s.onLead c k g).dir = s.dir := rfl
@[simp] theorem State.onLead_dieDir (c k : Nat) (g : Lead → Lead) : (s.onLead c k g).dieDir = s.dieDir := rfl
@[simp] theorem State.onLead_probes (c k : Nat) (g : Lead → Lead) : (s.onLead c k g).probes = s.probes := rfl
@[simp] theorem State.onLead_leaseQ (c k : Nat) (g : Lead → Lead) : (s.onLead c k g).leaseQ = s.leaseQ := rfl
@[simp] theorem State.onLead_leaseBuf (c k : Nat) (g : Lead → Lead) : (s.onLead c k g).leaseBuf = s.leaseBuf := rfl
@[simp] theorem State.onLead_lost (c k : Nat) (g : Lead → Lead) : (s.onLead c k g).lost = s.lost := rfl
@[simp] theorem State.onLead_atoms (c k : Nat) (g : Lead → Lead) : (s.onLead c k g).atoms = s.atoms := rfl
@[simp] theorem State.onLead_drr (c k : Nat) (g : Lead → Lead) : (s.onLead c k g).drr = s.drr := rfl
@[simp] theorem State.onLead_badgers (c k : Nat) (g : Lead → Lead) : (s.onLead c k g).badgers = s.badgers := rfl
@[simp] theorem State.onLead_exts (c k : Nat) (g : Lead → Lead) : (s.onLead c k g).exts = s.exts := rfl
@[simp] theorem State.onLead_inbound (c k : Nat) (g : Lead → Lead) : (s.onLead c k g).inbound = s.inbound := rfl
@[simp] theorem State.onLead_tlb (c k : Nat) (g : Lead → Lead) : (s.onLead c k g).tlb = s.tlb := rfl
@[simp] theorem State.onLead_walks (c k : Nat) (g : Lead → Lead) : (s.onLead c k g).walks = s.walks := rfl
@[simp] theorem State.onLead_time (c k : Nat) (g : Lead → Lead) : (s.onLead c k g).time = s.time := rfl
@[simp] theorem State.onLead_out (c k : Nat) (g : Lead → Lead) : (s.onLead c k g).out = s.out := rfl
@[simp] theorem State.onLead_rot (c k : Nat) (g : Lead → Lead) : (s.onLead c k g).rot = s.rot := rfl
@[simp] theorem State.onLead_inbox (c k : Nat) (g : Lead → Lead) : (s.onLead c k g).inbox = s.inbox := rfl
@[simp] theorem State.onLead_turn (c k : Nat) (g : Lead → Lead) : (s.onLead c k g).turn = s.turn := rfl
@[simp] theorem State.onLead_beat (c k : Nat) (g : Lead → Lead) : (s.onLead c k g).beat = s.beat := rfl
@[simp] theorem State.onLead_cur (c k : Nat) (g : Lead → Lead) : (s.onLead c k g).cur = s.cur := rfl
@[simp] theorem State.onLead_second (c k : Nat) (g : Lead → Lead) : (s.onLead c k g).second = s.second := rfl
@[simp] theorem State.onLead_stamp (c k : Nat) (g : Lead → Lead) : (s.onLead c k g).stamp = s.stamp := rfl
@[simp] theorem State.onLead_nextId (c k : Nat) (g : Lead → Lead) : (s.onLead c k g).nextId = s.nextId := rfl

/-! ### onGang -/

@[simp] theorem State.onGang_pkg (k : Nat) (g : Gang → Gang) : (s.onGang k g).pkg = s.pkg := rfl
@[simp] theorem State.onGang_dies (k : Nat) (g : Gang → Gang) : (s.onGang k g).dies = s.dies := rfl
@[simp] theorem State.onGang_hubs (k : Nat) (g : Gang → Gang) : (s.onGang k g).hubs = s.hubs := rfl
@[simp] theorem State.onGang_links (k : Nat) (g : Gang → Gang) : (s.onGang k g).links = s.links := rfl
@[simp] theorem State.onGang_training (k : Nat) (g : Gang → Gang) : (s.onGang k g).training = s.training := rfl
@[simp] theorem State.onGang_errcnt (k : Nat) (g : Gang → Gang) : (s.onGang k g).errcnt = s.errcnt := rfl
@[simp] theorem State.onGang_mb (k : Nat) (g : Gang → Gang) : (s.onGang k g).mb = s.mb := rfl
@[simp] theorem State.onGang_endpoints (k : Nat) (g : Gang → Gang) : (s.onGang k g).endpoints = s.endpoints := rfl
@[simp] theorem State.onGang_clusters (k : Nat) (g : Gang → Gang) : (s.onGang k g).clusters = s.clusters := rfl
@[simp] theorem State.onGang_served (k : Nat) (g : Gang → Gang) : (s.onGang k g).served = s.served := rfl
@[simp] theorem State.onGang_vds (k : Nat) (g : Gang → Gang) : (s.onGang k g).vds = s.vds := rfl
@[simp] theorem State.onGang_ctxs (k : Nat) (g : Gang → Gang) : (s.onGang k g).ctxs = s.ctxs := rfl
@[simp] theorem State.onGang_qis (k : Nat) (g : Gang → Gang) : (s.onGang k g).qis = s.qis := rfl
@[simp] theorem State.onGang_tasks (k : Nat) (g : Gang → Gang) : (s.onGang k g).tasks = s.tasks := rfl
@[simp] theorem State.onGang_launches (k : Nat) (g : Gang → Gang) : (s.onGang k g).launches = s.launches := rfl
@[simp] theorem State.onGang_gangs (k : Nat) (g : Gang → Gang) : (s.onGang k g).gangs = adjust s.gangs k g := rfl
@[simp] theorem State.onGang_crews (k : Nat) (g : Gang → Gang) : (s.onGang k g).crews = s.crews := rfl
@[simp] theorem State.onGang_warps (k : Nat) (g : Gang → Gang) : (s.onGang k g).warps = s.warps := rfl
@[simp] theorem State.onGang_gather (k : Nat) (g : Gang → Gang) : (s.onGang k g).gather = s.gather := rfl
@[simp] theorem State.onGang_contWarps (k : Nat) (g : Gang → Gang) : (s.onGang k g).contWarps = s.contWarps := rfl
@[simp] theorem State.onGang_preempts (k : Nat) (g : Gang → Gang) : (s.onGang k g).preempts = s.preempts := rfl
@[simp] theorem State.onGang_images (k : Nat) (g : Gang → Gang) : (s.onGang k g).images = s.images := rfl
@[simp] theorem State.onGang_mem (k : Nat) (g : Gang → Gang) : (s.onGang k g).mem = s.mem := rfl
@[simp] theorem State.onGang_syndrome (k : Nat) (g : Gang → Gang) : (s.onGang k g).syndrome = s.syndrome := rfl
@[simp] theorem State.onGang_patched (k : Nat) (g : Gang → Gang) : (s.onGang k g).patched = s.patched := rfl
@[simp] theorem State.onGang_pending (k : Nat) (g : Gang → Gang) : (s.onGang k g).pending = s.pending := rfl
@[simp] theorem State.onGang_wbuf (k : Nat) (g : Gang → Gang) : (s.onGang k g).wbuf = s.wbuf := rfl
@[simp] theorem State.onGang_releases (k : Nat) (g : Gang → Gang) : (s.onGang k g).releases = s.releases := rfl
@[simp] theorem State.onGang_syncs (k : Nat) (g : Gang → Gang) : (s.onGang k g).syncs = s.syncs := rfl
@[simp] theorem State.onGang_guards (k : Nat) (g : Gang → Gang) : (s.onGang k g).guards = s.guards := rfl
@[simp] theorem State.onGang_owners (k : Nat) (g : Gang → Gang) : (s.onGang k g).owners = s.owners := rfl
@[simp] theorem State.onGang_dir (k : Nat) (g : Gang → Gang) : (s.onGang k g).dir = s.dir := rfl
@[simp] theorem State.onGang_dieDir (k : Nat) (g : Gang → Gang) : (s.onGang k g).dieDir = s.dieDir := rfl
@[simp] theorem State.onGang_probes (k : Nat) (g : Gang → Gang) : (s.onGang k g).probes = s.probes := rfl
@[simp] theorem State.onGang_leaseQ (k : Nat) (g : Gang → Gang) : (s.onGang k g).leaseQ = s.leaseQ := rfl
@[simp] theorem State.onGang_leaseBuf (k : Nat) (g : Gang → Gang) : (s.onGang k g).leaseBuf = s.leaseBuf := rfl
@[simp] theorem State.onGang_lost (k : Nat) (g : Gang → Gang) : (s.onGang k g).lost = s.lost := rfl
@[simp] theorem State.onGang_atoms (k : Nat) (g : Gang → Gang) : (s.onGang k g).atoms = s.atoms := rfl
@[simp] theorem State.onGang_drr (k : Nat) (g : Gang → Gang) : (s.onGang k g).drr = s.drr := rfl
@[simp] theorem State.onGang_badgers (k : Nat) (g : Gang → Gang) : (s.onGang k g).badgers = s.badgers := rfl
@[simp] theorem State.onGang_exts (k : Nat) (g : Gang → Gang) : (s.onGang k g).exts = s.exts := rfl
@[simp] theorem State.onGang_inbound (k : Nat) (g : Gang → Gang) : (s.onGang k g).inbound = s.inbound := rfl
@[simp] theorem State.onGang_tlb (k : Nat) (g : Gang → Gang) : (s.onGang k g).tlb = s.tlb := rfl
@[simp] theorem State.onGang_walks (k : Nat) (g : Gang → Gang) : (s.onGang k g).walks = s.walks := rfl
@[simp] theorem State.onGang_time (k : Nat) (g : Gang → Gang) : (s.onGang k g).time = s.time := rfl
@[simp] theorem State.onGang_out (k : Nat) (g : Gang → Gang) : (s.onGang k g).out = s.out := rfl
@[simp] theorem State.onGang_rot (k : Nat) (g : Gang → Gang) : (s.onGang k g).rot = s.rot := rfl
@[simp] theorem State.onGang_inbox (k : Nat) (g : Gang → Gang) : (s.onGang k g).inbox = s.inbox := rfl
@[simp] theorem State.onGang_turn (k : Nat) (g : Gang → Gang) : (s.onGang k g).turn = s.turn := rfl
@[simp] theorem State.onGang_beat (k : Nat) (g : Gang → Gang) : (s.onGang k g).beat = s.beat := rfl
@[simp] theorem State.onGang_cur (k : Nat) (g : Gang → Gang) : (s.onGang k g).cur = s.cur := rfl
@[simp] theorem State.onGang_second (k : Nat) (g : Gang → Gang) : (s.onGang k g).second = s.second := rfl
@[simp] theorem State.onGang_stamp (k : Nat) (g : Gang → Gang) : (s.onGang k g).stamp = s.stamp := rfl
@[simp] theorem State.onGang_nextId (k : Nat) (g : Gang → Gang) : (s.onGang k g).nextId = s.nextId := rfl

/-! ### onCtx -/

@[simp] theorem State.onCtx_pkg (k : Nat) (g : Ctx → Ctx) : (s.onCtx k g).pkg = s.pkg := rfl
@[simp] theorem State.onCtx_dies (k : Nat) (g : Ctx → Ctx) : (s.onCtx k g).dies = s.dies := rfl
@[simp] theorem State.onCtx_hubs (k : Nat) (g : Ctx → Ctx) : (s.onCtx k g).hubs = s.hubs := rfl
@[simp] theorem State.onCtx_links (k : Nat) (g : Ctx → Ctx) : (s.onCtx k g).links = s.links := rfl
@[simp] theorem State.onCtx_training (k : Nat) (g : Ctx → Ctx) : (s.onCtx k g).training = s.training := rfl
@[simp] theorem State.onCtx_errcnt (k : Nat) (g : Ctx → Ctx) : (s.onCtx k g).errcnt = s.errcnt := rfl
@[simp] theorem State.onCtx_mb (k : Nat) (g : Ctx → Ctx) : (s.onCtx k g).mb = s.mb := rfl
@[simp] theorem State.onCtx_endpoints (k : Nat) (g : Ctx → Ctx) : (s.onCtx k g).endpoints = s.endpoints := rfl
@[simp] theorem State.onCtx_clusters (k : Nat) (g : Ctx → Ctx) : (s.onCtx k g).clusters = s.clusters := rfl
@[simp] theorem State.onCtx_served (k : Nat) (g : Ctx → Ctx) : (s.onCtx k g).served = s.served := rfl
@[simp] theorem State.onCtx_vds (k : Nat) (g : Ctx → Ctx) : (s.onCtx k g).vds = s.vds := rfl
@[simp] theorem State.onCtx_ctxs (k : Nat) (g : Ctx → Ctx) : (s.onCtx k g).ctxs = adjust s.ctxs k g := rfl
@[simp] theorem State.onCtx_qis (k : Nat) (g : Ctx → Ctx) : (s.onCtx k g).qis = s.qis := rfl
@[simp] theorem State.onCtx_tasks (k : Nat) (g : Ctx → Ctx) : (s.onCtx k g).tasks = s.tasks := rfl
@[simp] theorem State.onCtx_launches (k : Nat) (g : Ctx → Ctx) : (s.onCtx k g).launches = s.launches := rfl
@[simp] theorem State.onCtx_gangs (k : Nat) (g : Ctx → Ctx) : (s.onCtx k g).gangs = s.gangs := rfl
@[simp] theorem State.onCtx_crews (k : Nat) (g : Ctx → Ctx) : (s.onCtx k g).crews = s.crews := rfl
@[simp] theorem State.onCtx_warps (k : Nat) (g : Ctx → Ctx) : (s.onCtx k g).warps = s.warps := rfl
@[simp] theorem State.onCtx_gather (k : Nat) (g : Ctx → Ctx) : (s.onCtx k g).gather = s.gather := rfl
@[simp] theorem State.onCtx_contWarps (k : Nat) (g : Ctx → Ctx) : (s.onCtx k g).contWarps = s.contWarps := rfl
@[simp] theorem State.onCtx_preempts (k : Nat) (g : Ctx → Ctx) : (s.onCtx k g).preempts = s.preempts := rfl
@[simp] theorem State.onCtx_images (k : Nat) (g : Ctx → Ctx) : (s.onCtx k g).images = s.images := rfl
@[simp] theorem State.onCtx_mem (k : Nat) (g : Ctx → Ctx) : (s.onCtx k g).mem = s.mem := rfl
@[simp] theorem State.onCtx_syndrome (k : Nat) (g : Ctx → Ctx) : (s.onCtx k g).syndrome = s.syndrome := rfl
@[simp] theorem State.onCtx_patched (k : Nat) (g : Ctx → Ctx) : (s.onCtx k g).patched = s.patched := rfl
@[simp] theorem State.onCtx_pending (k : Nat) (g : Ctx → Ctx) : (s.onCtx k g).pending = s.pending := rfl
@[simp] theorem State.onCtx_wbuf (k : Nat) (g : Ctx → Ctx) : (s.onCtx k g).wbuf = s.wbuf := rfl
@[simp] theorem State.onCtx_releases (k : Nat) (g : Ctx → Ctx) : (s.onCtx k g).releases = s.releases := rfl
@[simp] theorem State.onCtx_syncs (k : Nat) (g : Ctx → Ctx) : (s.onCtx k g).syncs = s.syncs := rfl
@[simp] theorem State.onCtx_guards (k : Nat) (g : Ctx → Ctx) : (s.onCtx k g).guards = s.guards := rfl
@[simp] theorem State.onCtx_owners (k : Nat) (g : Ctx → Ctx) : (s.onCtx k g).owners = s.owners := rfl
@[simp] theorem State.onCtx_dir (k : Nat) (g : Ctx → Ctx) : (s.onCtx k g).dir = s.dir := rfl
@[simp] theorem State.onCtx_dieDir (k : Nat) (g : Ctx → Ctx) : (s.onCtx k g).dieDir = s.dieDir := rfl
@[simp] theorem State.onCtx_probes (k : Nat) (g : Ctx → Ctx) : (s.onCtx k g).probes = s.probes := rfl
@[simp] theorem State.onCtx_leaseQ (k : Nat) (g : Ctx → Ctx) : (s.onCtx k g).leaseQ = s.leaseQ := rfl
@[simp] theorem State.onCtx_leaseBuf (k : Nat) (g : Ctx → Ctx) : (s.onCtx k g).leaseBuf = s.leaseBuf := rfl
@[simp] theorem State.onCtx_lost (k : Nat) (g : Ctx → Ctx) : (s.onCtx k g).lost = s.lost := rfl
@[simp] theorem State.onCtx_atoms (k : Nat) (g : Ctx → Ctx) : (s.onCtx k g).atoms = s.atoms := rfl
@[simp] theorem State.onCtx_drr (k : Nat) (g : Ctx → Ctx) : (s.onCtx k g).drr = s.drr := rfl
@[simp] theorem State.onCtx_badgers (k : Nat) (g : Ctx → Ctx) : (s.onCtx k g).badgers = s.badgers := rfl
@[simp] theorem State.onCtx_exts (k : Nat) (g : Ctx → Ctx) : (s.onCtx k g).exts = s.exts := rfl
@[simp] theorem State.onCtx_inbound (k : Nat) (g : Ctx → Ctx) : (s.onCtx k g).inbound = s.inbound := rfl
@[simp] theorem State.onCtx_tlb (k : Nat) (g : Ctx → Ctx) : (s.onCtx k g).tlb = s.tlb := rfl
@[simp] theorem State.onCtx_walks (k : Nat) (g : Ctx → Ctx) : (s.onCtx k g).walks = s.walks := rfl
@[simp] theorem State.onCtx_time (k : Nat) (g : Ctx → Ctx) : (s.onCtx k g).time = s.time := rfl
@[simp] theorem State.onCtx_out (k : Nat) (g : Ctx → Ctx) : (s.onCtx k g).out = s.out := rfl
@[simp] theorem State.onCtx_rot (k : Nat) (g : Ctx → Ctx) : (s.onCtx k g).rot = s.rot := rfl
@[simp] theorem State.onCtx_inbox (k : Nat) (g : Ctx → Ctx) : (s.onCtx k g).inbox = s.inbox := rfl
@[simp] theorem State.onCtx_turn (k : Nat) (g : Ctx → Ctx) : (s.onCtx k g).turn = s.turn := rfl
@[simp] theorem State.onCtx_beat (k : Nat) (g : Ctx → Ctx) : (s.onCtx k g).beat = s.beat := rfl
@[simp] theorem State.onCtx_cur (k : Nat) (g : Ctx → Ctx) : (s.onCtx k g).cur = s.cur := rfl
@[simp] theorem State.onCtx_second (k : Nat) (g : Ctx → Ctx) : (s.onCtx k g).second = s.second := rfl
@[simp] theorem State.onCtx_stamp (k : Nat) (g : Ctx → Ctx) : (s.onCtx k g).stamp = s.stamp := rfl
@[simp] theorem State.onCtx_nextId (k : Nat) (g : Ctx → Ctx) : (s.onCtx k g).nextId = s.nextId := rfl

/-! ### onVd -/

@[simp] theorem State.onVd_pkg (k : Nat) (g : Vd → Vd) : (s.onVd k g).pkg = s.pkg := rfl
@[simp] theorem State.onVd_dies (k : Nat) (g : Vd → Vd) : (s.onVd k g).dies = s.dies := rfl
@[simp] theorem State.onVd_hubs (k : Nat) (g : Vd → Vd) : (s.onVd k g).hubs = s.hubs := rfl
@[simp] theorem State.onVd_links (k : Nat) (g : Vd → Vd) : (s.onVd k g).links = s.links := rfl
@[simp] theorem State.onVd_training (k : Nat) (g : Vd → Vd) : (s.onVd k g).training = s.training := rfl
@[simp] theorem State.onVd_errcnt (k : Nat) (g : Vd → Vd) : (s.onVd k g).errcnt = s.errcnt := rfl
@[simp] theorem State.onVd_mb (k : Nat) (g : Vd → Vd) : (s.onVd k g).mb = s.mb := rfl
@[simp] theorem State.onVd_endpoints (k : Nat) (g : Vd → Vd) : (s.onVd k g).endpoints = s.endpoints := rfl
@[simp] theorem State.onVd_clusters (k : Nat) (g : Vd → Vd) : (s.onVd k g).clusters = s.clusters := rfl
@[simp] theorem State.onVd_served (k : Nat) (g : Vd → Vd) : (s.onVd k g).served = s.served := rfl
@[simp] theorem State.onVd_vds (k : Nat) (g : Vd → Vd) : (s.onVd k g).vds = adjust s.vds k g := rfl
@[simp] theorem State.onVd_ctxs (k : Nat) (g : Vd → Vd) : (s.onVd k g).ctxs = s.ctxs := rfl
@[simp] theorem State.onVd_qis (k : Nat) (g : Vd → Vd) : (s.onVd k g).qis = s.qis := rfl
@[simp] theorem State.onVd_tasks (k : Nat) (g : Vd → Vd) : (s.onVd k g).tasks = s.tasks := rfl
@[simp] theorem State.onVd_launches (k : Nat) (g : Vd → Vd) : (s.onVd k g).launches = s.launches := rfl
@[simp] theorem State.onVd_gangs (k : Nat) (g : Vd → Vd) : (s.onVd k g).gangs = s.gangs := rfl
@[simp] theorem State.onVd_crews (k : Nat) (g : Vd → Vd) : (s.onVd k g).crews = s.crews := rfl
@[simp] theorem State.onVd_warps (k : Nat) (g : Vd → Vd) : (s.onVd k g).warps = s.warps := rfl
@[simp] theorem State.onVd_gather (k : Nat) (g : Vd → Vd) : (s.onVd k g).gather = s.gather := rfl
@[simp] theorem State.onVd_contWarps (k : Nat) (g : Vd → Vd) : (s.onVd k g).contWarps = s.contWarps := rfl
@[simp] theorem State.onVd_preempts (k : Nat) (g : Vd → Vd) : (s.onVd k g).preempts = s.preempts := rfl
@[simp] theorem State.onVd_images (k : Nat) (g : Vd → Vd) : (s.onVd k g).images = s.images := rfl
@[simp] theorem State.onVd_mem (k : Nat) (g : Vd → Vd) : (s.onVd k g).mem = s.mem := rfl
@[simp] theorem State.onVd_syndrome (k : Nat) (g : Vd → Vd) : (s.onVd k g).syndrome = s.syndrome := rfl
@[simp] theorem State.onVd_patched (k : Nat) (g : Vd → Vd) : (s.onVd k g).patched = s.patched := rfl
@[simp] theorem State.onVd_pending (k : Nat) (g : Vd → Vd) : (s.onVd k g).pending = s.pending := rfl
@[simp] theorem State.onVd_wbuf (k : Nat) (g : Vd → Vd) : (s.onVd k g).wbuf = s.wbuf := rfl
@[simp] theorem State.onVd_releases (k : Nat) (g : Vd → Vd) : (s.onVd k g).releases = s.releases := rfl
@[simp] theorem State.onVd_syncs (k : Nat) (g : Vd → Vd) : (s.onVd k g).syncs = s.syncs := rfl
@[simp] theorem State.onVd_guards (k : Nat) (g : Vd → Vd) : (s.onVd k g).guards = s.guards := rfl
@[simp] theorem State.onVd_owners (k : Nat) (g : Vd → Vd) : (s.onVd k g).owners = s.owners := rfl
@[simp] theorem State.onVd_dir (k : Nat) (g : Vd → Vd) : (s.onVd k g).dir = s.dir := rfl
@[simp] theorem State.onVd_dieDir (k : Nat) (g : Vd → Vd) : (s.onVd k g).dieDir = s.dieDir := rfl
@[simp] theorem State.onVd_probes (k : Nat) (g : Vd → Vd) : (s.onVd k g).probes = s.probes := rfl
@[simp] theorem State.onVd_leaseQ (k : Nat) (g : Vd → Vd) : (s.onVd k g).leaseQ = s.leaseQ := rfl
@[simp] theorem State.onVd_leaseBuf (k : Nat) (g : Vd → Vd) : (s.onVd k g).leaseBuf = s.leaseBuf := rfl
@[simp] theorem State.onVd_lost (k : Nat) (g : Vd → Vd) : (s.onVd k g).lost = s.lost := rfl
@[simp] theorem State.onVd_atoms (k : Nat) (g : Vd → Vd) : (s.onVd k g).atoms = s.atoms := rfl
@[simp] theorem State.onVd_drr (k : Nat) (g : Vd → Vd) : (s.onVd k g).drr = s.drr := rfl
@[simp] theorem State.onVd_badgers (k : Nat) (g : Vd → Vd) : (s.onVd k g).badgers = s.badgers := rfl
@[simp] theorem State.onVd_exts (k : Nat) (g : Vd → Vd) : (s.onVd k g).exts = s.exts := rfl
@[simp] theorem State.onVd_inbound (k : Nat) (g : Vd → Vd) : (s.onVd k g).inbound = s.inbound := rfl
@[simp] theorem State.onVd_tlb (k : Nat) (g : Vd → Vd) : (s.onVd k g).tlb = s.tlb := rfl
@[simp] theorem State.onVd_walks (k : Nat) (g : Vd → Vd) : (s.onVd k g).walks = s.walks := rfl
@[simp] theorem State.onVd_time (k : Nat) (g : Vd → Vd) : (s.onVd k g).time = s.time := rfl
@[simp] theorem State.onVd_out (k : Nat) (g : Vd → Vd) : (s.onVd k g).out = s.out := rfl
@[simp] theorem State.onVd_rot (k : Nat) (g : Vd → Vd) : (s.onVd k g).rot = s.rot := rfl
@[simp] theorem State.onVd_inbox (k : Nat) (g : Vd → Vd) : (s.onVd k g).inbox = s.inbox := rfl
@[simp] theorem State.onVd_turn (k : Nat) (g : Vd → Vd) : (s.onVd k g).turn = s.turn := rfl
@[simp] theorem State.onVd_beat (k : Nat) (g : Vd → Vd) : (s.onVd k g).beat = s.beat := rfl
@[simp] theorem State.onVd_cur (k : Nat) (g : Vd → Vd) : (s.onVd k g).cur = s.cur := rfl
@[simp] theorem State.onVd_second (k : Nat) (g : Vd → Vd) : (s.onVd k g).second = s.second := rfl
@[simp] theorem State.onVd_stamp (k : Nat) (g : Vd → Vd) : (s.onVd k g).stamp = s.stamp := rfl
@[simp] theorem State.onVd_nextId (k : Nat) (g : Vd → Vd) : (s.onVd k g).nextId = s.nextId := rfl

/-! ### onQi -/

@[simp] theorem State.onQi_pkg (k : Nat) (g : Qi → Qi) : (s.onQi k g).pkg = s.pkg := rfl
@[simp] theorem State.onQi_dies (k : Nat) (g : Qi → Qi) : (s.onQi k g).dies = s.dies := rfl
@[simp] theorem State.onQi_hubs (k : Nat) (g : Qi → Qi) : (s.onQi k g).hubs = s.hubs := rfl
@[simp] theorem State.onQi_links (k : Nat) (g : Qi → Qi) : (s.onQi k g).links = s.links := rfl
@[simp] theorem State.onQi_training (k : Nat) (g : Qi → Qi) : (s.onQi k g).training = s.training := rfl
@[simp] theorem State.onQi_errcnt (k : Nat) (g : Qi → Qi) : (s.onQi k g).errcnt = s.errcnt := rfl
@[simp] theorem State.onQi_mb (k : Nat) (g : Qi → Qi) : (s.onQi k g).mb = s.mb := rfl
@[simp] theorem State.onQi_endpoints (k : Nat) (g : Qi → Qi) : (s.onQi k g).endpoints = s.endpoints := rfl
@[simp] theorem State.onQi_clusters (k : Nat) (g : Qi → Qi) : (s.onQi k g).clusters = s.clusters := rfl
@[simp] theorem State.onQi_served (k : Nat) (g : Qi → Qi) : (s.onQi k g).served = s.served := rfl
@[simp] theorem State.onQi_vds (k : Nat) (g : Qi → Qi) : (s.onQi k g).vds = s.vds := rfl
@[simp] theorem State.onQi_ctxs (k : Nat) (g : Qi → Qi) : (s.onQi k g).ctxs = s.ctxs := rfl
@[simp] theorem State.onQi_qis (k : Nat) (g : Qi → Qi) : (s.onQi k g).qis = adjust s.qis k g := rfl
@[simp] theorem State.onQi_tasks (k : Nat) (g : Qi → Qi) : (s.onQi k g).tasks = s.tasks := rfl
@[simp] theorem State.onQi_launches (k : Nat) (g : Qi → Qi) : (s.onQi k g).launches = s.launches := rfl
@[simp] theorem State.onQi_gangs (k : Nat) (g : Qi → Qi) : (s.onQi k g).gangs = s.gangs := rfl
@[simp] theorem State.onQi_crews (k : Nat) (g : Qi → Qi) : (s.onQi k g).crews = s.crews := rfl
@[simp] theorem State.onQi_warps (k : Nat) (g : Qi → Qi) : (s.onQi k g).warps = s.warps := rfl
@[simp] theorem State.onQi_gather (k : Nat) (g : Qi → Qi) : (s.onQi k g).gather = s.gather := rfl
@[simp] theorem State.onQi_contWarps (k : Nat) (g : Qi → Qi) : (s.onQi k g).contWarps = s.contWarps := rfl
@[simp] theorem State.onQi_preempts (k : Nat) (g : Qi → Qi) : (s.onQi k g).preempts = s.preempts := rfl
@[simp] theorem State.onQi_images (k : Nat) (g : Qi → Qi) : (s.onQi k g).images = s.images := rfl
@[simp] theorem State.onQi_mem (k : Nat) (g : Qi → Qi) : (s.onQi k g).mem = s.mem := rfl
@[simp] theorem State.onQi_syndrome (k : Nat) (g : Qi → Qi) : (s.onQi k g).syndrome = s.syndrome := rfl
@[simp] theorem State.onQi_patched (k : Nat) (g : Qi → Qi) : (s.onQi k g).patched = s.patched := rfl
@[simp] theorem State.onQi_pending (k : Nat) (g : Qi → Qi) : (s.onQi k g).pending = s.pending := rfl
@[simp] theorem State.onQi_wbuf (k : Nat) (g : Qi → Qi) : (s.onQi k g).wbuf = s.wbuf := rfl
@[simp] theorem State.onQi_releases (k : Nat) (g : Qi → Qi) : (s.onQi k g).releases = s.releases := rfl
@[simp] theorem State.onQi_syncs (k : Nat) (g : Qi → Qi) : (s.onQi k g).syncs = s.syncs := rfl
@[simp] theorem State.onQi_guards (k : Nat) (g : Qi → Qi) : (s.onQi k g).guards = s.guards := rfl
@[simp] theorem State.onQi_owners (k : Nat) (g : Qi → Qi) : (s.onQi k g).owners = s.owners := rfl
@[simp] theorem State.onQi_dir (k : Nat) (g : Qi → Qi) : (s.onQi k g).dir = s.dir := rfl
@[simp] theorem State.onQi_dieDir (k : Nat) (g : Qi → Qi) : (s.onQi k g).dieDir = s.dieDir := rfl
@[simp] theorem State.onQi_probes (k : Nat) (g : Qi → Qi) : (s.onQi k g).probes = s.probes := rfl
@[simp] theorem State.onQi_leaseQ (k : Nat) (g : Qi → Qi) : (s.onQi k g).leaseQ = s.leaseQ := rfl
@[simp] theorem State.onQi_leaseBuf (k : Nat) (g : Qi → Qi) : (s.onQi k g).leaseBuf = s.leaseBuf := rfl
@[simp] theorem State.onQi_lost (k : Nat) (g : Qi → Qi) : (s.onQi k g).lost = s.lost := rfl
@[simp] theorem State.onQi_atoms (k : Nat) (g : Qi → Qi) : (s.onQi k g).atoms = s.atoms := rfl
@[simp] theorem State.onQi_drr (k : Nat) (g : Qi → Qi) : (s.onQi k g).drr = s.drr := rfl
@[simp] theorem State.onQi_badgers (k : Nat) (g : Qi → Qi) : (s.onQi k g).badgers = s.badgers := rfl
@[simp] theorem State.onQi_exts (k : Nat) (g : Qi → Qi) : (s.onQi k g).exts = s.exts := rfl
@[simp] theorem State.onQi_inbound (k : Nat) (g : Qi → Qi) : (s.onQi k g).inbound = s.inbound := rfl
@[simp] theorem State.onQi_tlb (k : Nat) (g : Qi → Qi) : (s.onQi k g).tlb = s.tlb := rfl
@[simp] theorem State.onQi_walks (k : Nat) (g : Qi → Qi) : (s.onQi k g).walks = s.walks := rfl
@[simp] theorem State.onQi_time (k : Nat) (g : Qi → Qi) : (s.onQi k g).time = s.time := rfl
@[simp] theorem State.onQi_out (k : Nat) (g : Qi → Qi) : (s.onQi k g).out = s.out := rfl
@[simp] theorem State.onQi_rot (k : Nat) (g : Qi → Qi) : (s.onQi k g).rot = s.rot := rfl
@[simp] theorem State.onQi_inbox (k : Nat) (g : Qi → Qi) : (s.onQi k g).inbox = s.inbox := rfl
@[simp] theorem State.onQi_turn (k : Nat) (g : Qi → Qi) : (s.onQi k g).turn = s.turn := rfl
@[simp] theorem State.onQi_beat (k : Nat) (g : Qi → Qi) : (s.onQi k g).beat = s.beat := rfl
@[simp] theorem State.onQi_cur (k : Nat) (g : Qi → Qi) : (s.onQi k g).cur = s.cur := rfl
@[simp] theorem State.onQi_second (k : Nat) (g : Qi → Qi) : (s.onQi k g).second = s.second := rfl
@[simp] theorem State.onQi_stamp (k : Nat) (g : Qi → Qi) : (s.onQi k g).stamp = s.stamp := rfl
@[simp] theorem State.onQi_nextId (k : Nat) (g : Qi → Qi) : (s.onQi k g).nextId = s.nextId := rfl

/-! ### onTask -/

@[simp] theorem State.onTask_pkg (k : Nat) (g : Task → Task) : (s.onTask k g).pkg = s.pkg := rfl
@[simp] theorem State.onTask_dies (k : Nat) (g : Task → Task) : (s.onTask k g).dies = s.dies := rfl
@[simp] theorem State.onTask_hubs (k : Nat) (g : Task → Task) : (s.onTask k g).hubs = s.hubs := rfl
@[simp] theorem State.onTask_links (k : Nat) (g : Task → Task) : (s.onTask k g).links = s.links := rfl
@[simp] theorem State.onTask_training (k : Nat) (g : Task → Task) : (s.onTask k g).training = s.training := rfl
@[simp] theorem State.onTask_errcnt (k : Nat) (g : Task → Task) : (s.onTask k g).errcnt = s.errcnt := rfl
@[simp] theorem State.onTask_mb (k : Nat) (g : Task → Task) : (s.onTask k g).mb = s.mb := rfl
@[simp] theorem State.onTask_endpoints (k : Nat) (g : Task → Task) : (s.onTask k g).endpoints = s.endpoints := rfl
@[simp] theorem State.onTask_clusters (k : Nat) (g : Task → Task) : (s.onTask k g).clusters = s.clusters := rfl
@[simp] theorem State.onTask_served (k : Nat) (g : Task → Task) : (s.onTask k g).served = s.served := rfl
@[simp] theorem State.onTask_vds (k : Nat) (g : Task → Task) : (s.onTask k g).vds = s.vds := rfl
@[simp] theorem State.onTask_ctxs (k : Nat) (g : Task → Task) : (s.onTask k g).ctxs = s.ctxs := rfl
@[simp] theorem State.onTask_qis (k : Nat) (g : Task → Task) : (s.onTask k g).qis = s.qis := rfl
@[simp] theorem State.onTask_tasks (k : Nat) (g : Task → Task) : (s.onTask k g).tasks = adjust s.tasks k g := rfl
@[simp] theorem State.onTask_launches (k : Nat) (g : Task → Task) : (s.onTask k g).launches = s.launches := rfl
@[simp] theorem State.onTask_gangs (k : Nat) (g : Task → Task) : (s.onTask k g).gangs = s.gangs := rfl
@[simp] theorem State.onTask_crews (k : Nat) (g : Task → Task) : (s.onTask k g).crews = s.crews := rfl
@[simp] theorem State.onTask_warps (k : Nat) (g : Task → Task) : (s.onTask k g).warps = s.warps := rfl
@[simp] theorem State.onTask_gather (k : Nat) (g : Task → Task) : (s.onTask k g).gather = s.gather := rfl
@[simp] theorem State.onTask_contWarps (k : Nat) (g : Task → Task) : (s.onTask k g).contWarps = s.contWarps := rfl
@[simp] theorem State.onTask_preempts (k : Nat) (g : Task → Task) : (s.onTask k g).preempts = s.preempts := rfl
@[simp] theorem State.onTask_images (k : Nat) (g : Task → Task) : (s.onTask k g).images = s.images := rfl
@[simp] theorem State.onTask_mem (k : Nat) (g : Task → Task) : (s.onTask k g).mem = s.mem := rfl
@[simp] theorem State.onTask_syndrome (k : Nat) (g : Task → Task) : (s.onTask k g).syndrome = s.syndrome := rfl
@[simp] theorem State.onTask_patched (k : Nat) (g : Task → Task) : (s.onTask k g).patched = s.patched := rfl
@[simp] theorem State.onTask_pending (k : Nat) (g : Task → Task) : (s.onTask k g).pending = s.pending := rfl
@[simp] theorem State.onTask_wbuf (k : Nat) (g : Task → Task) : (s.onTask k g).wbuf = s.wbuf := rfl
@[simp] theorem State.onTask_releases (k : Nat) (g : Task → Task) : (s.onTask k g).releases = s.releases := rfl
@[simp] theorem State.onTask_syncs (k : Nat) (g : Task → Task) : (s.onTask k g).syncs = s.syncs := rfl
@[simp] theorem State.onTask_guards (k : Nat) (g : Task → Task) : (s.onTask k g).guards = s.guards := rfl
@[simp] theorem State.onTask_owners (k : Nat) (g : Task → Task) : (s.onTask k g).owners = s.owners := rfl
@[simp] theorem State.onTask_dir (k : Nat) (g : Task → Task) : (s.onTask k g).dir = s.dir := rfl
@[simp] theorem State.onTask_dieDir (k : Nat) (g : Task → Task) : (s.onTask k g).dieDir = s.dieDir := rfl
@[simp] theorem State.onTask_probes (k : Nat) (g : Task → Task) : (s.onTask k g).probes = s.probes := rfl
@[simp] theorem State.onTask_leaseQ (k : Nat) (g : Task → Task) : (s.onTask k g).leaseQ = s.leaseQ := rfl
@[simp] theorem State.onTask_leaseBuf (k : Nat) (g : Task → Task) : (s.onTask k g).leaseBuf = s.leaseBuf := rfl
@[simp] theorem State.onTask_lost (k : Nat) (g : Task → Task) : (s.onTask k g).lost = s.lost := rfl
@[simp] theorem State.onTask_atoms (k : Nat) (g : Task → Task) : (s.onTask k g).atoms = s.atoms := rfl
@[simp] theorem State.onTask_drr (k : Nat) (g : Task → Task) : (s.onTask k g).drr = s.drr := rfl
@[simp] theorem State.onTask_badgers (k : Nat) (g : Task → Task) : (s.onTask k g).badgers = s.badgers := rfl
@[simp] theorem State.onTask_exts (k : Nat) (g : Task → Task) : (s.onTask k g).exts = s.exts := rfl
@[simp] theorem State.onTask_inbound (k : Nat) (g : Task → Task) : (s.onTask k g).inbound = s.inbound := rfl
@[simp] theorem State.onTask_tlb (k : Nat) (g : Task → Task) : (s.onTask k g).tlb = s.tlb := rfl
@[simp] theorem State.onTask_walks (k : Nat) (g : Task → Task) : (s.onTask k g).walks = s.walks := rfl
@[simp] theorem State.onTask_time (k : Nat) (g : Task → Task) : (s.onTask k g).time = s.time := rfl
@[simp] theorem State.onTask_out (k : Nat) (g : Task → Task) : (s.onTask k g).out = s.out := rfl
@[simp] theorem State.onTask_rot (k : Nat) (g : Task → Task) : (s.onTask k g).rot = s.rot := rfl
@[simp] theorem State.onTask_inbox (k : Nat) (g : Task → Task) : (s.onTask k g).inbox = s.inbox := rfl
@[simp] theorem State.onTask_turn (k : Nat) (g : Task → Task) : (s.onTask k g).turn = s.turn := rfl
@[simp] theorem State.onTask_beat (k : Nat) (g : Task → Task) : (s.onTask k g).beat = s.beat := rfl
@[simp] theorem State.onTask_cur (k : Nat) (g : Task → Task) : (s.onTask k g).cur = s.cur := rfl
@[simp] theorem State.onTask_second (k : Nat) (g : Task → Task) : (s.onTask k g).second = s.second := rfl
@[simp] theorem State.onTask_stamp (k : Nat) (g : Task → Task) : (s.onTask k g).stamp = s.stamp := rfl
@[simp] theorem State.onTask_nextId (k : Nat) (g : Task → Task) : (s.onTask k g).nextId = s.nextId := rfl

/-! ### onPkg -/

@[simp] theorem State.onPkg_pkg (g : Package → Package) : (s.onPkg g).pkg = g s.pkg := rfl
@[simp] theorem State.onPkg_dies (g : Package → Package) : (s.onPkg g).dies = s.dies := rfl
@[simp] theorem State.onPkg_hubs (g : Package → Package) : (s.onPkg g).hubs = s.hubs := rfl
@[simp] theorem State.onPkg_links (g : Package → Package) : (s.onPkg g).links = s.links := rfl
@[simp] theorem State.onPkg_training (g : Package → Package) : (s.onPkg g).training = s.training := rfl
@[simp] theorem State.onPkg_errcnt (g : Package → Package) : (s.onPkg g).errcnt = s.errcnt := rfl
@[simp] theorem State.onPkg_mb (g : Package → Package) : (s.onPkg g).mb = s.mb := rfl
@[simp] theorem State.onPkg_endpoints (g : Package → Package) : (s.onPkg g).endpoints = s.endpoints := rfl
@[simp] theorem State.onPkg_clusters (g : Package → Package) : (s.onPkg g).clusters = s.clusters := rfl
@[simp] theorem State.onPkg_served (g : Package → Package) : (s.onPkg g).served = s.served := rfl
@[simp] theorem State.onPkg_vds (g : Package → Package) : (s.onPkg g).vds = s.vds := rfl
@[simp] theorem State.onPkg_ctxs (g : Package → Package) : (s.onPkg g).ctxs = s.ctxs := rfl
@[simp] theorem State.onPkg_qis (g : Package → Package) : (s.onPkg g).qis = s.qis := rfl
@[simp] theorem State.onPkg_tasks (g : Package → Package) : (s.onPkg g).tasks = s.tasks := rfl
@[simp] theorem State.onPkg_launches (g : Package → Package) : (s.onPkg g).launches = s.launches := rfl
@[simp] theorem State.onPkg_gangs (g : Package → Package) : (s.onPkg g).gangs = s.gangs := rfl
@[simp] theorem State.onPkg_crews (g : Package → Package) : (s.onPkg g).crews = s.crews := rfl
@[simp] theorem State.onPkg_warps (g : Package → Package) : (s.onPkg g).warps = s.warps := rfl
@[simp] theorem State.onPkg_gather (g : Package → Package) : (s.onPkg g).gather = s.gather := rfl
@[simp] theorem State.onPkg_contWarps (g : Package → Package) : (s.onPkg g).contWarps = s.contWarps := rfl
@[simp] theorem State.onPkg_preempts (g : Package → Package) : (s.onPkg g).preempts = s.preempts := rfl
@[simp] theorem State.onPkg_images (g : Package → Package) : (s.onPkg g).images = s.images := rfl
@[simp] theorem State.onPkg_mem (g : Package → Package) : (s.onPkg g).mem = s.mem := rfl
@[simp] theorem State.onPkg_syndrome (g : Package → Package) : (s.onPkg g).syndrome = s.syndrome := rfl
@[simp] theorem State.onPkg_patched (g : Package → Package) : (s.onPkg g).patched = s.patched := rfl
@[simp] theorem State.onPkg_pending (g : Package → Package) : (s.onPkg g).pending = s.pending := rfl
@[simp] theorem State.onPkg_wbuf (g : Package → Package) : (s.onPkg g).wbuf = s.wbuf := rfl
@[simp] theorem State.onPkg_releases (g : Package → Package) : (s.onPkg g).releases = s.releases := rfl
@[simp] theorem State.onPkg_syncs (g : Package → Package) : (s.onPkg g).syncs = s.syncs := rfl
@[simp] theorem State.onPkg_guards (g : Package → Package) : (s.onPkg g).guards = s.guards := rfl
@[simp] theorem State.onPkg_owners (g : Package → Package) : (s.onPkg g).owners = s.owners := rfl
@[simp] theorem State.onPkg_dir (g : Package → Package) : (s.onPkg g).dir = s.dir := rfl
@[simp] theorem State.onPkg_dieDir (g : Package → Package) : (s.onPkg g).dieDir = s.dieDir := rfl
@[simp] theorem State.onPkg_probes (g : Package → Package) : (s.onPkg g).probes = s.probes := rfl
@[simp] theorem State.onPkg_leaseQ (g : Package → Package) : (s.onPkg g).leaseQ = s.leaseQ := rfl
@[simp] theorem State.onPkg_leaseBuf (g : Package → Package) : (s.onPkg g).leaseBuf = s.leaseBuf := rfl
@[simp] theorem State.onPkg_lost (g : Package → Package) : (s.onPkg g).lost = s.lost := rfl
@[simp] theorem State.onPkg_atoms (g : Package → Package) : (s.onPkg g).atoms = s.atoms := rfl
@[simp] theorem State.onPkg_drr (g : Package → Package) : (s.onPkg g).drr = s.drr := rfl
@[simp] theorem State.onPkg_badgers (g : Package → Package) : (s.onPkg g).badgers = s.badgers := rfl
@[simp] theorem State.onPkg_exts (g : Package → Package) : (s.onPkg g).exts = s.exts := rfl
@[simp] theorem State.onPkg_inbound (g : Package → Package) : (s.onPkg g).inbound = s.inbound := rfl
@[simp] theorem State.onPkg_tlb (g : Package → Package) : (s.onPkg g).tlb = s.tlb := rfl
@[simp] theorem State.onPkg_walks (g : Package → Package) : (s.onPkg g).walks = s.walks := rfl
@[simp] theorem State.onPkg_time (g : Package → Package) : (s.onPkg g).time = s.time := rfl
@[simp] theorem State.onPkg_out (g : Package → Package) : (s.onPkg g).out = s.out := rfl
@[simp] theorem State.onPkg_rot (g : Package → Package) : (s.onPkg g).rot = s.rot := rfl
@[simp] theorem State.onPkg_inbox (g : Package → Package) : (s.onPkg g).inbox = s.inbox := rfl
@[simp] theorem State.onPkg_turn (g : Package → Package) : (s.onPkg g).turn = s.turn := rfl
@[simp] theorem State.onPkg_beat (g : Package → Package) : (s.onPkg g).beat = s.beat := rfl
@[simp] theorem State.onPkg_cur (g : Package → Package) : (s.onPkg g).cur = s.cur := rfl
@[simp] theorem State.onPkg_second (g : Package → Package) : (s.onPkg g).second = s.second := rfl
@[simp] theorem State.onPkg_stamp (g : Package → Package) : (s.onPkg g).stamp = s.stamp := rfl
@[simp] theorem State.onPkg_nextId (g : Package → Package) : (s.onPkg g).nextId = s.nextId := rfl

/-! ### onMb -/

@[simp] theorem State.onMb_pkg (g : Mailbox → Mailbox) : (s.onMb g).pkg = s.pkg := rfl
@[simp] theorem State.onMb_dies (g : Mailbox → Mailbox) : (s.onMb g).dies = s.dies := rfl
@[simp] theorem State.onMb_hubs (g : Mailbox → Mailbox) : (s.onMb g).hubs = s.hubs := rfl
@[simp] theorem State.onMb_links (g : Mailbox → Mailbox) : (s.onMb g).links = s.links := rfl
@[simp] theorem State.onMb_training (g : Mailbox → Mailbox) : (s.onMb g).training = s.training := rfl
@[simp] theorem State.onMb_errcnt (g : Mailbox → Mailbox) : (s.onMb g).errcnt = s.errcnt := rfl
@[simp] theorem State.onMb_mb (g : Mailbox → Mailbox) : (s.onMb g).mb = g s.mb := rfl
@[simp] theorem State.onMb_endpoints (g : Mailbox → Mailbox) : (s.onMb g).endpoints = s.endpoints := rfl
@[simp] theorem State.onMb_clusters (g : Mailbox → Mailbox) : (s.onMb g).clusters = s.clusters := rfl
@[simp] theorem State.onMb_served (g : Mailbox → Mailbox) : (s.onMb g).served = s.served := rfl
@[simp] theorem State.onMb_vds (g : Mailbox → Mailbox) : (s.onMb g).vds = s.vds := rfl
@[simp] theorem State.onMb_ctxs (g : Mailbox → Mailbox) : (s.onMb g).ctxs = s.ctxs := rfl
@[simp] theorem State.onMb_qis (g : Mailbox → Mailbox) : (s.onMb g).qis = s.qis := rfl
@[simp] theorem State.onMb_tasks (g : Mailbox → Mailbox) : (s.onMb g).tasks = s.tasks := rfl
@[simp] theorem State.onMb_launches (g : Mailbox → Mailbox) : (s.onMb g).launches = s.launches := rfl
@[simp] theorem State.onMb_gangs (g : Mailbox → Mailbox) : (s.onMb g).gangs = s.gangs := rfl
@[simp] theorem State.onMb_crews (g : Mailbox → Mailbox) : (s.onMb g).crews = s.crews := rfl
@[simp] theorem State.onMb_warps (g : Mailbox → Mailbox) : (s.onMb g).warps = s.warps := rfl
@[simp] theorem State.onMb_gather (g : Mailbox → Mailbox) : (s.onMb g).gather = s.gather := rfl
@[simp] theorem State.onMb_contWarps (g : Mailbox → Mailbox) : (s.onMb g).contWarps = s.contWarps := rfl
@[simp] theorem State.onMb_preempts (g : Mailbox → Mailbox) : (s.onMb g).preempts = s.preempts := rfl
@[simp] theorem State.onMb_images (g : Mailbox → Mailbox) : (s.onMb g).images = s.images := rfl
@[simp] theorem State.onMb_mem (g : Mailbox → Mailbox) : (s.onMb g).mem = s.mem := rfl
@[simp] theorem State.onMb_syndrome (g : Mailbox → Mailbox) : (s.onMb g).syndrome = s.syndrome := rfl
@[simp] theorem State.onMb_patched (g : Mailbox → Mailbox) : (s.onMb g).patched = s.patched := rfl
@[simp] theorem State.onMb_pending (g : Mailbox → Mailbox) : (s.onMb g).pending = s.pending := rfl
@[simp] theorem State.onMb_wbuf (g : Mailbox → Mailbox) : (s.onMb g).wbuf = s.wbuf := rfl
@[simp] theorem State.onMb_releases (g : Mailbox → Mailbox) : (s.onMb g).releases = s.releases := rfl
@[simp] theorem State.onMb_syncs (g : Mailbox → Mailbox) : (s.onMb g).syncs = s.syncs := rfl
@[simp] theorem State.onMb_guards (g : Mailbox → Mailbox) : (s.onMb g).guards = s.guards := rfl
@[simp] theorem State.onMb_owners (g : Mailbox → Mailbox) : (s.onMb g).owners = s.owners := rfl
@[simp] theorem State.onMb_dir (g : Mailbox → Mailbox) : (s.onMb g).dir = s.dir := rfl
@[simp] theorem State.onMb_dieDir (g : Mailbox → Mailbox) : (s.onMb g).dieDir = s.dieDir := rfl
@[simp] theorem State.onMb_probes (g : Mailbox → Mailbox) : (s.onMb g).probes = s.probes := rfl
@[simp] theorem State.onMb_leaseQ (g : Mailbox → Mailbox) : (s.onMb g).leaseQ = s.leaseQ := rfl
@[simp] theorem State.onMb_leaseBuf (g : Mailbox → Mailbox) : (s.onMb g).leaseBuf = s.leaseBuf := rfl
@[simp] theorem State.onMb_lost (g : Mailbox → Mailbox) : (s.onMb g).lost = s.lost := rfl
@[simp] theorem State.onMb_atoms (g : Mailbox → Mailbox) : (s.onMb g).atoms = s.atoms := rfl
@[simp] theorem State.onMb_drr (g : Mailbox → Mailbox) : (s.onMb g).drr = s.drr := rfl
@[simp] theorem State.onMb_badgers (g : Mailbox → Mailbox) : (s.onMb g).badgers = s.badgers := rfl
@[simp] theorem State.onMb_exts (g : Mailbox → Mailbox) : (s.onMb g).exts = s.exts := rfl
@[simp] theorem State.onMb_inbound (g : Mailbox → Mailbox) : (s.onMb g).inbound = s.inbound := rfl
@[simp] theorem State.onMb_tlb (g : Mailbox → Mailbox) : (s.onMb g).tlb = s.tlb := rfl
@[simp] theorem State.onMb_walks (g : Mailbox → Mailbox) : (s.onMb g).walks = s.walks := rfl
@[simp] theorem State.onMb_time (g : Mailbox → Mailbox) : (s.onMb g).time = s.time := rfl
@[simp] theorem State.onMb_out (g : Mailbox → Mailbox) : (s.onMb g).out = s.out := rfl
@[simp] theorem State.onMb_rot (g : Mailbox → Mailbox) : (s.onMb g).rot = s.rot := rfl
@[simp] theorem State.onMb_inbox (g : Mailbox → Mailbox) : (s.onMb g).inbox = s.inbox := rfl
@[simp] theorem State.onMb_turn (g : Mailbox → Mailbox) : (s.onMb g).turn = s.turn := rfl
@[simp] theorem State.onMb_beat (g : Mailbox → Mailbox) : (s.onMb g).beat = s.beat := rfl
@[simp] theorem State.onMb_cur (g : Mailbox → Mailbox) : (s.onMb g).cur = s.cur := rfl
@[simp] theorem State.onMb_second (g : Mailbox → Mailbox) : (s.onMb g).second = s.second := rfl
@[simp] theorem State.onMb_stamp (g : Mailbox → Mailbox) : (s.onMb g).stamp = s.stamp := rfl
@[simp] theorem State.onMb_nextId (g : Mailbox → Mailbox) : (s.onMb g).nextId = s.nextId := rfl

/-! ### onDie -/

@[simp] theorem State.onDie_pkg (d : Nat) (g : Die → Die) : (s.onDie d g).pkg = s.pkg := rfl
@[simp] theorem State.onDie_dies (d : Nat) (g : Die → Die) : (s.onDie d g).dies = modNth s.dies d g := rfl
@[simp] theorem State.onDie_hubs (d : Nat) (g : Die → Die) : (s.onDie d g).hubs = s.hubs := rfl
@[simp] theorem State.onDie_links (d : Nat) (g : Die → Die) : (s.onDie d g).links = s.links := rfl
@[simp] theorem State.onDie_training (d : Nat) (g : Die → Die) : (s.onDie d g).training = s.training := rfl
@[simp] theorem State.onDie_errcnt (d : Nat) (g : Die → Die) : (s.onDie d g).errcnt = s.errcnt := rfl
@[simp] theorem State.onDie_mb (d : Nat) (g : Die → Die) : (s.onDie d g).mb = s.mb := rfl
@[simp] theorem State.onDie_endpoints (d : Nat) (g : Die → Die) : (s.onDie d g).endpoints = s.endpoints := rfl
@[simp] theorem State.onDie_clusters (d : Nat) (g : Die → Die) : (s.onDie d g).clusters = s.clusters := rfl
@[simp] theorem State.onDie_served (d : Nat) (g : Die → Die) : (s.onDie d g).served = s.served := rfl
@[simp] theorem State.onDie_vds (d : Nat) (g : Die → Die) : (s.onDie d g).vds = s.vds := rfl
@[simp] theorem State.onDie_ctxs (d : Nat) (g : Die → Die) : (s.onDie d g).ctxs = s.ctxs := rfl
@[simp] theorem State.onDie_qis (d : Nat) (g : Die → Die) : (s.onDie d g).qis = s.qis := rfl
@[simp] theorem State.onDie_tasks (d : Nat) (g : Die → Die) : (s.onDie d g).tasks = s.tasks := rfl
@[simp] theorem State.onDie_launches (d : Nat) (g : Die → Die) : (s.onDie d g).launches = s.launches := rfl
@[simp] theorem State.onDie_gangs (d : Nat) (g : Die → Die) : (s.onDie d g).gangs = s.gangs := rfl
@[simp] theorem State.onDie_crews (d : Nat) (g : Die → Die) : (s.onDie d g).crews = s.crews := rfl
@[simp] theorem State.onDie_warps (d : Nat) (g : Die → Die) : (s.onDie d g).warps = s.warps := rfl
@[simp] theorem State.onDie_gather (d : Nat) (g : Die → Die) : (s.onDie d g).gather = s.gather := rfl
@[simp] theorem State.onDie_contWarps (d : Nat) (g : Die → Die) : (s.onDie d g).contWarps = s.contWarps := rfl
@[simp] theorem State.onDie_preempts (d : Nat) (g : Die → Die) : (s.onDie d g).preempts = s.preempts := rfl
@[simp] theorem State.onDie_images (d : Nat) (g : Die → Die) : (s.onDie d g).images = s.images := rfl
@[simp] theorem State.onDie_mem (d : Nat) (g : Die → Die) : (s.onDie d g).mem = s.mem := rfl
@[simp] theorem State.onDie_syndrome (d : Nat) (g : Die → Die) : (s.onDie d g).syndrome = s.syndrome := rfl
@[simp] theorem State.onDie_patched (d : Nat) (g : Die → Die) : (s.onDie d g).patched = s.patched := rfl
@[simp] theorem State.onDie_pending (d : Nat) (g : Die → Die) : (s.onDie d g).pending = s.pending := rfl
@[simp] theorem State.onDie_wbuf (d : Nat) (g : Die → Die) : (s.onDie d g).wbuf = s.wbuf := rfl
@[simp] theorem State.onDie_releases (d : Nat) (g : Die → Die) : (s.onDie d g).releases = s.releases := rfl
@[simp] theorem State.onDie_syncs (d : Nat) (g : Die → Die) : (s.onDie d g).syncs = s.syncs := rfl
@[simp] theorem State.onDie_guards (d : Nat) (g : Die → Die) : (s.onDie d g).guards = s.guards := rfl
@[simp] theorem State.onDie_owners (d : Nat) (g : Die → Die) : (s.onDie d g).owners = s.owners := rfl
@[simp] theorem State.onDie_dir (d : Nat) (g : Die → Die) : (s.onDie d g).dir = s.dir := rfl
@[simp] theorem State.onDie_dieDir (d : Nat) (g : Die → Die) : (s.onDie d g).dieDir = s.dieDir := rfl
@[simp] theorem State.onDie_probes (d : Nat) (g : Die → Die) : (s.onDie d g).probes = s.probes := rfl
@[simp] theorem State.onDie_leaseQ (d : Nat) (g : Die → Die) : (s.onDie d g).leaseQ = s.leaseQ := rfl
@[simp] theorem State.onDie_leaseBuf (d : Nat) (g : Die → Die) : (s.onDie d g).leaseBuf = s.leaseBuf := rfl
@[simp] theorem State.onDie_lost (d : Nat) (g : Die → Die) : (s.onDie d g).lost = s.lost := rfl
@[simp] theorem State.onDie_atoms (d : Nat) (g : Die → Die) : (s.onDie d g).atoms = s.atoms := rfl
@[simp] theorem State.onDie_drr (d : Nat) (g : Die → Die) : (s.onDie d g).drr = s.drr := rfl
@[simp] theorem State.onDie_badgers (d : Nat) (g : Die → Die) : (s.onDie d g).badgers = s.badgers := rfl
@[simp] theorem State.onDie_exts (d : Nat) (g : Die → Die) : (s.onDie d g).exts = s.exts := rfl
@[simp] theorem State.onDie_inbound (d : Nat) (g : Die → Die) : (s.onDie d g).inbound = s.inbound := rfl
@[simp] theorem State.onDie_tlb (d : Nat) (g : Die → Die) : (s.onDie d g).tlb = s.tlb := rfl
@[simp] theorem State.onDie_walks (d : Nat) (g : Die → Die) : (s.onDie d g).walks = s.walks := rfl
@[simp] theorem State.onDie_time (d : Nat) (g : Die → Die) : (s.onDie d g).time = s.time := rfl
@[simp] theorem State.onDie_out (d : Nat) (g : Die → Die) : (s.onDie d g).out = s.out := rfl
@[simp] theorem State.onDie_rot (d : Nat) (g : Die → Die) : (s.onDie d g).rot = s.rot := rfl
@[simp] theorem State.onDie_inbox (d : Nat) (g : Die → Die) : (s.onDie d g).inbox = s.inbox := rfl
@[simp] theorem State.onDie_turn (d : Nat) (g : Die → Die) : (s.onDie d g).turn = s.turn := rfl
@[simp] theorem State.onDie_beat (d : Nat) (g : Die → Die) : (s.onDie d g).beat = s.beat := rfl
@[simp] theorem State.onDie_cur (d : Nat) (g : Die → Die) : (s.onDie d g).cur = s.cur := rfl
@[simp] theorem State.onDie_second (d : Nat) (g : Die → Die) : (s.onDie d g).second = s.second := rfl
@[simp] theorem State.onDie_stamp (d : Nat) (g : Die → Die) : (s.onDie d g).stamp = s.stamp := rfl
@[simp] theorem State.onDie_nextId (d : Nat) (g : Die → Die) : (s.onDie d g).nextId = s.nextId := rfl

/-! ### onHub -/

@[simp] theorem State.onHub_pkg (h : Nat) (g : Hub → Hub) : (s.onHub h g).pkg = s.pkg := rfl
@[simp] theorem State.onHub_dies (h : Nat) (g : Hub → Hub) : (s.onHub h g).dies = s.dies := rfl
@[simp] theorem State.onHub_hubs (h : Nat) (g : Hub → Hub) : (s.onHub h g).hubs = modNth s.hubs h g := rfl
@[simp] theorem State.onHub_links (h : Nat) (g : Hub → Hub) : (s.onHub h g).links = s.links := rfl
@[simp] theorem State.onHub_training (h : Nat) (g : Hub → Hub) : (s.onHub h g).training = s.training := rfl
@[simp] theorem State.onHub_errcnt (h : Nat) (g : Hub → Hub) : (s.onHub h g).errcnt = s.errcnt := rfl
@[simp] theorem State.onHub_mb (h : Nat) (g : Hub → Hub) : (s.onHub h g).mb = s.mb := rfl
@[simp] theorem State.onHub_endpoints (h : Nat) (g : Hub → Hub) : (s.onHub h g).endpoints = s.endpoints := rfl
@[simp] theorem State.onHub_clusters (h : Nat) (g : Hub → Hub) : (s.onHub h g).clusters = s.clusters := rfl
@[simp] theorem State.onHub_served (h : Nat) (g : Hub → Hub) : (s.onHub h g).served = s.served := rfl
@[simp] theorem State.onHub_vds (h : Nat) (g : Hub → Hub) : (s.onHub h g).vds = s.vds := rfl
@[simp] theorem State.onHub_ctxs (h : Nat) (g : Hub → Hub) : (s.onHub h g).ctxs = s.ctxs := rfl
@[simp] theorem State.onHub_qis (h : Nat) (g : Hub → Hub) : (s.onHub h g).qis = s.qis := rfl
@[simp] theorem State.onHub_tasks (h : Nat) (g : Hub → Hub) : (s.onHub h g).tasks = s.tasks := rfl
@[simp] theorem State.onHub_launches (h : Nat) (g : Hub → Hub) : (s.onHub h g).launches = s.launches := rfl
@[simp] theorem State.onHub_gangs (h : Nat) (g : Hub → Hub) : (s.onHub h g).gangs = s.gangs := rfl
@[simp] theorem State.onHub_crews (h : Nat) (g : Hub → Hub) : (s.onHub h g).crews = s.crews := rfl
@[simp] theorem State.onHub_warps (h : Nat) (g : Hub → Hub) : (s.onHub h g).warps = s.warps := rfl
@[simp] theorem State.onHub_gather (h : Nat) (g : Hub → Hub) : (s.onHub h g).gather = s.gather := rfl
@[simp] theorem State.onHub_contWarps (h : Nat) (g : Hub → Hub) : (s.onHub h g).contWarps = s.contWarps := rfl
@[simp] theorem State.onHub_preempts (h : Nat) (g : Hub → Hub) : (s.onHub h g).preempts = s.preempts := rfl
@[simp] theorem State.onHub_images (h : Nat) (g : Hub → Hub) : (s.onHub h g).images = s.images := rfl
@[simp] theorem State.onHub_mem (h : Nat) (g : Hub → Hub) : (s.onHub h g).mem = s.mem := rfl
@[simp] theorem State.onHub_syndrome (h : Nat) (g : Hub → Hub) : (s.onHub h g).syndrome = s.syndrome := rfl
@[simp] theorem State.onHub_patched (h : Nat) (g : Hub → Hub) : (s.onHub h g).patched = s.patched := rfl
@[simp] theorem State.onHub_pending (h : Nat) (g : Hub → Hub) : (s.onHub h g).pending = s.pending := rfl
@[simp] theorem State.onHub_wbuf (h : Nat) (g : Hub → Hub) : (s.onHub h g).wbuf = s.wbuf := rfl
@[simp] theorem State.onHub_releases (h : Nat) (g : Hub → Hub) : (s.onHub h g).releases = s.releases := rfl
@[simp] theorem State.onHub_syncs (h : Nat) (g : Hub → Hub) : (s.onHub h g).syncs = s.syncs := rfl
@[simp] theorem State.onHub_guards (h : Nat) (g : Hub → Hub) : (s.onHub h g).guards = s.guards := rfl
@[simp] theorem State.onHub_owners (h : Nat) (g : Hub → Hub) : (s.onHub h g).owners = s.owners := rfl
@[simp] theorem State.onHub_dir (h : Nat) (g : Hub → Hub) : (s.onHub h g).dir = s.dir := rfl
@[simp] theorem State.onHub_dieDir (h : Nat) (g : Hub → Hub) : (s.onHub h g).dieDir = s.dieDir := rfl
@[simp] theorem State.onHub_probes (h : Nat) (g : Hub → Hub) : (s.onHub h g).probes = s.probes := rfl
@[simp] theorem State.onHub_leaseQ (h : Nat) (g : Hub → Hub) : (s.onHub h g).leaseQ = s.leaseQ := rfl
@[simp] theorem State.onHub_leaseBuf (h : Nat) (g : Hub → Hub) : (s.onHub h g).leaseBuf = s.leaseBuf := rfl
@[simp] theorem State.onHub_lost (h : Nat) (g : Hub → Hub) : (s.onHub h g).lost = s.lost := rfl
@[simp] theorem State.onHub_atoms (h : Nat) (g : Hub → Hub) : (s.onHub h g).atoms = s.atoms := rfl
@[simp] theorem State.onHub_drr (h : Nat) (g : Hub → Hub) : (s.onHub h g).drr = s.drr := rfl
@[simp] theorem State.onHub_badgers (h : Nat) (g : Hub → Hub) : (s.onHub h g).badgers = s.badgers := rfl
@[simp] theorem State.onHub_exts (h : Nat) (g : Hub → Hub) : (s.onHub h g).exts = s.exts := rfl
@[simp] theorem State.onHub_inbound (h : Nat) (g : Hub → Hub) : (s.onHub h g).inbound = s.inbound := rfl
@[simp] theorem State.onHub_tlb (h : Nat) (g : Hub → Hub) : (s.onHub h g).tlb = s.tlb := rfl
@[simp] theorem State.onHub_walks (h : Nat) (g : Hub → Hub) : (s.onHub h g).walks = s.walks := rfl
@[simp] theorem State.onHub_time (h : Nat) (g : Hub → Hub) : (s.onHub h g).time = s.time := rfl
@[simp] theorem State.onHub_out (h : Nat) (g : Hub → Hub) : (s.onHub h g).out = s.out := rfl
@[simp] theorem State.onHub_rot (h : Nat) (g : Hub → Hub) : (s.onHub h g).rot = s.rot := rfl
@[simp] theorem State.onHub_inbox (h : Nat) (g : Hub → Hub) : (s.onHub h g).inbox = s.inbox := rfl
@[simp] theorem State.onHub_turn (h : Nat) (g : Hub → Hub) : (s.onHub h g).turn = s.turn := rfl
@[simp] theorem State.onHub_beat (h : Nat) (g : Hub → Hub) : (s.onHub h g).beat = s.beat := rfl
@[simp] theorem State.onHub_cur (h : Nat) (g : Hub → Hub) : (s.onHub h g).cur = s.cur := rfl
@[simp] theorem State.onHub_second (h : Nat) (g : Hub → Hub) : (s.onHub h g).second = s.second := rfl
@[simp] theorem State.onHub_stamp (h : Nat) (g : Hub → Hub) : (s.onHub h g).stamp = s.stamp := rfl
@[simp] theorem State.onHub_nextId (h : Nat) (g : Hub → Hub) : (s.onHub h g).nextId = s.nextId := rfl

/-! ### emit -/

@[simp] theorem State.emit_pkg (o : Outbound) : (s.emit o).pkg = s.pkg := rfl
@[simp] theorem State.emit_dies (o : Outbound) : (s.emit o).dies = s.dies := rfl
@[simp] theorem State.emit_hubs (o : Outbound) : (s.emit o).hubs = s.hubs := rfl
@[simp] theorem State.emit_links (o : Outbound) : (s.emit o).links = s.links := rfl
@[simp] theorem State.emit_training (o : Outbound) : (s.emit o).training = s.training := rfl
@[simp] theorem State.emit_errcnt (o : Outbound) : (s.emit o).errcnt = s.errcnt := rfl
@[simp] theorem State.emit_mb (o : Outbound) : (s.emit o).mb = s.mb := rfl
@[simp] theorem State.emit_endpoints (o : Outbound) : (s.emit o).endpoints = s.endpoints := rfl
@[simp] theorem State.emit_clusters (o : Outbound) : (s.emit o).clusters = s.clusters := rfl
@[simp] theorem State.emit_served (o : Outbound) : (s.emit o).served = s.served := rfl
@[simp] theorem State.emit_vds (o : Outbound) : (s.emit o).vds = s.vds := rfl
@[simp] theorem State.emit_ctxs (o : Outbound) : (s.emit o).ctxs = s.ctxs := rfl
@[simp] theorem State.emit_qis (o : Outbound) : (s.emit o).qis = s.qis := rfl
@[simp] theorem State.emit_tasks (o : Outbound) : (s.emit o).tasks = s.tasks := rfl
@[simp] theorem State.emit_launches (o : Outbound) : (s.emit o).launches = s.launches := rfl
@[simp] theorem State.emit_gangs (o : Outbound) : (s.emit o).gangs = s.gangs := rfl
@[simp] theorem State.emit_crews (o : Outbound) : (s.emit o).crews = s.crews := rfl
@[simp] theorem State.emit_warps (o : Outbound) : (s.emit o).warps = s.warps := rfl
@[simp] theorem State.emit_gather (o : Outbound) : (s.emit o).gather = s.gather := rfl
@[simp] theorem State.emit_contWarps (o : Outbound) : (s.emit o).contWarps = s.contWarps := rfl
@[simp] theorem State.emit_preempts (o : Outbound) : (s.emit o).preempts = s.preempts := rfl
@[simp] theorem State.emit_images (o : Outbound) : (s.emit o).images = s.images := rfl
@[simp] theorem State.emit_mem (o : Outbound) : (s.emit o).mem = s.mem := rfl
@[simp] theorem State.emit_syndrome (o : Outbound) : (s.emit o).syndrome = s.syndrome := rfl
@[simp] theorem State.emit_patched (o : Outbound) : (s.emit o).patched = s.patched := rfl
@[simp] theorem State.emit_pending (o : Outbound) : (s.emit o).pending = s.pending := rfl
@[simp] theorem State.emit_wbuf (o : Outbound) : (s.emit o).wbuf = s.wbuf := rfl
@[simp] theorem State.emit_releases (o : Outbound) : (s.emit o).releases = s.releases := rfl
@[simp] theorem State.emit_syncs (o : Outbound) : (s.emit o).syncs = s.syncs := rfl
@[simp] theorem State.emit_guards (o : Outbound) : (s.emit o).guards = s.guards := rfl
@[simp] theorem State.emit_owners (o : Outbound) : (s.emit o).owners = s.owners := rfl
@[simp] theorem State.emit_dir (o : Outbound) : (s.emit o).dir = s.dir := rfl
@[simp] theorem State.emit_dieDir (o : Outbound) : (s.emit o).dieDir = s.dieDir := rfl
@[simp] theorem State.emit_probes (o : Outbound) : (s.emit o).probes = s.probes := rfl
@[simp] theorem State.emit_leaseQ (o : Outbound) : (s.emit o).leaseQ = s.leaseQ := rfl
@[simp] theorem State.emit_leaseBuf (o : Outbound) : (s.emit o).leaseBuf = s.leaseBuf := rfl
@[simp] theorem State.emit_lost (o : Outbound) : (s.emit o).lost = s.lost := rfl
@[simp] theorem State.emit_atoms (o : Outbound) : (s.emit o).atoms = s.atoms := rfl
@[simp] theorem State.emit_drr (o : Outbound) : (s.emit o).drr = s.drr := rfl
@[simp] theorem State.emit_badgers (o : Outbound) : (s.emit o).badgers = s.badgers := rfl
@[simp] theorem State.emit_exts (o : Outbound) : (s.emit o).exts = s.exts := rfl
@[simp] theorem State.emit_inbound (o : Outbound) : (s.emit o).inbound = s.inbound := rfl
@[simp] theorem State.emit_tlb (o : Outbound) : (s.emit o).tlb = s.tlb := rfl
@[simp] theorem State.emit_walks (o : Outbound) : (s.emit o).walks = s.walks := rfl
@[simp] theorem State.emit_time (o : Outbound) : (s.emit o).time = s.time := rfl
@[simp] theorem State.emit_out (o : Outbound) : (s.emit o).out = o :: s.out := rfl
@[simp] theorem State.emit_rot (o : Outbound) : (s.emit o).rot = s.rot := rfl
@[simp] theorem State.emit_inbox (o : Outbound) : (s.emit o).inbox = s.inbox := rfl
@[simp] theorem State.emit_turn (o : Outbound) : (s.emit o).turn = s.turn := rfl
@[simp] theorem State.emit_beat (o : Outbound) : (s.emit o).beat = s.beat := rfl
@[simp] theorem State.emit_cur (o : Outbound) : (s.emit o).cur = s.cur := rfl
@[simp] theorem State.emit_second (o : Outbound) : (s.emit o).second = s.second := rfl
@[simp] theorem State.emit_stamp (o : Outbound) : (s.emit o).stamp = s.stamp := rfl
@[simp] theorem State.emit_nextId (o : Outbound) : (s.emit o).nextId = s.nextId := rfl

/-! ### errUp -/

@[simp] theorem State.errUp_pkg (n lo width k : Nat) : (s.errUp n lo width k).pkg = s.pkg := rfl
@[simp] theorem State.errUp_dies (n lo width k : Nat) : (s.errUp n lo width k).dies = s.dies := rfl
@[simp] theorem State.errUp_hubs (n lo width k : Nat) : (s.errUp n lo width k).hubs = s.hubs := rfl
@[simp] theorem State.errUp_links (n lo width k : Nat) : (s.errUp n lo width k).links = s.links := rfl
@[simp] theorem State.errUp_training (n lo width k : Nat) : (s.errUp n lo width k).training = s.training := rfl
@[simp] theorem State.errUp_mb (n lo width k : Nat) : (s.errUp n lo width k).mb = s.mb := rfl
@[simp] theorem State.errUp_endpoints (n lo width k : Nat) : (s.errUp n lo width k).endpoints = s.endpoints := rfl
@[simp] theorem State.errUp_clusters (n lo width k : Nat) : (s.errUp n lo width k).clusters = s.clusters := rfl
@[simp] theorem State.errUp_served (n lo width k : Nat) : (s.errUp n lo width k).served = s.served := rfl
@[simp] theorem State.errUp_vds (n lo width k : Nat) : (s.errUp n lo width k).vds = s.vds := rfl
@[simp] theorem State.errUp_ctxs (n lo width k : Nat) : (s.errUp n lo width k).ctxs = s.ctxs := rfl
@[simp] theorem State.errUp_qis (n lo width k : Nat) : (s.errUp n lo width k).qis = s.qis := rfl
@[simp] theorem State.errUp_tasks (n lo width k : Nat) : (s.errUp n lo width k).tasks = s.tasks := rfl
@[simp] theorem State.errUp_launches (n lo width k : Nat) : (s.errUp n lo width k).launches = s.launches := rfl
@[simp] theorem State.errUp_gangs (n lo width k : Nat) : (s.errUp n lo width k).gangs = s.gangs := rfl
@[simp] theorem State.errUp_crews (n lo width k : Nat) : (s.errUp n lo width k).crews = s.crews := rfl
@[simp] theorem State.errUp_warps (n lo width k : Nat) : (s.errUp n lo width k).warps = s.warps := rfl
@[simp] theorem State.errUp_gather (n lo width k : Nat) : (s.errUp n lo width k).gather = s.gather := rfl
@[simp] theorem State.errUp_contWarps (n lo width k : Nat) : (s.errUp n lo width k).contWarps = s.contWarps := rfl
@[simp] theorem State.errUp_preempts (n lo width k : Nat) : (s.errUp n lo width k).preempts = s.preempts := rfl
@[simp] theorem State.errUp_images (n lo width k : Nat) : (s.errUp n lo width k).images = s.images := rfl
@[simp] theorem State.errUp_mem (n lo width k : Nat) : (s.errUp n lo width k).mem = s.mem := rfl
@[simp] theorem State.errUp_syndrome (n lo width k : Nat) : (s.errUp n lo width k).syndrome = s.syndrome := rfl
@[simp] theorem State.errUp_patched (n lo width k : Nat) : (s.errUp n lo width k).patched = s.patched := rfl
@[simp] theorem State.errUp_pending (n lo width k : Nat) : (s.errUp n lo width k).pending = s.pending := rfl
@[simp] theorem State.errUp_wbuf (n lo width k : Nat) : (s.errUp n lo width k).wbuf = s.wbuf := rfl
@[simp] theorem State.errUp_releases (n lo width k : Nat) : (s.errUp n lo width k).releases = s.releases := rfl
@[simp] theorem State.errUp_syncs (n lo width k : Nat) : (s.errUp n lo width k).syncs = s.syncs := rfl
@[simp] theorem State.errUp_guards (n lo width k : Nat) : (s.errUp n lo width k).guards = s.guards := rfl
@[simp] theorem State.errUp_owners (n lo width k : Nat) : (s.errUp n lo width k).owners = s.owners := rfl
@[simp] theorem State.errUp_dir (n lo width k : Nat) : (s.errUp n lo width k).dir = s.dir := rfl
@[simp] theorem State.errUp_dieDir (n lo width k : Nat) : (s.errUp n lo width k).dieDir = s.dieDir := rfl
@[simp] theorem State.errUp_probes (n lo width k : Nat) : (s.errUp n lo width k).probes = s.probes := rfl
@[simp] theorem State.errUp_leaseQ (n lo width k : Nat) : (s.errUp n lo width k).leaseQ = s.leaseQ := rfl
@[simp] theorem State.errUp_leaseBuf (n lo width k : Nat) : (s.errUp n lo width k).leaseBuf = s.leaseBuf := rfl
@[simp] theorem State.errUp_lost (n lo width k : Nat) : (s.errUp n lo width k).lost = s.lost := rfl
@[simp] theorem State.errUp_atoms (n lo width k : Nat) : (s.errUp n lo width k).atoms = s.atoms := rfl
@[simp] theorem State.errUp_drr (n lo width k : Nat) : (s.errUp n lo width k).drr = s.drr := rfl
@[simp] theorem State.errUp_badgers (n lo width k : Nat) : (s.errUp n lo width k).badgers = s.badgers := rfl
@[simp] theorem State.errUp_exts (n lo width k : Nat) : (s.errUp n lo width k).exts = s.exts := rfl
@[simp] theorem State.errUp_inbound (n lo width k : Nat) : (s.errUp n lo width k).inbound = s.inbound := rfl
@[simp] theorem State.errUp_tlb (n lo width k : Nat) : (s.errUp n lo width k).tlb = s.tlb := rfl
@[simp] theorem State.errUp_walks (n lo width k : Nat) : (s.errUp n lo width k).walks = s.walks := rfl
@[simp] theorem State.errUp_time (n lo width k : Nat) : (s.errUp n lo width k).time = s.time := rfl
@[simp] theorem State.errUp_out (n lo width k : Nat) : (s.errUp n lo width k).out = s.out := rfl
@[simp] theorem State.errUp_rot (n lo width k : Nat) : (s.errUp n lo width k).rot = s.rot := rfl
@[simp] theorem State.errUp_inbox (n lo width k : Nat) : (s.errUp n lo width k).inbox = s.inbox := rfl
@[simp] theorem State.errUp_turn (n lo width k : Nat) : (s.errUp n lo width k).turn = s.turn := rfl
@[simp] theorem State.errUp_beat (n lo width k : Nat) : (s.errUp n lo width k).beat = s.beat := rfl
@[simp] theorem State.errUp_cur (n lo width k : Nat) : (s.errUp n lo width k).cur = s.cur := rfl
@[simp] theorem State.errUp_second (n lo width k : Nat) : (s.errUp n lo width k).second = s.second := rfl
@[simp] theorem State.errUp_stamp (n lo width k : Nat) : (s.errUp n lo width k).stamp = s.stamp := rfl
@[simp] theorem State.errUp_nextId (n lo width k : Nat) : (s.errUp n lo width k).nextId = s.nextId := rfl

/-! ### onRelease -/

@[simp] theorem State.onRelease_pkg (k : Nat) (g : Release → Release) : (s.onRelease k g).pkg = s.pkg := rfl
@[simp] theorem State.onRelease_dies (k : Nat) (g : Release → Release) : (s.onRelease k g).dies = s.dies := rfl
@[simp] theorem State.onRelease_hubs (k : Nat) (g : Release → Release) : (s.onRelease k g).hubs = s.hubs := rfl
@[simp] theorem State.onRelease_links (k : Nat) (g : Release → Release) : (s.onRelease k g).links = s.links := rfl
@[simp] theorem State.onRelease_training (k : Nat) (g : Release → Release) : (s.onRelease k g).training = s.training := rfl
@[simp] theorem State.onRelease_errcnt (k : Nat) (g : Release → Release) : (s.onRelease k g).errcnt = s.errcnt := rfl
@[simp] theorem State.onRelease_mb (k : Nat) (g : Release → Release) : (s.onRelease k g).mb = s.mb := rfl
@[simp] theorem State.onRelease_endpoints (k : Nat) (g : Release → Release) : (s.onRelease k g).endpoints = s.endpoints := rfl
@[simp] theorem State.onRelease_clusters (k : Nat) (g : Release → Release) : (s.onRelease k g).clusters = s.clusters := rfl
@[simp] theorem State.onRelease_served (k : Nat) (g : Release → Release) : (s.onRelease k g).served = s.served := rfl
@[simp] theorem State.onRelease_vds (k : Nat) (g : Release → Release) : (s.onRelease k g).vds = s.vds := rfl
@[simp] theorem State.onRelease_ctxs (k : Nat) (g : Release → Release) : (s.onRelease k g).ctxs = s.ctxs := rfl
@[simp] theorem State.onRelease_qis (k : Nat) (g : Release → Release) : (s.onRelease k g).qis = s.qis := rfl
@[simp] theorem State.onRelease_tasks (k : Nat) (g : Release → Release) : (s.onRelease k g).tasks = s.tasks := rfl
@[simp] theorem State.onRelease_launches (k : Nat) (g : Release → Release) : (s.onRelease k g).launches = s.launches := rfl
@[simp] theorem State.onRelease_gangs (k : Nat) (g : Release → Release) : (s.onRelease k g).gangs = s.gangs := rfl
@[simp] theorem State.onRelease_crews (k : Nat) (g : Release → Release) : (s.onRelease k g).crews = s.crews := rfl
@[simp] theorem State.onRelease_warps (k : Nat) (g : Release → Release) : (s.onRelease k g).warps = s.warps := rfl
@[simp] theorem State.onRelease_gather (k : Nat) (g : Release → Release) : (s.onRelease k g).gather = s.gather := rfl
@[simp] theorem State.onRelease_contWarps (k : Nat) (g : Release → Release) : (s.onRelease k g).contWarps = s.contWarps := rfl
@[simp] theorem State.onRelease_preempts (k : Nat) (g : Release → Release) : (s.onRelease k g).preempts = s.preempts := rfl
@[simp] theorem State.onRelease_images (k : Nat) (g : Release → Release) : (s.onRelease k g).images = s.images := rfl
@[simp] theorem State.onRelease_mem (k : Nat) (g : Release → Release) : (s.onRelease k g).mem = s.mem := rfl
@[simp] theorem State.onRelease_syndrome (k : Nat) (g : Release → Release) : (s.onRelease k g).syndrome = s.syndrome := rfl
@[simp] theorem State.onRelease_patched (k : Nat) (g : Release → Release) : (s.onRelease k g).patched = s.patched := rfl
@[simp] theorem State.onRelease_pending (k : Nat) (g : Release → Release) : (s.onRelease k g).pending = s.pending := rfl
@[simp] theorem State.onRelease_wbuf (k : Nat) (g : Release → Release) : (s.onRelease k g).wbuf = s.wbuf := rfl
@[simp] theorem State.onRelease_releases (k : Nat) (g : Release → Release) : (s.onRelease k g).releases = adjust s.releases k g := rfl
@[simp] theorem State.onRelease_syncs (k : Nat) (g : Release → Release) : (s.onRelease k g).syncs = s.syncs := rfl
@[simp] theorem State.onRelease_guards (k : Nat) (g : Release → Release) : (s.onRelease k g).guards = s.guards := rfl
@[simp] theorem State.onRelease_owners (k : Nat) (g : Release → Release) : (s.onRelease k g).owners = s.owners := rfl
@[simp] theorem State.onRelease_dir (k : Nat) (g : Release → Release) : (s.onRelease k g).dir = s.dir := rfl
@[simp] theorem State.onRelease_dieDir (k : Nat) (g : Release → Release) : (s.onRelease k g).dieDir = s.dieDir := rfl
@[simp] theorem State.onRelease_probes (k : Nat) (g : Release → Release) : (s.onRelease k g).probes = s.probes := rfl
@[simp] theorem State.onRelease_leaseQ (k : Nat) (g : Release → Release) : (s.onRelease k g).leaseQ = s.leaseQ := rfl
@[simp] theorem State.onRelease_leaseBuf (k : Nat) (g : Release → Release) : (s.onRelease k g).leaseBuf = s.leaseBuf := rfl
@[simp] theorem State.onRelease_lost (k : Nat) (g : Release → Release) : (s.onRelease k g).lost = s.lost := rfl
@[simp] theorem State.onRelease_atoms (k : Nat) (g : Release → Release) : (s.onRelease k g).atoms = s.atoms := rfl
@[simp] theorem State.onRelease_drr (k : Nat) (g : Release → Release) : (s.onRelease k g).drr = s.drr := rfl
@[simp] theorem State.onRelease_badgers (k : Nat) (g : Release → Release) : (s.onRelease k g).badgers = s.badgers := rfl
@[simp] theorem State.onRelease_exts (k : Nat) (g : Release → Release) : (s.onRelease k g).exts = s.exts := rfl
@[simp] theorem State.onRelease_inbound (k : Nat) (g : Release → Release) : (s.onRelease k g).inbound = s.inbound := rfl
@[simp] theorem State.onRelease_tlb (k : Nat) (g : Release → Release) : (s.onRelease k g).tlb = s.tlb := rfl
@[simp] theorem State.onRelease_walks (k : Nat) (g : Release → Release) : (s.onRelease k g).walks = s.walks := rfl
@[simp] theorem State.onRelease_time (k : Nat) (g : Release → Release) : (s.onRelease k g).time = s.time := rfl
@[simp] theorem State.onRelease_out (k : Nat) (g : Release → Release) : (s.onRelease k g).out = s.out := rfl
@[simp] theorem State.onRelease_rot (k : Nat) (g : Release → Release) : (s.onRelease k g).rot = s.rot := rfl
@[simp] theorem State.onRelease_inbox (k : Nat) (g : Release → Release) : (s.onRelease k g).inbox = s.inbox := rfl
@[simp] theorem State.onRelease_turn (k : Nat) (g : Release → Release) : (s.onRelease k g).turn = s.turn := rfl
@[simp] theorem State.onRelease_beat (k : Nat) (g : Release → Release) : (s.onRelease k g).beat = s.beat := rfl
@[simp] theorem State.onRelease_cur (k : Nat) (g : Release → Release) : (s.onRelease k g).cur = s.cur := rfl
@[simp] theorem State.onRelease_second (k : Nat) (g : Release → Release) : (s.onRelease k g).second = s.second := rfl
@[simp] theorem State.onRelease_stamp (k : Nat) (g : Release → Release) : (s.onRelease k g).stamp = s.stamp := rfl
@[simp] theorem State.onRelease_nextId (k : Nat) (g : Release → Release) : (s.onRelease k g).nextId = s.nextId := rfl

/-! ### onContWarp -/

@[simp] theorem State.onContWarp_pkg (k : Nat) (g : ContWarp → ContWarp) : (s.onContWarp k g).pkg = s.pkg := rfl
@[simp] theorem State.onContWarp_dies (k : Nat) (g : ContWarp → ContWarp) : (s.onContWarp k g).dies = s.dies := rfl
@[simp] theorem State.onContWarp_hubs (k : Nat) (g : ContWarp → ContWarp) : (s.onContWarp k g).hubs = s.hubs := rfl
@[simp] theorem State.onContWarp_links (k : Nat) (g : ContWarp → ContWarp) : (s.onContWarp k g).links = s.links := rfl
@[simp] theorem State.onContWarp_training (k : Nat) (g : ContWarp → ContWarp) : (s.onContWarp k g).training = s.training := rfl
@[simp] theorem State.onContWarp_errcnt (k : Nat) (g : ContWarp → ContWarp) : (s.onContWarp k g).errcnt = s.errcnt := rfl
@[simp] theorem State.onContWarp_mb (k : Nat) (g : ContWarp → ContWarp) : (s.onContWarp k g).mb = s.mb := rfl
@[simp] theorem State.onContWarp_endpoints (k : Nat) (g : ContWarp → ContWarp) : (s.onContWarp k g).endpoints = s.endpoints := rfl
@[simp] theorem State.onContWarp_clusters (k : Nat) (g : ContWarp → ContWarp) : (s.onContWarp k g).clusters = s.clusters := rfl
@[simp] theorem State.onContWarp_served (k : Nat) (g : ContWarp → ContWarp) : (s.onContWarp k g).served = s.served := rfl
@[simp] theorem State.onContWarp_vds (k : Nat) (g : ContWarp → ContWarp) : (s.onContWarp k g).vds = s.vds := rfl
@[simp] theorem State.onContWarp_ctxs (k : Nat) (g : ContWarp → ContWarp) : (s.onContWarp k g).ctxs = s.ctxs := rfl
@[simp] theorem State.onContWarp_qis (k : Nat) (g : ContWarp → ContWarp) : (s.onContWarp k g).qis = s.qis := rfl
@[simp] theorem State.onContWarp_tasks (k : Nat) (g : ContWarp → ContWarp) : (s.onContWarp k g).tasks = s.tasks := rfl
@[simp] theorem State.onContWarp_launches (k : Nat) (g : ContWarp → ContWarp) : (s.onContWarp k g).launches = s.launches := rfl
@[simp] theorem State.onContWarp_gangs (k : Nat) (g : ContWarp → ContWarp) : (s.onContWarp k g).gangs = s.gangs := rfl
@[simp] theorem State.onContWarp_crews (k : Nat) (g : ContWarp → ContWarp) : (s.onContWarp k g).crews = s.crews := rfl
@[simp] theorem State.onContWarp_warps (k : Nat) (g : ContWarp → ContWarp) : (s.onContWarp k g).warps = s.warps := rfl
@[simp] theorem State.onContWarp_gather (k : Nat) (g : ContWarp → ContWarp) : (s.onContWarp k g).gather = s.gather := rfl
@[simp] theorem State.onContWarp_contWarps (k : Nat) (g : ContWarp → ContWarp) : (s.onContWarp k g).contWarps = adjust s.contWarps k g := rfl
@[simp] theorem State.onContWarp_preempts (k : Nat) (g : ContWarp → ContWarp) : (s.onContWarp k g).preempts = s.preempts := rfl
@[simp] theorem State.onContWarp_images (k : Nat) (g : ContWarp → ContWarp) : (s.onContWarp k g).images = s.images := rfl
@[simp] theorem State.onContWarp_mem (k : Nat) (g : ContWarp → ContWarp) : (s.onContWarp k g).mem = s.mem := rfl
@[simp] theorem State.onContWarp_syndrome (k : Nat) (g : ContWarp → ContWarp) : (s.onContWarp k g).syndrome = s.syndrome := rfl
@[simp] theorem State.onContWarp_patched (k : Nat) (g : ContWarp → ContWarp) : (s.onContWarp k g).patched = s.patched := rfl
@[simp] theorem State.onContWarp_pending (k : Nat) (g : ContWarp → ContWarp) : (s.onContWarp k g).pending = s.pending := rfl
@[simp] theorem State.onContWarp_wbuf (k : Nat) (g : ContWarp → ContWarp) : (s.onContWarp k g).wbuf = s.wbuf := rfl
@[simp] theorem State.onContWarp_releases (k : Nat) (g : ContWarp → ContWarp) : (s.onContWarp k g).releases = s.releases := rfl
@[simp] theorem State.onContWarp_syncs (k : Nat) (g : ContWarp → ContWarp) : (s.onContWarp k g).syncs = s.syncs := rfl
@[simp] theorem State.onContWarp_guards (k : Nat) (g : ContWarp → ContWarp) : (s.onContWarp k g).guards = s.guards := rfl
@[simp] theorem State.onContWarp_owners (k : Nat) (g : ContWarp → ContWarp) : (s.onContWarp k g).owners = s.owners := rfl
@[simp] theorem State.onContWarp_dir (k : Nat) (g : ContWarp → ContWarp) : (s.onContWarp k g).dir = s.dir := rfl
@[simp] theorem State.onContWarp_dieDir (k : Nat) (g : ContWarp → ContWarp) : (s.onContWarp k g).dieDir = s.dieDir := rfl
@[simp] theorem State.onContWarp_probes (k : Nat) (g : ContWarp → ContWarp) : (s.onContWarp k g).probes = s.probes := rfl
@[simp] theorem State.onContWarp_leaseQ (k : Nat) (g : ContWarp → ContWarp) : (s.onContWarp k g).leaseQ = s.leaseQ := rfl
@[simp] theorem State.onContWarp_leaseBuf (k : Nat) (g : ContWarp → ContWarp) : (s.onContWarp k g).leaseBuf = s.leaseBuf := rfl
@[simp] theorem State.onContWarp_lost (k : Nat) (g : ContWarp → ContWarp) : (s.onContWarp k g).lost = s.lost := rfl
@[simp] theorem State.onContWarp_atoms (k : Nat) (g : ContWarp → ContWarp) : (s.onContWarp k g).atoms = s.atoms := rfl
@[simp] theorem State.onContWarp_drr (k : Nat) (g : ContWarp → ContWarp) : (s.onContWarp k g).drr = s.drr := rfl
@[simp] theorem State.onContWarp_badgers (k : Nat) (g : ContWarp → ContWarp) : (s.onContWarp k g).badgers = s.badgers := rfl
@[simp] theorem State.onContWarp_exts (k : Nat) (g : ContWarp → ContWarp) : (s.onContWarp k g).exts = s.exts := rfl
@[simp] theorem State.onContWarp_inbound (k : Nat) (g : ContWarp → ContWarp) : (s.onContWarp k g).inbound = s.inbound := rfl
@[simp] theorem State.onContWarp_tlb (k : Nat) (g : ContWarp → ContWarp) : (s.onContWarp k g).tlb = s.tlb := rfl
@[simp] theorem State.onContWarp_walks (k : Nat) (g : ContWarp → ContWarp) : (s.onContWarp k g).walks = s.walks := rfl
@[simp] theorem State.onContWarp_time (k : Nat) (g : ContWarp → ContWarp) : (s.onContWarp k g).time = s.time := rfl
@[simp] theorem State.onContWarp_out (k : Nat) (g : ContWarp → ContWarp) : (s.onContWarp k g).out = s.out := rfl
@[simp] theorem State.onContWarp_rot (k : Nat) (g : ContWarp → ContWarp) : (s.onContWarp k g).rot = s.rot := rfl
@[simp] theorem State.onContWarp_inbox (k : Nat) (g : ContWarp → ContWarp) : (s.onContWarp k g).inbox = s.inbox := rfl
@[simp] theorem State.onContWarp_turn (k : Nat) (g : ContWarp → ContWarp) : (s.onContWarp k g).turn = s.turn := rfl
@[simp] theorem State.onContWarp_beat (k : Nat) (g : ContWarp → ContWarp) : (s.onContWarp k g).beat = s.beat := rfl
@[simp] theorem State.onContWarp_cur (k : Nat) (g : ContWarp → ContWarp) : (s.onContWarp k g).cur = s.cur := rfl
@[simp] theorem State.onContWarp_second (k : Nat) (g : ContWarp → ContWarp) : (s.onContWarp k g).second = s.second := rfl
@[simp] theorem State.onContWarp_stamp (k : Nat) (g : ContWarp → ContWarp) : (s.onContWarp k g).stamp = s.stamp := rfl
@[simp] theorem State.onContWarp_nextId (k : Nat) (g : ContWarp → ContWarp) : (s.onContWarp k g).nextId = s.nextId := rfl

/-! ### onPreempt -/

@[simp] theorem State.onPreempt_pkg (u : UnitId) (g : Preempt → Preempt) : (s.onPreempt u g).pkg = s.pkg := rfl
@[simp] theorem State.onPreempt_dies (u : UnitId) (g : Preempt → Preempt) : (s.onPreempt u g).dies = s.dies := rfl
@[simp] theorem State.onPreempt_hubs (u : UnitId) (g : Preempt → Preempt) : (s.onPreempt u g).hubs = s.hubs := rfl
@[simp] theorem State.onPreempt_links (u : UnitId) (g : Preempt → Preempt) : (s.onPreempt u g).links = s.links := rfl
@[simp] theorem State.onPreempt_training (u : UnitId) (g : Preempt → Preempt) : (s.onPreempt u g).training = s.training := rfl
@[simp] theorem State.onPreempt_errcnt (u : UnitId) (g : Preempt → Preempt) : (s.onPreempt u g).errcnt = s.errcnt := rfl
@[simp] theorem State.onPreempt_mb (u : UnitId) (g : Preempt → Preempt) : (s.onPreempt u g).mb = s.mb := rfl
@[simp] theorem State.onPreempt_endpoints (u : UnitId) (g : Preempt → Preempt) : (s.onPreempt u g).endpoints = s.endpoints := rfl
@[simp] theorem State.onPreempt_clusters (u : UnitId) (g : Preempt → Preempt) : (s.onPreempt u g).clusters = s.clusters := rfl
@[simp] theorem State.onPreempt_served (u : UnitId) (g : Preempt → Preempt) : (s.onPreempt u g).served = s.served := rfl
@[simp] theorem State.onPreempt_vds (u : UnitId) (g : Preempt → Preempt) : (s.onPreempt u g).vds = s.vds := rfl
@[simp] theorem State.onPreempt_ctxs (u : UnitId) (g : Preempt → Preempt) : (s.onPreempt u g).ctxs = s.ctxs := rfl
@[simp] theorem State.onPreempt_qis (u : UnitId) (g : Preempt → Preempt) : (s.onPreempt u g).qis = s.qis := rfl
@[simp] theorem State.onPreempt_tasks (u : UnitId) (g : Preempt → Preempt) : (s.onPreempt u g).tasks = s.tasks := rfl
@[simp] theorem State.onPreempt_launches (u : UnitId) (g : Preempt → Preempt) : (s.onPreempt u g).launches = s.launches := rfl
@[simp] theorem State.onPreempt_gangs (u : UnitId) (g : Preempt → Preempt) : (s.onPreempt u g).gangs = s.gangs := rfl
@[simp] theorem State.onPreempt_crews (u : UnitId) (g : Preempt → Preempt) : (s.onPreempt u g).crews = s.crews := rfl
@[simp] theorem State.onPreempt_warps (u : UnitId) (g : Preempt → Preempt) : (s.onPreempt u g).warps = s.warps := rfl
@[simp] theorem State.onPreempt_gather (u : UnitId) (g : Preempt → Preempt) : (s.onPreempt u g).gather = s.gather := rfl
@[simp] theorem State.onPreempt_contWarps (u : UnitId) (g : Preempt → Preempt) : (s.onPreempt u g).contWarps = s.contWarps := rfl
@[simp] theorem State.onPreempt_preempts (u : UnitId) (g : Preempt → Preempt) : (s.onPreempt u g).preempts = s.preempts.map fun p => if p.unit = u then g p else p := rfl
@[simp] theorem State.onPreempt_images (u : UnitId) (g : Preempt → Preempt) : (s.onPreempt u g).images = s.images := rfl
@[simp] theorem State.onPreempt_mem (u : UnitId) (g : Preempt → Preempt) : (s.onPreempt u g).mem = s.mem := rfl
@[simp] theorem State.onPreempt_syndrome (u : UnitId) (g : Preempt → Preempt) : (s.onPreempt u g).syndrome = s.syndrome := rfl
@[simp] theorem State.onPreempt_patched (u : UnitId) (g : Preempt → Preempt) : (s.onPreempt u g).patched = s.patched := rfl
@[simp] theorem State.onPreempt_pending (u : UnitId) (g : Preempt → Preempt) : (s.onPreempt u g).pending = s.pending := rfl
@[simp] theorem State.onPreempt_wbuf (u : UnitId) (g : Preempt → Preempt) : (s.onPreempt u g).wbuf = s.wbuf := rfl
@[simp] theorem State.onPreempt_releases (u : UnitId) (g : Preempt → Preempt) : (s.onPreempt u g).releases = s.releases := rfl
@[simp] theorem State.onPreempt_syncs (u : UnitId) (g : Preempt → Preempt) : (s.onPreempt u g).syncs = s.syncs := rfl
@[simp] theorem State.onPreempt_guards (u : UnitId) (g : Preempt → Preempt) : (s.onPreempt u g).guards = s.guards := rfl
@[simp] theorem State.onPreempt_owners (u : UnitId) (g : Preempt → Preempt) : (s.onPreempt u g).owners = s.owners := rfl
@[simp] theorem State.onPreempt_dir (u : UnitId) (g : Preempt → Preempt) : (s.onPreempt u g).dir = s.dir := rfl
@[simp] theorem State.onPreempt_dieDir (u : UnitId) (g : Preempt → Preempt) : (s.onPreempt u g).dieDir = s.dieDir := rfl
@[simp] theorem State.onPreempt_probes (u : UnitId) (g : Preempt → Preempt) : (s.onPreempt u g).probes = s.probes := rfl
@[simp] theorem State.onPreempt_leaseQ (u : UnitId) (g : Preempt → Preempt) : (s.onPreempt u g).leaseQ = s.leaseQ := rfl
@[simp] theorem State.onPreempt_leaseBuf (u : UnitId) (g : Preempt → Preempt) : (s.onPreempt u g).leaseBuf = s.leaseBuf := rfl
@[simp] theorem State.onPreempt_lost (u : UnitId) (g : Preempt → Preempt) : (s.onPreempt u g).lost = s.lost := rfl
@[simp] theorem State.onPreempt_atoms (u : UnitId) (g : Preempt → Preempt) : (s.onPreempt u g).atoms = s.atoms := rfl
@[simp] theorem State.onPreempt_drr (u : UnitId) (g : Preempt → Preempt) : (s.onPreempt u g).drr = s.drr := rfl
@[simp] theorem State.onPreempt_badgers (u : UnitId) (g : Preempt → Preempt) : (s.onPreempt u g).badgers = s.badgers := rfl
@[simp] theorem State.onPreempt_exts (u : UnitId) (g : Preempt → Preempt) : (s.onPreempt u g).exts = s.exts := rfl
@[simp] theorem State.onPreempt_inbound (u : UnitId) (g : Preempt → Preempt) : (s.onPreempt u g).inbound = s.inbound := rfl
@[simp] theorem State.onPreempt_tlb (u : UnitId) (g : Preempt → Preempt) : (s.onPreempt u g).tlb = s.tlb := rfl
@[simp] theorem State.onPreempt_walks (u : UnitId) (g : Preempt → Preempt) : (s.onPreempt u g).walks = s.walks := rfl
@[simp] theorem State.onPreempt_time (u : UnitId) (g : Preempt → Preempt) : (s.onPreempt u g).time = s.time := rfl
@[simp] theorem State.onPreempt_out (u : UnitId) (g : Preempt → Preempt) : (s.onPreempt u g).out = s.out := rfl
@[simp] theorem State.onPreempt_rot (u : UnitId) (g : Preempt → Preempt) : (s.onPreempt u g).rot = s.rot := rfl
@[simp] theorem State.onPreempt_inbox (u : UnitId) (g : Preempt → Preempt) : (s.onPreempt u g).inbox = s.inbox := rfl
@[simp] theorem State.onPreempt_turn (u : UnitId) (g : Preempt → Preempt) : (s.onPreempt u g).turn = s.turn := rfl
@[simp] theorem State.onPreempt_beat (u : UnitId) (g : Preempt → Preempt) : (s.onPreempt u g).beat = s.beat := rfl
@[simp] theorem State.onPreempt_cur (u : UnitId) (g : Preempt → Preempt) : (s.onPreempt u g).cur = s.cur := rfl
@[simp] theorem State.onPreempt_second (u : UnitId) (g : Preempt → Preempt) : (s.onPreempt u g).second = s.second := rfl
@[simp] theorem State.onPreempt_stamp (u : UnitId) (g : Preempt → Preempt) : (s.onPreempt u g).stamp = s.stamp := rfl
@[simp] theorem State.onPreempt_nextId (u : UnitId) (g : Preempt → Preempt) : (s.onPreempt u g).nextId = s.nextId := rfl

/-! ### tick -/

@[simp] theorem State.tick_pkg : (s.tick).pkg = s.pkg := rfl
@[simp] theorem State.tick_hubs : (s.tick).hubs = s.hubs := rfl
@[simp] theorem State.tick_links : (s.tick).links = s.links := rfl
@[simp] theorem State.tick_training : (s.tick).training = s.training := rfl
@[simp] theorem State.tick_errcnt : (s.tick).errcnt = s.errcnt := rfl
@[simp] theorem State.tick_mb : (s.tick).mb = s.mb := rfl
@[simp] theorem State.tick_endpoints : (s.tick).endpoints = s.endpoints := rfl
@[simp] theorem State.tick_clusters : (s.tick).clusters = s.clusters := rfl
@[simp] theorem State.tick_vds : (s.tick).vds = s.vds := rfl
@[simp] theorem State.tick_ctxs : (s.tick).ctxs = s.ctxs := rfl
@[simp] theorem State.tick_qis : (s.tick).qis = s.qis := rfl
@[simp] theorem State.tick_tasks : (s.tick).tasks = s.tasks := rfl
@[simp] theorem State.tick_launches : (s.tick).launches = s.launches := rfl
@[simp] theorem State.tick_gangs : (s.tick).gangs = s.gangs := rfl
@[simp] theorem State.tick_crews : (s.tick).crews = s.crews := rfl
@[simp] theorem State.tick_warps : (s.tick).warps = s.warps := rfl
@[simp] theorem State.tick_gather : (s.tick).gather = s.gather := rfl
@[simp] theorem State.tick_contWarps : (s.tick).contWarps = s.contWarps := rfl
@[simp] theorem State.tick_preempts : (s.tick).preempts = s.preempts := rfl
@[simp] theorem State.tick_images : (s.tick).images = s.images := rfl
@[simp] theorem State.tick_mem : (s.tick).mem = s.mem := rfl
@[simp] theorem State.tick_syndrome : (s.tick).syndrome = s.syndrome := rfl
@[simp] theorem State.tick_patched : (s.tick).patched = s.patched := rfl
@[simp] theorem State.tick_pending : (s.tick).pending = s.pending := rfl
@[simp] theorem State.tick_wbuf : (s.tick).wbuf = s.wbuf := rfl
@[simp] theorem State.tick_releases : (s.tick).releases = s.releases := rfl
@[simp] theorem State.tick_syncs : (s.tick).syncs = s.syncs := rfl
@[simp] theorem State.tick_guards : (s.tick).guards = s.guards := rfl
@[simp] theorem State.tick_owners : (s.tick).owners = s.owners := rfl
@[simp] theorem State.tick_dir : (s.tick).dir = s.dir := rfl
@[simp] theorem State.tick_dieDir : (s.tick).dieDir = s.dieDir := rfl
@[simp] theorem State.tick_probes : (s.tick).probes = s.probes := rfl
@[simp] theorem State.tick_leaseQ : (s.tick).leaseQ = s.leaseQ := rfl
@[simp] theorem State.tick_leaseBuf : (s.tick).leaseBuf = s.leaseBuf := rfl
@[simp] theorem State.tick_lost : (s.tick).lost = s.lost := rfl
@[simp] theorem State.tick_atoms : (s.tick).atoms = s.atoms := rfl
@[simp] theorem State.tick_drr : (s.tick).drr = s.drr := rfl
@[simp] theorem State.tick_badgers : (s.tick).badgers = s.badgers := rfl
@[simp] theorem State.tick_exts : (s.tick).exts = s.exts := rfl
@[simp] theorem State.tick_inbound : (s.tick).inbound = s.inbound := rfl
@[simp] theorem State.tick_tlb : (s.tick).tlb = s.tlb := rfl
@[simp] theorem State.tick_walks : (s.tick).walks = s.walks := rfl
@[simp] theorem State.tick_time : (s.tick).time = s.time + w64 (Config.freeTime s.stamp) := rfl
@[simp] theorem State.tick_out : (s.tick).out = s.out := rfl
@[simp] theorem State.tick_rot : (s.tick).rot = s.rot := rfl
@[simp] theorem State.tick_inbox : (s.tick).inbox = s.inbox := rfl
@[simp] theorem State.tick_turn : (s.tick).turn = s.turn := rfl
@[simp] theorem State.tick_cur : (s.tick).cur = Issuer.none := rfl
@[simp] theorem State.tick_second : (s.tick).second = s.second := rfl
@[simp] theorem State.tick_stamp : (s.tick).stamp = s.stamp + 1 := rfl
@[simp] theorem State.tick_nextId : (s.tick).nextId = s.nextId := rfl

end Sys2Proof.Machine
end

