-- ==== Sys2Proof/Tests/Slice0.lean ====
section
/-! SUPPORT. Tests: encodings written from the spec's tables, a witness of the hypotheses of each statement, and small
values that the spec or a standard gives. -/

set_option maxRecDepth 100000
set_option Elab.async false

namespace Sys2Proof.Tests

open Sys2Proof.Machine

/-- The 96-bit form with every other field 0. -/
def f96 : Fields :=
  { form := .w96, live := none, t := false, tb := false, tc := false, d := 0, a := 0, b := 0, c := 0, mod := 0, fn := 0,
    pn := false, pm := 0, imm := 0, lit := 0 }

/-! ### A small machine -/

/-- A handle-table entry (Table 9.1); `perms` is PR, PW, PA from high to low. -/
def region (space kind perms base len : Nat) : BitVec 256 :=
  BitVec.ofNat 256 (2 ^ 255 + space * 2 ^ 252 + kind * 2 ^ 250 + perms * 2 ^ 246 + len * 2 ^ 64 + base)

/-- A GUARDED entry whose guard word lies in a handle at an offset (Table 9.1). -/
def guarded (base len h off : Nat) : BitVec 256 :=
  region 0 2 7 base len ||| BitVec.ofNat 256 (2 ^ 190 + h * 2 ^ 176 + off * 2 ^ 128)

/-- Lane 0 and lane 31 of a warp are live; each holds these values in registers, the second register of lane 31 64 higher. -/
def lanes2 (v : SMap Word) : List Lane :=
  (List.range 32).map fun l => { Lane.fresh 0 with v := if l = 31 then mapS v fun r x => if r = 8 then x + 64 else x else v }

/-- A warp with lanes 0 and 31 live, of crew 0 when it has one. -/
def warp2 (crew : Option Nat) (v : SMap Word) : Warp :=
  { Warp.placed 0 1 crew 1 0 128 128 0 0 0x80000001#32 0 with lanes := lanes2 v }

/-- A task of context 0 on queue interface 0: one gang of one crew of one warp. -/
def task1 : Task :=
  { ctx := 0, qi := 0, number := 0, desc := List.replicate 16 0, args := region 3 0 4 0 4096, code := 1, packet := 0,
    launch := none, deps := [], released := true, order := 0, nextGang := 1, again := [], gangsDone := 0, conts := 0, buffers := [],
    failed := none, fp := [], fpRecorded := [], waiting := [0, 0, 0, 0], wait := .none, answers := [], extData := [], extErr := [] }

/-- Handles 2 to 6 of context 0: COHERENT, OWNED, GUARDED, COHERENT of a page not written, and the guard words' memory. -/
def handles : SMap (BitVec 256) :=
  [(1, probeHandle), (2, region 0 3 7 0 4096), (3, region 0 1 7 4096 4096), (4, guarded 8192 4096 2 64),
   (5, region 0 3 7 12288 4096)]

/-- A placed crew with one warp of two live lanes; the registers of both threads are given, and who issues. -/
def machine (v : SMap Word) (k : SMap DWord) (cur : Issuer) : State :=
  let s := State.reset.withCode [] .lane
  { s with
    pkg := { s.pkg with ready := true }, dies := s.dies.map fun d => { d with up := true },
    ctxs := [(0, Ctx.bare 0 0 0 handles)], tasks := [(1, task1)],
    tlb := (List.range 4).map fun n => { ctx := 0, page := n, host := false, frame := n, secure := false, rights := 7 },
    warps := [(0, warp2 (some 0) v)],
    crews := [(0, let c := Crew.placed 0 1 0 0 1 0 128 [0] 0 65536 65536 4; { c with lead := { c.lead with k } })],
    gangs := [(0, { ctx := 0, task := 1, x := 0, y := 0, z := 0, cluster := 0, crews := [0], gbars := [], since := 0,
                    elapsed := 0, scan := 4096, overrun := false })],
    cur, inbox := [] }

/-- The issuing group of the warp holds both live lanes. -/
def both : Issuer := .lanes 0 0 0x80000001#32

/-- Nothing holds back the lane-stream instruction with the given fields, and a condition holds of its issue. -/
def lane (s : State) (eng op : Nat) (f : Fields) (p : Iss → Bool) : Bool :=
  match s.laneIss eng op f with
  | some i => i.goes s && p i
  | none => false

/-- The same for the lead stream. -/
def lead (s : State) (eng op : Nat) (f : Fields) (p : LIss → Bool) : Bool :=
  match ({ s with cur := .lead 0 0 } : State).leadIss eng op f with
  | some i => i.goes { s with cur := .lead 0 0 } && p i
  | none => false

/-- An access gives a device address. -/
def gives (o : AccOut) (pa : Nat) : Bool := decide (o = .ok (.dev pa) false)

/-! ### Every encoding (Tables 3.8 to 3.13, and the opcode tables of the chapters) -/

theorem decodes_lead_lead : ∀ e ∈ ([([0x1440C002, 0x00000000, 0x00000000], .sadd { f96 with d := 3, a := 4, b := 5 }),
    ([0x1440C082, 0x00000000, 0x00000000], .ssub { f96 with d := 3, a := 4, b := 5 }),
    ([0x1440C102, 0x00000000, 0x00000000], .smul { f96 with d := 3, a := 4, b := 5 }),
    ([0x1440C182, 0x00000000, 0x00000000], .smulh { f96 with d := 3, a := 4, b := 5 }),
    ([0x1440C202, 0x00000000, 0x00000000], .sdiv { f96 with d := 3, a := 4, b := 5 }),
    ([0x1440C282, 0x00000000, 0x00000000], .srem { f96 with d := 3, a := 4, b := 5 }),
    ([0x1440C302, 0x00000000, 0x00000000], .sand { f96 with d := 3, a := 4, b := 5 }),
    ([0x1440C382, 0x00000000, 0x00000000], .sor { f96 with d := 3, a := 4, b := 5 }),
    ([0x1440C402, 0x00000000, 0x00000000], .sxor { f96 with d := 3, a := 4, b := 5 }),
    ([0x1440C482, 0x00000000, 0x00000000], .sshl { f96 with d := 3, a := 4, b := 5 }),
    ([0x1440C502, 0x00000000, 0x00000000], .sshr { f96 with d := 3, a := 4, b := 5 }),
    ([0x1440C582, 0x00000000, 0x00000000], .ssra { f96 with d := 3, a := 4, b := 5 }),
    ([0x1440C602, 0x00000000, 0x00000000], .smin { f96 with d := 3, a := 4, b := 5 }),
    ([0x1440C682, 0x00000000, 0x00000000], .smax { f96 with d := 3, a := 4, b := 5 }),
    ([0x1440C702, 0x00000000, 0x00000000], .scmp { f96 with d := 3, a := 4, b := 5 }),
    ([0x1440C782, 0x00030000, 0x00000000], .ssel { f96 with d := 3, a := 4, b := 5, c := 6 }),
    ([0xFC00C802, 0x00007C00, 0x00012000], .sli { f96 with d := 3, b := 2047, imm := 9 }),
    ([0x0040C882, 0x00000000, 0x00000000], .sbits { f96 with d := 3, a := 4 }),
    ([0x1440C902, 0x60000000, 0x00010000], .sld { f96 with d := 3, a := 4, b := 5, mod := 6, imm := 8 }),
    ([0x14400982, 0x60030000, 0x00010000], .sst { f96 with a := 4, b := 5, c := 6, mod := 6, imm := 8 }),
    ([0x00000A02, 0x00000000, 0x00028000], .sbr { f96 with imm := 20 }),
    ([0x00000B02, 0x00000000, 0x00028000], .scall { f96 with imm := 20 }),
    ([0x00300A82, 0x10000000, 0x00028000], .sbc { f96 with a := 3, mod := 1, imm := 20 }),
    ([0x00000B82, 0x00000000, 0x00000000], .sret f96),
    ([0x00400C02, 0x00000000, 0x00000000], .sjmp { f96 with a := 4 }),
    ([0xFC000C82, 0x10007C00, 0x00002000], .dqpush { f96 with b := 2047, mod := 1, imm := 1 }),
    ([0x0280CD02, 0x00000000, 0x00000000], .srdx { f96 with d := 3, a := 40 }),
    ([0x16100D82, 0x00000000, 0x00000000], .swrx { f96 with a := 33, b := 5 }),
    ([0x14200E02, 0x00000000, 0x00000000], .swaitq { f96 with a := 2, b := 5 })] : List (List Word × Instr)),
    decodeWords .lead false e.1 = .ok e.2 := by
  decide +kernel

theorem decodes_sequencer_lane : ∀ e ∈ ([([0x0000000A, 0x00000000, 0x00028003], .lbr { f96 with pm := 3, imm := 20 }),
    ([0x0040008A, 0x10000000, 0x00028000], .lbrc { f96 with a := 4, mod := 1, imm := 20 }),
    ([0x0000C10A, 0x00000000, 0x00028000], .lcall { f96 with d := 3, imm := 20 }),
    ([0x0040018A, 0x00000000, 0x00000000], .lret { f96 with a := 4 }),
    ([0x0040020A, 0x00000000, 0x00000000], .ljmp { f96 with a := 4 }),
    ([0x0000028A, 0x00000000, 0x00028000], .ubr { f96 with imm := 20 }),
    ([0x0001030A, 0x00000000, 0x00000000], .dqpop { f96 with d := 4 }),
    ([0x0050038A, 0x00000000, 0x00000000], .join { f96 with a := 5 }),
    ([0x0050040A, 0x00000000, 0x00000000], .leave { f96 with a := 5 }),
    ([0x0050048A, 0x00000000, 0x00000000], .waitj { f96 with a := 5 }),
    ([0x0031450A, 0x00000000, 0x00000000], .jset { f96 with d := 5, a := 3 }),
    ([0x0050C58A, 0x00000000, 0x00000000], .jget { f96 with d := 3, a := 5 }),
    ([0x0020060A, 0x10000000, 0x00010000], .bar { f96 with a := 2, mod := 1, imm := 8 }),
    ([0x0020068A, 0x10000000, 0x00010000], .gbar { f96 with a := 2, mod := 1, imm := 8 }),
    ([0x0000070A, 0x00000000, 0x00000003], .exit { f96 with pm := 3 }),
    ([0x0000078A, 0x30000000, 0x00000000], .partset { f96 with mod := 3 }),
    ([0x0000C80A, 0x00000000, 0x00000000], .elect { f96 with d := 3 }),
    ([0x0000088A, 0x00000000, 0x0000E000], .trap { f96 with imm := 7 }),
    ([0x0000090A, 0x10000000, 0x00000000], .rte { f96 with mod := 1 }),
    ([0x0061098A, 0x00000000, 0x00000000], .lpcrd { f96 with d := 4, a := 6 })] : List (List Word × Instr)),
    decodeWords .lane false e.1 = .ok e.2 := by
  decide +kernel

theorem decodes_integer_lane : ∀ e ∈ ([([0x20610012, 0x60000000, 0x00000000], .iadd { f96 with d := 4, a := 6, b := 8, mod := 6 }),
    ([0x20610092, 0x60000000, 0x00000000], .isub { f96 with d := 4, a := 6, b := 8, mod := 6 }),
    ([0x20610112, 0x60000000, 0x00000000], .imul { f96 with d := 4, a := 6, b := 8, mod := 6 }),
    ([0x20610192, 0x60000000, 0x00000000], .imulh { f96 with d := 4, a := 6, b := 8, mod := 6 }),
    ([0x20610312, 0x60000000, 0x00000000], .iand { f96 with d := 4, a := 6, b := 8, mod := 6 }),
    ([0x20610392, 0x60000000, 0x00000000], .ior { f96 with d := 4, a := 6, b := 8, mod := 6 }),
    ([0x20610412, 0x60000000, 0x00000000], .ixor { f96 with d := 4, a := 6, b := 8, mod := 6 }),
    ([0x20610492, 0x60000000, 0x00000000], .ishl { f96 with d := 4, a := 6, b := 8, mod := 6 }),
    ([0x20610512, 0x60000000, 0x00000000], .ishr { f96 with d := 4, a := 6, b := 8, mod := 6 }),
    ([0x20610592, 0x60000000, 0x00000000], .isra { f96 with d := 4, a := 6, b := 8, mod := 6 }),
    ([0x20610612, 0x60000000, 0x00000000], .imin { f96 with d := 4, a := 6, b := 8, mod := 6 }),
    ([0x20610692, 0x60000000, 0x00000000], .imax { f96 with d := 4, a := 6, b := 8, mod := 6 }),
    ([0x20610B92, 0x60000000, 0x00000000], .iadds { f96 with d := 4, a := 6, b := 8, mod := 6 }),
    ([0x20610C12, 0x60000000, 0x00000000], .isubs { f96 with d := 4, a := 6, b := 8, mod := 6 }),
    ([0x20610212, 0x60050000, 0x00000000], .imad { f96 with d := 4, a := 6, b := 8, c := 10, mod := 6 }),
    ([0x20610292, 0x10050000, 0x00000000], .imadw { f96 with d := 4, a := 6, b := 8, c := 10, mod := 1 }),
    ([0x00610712, 0x20000000, 0x00000020], .iabs { f96 with d := 4, a := 6, mod := 2, fn := 0x1 }),
    ([0x20610792, 0x10000000, 0x00000040], .icmp { f96 with d := 4, a := 6, b := 8, mod := 1, fn := 0x2 }),
    ([0x20610812, 0x00018000, 0x00000000], .isel { f96 with d := 4, a := 6, b := 8, c := 3 }),
    ([0x00610892, 0x60000000, 0x00000000], .ipop { f96 with d := 4, a := 6, mod := 6 }),
    ([0x00610912, 0x60000000, 0x00000000], .iclz { f96 with d := 4, a := 6, mod := 6 }),
    ([0x00610992, 0x60000000, 0x00000000], .ibrev { f96 with d := 4, a := 6, mod := 6 }),
    ([0x20610A12, 0x00050000, 0x00000000], .iperm { f96 with d := 4, a := 6, b := 8, c := 10 }),
    ([0x20610A92, 0x10000000, 0x00000000], .ibfe { f96 with d := 4, a := 6, b := 8, mod := 1 }),
    ([0x20610B12, 0x00050000, 0x00000000], .ibfi { f96 with d := 4, a := 6, b := 8, c := 10 }),
    ([0x20610C92, 0x80050000, 0x00000020], .idp4 { f96 with d := 4, a := 6, b := 8, c := 10, mod := 8, fn := 0x1 }),
    ([0x20610D12, 0x30050000, 0x00000000], .idp2 { f96 with d := 4, a := 6, b := 8, c := 10, mod := 3 }),
    ([0xFC010D92, 0x00007C00, 0x00012000], .imov { f96 with d := 4, b := 2047, imm := 9 }),
    ([0x20610E12, 0x00000000, 0x00000060], .shfl { f96 with d := 4, a := 6, b := 8, fn := 0x3 }),
    ([0x00610E92, 0x00000000, 0x00000040], .vote { f96 with d := 4, a := 6, fn := 0x2 }),
    ([0x00610F12, 0x10000000, 0x00000020], .redi { f96 with d := 4, a := 6, mod := 1, fn := 0x1 }),
    ([0x00610F92, 0x10000000, 0x00000020], .scani { f96 with d := 4, a := 6, mod := 1, fn := 0x1 }),
    ([0x08111012, 0x00000000, 0x000000C0], .mlog { f96 with d := 4, a := 1, b := 2, fn := 0x6 }),
    ([0x0010D092, 0x00000000, 0x00000000], .mmov { f96 with d := 3, a := 1 })] : List (List Word × Instr)),
    decodeWords .lane false e.1 = .ok e.2 := by
  decide +kernel

theorem decodes_float_lane : ∀ e ∈ ([([0x2061001A, 0x10000000, 0x00000000], .fadd { f96 with d := 4, a := 6, b := 8, mod := 1 }),
    ([0x2061009A, 0x10000000, 0x00000000], .fsub { f96 with d := 4, a := 6, b := 8, mod := 1 }),
    ([0x2061011A, 0x10000000, 0x00000000], .fmul { f96 with d := 4, a := 6, b := 8, mod := 1 }),
    ([0x2061021A, 0x10000000, 0x00000000], .fmin { f96 with d := 4, a := 6, b := 8, mod := 1 }),
    ([0x2061029A, 0x10000000, 0x00000000], .fmax { f96 with d := 4, a := 6, b := 8, mod := 1 }),
    ([0x2061019A, 0x20050000, 0x00000020], .ffma { f96 with d := 4, a := 6, b := 8, c := 10, mod := 2, fn := 0x1 }),
    ([0x2061031A, 0x00000000, 0x00000040], .fcmp { f96 with d := 4, a := 6, b := 8, fn := 0x2 }),
    ([0x2061039A, 0x00000000, 0x00000020], .fsgn { f96 with d := 4, a := 6, b := 8, fn := 0x1 }),
    ([0x0010841A, 0x00000000, 0x01000300], .fcvt { f96 with d := 2, a := 1, fn := 0x18, imm := 2048 }),
    ([0x0061049A, 0x10000000, 0x00000000], .fclass { f96 with d := 4, a := 6, mod := 1 }),
    ([0x2061051A, 0x00000000, 0x00000000], .fscale { f96 with d := 4, a := 6, b := 8 }),
    ([0x2061059A, 0x00000000, 0x00000040], .hadd2 { f96 with d := 4, a := 6, b := 8, fn := 0x2 }),
    ([0x2061061A, 0x00000000, 0x00000040], .hmul2 { f96 with d := 4, a := 6, b := 8, fn := 0x2 }),
    ([0x2061071A, 0x00000000, 0x00000040], .badd2 { f96 with d := 4, a := 6, b := 8, fn := 0x2 }),
    ([0x2061079A, 0x00000000, 0x00000040], .bmul2 { f96 with d := 4, a := 6, b := 8, fn := 0x2 }),
    ([0x2061069A, 0x00050000, 0x00000000], .hfma2 { f96 with d := 4, a := 6, b := 8, c := 10 }),
    ([0x2061081A, 0x00050000, 0x00000000], .bfma2 { f96 with d := 4, a := 6, b := 8, c := 10 }),
    ([0x0061089A, 0x00000000, 0x00000000], .redf { f96 with d := 4, a := 6 }),
    ([0x2061091A, 0x10050000, 0x00000000], .fdot2 { f96 with d := 4, a := 6, b := 8, c := 10, mod := 1 })] : List (List Word × Instr)),
    decodeWords .lane false e.1 = .ok e.2 := by
  decide +kernel

theorem decodes_function_lane : ∀ e ∈ ([([0x00610022, 0x00000000, 0x00000000], .rcp { f96 with d := 4, a := 6 }),
    ([0x006100A2, 0x00000000, 0x00000000], .rsq { f96 with d := 4, a := 6 }),
    ([0x006101A2, 0x00000000, 0x00000000], .exp2 { f96 with d := 4, a := 6 }),
    ([0x00610222, 0x00000000, 0x00000000], .log2 { f96 with d := 4, a := 6 }),
    ([0x006102A2, 0x00000000, 0x00000000], .sinpi { f96 with d := 4, a := 6 }),
    ([0x00610322, 0x00000000, 0x00000000], .cospi { f96 with d := 4, a := 6 }),
    ([0x006103A2, 0x00000000, 0x00000000], .tanh { f96 with d := 4, a := 6 }),
    ([0x00610422, 0x00000000, 0x00000000], .sigm { f96 with d := 4, a := 6 }),
    ([0x00610122, 0x00000000, 0x00000020], .sqrt { f96 with d := 4, a := 6, fn := 0x1 }),
    ([0x206104A2, 0x00000000, 0x00000040], .fdiv { f96 with d := 4, a := 6, b := 8, fn := 0x2 }),
    ([0x20610522, 0x70000000, 0x00000000], .idiv { f96 with d := 4, a := 6, b := 8, mod := 7 }),
    ([0x206105A2, 0x70000000, 0x00000000], .irem { f96 with d := 4, a := 6, b := 8, mod := 7 })] : List (List Word × Instr)),
    decodeWords .lane false e.1 = .ok e.2 := by
  decide +kernel

theorem decodes_access_lane : ∀ e ∈ ([([0x2061002A, 0x80000000, 0x00020000], .ld { f96 with d := 4, a := 6, b := 8, mod := 8, imm := 16 }),
    ([0x206000AA, 0x60060000, 0x00010080], .st { f96 with a := 6, b := 8, c := 12, mod := 6, fn := 0x4, imm := 8 }),
    ([0x2061012A, 0x10000000, 0x00000000], .ldt { f96 with d := 4, a := 6, b := 8, mod := 1 }),
    ([0x206001AA, 0x10060000, 0x00000000], .stt { f96 with a := 6, b := 8, c := 12, mod := 1 }),
    ([0x2001022A, 0x20000000, 0x00000060], .talloc { f96 with d := 4, b := 8, mod := 2, fn := 0x3 }),
    ([0x006002AA, 0x00000000, 0x00000000], .tfree { f96 with a := 6 }),
    ([0x0061032A, 0x00000000, 0x00000000], .tquery { f96 with d := 4, a := 6 }),
    ([0x006103AA, 0x30000000, 0x00000000], .hquery { f96 with d := 4, a := 6, mod := 3 }),
    ([0x2060042A, 0x20060000, 0x00000000], .waita { f96 with a := 6, b := 8, c := 12, mod := 2 }),
    ([0x206004AA, 0x00000000, 0x00010000], .pref { f96 with a := 6, b := 8, imm := 8 }),
    ([0x0000052A, 0x10000000, 0x00000000], .fence { f96 with mod := 1 })] : List (List Word × Instr)),
    decodeWords .lane false e.1 = .ok e.2 := by
  decide +kernel

theorem decodes_atomic_lane : ∀ e ∈ ([([0x20610032, 0x70060000, 0x00000000], .aadd { f96 with d := 4, a := 6, b := 8, c := 12, mod := 7 }),
    ([0x20610232, 0x70060000, 0x00000000], .amin { f96 with d := 4, a := 6, b := 8, c := 12, mod := 7 }),
    ([0x206102B2, 0x70060000, 0x00000000], .amax { f96 with d := 4, a := 6, b := 8, c := 12, mod := 7 }),
    ([0x206100B2, 0x60060000, 0x00000000], .aand { f96 with d := 4, a := 6, b := 8, c := 12, mod := 6 }),
    ([0x20610132, 0x60060000, 0x00000000], .aor { f96 with d := 4, a := 6, b := 8, c := 12, mod := 6 }),
    ([0x206101B2, 0x60060000, 0x00000000], .axor { f96 with d := 4, a := 6, b := 8, c := 12, mod := 6 }),
    ([0x20610332, 0x60060000, 0x00000000], .axchg { f96 with d := 4, a := 6, b := 8, c := 12, mod := 6 }),
    ([0x206103B2, 0x60060000, 0x00000000], .acas { f96 with d := 4, a := 6, b := 8, c := 12, mod := 6 }),
    ([0x20610432, 0x10060000, 0x00000000], .ainc { f96 with d := 4, a := 6, b := 8, c := 12, mod := 1 }),
    ([0x206104B2, 0x10060000, 0x00000000], .adec { f96 with d := 4, a := 6, b := 8, c := 12, mod := 1 }),
    ([0x20610532, 0x00060000, 0x00000000], .afadd { f96 with d := 4, a := 6, b := 8, c := 12 }),
    ([0x206005B2, 0x00060000, 0x00000200], .red { f96 with a := 6, b := 8, c := 12, fn := 0x10 }),
    ([0x20600632, 0x00060000, 0x00000000], .binit { f96 with a := 6, b := 8, c := 12 }),
    ([0x206106B2, 0x00060000, 0x00000000], .arrive { f96 with d := 4, a := 6, b := 8, c := 12 }),
    ([0x20610732, 0x00060000, 0x00000000], .bwait { f96 with d := 4, a := 6, b := 8, c := 12 })] : List (List Word × Instr)),
    decodeWords .lane false e.1 = .ok e.2 := by
  decide +kernel

theorem decodes_home_lane : ∀ e ∈ ([([0x2060003A, 0x00060000, 0x00004000], .move { f96 with a := 6, b := 8, c := 12, imm := 2 }),
    ([0x206100BA, 0x00000000, 0x00000000], .ownq { f96 with d := 4, a := 6, b := 8 }),
    ([0x2061013A, 0x10000000, 0x00000000], .gacq { f96 with d := 4, a := 6, b := 8, mod := 1 }),
    ([0x206101BA, 0x10000000, 0x00000000], .gtry { f96 with d := 4, a := 6, b := 8, mod := 1 }),
    ([0x2060023A, 0x10000000, 0x00000000], .grel { f96 with a := 6, b := 8, mod := 1 }),
    ([0x206002BA, 0x00000000, 0x003E8000], .lease { f96 with a := 6, b := 8, imm := 500 }),
    ([0x0001033A, 0x00000000, 0x00000000], .unlease { f96 with d := 4 }),
    ([0x206003BA, 0x00060000, 0x00000000], .publish { f96 with a := 6, b := 8, c := 12 }),
    ([0x2060043A, 0x00060000, 0x00000000], .discard { f96 with a := 6, b := 8, c := 12 })] : List (List Word × Instr)),
    decodeWords .lane false e.1 = .ok e.2 := by
  decide +kernel

theorem decodes_chain_lane : ∀ e ∈ ([([0x00000042, 0x10000000, 0x00000000], .lbind { f96 with mod := 1 }),
    ([0x000000C2, 0x00000000, 0x00000000], .lunbind f96),
    ([0x20610142, 0x10000000, 0x00000020], .ladd { f96 with d := 4, a := 6, b := 8, mod := 1, fn := 0x1 }),
    ([0x206101C2, 0x10000000, 0x00000020], .lsub { f96 with d := 4, a := 6, b := 8, mod := 1, fn := 0x1 }),
    ([0x00610242, 0x00000000, 0x00000000], .lneg { f96 with d := 4, a := 6 }),
    ([0x206102C2, 0x00000000, 0x00000000], .lshl { f96 with d := 4, a := 6, b := 8 }),
    ([0x20610342, 0x00000000, 0x00000000], .lshr { f96 with d := 4, a := 6, b := 8 }),
    ([0x206103C2, 0x00000000, 0x00000000], .lsra { f96 with d := 4, a := 6, b := 8 }),
    ([0x20610442, 0x20000000, 0x00000000], .lcmp { f96 with d := 4, a := 6, b := 8, mod := 2 }),
    ([0x206104C2, 0x00050000, 0x00001180], .lmulw { f96 with d := 4, a := 6, b := 8, c := 10, fn := 0x8c }),
    ([0x20610542, 0x00050000, 0x00000020], .lmont { f96 with d := 4, a := 6, b := 8, c := 10, fn := 0x1 }),
    ([0x0000C5C2, 0x00000000, 0x00000020], .lcarry { f96 with d := 3, fn := 0x1 }),
    ([0x00010642, 0x20000000, 0x00000000], .lstat { f96 with d := 4, mod := 2 })] : List (List Word × Instr)),
    decodeWords .lane false e.1 = .ok e.2 := by
  decide +kernel

theorem decodes_matrix_lane : ∀ e ∈ ([([0x000001CA, 0x00000000, 0x00000000], .mxfence f96),
    ([0x2060024A, 0x00000000, 0x00000000], .mxissue { f96 with a := 6, b := 8 }),
    ([0x202002CA, 0x00000000, 0x00000000], .mxwait { f96 with a := 2, b := 8 }),
    ([0x206103CA, 0x00000000, 0x00000000], .accrd { f96 with d := 4, a := 6, b := 8 }),
    ([0x2060044A, 0x00060000, 0x00000000], .accwr { f96 with a := 6, b := 8, c := 12 })] : List (List Word × Instr)),
    decodeWords .lane false e.1 = .ok e.2 := by
  decide +kernel

theorem decodes_matrix_lead : ∀ e ∈ ([([0x1440C04A, 0x00000000, 0x00000000], .wload { f96 with d := 3, a := 4, b := 5 }),
    ([0x003000CA, 0x00000000, 0x00000000], .wdrop { f96 with a := 3 }),
    ([0x0040C14A, 0x00000000, 0x00000000], .wcheck { f96 with d := 3, a := 4 }),
    ([0x1440034A, 0x00000000, 0x00000000], .acczero { f96 with a := 4, b := 5 }),
    ([0x144004CA, 0x00000000, 0x00000000], .accdrain { f96 with a := 4, b := 5 }),
    ([0x0000C54A, 0x00000000, 0x00000000], .mxstat { f96 with d := 3 })] : List (List Word × Instr)),
    decodeWords .lead false e.1 = .ok e.2 := by
  decide +kernel

theorem decodes_copy_lane : ∀ e ∈ ([([0x20610052, 0x00000000, 0x00000000], .cpy { f96 with d := 4, a := 6, b := 8 }),
    ([0x206100D2, 0x00000000, 0x00000000], .cpyg { f96 with d := 4, a := 6, b := 8 }),
    ([0x20610152, 0x00000000, 0x00000000], .cpys { f96 with d := 4, a := 6, b := 8 }),
    ([0x206101D2, 0x00000000, 0x00000000], .cpyf { f96 with d := 4, a := 6, b := 8 }),
    ([0x20610252, 0x00000000, 0x00000000], .ckpt { f96 with d := 4, a := 6, b := 8 }),
    ([0x206102D2, 0x00000000, 0x00000000], .ckload { f96 with d := 4, a := 6, b := 8 }),
    ([0x00610352, 0x00000000, 0x00000000], .cpyq { f96 with d := 4, a := 6 }),
    ([0x006103D2, 0x00000000, 0x00000000], .cpycan { f96 with d := 4, a := 6 })] : List (List Word × Instr)),
    decodeWords .lane false e.1 = .ok e.2 := by
  decide +kernel

theorem decodes_dispatch_lane : ∀ e ∈ ([([0x0061005A, 0x00000000, 0x00000000], .cont { f96 with d := 4, a := 6 }),
    ([0x206000DA, 0x00000000, 0x00000000], .cwait { f96 with a := 6, b := 8 }),
    ([0x0000015A, 0x00000000, 0x00000000], .yield f96),
    ([0x009101DA, 0x00000000, 0x00000000], .getid { f96 with d := 4, a := 9 })] : List (List Word × Instr)),
    decodeWords .lane false e.1 = .ok e.2 := by
  decide +kernel

theorem decodes_system_lane : ∀ e ∈ ([([0x00000062, 0x00000000, 0x00000000], .nop f96),
    ([0x010100E2, 0x00000000, 0x00000000], .ctrrd { f96 with d := 4, a := 16 }),
    ([0x00000162, 0x00000000, 0x0000E000], .brk { f96 with imm := 7 }),
    ([0x206001E2, 0x00060000, 0x00000000], .measure { f96 with a := 6, b := 8, c := 12 }),
    ([0x00A10262, 0x00000000, 0x00000000], .fpevrd { f96 with d := 4, a := 10 })] : List (List Word × Instr)),
    decodeWords .lane false e.1 = .ok e.2 := by
  decide +kernel

def fab : Fields := { f96 with d := 4, a := 6, b := 8 }
def fabc : Fields := { fab with c := 10 }
def fa : Fields := { f96 with d := 4, a := 6 }
def m0 : State := machine [] [] both

theorem witness_IntegerArithmetic :
    (∀ op ∈ [0x00, 0x01, 0x02, 0x03, 0x06, 0x07, 0x08, 0x09, 0x0A, 0x0B, 0x0C, 0x0D, 0x17, 0x18],
      lane m0 2 op fab (fun _ => true) = true) ∧
    lane m0 2 0x0E fa (fun i => i.fn == 0) = true ∧ lane m0 2 0x0E { fa with fn := 1 } (fun i => i.fn == 1) = true := by
  decide +kernel

theorem witness_IntegerAccumulate :
    lane m0 2 0x04 fabc (fun _ => true) = true ∧ (∀ mo ∈ [0, 1], lane m0 2 0x05 { fabc with mod := BitVec.ofNat 4 mo } (fun i => i.mo == mo) = true) ∧
    (∀ sat ∈ [0, 1], (∀ mo ∈ [4, 5, 8], lane m0 2 0x19 { fabc with mod := BitVec.ofNat 4 mo, fn := BitVec.ofNat 8 sat }
      (fun i => i.mo == mo && i.fn == sat) = true) ∧ (∀ mo ∈ [2, 3, 8], lane m0 2 0x1A { fabc with mod := BitVec.ofNat 4 mo, fn := BitVec.ofNat 8 sat }
      (fun i => i.mo == mo && i.fn == sat) = true)) := by
  decide +kernel

theorem witness_BitInstructions :
    (∀ op ∈ [0x11, 0x12, 0x13], lane m0 2 op fa (fun _ => true) = true) ∧ (∀ op ∈ [0x14, 0x16], lane m0 2 op fabc (fun _ => true) = true) ∧
    lane m0 2 0x15 fab (fun _ => true) = true ∧ lane m0 2 0x1B { fab with a := 0 } (fun _ => true) = true ∧
    lane m0 2 0x10 { fab with c := 15 } (fun _ => true) = true := by
  decide +kernel

theorem witness_AcrossLanes :
    (∀ fn ∈ [0, 1, 2, 3], lane m0 2 0x1C { fab with fn := BitVec.ofNat 8 fn } (fun i => i.fn == fn) = true) ∧
    (∀ op ∈ [0x1D, 0x1E, 0x1F], lane m0 2 op fa (fun _ => true) = true) := by
  decide +kernel

theorem witness_MaskInstructions :
    (∀ e ∈ [(2, 0x0F), (3, 0x06)], lane m0 e.1 e.2 fab (fun i => bits i.fn 3 3 == 0) = true ∧
      lane m0 e.1 e.2 { fab with fn := 8 } (fun i => bits i.fn 3 3 == 1) = true) ∧
    lane m0 2 0x20 { f96 with d := 15, a := 1, b := 2 } (fun _ => true) = true ∧
    (∀ mo ∈ [0, 1], lane m0 2 0x21 { f96 with d := 15, a := 1, mod := BitVec.ofNat 4 mo } (fun i => i.mo == mo) = true) ∧
    lane m0 2 0x21 { fa with a := 15, mod := 2 } (fun i => i.mo == 2) = true ∧
    lane m0 2 0x21 { f96 with d := 15, b := 2047, imm := 1, mod := 3 } (fun i => i.mo == 3) = true ∧
    lane m0 1 0x10 { f96 with d := 15 } (fun _ => true) = true ∧ lane m0 1 0x0B { f96 with d := 15, a := 11 } (fun _ => true) = true := by
  decide +kernel

theorem witness_FloatArithmetic :
    (∀ op ∈ [0x00, 0x01, 0x02, 0x0A, 0x0B, 0x0C, 0x0E, 0x0F], lane m0 3 op fab (fun _ => true) = true) ∧
    (∀ op ∈ [0x03, 0x0D, 0x10], lane m0 3 op fabc (fun _ => true) = true) ∧ lane m0 3 0x12 { fabc with mod := 1 } (fun _ => true) = true := by
  decide +kernel

theorem witness_FloatSelection :
    (∀ op ∈ [0x04, 0x05, 0x07], lane m0 3 op fab (fun _ => true) = true) ∧ (∀ op ∈ [0x09, 0x11], lane m0 3 op fa (fun _ => true) = true) ∧
    lane m0 3 0x08 { fa with fn := 0x18, imm := 0x800 } (fun _ => true) = true := by
  decide +kernel

theorem witness_FunctionPipe :
    (∀ op ∈ [0x00, 0x01, 0x02, 0x03, 0x04, 0x05, 0x06, 0x07, 0x08], lane m0 4 op fa (fun _ => true) = true) ∧
    (∀ op ∈ [0x09, 0x0A, 0x0B], lane m0 4 op fab (fun _ => true) = true) ∧
    (fltOf 0).decode 0x7F800001 = .nan ∧ (fltOf 0).decode 0xBF800000 = .fin true 0x800000 (-23) := by
  decide +kernel

/-- A producer that has two values to write in lane 0, and one of a lead thread. -/
def prod2 : Producer := { id := 5, regs := [4, 5], vals := [(0, 4, 1), (0, 4, 2)], replies := 0, flags := [] }
def prod1 : Producer := { id := 6, regs := [63], vals := [(0, 63, 1)], replies := 0, flags := [] }

theorem witness_ProducerWriteback :
    (((m0.onWarp 0 0 fun w => { w with prods := [prod2], empty := [4, 5] }).warp? 0 0).any fun w =>
      decide (w.prods[0]? = some prod2 ∧ prod2.replies = 0 ∧ prod2.flags = [] ∧ 0 < w.lanes.length ∧
        prod2.vals = [(0, 4, 1)] ++ (0, 4, 2) :: [] ∧ ∀ e ∈ prod2.vals, ¬ (e.1 = 0 ∧ e.2.1 = 5))) = true ∧
    (((m0.onLead 0 0 fun x => { x with prods := [prod1], empty := [63] }).crew? 0 0).any fun c =>
      decide (c.lead.prods[0]? = some prod1 ∧ prod1.replies = 0 ∧ prod1.vals = [(0, 63, 1)])) = true := by
  decide +kernel

def kab : Fields := { f96 with d := 3, a := 4, b := 5 }

theorem witness_LeadArithmetic :
    (∀ op ∈ [0x00, 0x01, 0x02, 0x06, 0x07, 0x08, 0x09, 0x0A, 0x0B], lead m0 0 op kab (fun _ => true) = true) ∧
    (∀ mo ∈ [0, 1], ∀ op ∈ [0x03, 0x04, 0x05, 0x0C, 0x0D], lead m0 0 op { kab with mod := BitVec.ofNat 4 mo } (fun i => i.mo == mo) = true) ∧
    (∀ mo ∈ [0, 3, 5, 6, 8], lead m0 0 0x0E { kab with mod := BitVec.ofNat 4 mo } (fun i => i.mo == mo && i.a == i.b) = true) ∧
    (∀ mo ∈ [1, 2, 4, 7, 9], lead m0 0 0x0E { kab with mod := BitVec.ofNat 4 mo } (fun i => i.mo == mo && i.a == i.b) = true) ∧
    (∀ mo ∈ [1, 3, 5, 7, 9], lead (machine [] [(4, 1)] both) 0 0x0E { kab with mod := BitVec.ofNat 4 mo }
      (fun i => i.mo == mo && i.a == 1 && i.b == 0) = true) ∧
    (∀ mo ∈ [2, 4, 6, 8], lead (machine [] [(5, 1)] both) 0 0x0E { kab with mod := BitVec.ofNat 4 mo }
      (fun i => i.mo == mo && i.a == 0 && i.b == 1) = true) ∧
    lead m0 0 0x0F { kab with c := 6 } (fun _ => true) = true ∧ lead m0 0 0x10 { kab with a := 0 } (fun _ => true) = true ∧
    (∀ mo ∈ [0, 1, 2, 3], lead m0 0 0x11 { kab with b := 0, mod := BitVec.ofNat 4 mo } (fun i => i.mo == mo) = true) ∧
    (∀ mo ∈ [4, 5], lead m0 0 0x11 { kab with mod := BitVec.ofNat 4 mo } (fun i => i.mo == mo) = true) ∧
    lead m0 0 0x11 { kab with c := 6, mod := 6 } (fun i => i.mo == 6) = true ∧
    (({ m0 with cur := .lead 0 0 } : State).leadIss 0 0x0E { kab with mod := 10 }).isSome = true := by
  decide +kernel

def kt : Fields := { f96 with imm := 20 }
/-- The lead thread with a return stack. -/
def stacked (n : Nat) : State := m0.onLead 0 0 fun x => { x with stack := List.replicate n 64 }

theorem witness_LeadControl :
    lead m0 0 0x14 kt (fun _ => true) = true ∧
    (∀ mo ∈ [1, 3], lead m0 0 0x15 { kt with a := 4, mod := BitVec.ofNat 4 mo } (fun i => i.mo == mo && i.a.toInt == 0) = true) ∧
    (∀ mo ∈ [0, 2], lead (machine [] [(4, -1)] both) 0 0x15 { kt with a := 4, mod := BitVec.ofNat 4 mo }
      (fun i => i.mo == mo && i.a.toInt == -1) = true) ∧
    lead (stacked 15) 0 0x16 kt (fun i => decide (i.c.lead.stack.length < 16)) = true ∧
    lead (stacked 16) 0 0x16 kt (fun i => decide (16 ≤ i.c.lead.stack.length)) = true ∧
    lead (machine [] [(4, 0xFFFFFFFF)] both) 0 0x18 { f96 with a := 4 } (fun i => decide (i.a.toNat < 2 ^ 32 ∧ i.mo = 0)) = true ∧
    lead (stacked 15) 0 0x18 { f96 with a := 4, mod := 1 }
      (fun i => decide (i.a.toNat < 2 ^ 32 ∧ i.mo = 1 ∧ i.c.lead.stack.length < 16)) = true ∧
    lead (machine [] [(4, 0x100000000)] both) 0 0x18 { f96 with a := 4 } (fun i => decide (2 ^ 32 ≤ i.a.toNat)) = true ∧
    lead (stacked 1) 0 0x17 f96 (fun i => decide (i.c.lead.stack = 64 :: [])) = true ∧
    lead m0 0 0x17 f96 (fun i => decide (i.c.lead.stack = [] ∧ i.c.lead.prods = [] ∧
      (Caller.lead i).released { m0 with cur := .lead 0 0 } = .ok { m0 with cur := .lead 0 0 })) = true := by
  decide +kernel

theorem witness_LeadRegisters :
    (∀ a ∈ [0x20, 0x27, 0x28, 0x29, 0x10, 0x11, 0x12], lead m0 0 0x1A { f96 with d := 3, a := BitVec.ofNat 11 a }
      (fun i => i.f.a.toNat == a) = true) ∧
    (∀ a ∈ [0x20, 0x27], lead m0 0 0x1B { kab with d := 0, a := BitVec.ofNat 11 a } (fun i => i.f.a.toNat == a) = true) ∧
    lead m0 0 0x1C { kab with d := 0, a := 7 } (fun i => decide (i.b.toNat ≤ (i.c.q.getD i.f.a.toNat 0).toNat)) = true ∧
    lead (machine [] [(5, 1)] both) 0 0x1C { kab with d := 0, a := 7 }
      (fun i => decide ((i.c.q.getD i.f.a.toNat 0).toNat < i.b.toNat)) = true ∧
    lead (m0.onCrewKey 0 fun c => { c with dq := List.replicate 15 { data := true, value := 1 } }) 0 0x19 { f96 with b := 5, mod := 1 }
      (fun i => decide (i.c.dq.length < 16)) = true ∧
    lead m0 0 0x19 { f96 with b := 5 } (fun i => decide (i.c.dq.length < 16 ∧
      (Caller.lead i).performed { m0 with cur := .lead 0 0 } = .ok { m0 with cur := .lead 0 0 })) = true ∧
    lead (m0.onCrewKey 0 fun c => { c with dq := List.replicate 16 { data := true, value := 1 } }) 0 0x19 { f96 with b := 5 }
      (fun i => decide (16 ≤ i.c.dq.length)) = true := by
  decide +kernel

/-- The machine with its warp or its crew changed. -/
def onW (g : Warp → Warp) : State := m0.onWarp 0 0 g
def onC (g : Crew → Crew) : State := m0.onCrewKey 0 g

theorem witness_LaneBranches :
    (∀ e ∈ [(0x00, kt), (0x02, { kt with d := 4 }), (0x03, { f96 with a := 6 }), (0x04, { f96 with a := 6 })],
      lane m0 1 e.1 e.2 (fun i => decide (splitTiles sameOut m0 i = none ∧
        splitTiles (fun _ i l => (i.a32 l).toNat) m0 i = none ∧ i.mo = 0)) = true) ∧
    (∀ mo ∈ [0, 1, 2, 3], lane m0 1 0x01 { kt with a := 6, mod := BitVec.ofNat 4 mo }
      (fun i => decide (i.mo = mo ∧ splitTiles (fun _ i l => (i.lbrcTarget l).toNat) m0 i = none)) = true) ∧
    lane m0 1 0x04 { f96 with d := 4, a := 6, mod := 1 }
      (fun i => decide (i.mo = 1 ∧ splitTiles (fun _ i l => (i.a32 l).toNat) m0 i = none)) = true := by
  decide +kernel

theorem witness_UniformDecisions :
    (∀ e ∈ [(0x05, kt, false), (0x06, { f96 with d := 4 }, true), (0x06, { f96 with d := 4, mod := 1 }, true),
        (0x05, kt, true), (0x06, { f96 with d := 4 }, false)],
      lane (onC fun c => { c with dq := [{ data := e.2.2, value := 1 }] }) 1 e.1 e.2.1 (fun i => decide (
        converged m0 i = none ∧
        (onC fun c => { c with dq := [{ data := e.2.2, value := 1 }] }).dqNext i.w = .entry { data := e.2.2, value := 1 } ∧
        i.mo = e.2.1.mod.toNat)) = true) ∧
    (∀ e ∈ [(0x05, kt), (0x06, { f96 with d := 4 })],
      lane m0 1 e.1 e.2 (fun i => decide (converged m0 i = none ∧ m0.dqNext i.w = .wait)) = true ∧
      lane (onC fun c => { c with lead := { c.lead with ended := true } }) 1 e.1 e.2 (fun i => decide (converged m0 i = none ∧
        (onC fun c => { c with lead := { c.lead with ended := true } }).dqNext i.w = .none)) = true) ∧
    lane { (onW fun w => w.onMask 0x80000000#32 fun _ x => { x with pc := 4 }) with cur := .lanes 0 0 1 } 1 0x05 kt
      (fun i => decide (i.act ≠ 0 ∧ converged m0 i = some 0x80000000#32)) = true := by
  decide +kernel

/-- Both live lanes belong to join mask 11; lane 0 waits there in the second machine. -/
def inJoin : State := onW fun w => { w with j := setNth w.j 11 0x80000001#32 }
def joinAct (s : State) (p : Iss → Bool) : Bool := lane s 1 0x09 { f96 with a := 11 } p

theorem witness_JoinMasks :
    (∀ op ∈ [0x07, 0x08], lane m0 1 op { f96 with a := 11 } (fun _ => true) = true) ∧
    lane m0 1 0x0A { f96 with d := 11, a := 15 } (fun _ => true) = true ∧
    joinAct m0 (fun i => decide (splitTiles (fun _ i l => if bitOf i.joinA l then 1 else 0) m0 i = none ∧
      i.act &&& i.joinA = 0 ∧ i.released m0 0 = .ok m0)) = true ∧
    joinAct inJoin (fun i => decide (splitTiles (fun _ i l => if bitOf i.joinA l then 1 else 0) inJoin i = none ∧
      i.act &&& i.joinA ≠ 0 ∧ i.released inJoin (i.act &&& i.joinA) = .ok inJoin)) = true ∧
    ((inJoin.onWarp 0 0 fun w => w.onMask 0x80000001#32 fun _ x => { x with wait := .join 11 }).warp? 0 0).any (fun w =>
      w.lanes.any (·.atJoin 11) && (lanesOf (w.j.getD 11 0)).all fun l => (w.lane l).atJoin 11) = true ∧
    (inJoin.warp? 0 0).any (fun w => !(lanesOf (w.j.getD 11 0)).all fun l => (w.lane l).atJoin 11) = true := by
  decide +kernel

/-- An instance of barrier 15 that lane 5 of another warp has opened. -/
def open15 : Barrier := { counted := true, count := 512, arrived := [(1, 32)], pc := 0, start := 0 }

theorem witness_Barriers :
    (∀ e ∈ [({ f96 with a := 15 } : Fields), { f96 with a := 15, mod := 1, imm := 512 }], lane m0 1 0x0C e (fun i => decide (
      splitTiles sameOut m0 i = none ∧ i.act ≠ 0 ∧ i.released m0 i.act = .ok m0 ∧
      barBad ((look m0.crews (i.w.crew.getD 0)).bind fun c => look c.bars i.f.a.toNat) (i.mo == 1) i.count 512 = false)) = true) ∧
    (let s := onC fun c => { c with bars := [(15, open15)] }
     ∀ e ∈ [({ f96 with a := 15 } : Fields), { f96 with a := 15, mod := 1, imm := 511 }], lane s 1 0x0C e (fun i => decide (
      splitTiles sameOut s i = none ∧ i.act ≠ 0 ∧
      barBad ((look s.crews (i.w.crew.getD 0)).bind fun c => look c.bars i.f.a.toNat) (i.mo == 1) i.count 512 = true)) = true) ∧
    (∀ e ∈ [({ f96 with a := 3 } : Fields), { f96 with a := 3, mod := 1, imm := 8192 }], lane m0 1 0x0D e (fun i => decide (
      splitTiles sameOut m0 i = none ∧ i.act ≠ 0 ∧ i.released m0 i.act = .ok m0 ∧
      ((look m0.crews (i.w.crew.getD 0)).elim 0 (·.gang)) = 0 ∧
      barBad ((look m0.gangs 0).bind fun x => look x.gbars i.f.a.toNat) (i.mo == 1) i.count 8192 = false)) = true) ∧
    barBad none true 513 512 = true ∧ barBad none true 512 512 = false ∧ barBad none true 0 512 = true := by
  decide +kernel

/-- Lane 0 exits and lane 31 stays. -/
def one : State := { m0 with cur := .lanes 0 0 1 }

theorem witness_ExitTilesAndPcs :
    lane one 1 0x0E f96 (fun i => decide (splitTiles sameOut one i = none ∧ i.act ≠ 0 ∧ i.joining = 0 ∧ i.w.live &&& ~~~i.act ≠ 0 ∧
      i.exiting = 0)) = true ∧
    lane m0 1 0x0E f96 (fun i => decide (splitTiles sameOut m0 i = none ∧ i.act ≠ 0 ∧ i.act = i.w.live ∧ i.joining = 0 ∧
      i.w.prods = [] ∧ (Caller.warp { i with act := i.exiting } i.exiting).released m0 = .ok m0 ∧ m0.warp? i.core i.slot = some i.w)) = true ∧
    (∀ mo ∈ [1, 5], lane m0 1 0x0F { f96 with mod := BitVec.ofNat 4 mo } (fun i => decide (converged m0 i = none ∧ i.w.chain.bound = none)) = true) ∧
    (let s := onW fun w => { w with chain := { bound := some 32, c := 0, o := 0 } }
     lane s 1 0x0F { f96 with mod := 2 } (fun i => decide (converged s i = none ∧ i.w.chain.bound ≠ none)) = true) ∧
    lane m0 1 0x13 fa (fun _ => true) = true := by
  decide +kernel

/-- The context has a trap handler at offset 4; lanes 0 and 31 are in it in the second machine. -/
def trapping : State := m0.onCtx 0 fun x => { x with trapOff := 4, trapBounds := some (0, 64) }
def handling : State := onW fun w => { w with handler := 0x80000001#32 }

theorem witness_FaultsTaken :
    (trapping.warp? 0 0).any (fun w => decide (trapping.ctx? w.ctx = some ({ Ctx.bare 0 0 0 handles with trapOff := 4, trapBounds := some (0, 64) }) ∧
      w.handler = 0 ∧ hasHandler Cls.bounds = true ∧ w.chain.bound = none)) = true ∧
    (handling.warp? 0 0).any (fun w => decide (w.handler ≠ 0 ∧ (handling.ctx? w.ctx).isSome)) = true ∧
    hasHandler Cls.page = false ∧ (m0.crew? 0 0).isSome = true ∧ m0.runs 0 = true ∧ m0.runs 1 = false := by
  decide +kernel

theorem witness_TrapInstructions :
    lane m0 1 0x11 { f96 with imm := 0x7FFFF } (fun i => decide (splitTiles sameOut m0 i = none ∧ i.act ≠ 0)) = true ∧
    lane m0 12 0x02 { f96 with imm := 0x7FFFF } (fun i => decide (i.act ≠ 0)) = true ∧
    lead m0 12 0x02 { f96 with imm := 0x7FFFF } (fun _ => true) = true ∧
    lane m0 12 0x00 f96 (fun _ => true) = true ∧ lead m0 12 0x00 f96 (fun _ => true) = true ∧
    (∀ e ∈ [(0, f96), (1, { f96 with mod := 1 }), (2, { f96 with a := 6, mod := 2 })],
      lane handling 1 0x12 e.2 (fun i => decide (i.mo = e.1 ∧ i.w.handler ≠ 0 ∧ i.rteSplit = false)) = true) ∧
    (let s : State := (onW fun w => { (w.onMask 0x80000000#32 fun _ x => x.setV 6 8) with handler := 0x80000001#32, chain := { bound := some 32, c := 0, o := 0 }, partLog := 5 })
     lane s 1 0x12 { f96 with a := 6, mod := 2 } (fun i => decide (i.w.handler ≠ 0 ∧ i.rteSplit = true)) = true) ∧
    lane m0 1 0x12 f96 (fun i => decide (i.w.handler = 0 ∧ i.act ≠ 0)) = true ∧
    (handling.warp? 0 0).any (fun w => decide (w.handler ≠ 0 ∧ w.handler &&& w.live &&& ~~~0x80000001#32 = 0 ∧ w.lanes.length = 32 ∧
      bitOf (0x80000001#32 &&& w.handler &&& w.live) 31 = true ∧ bitOf (w.handler &&& w.live &&& ~~~1#32) 31 = true ∧
      (w.lane 31).wait = .none)) = true := by
  decide +kernel

theorem witness_SystemReads :
    (∀ a ∈ [0x10, 0x11, 0x12, 0x18, 0x19, 0x1A, 0x1B, 0x1C], lane m0 12 0x01 { f96 with d := 4, a := BitVec.ofNat 11 a }
      (fun i => i.f.a.toNat == a) = true) ∧
    (∀ a ∈ [0x10, 0x11, 0x12], lead m0 12 0x01 { f96 with d := 4, a := BitVec.ofNat 11 a } (fun i => i.f.a.toNat == a) = true) ∧
    (∀ a ∈ [0, 23], lane m0 12 0x04 { f96 with d := 4, a := BitVec.ofNat 11 a } (fun i => !m0.countsDue i) = true ∧
      lead m0 12 0x04 { f96 with d := 4, a := BitVec.ofNat 11 a } (fun _ => true) = true) ∧
    (∀ a ∈ [0x00, 0x01, 0x09, 0x0A, 0x0B, 0x0E], lane m0 11 0x03 { f96 with d := 4, a := BitVec.ofNat 11 a } (fun i => i.f.a.toNat == a) = true) ∧
    lead m0 11 0x03 { f96 with d := 4, a := 4 } (fun i => i.f.a.toNat == 4) = true := by
  decide +kernel

/-! ### Steps and faults of the encoding -/

/-- A NOP stands where the next step of a sequencer, or of a lead engine, fetches it. -/
def laneNop : State := State.reset.withCode (tableBytes 0x60) .lane
def leadNop : State := State.reset.withCode (tableBytes 0x60) .lead
/-- The state in which the turn of a machine is taken. -/
def turnOf (s : State) : State := { s.tick with inbox := [], second := none }

theorem witness_StepRunsDecoded :
    (let u := turnOf laneNop
     laneNop.pkg.tripped = false ∧ laneNop.second = none ∧ laneNop.inbox = [.warp 0] ∧ u.badgerNext 0 = none ∧ u.warpOrder 0 = [0] ∧
     (laneNop.warp? 0 0).any (fun w => decide (w.groups = [0xFFFFFFFF#32])) = true ∧
     ((u.ageGroups 0 0).warp? 0 0).any (fun x =>
       let u : State := { u.ageGroups 0 0 with second := none }
       decide (u.fetch (u.laneWho 0 0 x 0) (u.codeOf x).1 (u.codeOf x).2.1 (u.codeOf x).2.2 (x.lane 0).pc.toNat = .ok [0x60]) &&
       match exec (.nop { f96 with form := .w32 }) { u with cur := .lanes 0 0 0xFFFFFFFF#32 } with
       | .next t => !(t.warp? 0 0).any fun x => x.held 0xFFFFFFFF#32
       | _ => false) = true) ∧
    decodeWords .lane false [0x60] = .ok (.nop { f96 with form := .w32 }) ∧
    (let u := turnOf leadNop
     leadNop.inbox = [.lead 0] ∧ ((List.range 4).map fun n => (((look leadNop.rot 0).getD (15, 3)).2 + 1 + n) % 4).find? (u.leadMay 0) = some 0 ∧
     (u.crew? 0 0).any (fun c => decide (u.fetch (u.leadWho 0 0 c) c.code c.codeLo c.codeHi c.lead.pc.toNat = .ok [0x60]) &&
       match exec (.nop { f96 with form := .w32 }) { u with cur := .lead 0 0 } with
       | .next t => !(t.crew? 0 0).any fun x => x.lead.wait == Wait.retry
       | _ => false) = true) ∧
    decodeWords .lead false [0x60] = .ok (.nop { f96 with form := .w32 }) ∧
    (let u := turnOf { laneNop with second := some (0, 0, [0xFFFFFFFF#32]) }
     u.runs 0 = true ∧ (u.warp? 0 0).any (fun w => (lanesOf 0xFFFFFFFF#32).all w.may &&
       decide (u.fetch (u.laneWho 0 0 w 0) (u.codeOf w).1 (u.codeOf w).2.1 (u.codeOf w).2.2 (w.lane 0).pc.toNat = .ok [0x60]) &&
       match exec (.nop { f96 with form := .w32 }) { u with cur := .lanes 0 0 0xFFFFFFFF#32 } with
       | .next t => !(t.warp? 0 0).any fun x => x.held 0xFFFFFFFF#32
       | _ => false) = true) := by
  decide +kernel

/-- The state after a step. -/
def after (s : State) : Option State :=
  match step s with
  | .next t => some t
  | _ => none

/-- A step runs the placed NOP: the lanes, or the lead thread, go past it (R163, R142). -/
theorem test_step_nop : ((after laneNop).bind fun t => (t.warp? 0 0).map fun w => ((w.lane 31).pc, w.instr)) = some (4, 1) ∧
    ((after leadNop).bind fun t => (t.crew? 0 0).map fun c => (c.lead.pc, c.lead.instr)) = some (4, 1) := by
  decide +kernel

/-- The placed table word is the instruction that the step runs: IADD v3, v1, v2 (the worked encoding of R59). -/
theorem test_fetch_word : decodeTableWord 32 0x0810C010 =
      some (.iadd { f96 with form := .w32, d := 3, a := 1, b := 2 }) ∧
    ((after (State.reset.withFetchWord 32 0x0810C010)).bind fun t => (t.warp? 0 0).map fun w => look (w.lane 7).v 3) = some (some 0) := by
  decide +kernel

/-- A request of lane 31 for 4 bytes at address 64. -/
def req (op : Nat) : AtomReq :=
  { ctx := 0, task := 1, core := 0, slot := 0, lane := 31, prod := some 5, op, mod := 0, fn := 0, place := .mem (.dev 64), operand := [1, 0],
    dest := 4, pc := 0, off := 64, name := 2, owned := false, accepted := true, order := 3, badger := none, aside := false, beat := 1,
    batch := 5, ev := [], rel := none, waiting := false, retry := false, reply := none }

theorem witness_StepsGoOn :
    ({ m0 with inbox := [.event (.flitCrcError 0)] } : State).second = none ∧ isaOf (.flitCrcError 0) = none ∧ m0.pkg.tripped = false ∧
    (let s : State := { m0 with pkg := { m0.pkg with tripped := true } }
     s.inbox = [] ∧ ({ s with inbox := [.event .coldReset] } : State).pkg.tripped = true) ∧
    (∀ b ∈ [none, some 0], let s : State := { m0 with atoms := [(7, { req 0 with badger := b })], inbox := [.event (.atomicRequestPerform 7)] }
     s.second = none ∧ ∀ bs ∈ [[], [0]], ({ s with badgers := bs, inbox := [] } : State).badgerYields 0 = !bs.isEmpty) := by
  decide +kernel

/-- A word of engine 13, as the code of both threads. -/
def badWord : State := State.reset.withCode (bytesOfWord 0x68) .lane

theorem witness_EncodingFaults :
    (m0.laneIss 2 0 { fab with mod := 15 }).any (fun i => !((i.f.formOk && (illegal? .lane i.w.crew.isNone 2 0 i.f).isNone))) = true ∧
    (m0.laneIss 2 0 { fab with d := 2047, mod := 6 }).any (fun i => i.f.formOk && (illegal? .lane i.w.crew.isNone 2 0 i.f).isNone &&
      (regBad .lane 2 0 i.f i.w.regs).isSome) = true ∧
    (let s : State := { m0 with cur := .lead 0 0 }
     (s.leadIss 0 0 { kab with mod := 15 }).any (fun i => !((i.f.formOk && (illegal? .lead false 0 0 i.f).isNone))) = true ∧
     (s.leadIss 0 0 { kab with d := 64 }).any (fun i => i.f.formOk && (illegal? .lead false 0 0 i.f).isNone &&
       (regBad .lead 0 0 i.f 0).isSome) = true) ∧
    (∀ t ∈ [false, true], (let s : State := ({ m0 with cur := .lead 0 0 } : State).onLead 0 0 fun x => { x with empty := [4] }
     (s.leadIss 0 0 { kab with t := t }).any (fun i => i.f.formOk && (illegal? .lead false 0 0 i.f).isNone &&
       (regBad .lead 0 0 i.f 0).isNone && !(i.f.live.isSome && s.stopping (.gang i.c.gang)) &&
       match ready .lead 0 0 i.f i.c.lead.empty i.c.lead.hold with
       | .empty _ => t
       | .wait => !t
       | .go => false) = true)) ∧
    (badWord.warp? 0 0).any (fun w => decide (badWord.fetch (badWord.laneWho 0 0 w 0) (badWord.codeOf w).1 (badWord.codeOf w).2.1
      (badWord.codeOf w).2.2 (w.lane 0).pc.toNat = .ok [0x68])) = true ∧
    decodeWords .lane false [0x68] = .error (.illegal .engine) ∧ decodeWords .lead false [0x68] = .error (.illegal .engine) ∧
    (badWord.crew? 0 0).any (fun c => decide (badWord.fetch (badWord.leadWho 0 0 c) c.code c.codeLo c.codeHi c.lead.pc.toNat = .ok [0x68])) = true := by
  decide +kernel

/-! ### Memory -/

theorem witness_MemoryOfBytes : m0.memOk ∧ (Memory.wf [(5, 1), (6, 2)] = true) := by
  unfold State.memOk; decide +kernel

theorem witness_MemoryStaysCanonical : laneNop.memOk ∧ (after laneNop).isSome = true := by
  unfold State.memOk; decide +kernel

/-! ### The access unit -/

/-- The entries and offsets of one check of Table 9.7 each, in order, and of an access that passes. -/
def checked (s : State) (h : Nat) (o : Int) (q : Ask) : AccOut :=
  match s.warp? 0 0 with
  | some w => s.access (s.laneWho 0 0 w 0) h o q
  | none => .page 0 0
def onH (h : Nat) (e : BitVec 256) : State := m0.onCtx 0 fun x => { x with handles := put x.handles h e }

theorem witness_HandleChecks :
    checked m0 4096 0 (readAsk 4) = .fail 1 Cls.bounds false ∧ checked m0 4095 0 (readAsk 4) = .fail 2 Cls.perm false ∧
    checked (onH 6 (region 0 3 7 0 4096 ||| BitVec.ofNat 256 (2 ^ 249))) 6 0 (readAsk 4) = .fail 3 Cls.world false ∧
    checked (onH 6 (region 0 3 3 0 4096)) 6 0 (readAsk 4) = .fail 4 Cls.perm false ∧
    checked m0 2 2 (readAsk 4) = .fail 5 Cls.misalign false ∧ checked m0 2 4096 (readAsk 4) = .fail 6 Cls.bounds false ∧
    checked m0 2 (-4) (readAsk 4) = .fail 6 Cls.bounds false ∧ checked m0 2 4092 (readAsk 4) = .ok (.dev 4092) false ∧
    checked { m0 with owners := [(8, Owner.make true false false 1 0 0 0 0)] } 3 0 (writeAsk 4) = .fail 7 Cls.owner false ∧
    checked { m0 with tlb := m0.tlb.map fun e => { e with secure := true } } 2 0 (readAsk 4) = .fail 8 Cls.world false ∧
    checked { m0 with syndrome := [(1, 5)] } 2 64 (readAsk 4) = .fail 10 Cls.dataCheck false ∧
    checked { m0 with lost := [1] } 2 64 (readAsk 4) = .fail 11 Cls.coherenceLost false := by
  decide +kernel

/-- Registers of both lanes: handle in v6, offset in v8 (64 more in lane 31), and what c names in v12 to v15. -/
def access (h o c : Nat) : State := machine [(6, w32 h), (8, w32 o), (12, w32 c), (13, 0), (14, 0), (15, 0)] [(4, w64 h), (5, w64 o)] both
def fl : Fields := { f96 with d := 4, a := 6, b := 8 }
def fs : Fields := { f96 with a := 6, b := 8, c := 12 }
/-- The active lanes reach these device addresses. -/
def reaches (s : State) (c : Caller) (ref : Nat → Ref) (pa : Nat → Nat) : Bool :=
  c.lanes.all fun l => gives (s.access (c.who s l) (ref l).h (ref l).o (ref l).q) (pa l)
/-- No lane must wait for a lease or an atomic. -/
def clear (c : Caller) (s : State) (pa : Nat → Nat) (n : Nat) : Bool := !c.blocked s (fun l => .dev (pa l)) n
/-- Lane 0 at an address and lane 31 another 64 bytes on. -/
def twoAt (a l : Nat) : Nat := if l = 31 then a + 64 else a
/-- A 16 × 64 scratchpad tile of bytes with number 0, and an accumulator tile with number 1. -/
def tiles (s : State) : State :=
  s.onCrewKey 0 fun c => { c with tiles := [(0, { level := 0, fmt := 4, rows := 16, cols := 256, bytes := [], bad := [], single := [] }),
    (1, { level := 1, fmt := 5, rows := 16, cols := 128, bytes := [], bad := [], single := [] })] }
def tileReach (s : State) (i : Iss) (ask : Nat → TileAsk) (at_ : Nat → Nat × Nat × Nat) : Bool :=
  (lanesOf i.act).all fun l => (match s.tileRef i.w.crew (ask l).tw with | .at k n _ => (k, n) == ((at_ l).1, (at_ l).2.1) | _ => false) &&
    gives (s.tileAccess i.w.crew (ask l).tw (ask l).row (ask l).col (ask l).w (ask l).plane (ask l).ecc) (at_ l).2.2
def tileAt (l : Nat) : Nat × Nat × Nat := (0, 0, twoAt 0 l)

theorem witness_Loads :
    (∀ fn ∈ [0, 4], lane (access 2 0 0) 5 0x00 { fl with fn := BitVec.ofNat 8 fn } (fun i => decide (i.act ≠ 0) &&
      reaches (access 2 0 0) (Caller.warp i i.act)
        (fun l => { h := (Caller.warp i i.act).handle l, o := i.offset l, q := readAsk (accessWidth i.mo) }) (twoAt 0) &&
      decide ((Caller.warp i i.act).acquired (access 2 0 0) = .ok (access 2 0 0)) &&
      clear (Caller.warp i i.act) (access 2 0 0) (twoAt 0) (accessWidth i.mo)) = true) ∧
    lead (access 2 4088 0) 0 0x12 { f96 with d := 3, a := 4, b := 5, mod := 6 } (fun i =>
      let s : State := { access 2 4088 0 with cur := .lead 0 0 }
      reaches s (Caller.lead i) (fun l => { h := (Caller.lead i).handle l, o := i.offset, q := readAsk (accessWidth i.mo) }) (fun _ => 4088) &&
      clear (Caller.lead i) s (fun _ => 4088) (accessWidth i.mo)) = true ∧
    lane (tiles (access 0 0 0)) 5 0x02 fl (fun i => decide (i.act ≠ 0) &&
      tileReach (tiles (access 0 0 0)) i (i.tileAsk (accessWidth i.mo) (decide (bits i.fn 6 6 = 1)) true false) tileAt &&
      (lanesOf i.act).all fun l => !(tiles (access 0 0 0)).atomOnTile (.lane i.core i.slot l) 0 0 (twoAt 0 l) (accessWidth i.mo)) = true ∧
    lane (tiles (access 0 0 0)) 5 0x06 fa (fun i => (lanesOf i.act).all fun l =>
      match (tiles (access 0 0 0)).tileRef i.w.crew (i.w.getV l i.f.a.toNat) with | .at _ _ _ => true | _ => false) = true ∧
    lane (access 4095 0 0) 5 0x07 { fa with mod := 3 } (fun i => (lanesOf i.act).all fun l =>
      decide ((i.w.getV l i.f.a.toNat).toNat < 4096)) = true := by
  decide +kernel

theorem witness_Stores :
    (∀ fn ∈ [0, 4], lane (access 2 0 0) 5 0x01 { fs with fn := BitVec.ofNat 8 fn } (fun i => decide (i.act ≠ 0) &&
      reaches (access 2 0 0) (Caller.warp i i.act)
        (fun l => { h := (Caller.warp i i.act).handle l, o := i.offset l, q := writeAsk (accessWidth i.mo) }) (twoAt 0) &&
      decide ((if ordered i.fn then (Caller.warp i i.act).released (access 2 0 0)
        else (Caller.warp i i.act).storeGate (Caller.warp i i.act).handle (access 2 0 0)) = .ok (access 2 0 0)) &&
      clear (Caller.warp i i.act) (access 2 0 0) (twoAt 0) (accessWidth i.mo)) = true) ∧
    (let s : State := { access 2 4088 0 with cur := .lead 0 0 }
     lead s 0 0x13 { f96 with a := 4, b := 5, c := 6, mod := 6 } (fun i =>
      reaches s (Caller.lead i) (fun l => { h := (Caller.lead i).handle l, o := i.offset, q := writeAsk (accessWidth i.mo) }) (fun _ => 4088) &&
      decide ((Caller.lead i).storeGate (Caller.lead i).handle s = .ok s) && !ordered i.fn &&
      clear (Caller.lead i) s (fun _ => 4088) (accessWidth i.mo)) = true) ∧
    (let s := tiles (access 0 0 0)
     lane s 5 0x03 fs (fun i => decide (i.act ≠ 0) &&
      tileReach s i (i.tileAsk (accessWidth i.mo) (decide (bits i.fn 6 6 = 1)) (decide (accessWidth i.mo < 4)) true) tileAt &&
      !ordered i.fn && (Caller.warp i i.act).unfenced s &&
      (lanesOf i.act).all fun l => !s.atomOnTile (.lane i.core i.slot l) 0 0 (twoAt 0 l) (accessWidth i.mo)) = true) := by
  decide +kernel

/-- A lease of the warp on line 0. -/
def held0 : Lease :=
  { id := 9, line := 0, loc := .dev 0, va := 0, core := 0, slot := 0, hold := 512, granted := true, ended := none, start := 0 }
def leasing : State := { onW fun w => { w with leases := [held0] } with leaseQ := [held0] }

theorem witness_StoresByKind :
    (∀ e ∈ [(2, 3), (3, 1), (4, 2)], lane m0 5 0x01 fs (fun i =>
      decide (Entry.kind (m0.entry ((Caller.warp i i.act).who m0 31) e.1) = e.2) && (m0.leaseOf i.core i.slot 0).isNone) = true) ∧ m0.memOk ∧
    lane leasing 5 0x01 fs (fun i => (leasing.leaseOf i.core i.slot 0).isSome) = true ∧
    (m0.warp? 0 0).all (fun w : Warp => w.leases == []) = true := by
  unfold State.memOk; decide +kernel

/-- An unpublished write of lane 31 to the GUARDED region. -/
def unpub : WEntry :=
  { id := 3, core := 0, agent := .lane 0 0 31, ctx := 0, handle := 4, off := 0, va := 8192, sync := (1, 0, 64), loc := .dev 8192,
    bytes := [1], die := false, gang := false, passed := false, held := none, heldBy := (.lane 0 0 31, 0) }

theorem witness_TilesAndWaits :
    (∀ mo ∈ [0, 2], ∀ rows ∈ [16, 0], lane (access 0 (rows * 65536 + 64) 0) 5 0x04 { f96 with d := 4, b := 8, mod := BitVec.ofNat 4 mo, fn := 4 }
      (fun i => decide (i.act ≠ 0 ∧ i.w.crew = some 0) && (look (access 0 (rows * 65536 + 64) 0).crews 0).any fun c =>
        match c.allocAll i.mo (i.fn % 32) (fun l => (i.b32 l).toNat) (lanesOf i.act) with
        | .ok _ => rows == 16
        | .error _ => rows == 0) = true) ∧
    ((look m0.crews 0).any fun c => match c.alloc 1 5 4096 8 with | .ok (n, _) => n == 0 | .error _ => false) = true ∧
    (let s := tiles (access 0 0 0)
     lane { s with cur := .lanes 0 0 1 } 5 0x05 { f96 with a := 6 } (fun i => decide (i.act ≠ 0 ∧ i.w.crew = some 0) && (look s.crews 0).any fun c =>
      (lanesOf i.act).all fun l => (match s.tileRef (some 0) (i.w.getV l i.f.a.toNat) with | .at k n _ => (k, n) == (0, 0) | _ => false) &&
        bits (i.w.getV l i.f.a.toNat).toNat 12 12 == 0 && !c.names (0, 0) && !s.atomsOn 0 0) = true ∧
     lane s 5 0x08 fs (fun i => decide (i.act ≠ 0) && tileReach s i (i.tileAsk 4 false true false) tileAt &&
      (lanesOf i.act).all fun l => !s.atomOnTile (.lane i.core i.slot l) 0 0 (twoAt 0 l) 4) = true) ∧
    lane (access 2 0 0) 5 0x09 { f96 with a := 6, b := 8 } (fun _ => true) = true ∧
    (∀ mo ∈ [0, 1], lane m0 5 0x0A { f96 with mod := BitVec.ofNat 4 mo } (fun i => decide (i.act ≠ 0 ∧
      (Caller.warp i i.act).completion m0 = .ok m0 ∧
      (if i.mo = 0 then (Caller.warp i i.act).acquired m0 else (Caller.warp i i.act).performed m0) = .ok m0 ∧
      (Caller.warp i i.act).unpublished m0 (fun _ => true) = [])) = true) ∧
    (let s : State := { m0 with wbuf := [unpub] }
     lane s 5 0x0A { f96 with mod := 1 } (fun i => decide (i.act ≠ 0 ∧ i.mo ≠ 0 ∧ (Caller.warp i i.act).completion s = .ok s ∧
      (Caller.warp i i.act).performed s = .ok s ∧ (Caller.warp i i.act).unpublished s (fun _ => true) = [3])) = true) := by
  decide +kernel

/-! ### Atomics -/

def fat (op : Nat) : Fields :=
  if op = 0x0C ∨ op = 0x0B then fs else { fl with c := 12, mod := if op = 0x08 ∨ op = 0x09 then 1 else 0 }
/-- A machine whose lanes hold a positive count, for the objects. -/
def atoms : State := access 2 0 1

theorem witness_AtomicRequests :
    (∀ op ∈ List.range 15, lane atoms 6 op (fat op) (fun i => decide (i.act ≠ 0 ∧ bits i.fn 6 6 = 0 ∧ i.badCount = 0) &&
      reaches atoms (Caller.warp i i.act) i.atomRef (twoAt 0) &&
      decide ((Caller.warp i i.act).atomGate i atoms = .ok atoms ∧ i.atomBound atoms (Caller.warp i i.act) = [] ∧
        atoms.cutOff i.core = false ∧ atoms.warp? i.core i.slot = some i.w ∧
        ∀ l ∈ lanesOf i.act, atoms.leaseOf i.core i.slot (twoAt 0 l / 64) = none)) = true) ∧
    (let s : State := { (access 5 0 1) with wbuf := [{ unpub with sync := (2, 0, 12288), va := 8256, off := 64 }] }
     lane s 6 0x0D (fat 0x0D) (fun i => decide (i.act ≠ 0 ∧ bits i.fn 6 6 = 0 ∧ i.badCount = 0 ∧
        (Caller.warp i i.act).atomGate i s = .ok s ∧ i.atomBound s (Caller.warp i i.act) ≠ [])) = true) ∧
    (let s := tiles (access 0 0 1)
     ∀ op ∈ List.range 15, lane s 6 op { fat op with fn := 0x40 } (fun i => decide (i.act ≠ 0 ∧ bits i.fn 6 6 = 1 ∧ i.badCount = 0) &&
      tileReach s i (i.tileAsk (atomWidth i.atomOp i.mo) false true true) tileAt &&
      decide ((Caller.warp i i.act).atomGate i s = .ok s ∧ s.warp? i.core i.slot = some i.w)) = true) := by
  decide +kernel

/-- The machine with one request. -/
def asked (a : AtomReq) : State := { m0 with atoms := [(7, a)], mem := [(64, 1), (68, 2), (72, 2), (76, 1)] }

theorem witness_AtomicValues :
    m0.memOk ∧ (asked (req 0x0D)).memOk ∧
    (∀ e ∈ [(2, 2), (3, 1), (1, 2)], (asked (req 0x0D)).mem.readN 64 16 = barrierBytes 1 2 2 1 ∧ e.1 < 2 ^ 32) ∧
    (∀ n ∈ [1, 2, 3], ({ req 0x0D with operand := [w64 n] }.operand.headD 0).toNat = n) ∧
    (barrierOf ((asked (req 0x0D)).mem.readN 4096 16)).2.2.2 = 0 := by
  unfold State.memOk; decide +kernel

theorem witness_AtomicsPerformed :
    (∀ op ∈ [0x00, 0x09, 0x0C, 0x0D, 0x0E], ∀ b ∈ [none, some 3], let a := { req op with badger := b }
      let s := asked a
      look s.atoms 7 = some a ∧ a.ready = true ∧ s.atomBehind 7 a = false ∧ s.underLease a = false ∧ 1 ∉ s.lost ∧
      (b = none ∨ s.drrTurn 3 = some (s.vdOf a.ctx, s.creditsOf (s.vdOf a.ctx))) ∧
      (let u : State := if b = none then s else { s with drr := put s.drr 3 (s.vdOf a.ctx, s.creditsOf (s.vdOf a.ctx) - 1) }
       u.ownFirst a = u ∧ u.poisoned a = false) ∧ s.mem.wf = true) ∧
    (let x : Lease := { held0 with line := 1, loc := .dev 64 }
     let s : State := { (onW fun w => { w with leases := [x] }) with leaseQ := [x], atoms := [(7, req 0)] }
     look s.atoms 7 = some (req 0) ∧ (req 0).ready = true ∧ s.atomBehind 7 (req 0) = false ∧ s.underLease (req 0) = true) ∧
    (atomValue 0 0 0 (natOf ((asked (req 0)).mem.readN 64 4)) 1 0).1 = some 2 ∧
    (∀ a ∈ [{ req 0 with reply := some [1] }, { req 0x0E with retry := true }, { req 0 with accepted := false }], look (asked a).atoms 7 = some a) ∧
    (let a := { req 0 with accepted := false }
     (asked a).mayLeave 7 a = true ∧ (asked a).badgerOf a = some (badgerSlot 64) ∧ (asked a).creditFree ((asked a).vdOf 0) (badgerSlot 64) = true ∧ (asked a).queuedAhead 7 a = false) := by
  decide +kernel

/-! ### The home engine -/

def fh : Fields := { f96 with a := 6, b := 8, c := 12 }
/-- The range of a caller passes the checks of PUBLISH and DISCARD. -/
def ranged (c : Caller) (s : State) (l : Nat) : Bool :=
  match (c.rangeOut s l (c.homeOff l) 1 publishOk).unparked with | .ok (.dev _) _ => true | _ => false
/-- The first address of the range, and the kind and space of its handle. -/
def rangeLo (c : Caller) (s : State) (l : Nat) : Nat := Entry.base (s.entry (c.who s l) (c.handle l)) + (c.homeOff l).toNat
def rangeKind (c : Caller) (s : State) (l : Nat) : Nat × Nat :=
  (Entry.kind (s.entry (c.who s l) (c.handle l)), Entry.space (s.entry (c.who s l) (c.handle l)))
/-- A caller at a guard word may make its request. -/
def mayAcquire (c : Caller) (s : State) (a : Agent) : Bool :=
  reaches s c c.guardRef (fun _ => 4088) && decide (c.acquired s = .ok s ∧ c.leasedOut s 4088 = false ∧ s.cutOff c.core = false ∧ s.fenced a = false)

theorem witness_HomeInstructions_guards :
    (∀ op ∈ [0x02, 0x03], (let s := access 2 4088 0
       lane s 7 op fl (fun i => decide (i.act ≠ 0) && mayAcquire i.elect s (.lane i.core i.slot (lowest i.act)) &&
        ((s.performWhere fun p => p.agent == .lane i.core i.slot (lowest i.act) && p.pa / 64 == 63).warp? i.core i.slot).isSome) = true) ∧
      (let s : State := { access 2 4088 0 with cur := .lead 0 0 }
       lead s 7 op { f96 with d := 3, a := 4, b := 5 } (fun i => mayAcquire (Caller.lead i) s (.lead i.core i.slot) &&
        ((s.performWhere fun p => p.agent == .lead i.core i.slot && p.pa / 64 == 63).crew? i.core i.slot).isSome) = true)) ∧
    (let s := access 2 4088 0
     lane s 7 0x04 { f96 with a := 6, b := 8 } (fun i => decide (i.act ≠ 0) && reaches s i.elect i.elect.guardRef (fun _ => 4088) &&
      decide (i.elect.atPeer s (i.elect.handle (lowest i.act)) = false ∧ i.elect.outstanding s = [] ∧ i.elect.performed s = .ok s ∧
        s.warp? i.core i.slot = some i.w)) = true) ∧
    (let s : State := { access 2 4088 0 with cur := .lead 0 0 }
     lead s 7 0x04 { f96 with a := 4, b := 5 } (fun i => reaches s (Caller.lead i) (Caller.lead i).guardRef (fun _ => 4088) &&
      decide ((Caller.lead i).atPeer s ((Caller.lead i).handle 0) = false ∧ (Caller.lead i).outstanding s = [] ∧
        (Caller.lead i).performed s = .ok s ∧ s.crew? i.core i.slot = some i.c)) = true) := by
  decide +kernel

theorem witness_HomeInstructions_ranges :
    (∀ e ∈ [(2, (3, 0)), (4, (2, 0))], ∀ op ∈ [0x07, 0x08], (let s := access e.1 0 4096
       lane s 7 op fh (fun i => decide (i.act ≠ 0) && ranged i.elect s (lowest i.act) && rangeKind i.elect s (lowest i.act) == e.2 &&
        decide (s.unpublishedIn i.core i.w.ctx (rangeLo i.elect s (lowest i.act)) (rangeLo i.elect s (lowest i.act) + 4096) = [])) = true) ∧
      (let s : State := { machine [] [(4, w64 e.1), (5, 0), (6, 4096)] both with cur := .lead 0 0 }
       lead s 7 op { f96 with a := 4, b := 5, c := 6 } (fun i => ranged (Caller.lead i) s 0 && rangeKind (Caller.lead i) s 0 == e.2 &&
        decide (s.unpublishedIn i.core i.c.ctx (rangeLo (Caller.lead i) s 0) (rangeLo (Caller.lead i) s 0 + 4096) = [])) = true)) ∧
    (∀ sc ∈ [2, 4], ∀ op ∈ [0x07, 0x08], (let s : State := { access 4 0 4096 with wbuf := [unpub] }
       lane s 7 op { fh with fn := BitVec.ofNat 8 (if op = 7 then 8 * sc + 4 else 0) } (fun i => decide (i.act ≠ 0) && ranged i.elect s (lowest i.act) &&
        rangeKind i.elect s (lowest i.act) == (2, 0) && (op == 8 || i.elect.scope 4 == sc) && rangeLo i.elect s (lowest i.act) == 8192 &&
        decide (s.unpublishedIn i.core i.w.ctx 8192 12288 = [unpub] ∧
          s.translate (i.elect.who s (lowest i.act)) unpub.va 2 = .ok (.dev 8192) (i.elect.who s (lowest i.act)).secure)) = true) ∧
      (let e : WEntry := { unpub with agent := .lead 0 0 }
       let s : State := { machine [] [(4, 4), (5, 0), (6, 4096)] both with cur := .lead 0 0, wbuf := [e] }
       lead s 7 op { f96 with a := 4, b := 5, c := 6, fn := BitVec.ofNat 8 (if op = 7 then 8 * sc + 4 else 0) } (fun i => ranged (Caller.lead i) s 0 &&
        rangeKind (Caller.lead i) s 0 == (2, 0) && (op == 8 || (Caller.lead i).scope 4 == sc) && rangeLo (Caller.lead i) s 0 == 8192 &&
        decide (s.unpublishedIn i.core i.c.ctx 8192 12288 = [e] ∧
          s.translate ((Caller.lead i).who s 0) e.va 2 = .ok (.dev 8192) ((Caller.lead i).who s 0).secure)) = true)) ∧
    lane (access 3 0 0) 7 0x01 fl (fun i => decide (i.act ≠ 0) && reaches (access 3 0 0) (Caller.warp i i.act)
      (fun l => { h := (Caller.warp i i.act).handle l, o := (Caller.warp i i.act).homeOff l,
                  q := { w := 1, align := 1, acc := 1, ok4 := ownqOk, own := false } }) (twoAt 4096)) = true := by
  decide +kernel

/-- The two live lanes name the grains 8 and 9, and both are claimed. -/
def grains2 (len : Nat) : State :=
  let e := Owner.make true false false 0 0 0 0 0
  { ((access 3 0 len).onWarp 0 0 fun w => w.onMask 0x80000000#32 fun _ x => x.setV 8 512) with owners := [(8, e), (9, e)] }

theorem witness_HomeInstructions_lane :
    (∀ imm ∈ [0x7FFFF, 0], let s := grains2 512
      lane s 7 0x00 { fh with imm := BitVec.ofNat 19 imm } (fun i =>
        let c := Caller.warp i i.act
        decide (i.act ≠ 0 ∧ (i.f.simm < 0 ↔ imm ≠ 0)) &&
        (lanesOf i.act).all (fun l => match c.moveOut s l with | .ok (.dev _) _ => true | _ => false) &&
        decide (s.crewRank i.w.crew 0 = some 0 ∧ c.performed s = .ok s ∧ s.warp? i.core i.slot = some i.w) &&
        (lanesOf i.act).all fun l => (c.moveGrains s l).all fun g =>
          Owner.claimed (s.ownerOf g.1) && Owner.mine (s.ownerOf g.1) i.core i.w.ctx &&
          (lanesOf i.act).all fun l' => l' == l || (c.moveGrains s l').all fun g' => g'.1 != g.1) = true) ∧
    (∀ e ∈ [(0, ([] : List Lease)), (64, [held0])], let s : State := { onW (fun w => { w with leases := e.2 }) with leaseQ := e.2 }
     let s : State := s.onWarp 0 0 fun w => w.onMask 0x80000001#32 fun l x => (x.setV 6 2).setV 8 (w32 (e.1 + (if l = 31 ∧ e.1 = 0 then 64 else 0)))
     lane s 7 0x05 { f96 with a := 6, b := 8, imm := 512 } (fun i => decide (i.act ≠ 0) &&
        decide ((Caller.warp i i.act).acquired s = .ok s) && reaches s (Caller.warp i i.act)
        (fun l => { h := (Caller.warp i i.act).handle l, o := (Caller.warp i i.act).off32 l,
                    q := { w := 64, align := 64, acc := 3, ok4 := leaseOk, own := false } }) (fun l => if l = 31 ∧ e.1 = 0 then 64 else e.1) &&
        let ls := leaseLines ((lanesOf i.act).map fun l => ((Caller.warp i i.act).off32 l, (if l = 31 ∧ e.1 = 0 then 64 else e.1)))
        decide (ls.length + e.2.length = 2 ∧ i.w.leases = e.2 ∧ ∀ x ∈ i.w.leases, ∀ y ∈ ls, x.va < y.1)) = true) ∧
    lane m0 7 0x06 { f96 with d := 4 } (fun i => decide (i.act ≠ 0 ∧ i.w.leases = [] ∧ m0.unleaseStatus i.w = 3)) = true ∧
    lane leasing 7 0x06 { f96 with d := 4 } (fun i => decide (i.act ≠ 0 ∧ leasing.unleaseStatus i.w = 0 ∧
      leasing.warpFence i.core i.slot = none)) = true ∧
    (let s : State := { leasing with leaseBuf := [(9, 8, [1, 2])] }; s.pending = [] ∧ s.mem.wf = true ∧ ∃ x ∈ [held0], x.id = 9) ∧
    (leasing.warp? 0 0).any (fun w => decide (w.granted ≠ [] ∧ ∀ x ∈ w.granted, leasing.holds x = true)) = true ∧
    (∀ e ∈ [1, 2], (({ leasing with leaseQ := [] } : State).warp? 0 0).any (fun w =>
      ({ w with leases := [{ held0 with ended := some e }] } : Warp).granted.any fun x => !({ leasing with leaseQ := [] } : State).holds x) = true) := by
  decide +kernel

/-- A guard request of the warp for the word at address 64. -/
def want (shared once : Bool) : GuardReq :=
  { thread := .warp 0 0, lane := 31, group := 0x80000001#32, ctx := 0, pa := 64, shared, once, dest := 4, unqueued := false, reply := none }

theorem witness_HomeEvents :
    (∀ r ∈ [want false false, want true false], bits (m0.guardWord 64) 62 32 = 0 ∧ m0.mustPublish 64 r.thread = false ∧ m0.guardWord 64 = 0 ∧
      (m0.syncRec 64).stuck = false) ∧
    (({ m0 with syncs := [(64, { lastScope := 0, lastThread := none, gen := 0, lost := false, stuck := true })] } : State).syncRec 64).stuck = true ∧
    (∀ r ∈ [want true true, want true false], ({ m0 with mem := [(71, 0x80)] } : State).mustPublish 64 r.thread = false ∧
      bits (({ m0 with mem := [(71, 0x80)] } : State).guardWord 64) 62 32 = 0 ∧
      grantable r.shared (({ m0 with mem := [(71, 0x80)] } : State).guardWord 64) = false) ∧
    bits (({ m0 with mem := [(70, 0x80)] } : State).guardWord 64) 62 32 ≠ 0 ∧
    (let s : State := { m0 with guards := [(7, { want false false with unqueued := true })] }
     s.guardsAt (homeHub 64) < 8192) ∧
    (let r : Release := { kind := .grel 64 false, agent := .lane 0 0 0, group := 1, ctx := 0, task := 1, core := 0, scope := 4, entries := [3], pc := 0, handle := 0, off := 0, wait := .none, answers := [], extData := [], extErr := [], failed := none }
     let s : State := { m0 with releases := [(7, r)], mem := [(71, 0x80)] }
     look s.releases 7 = some r ∧ s.runs r.ctx = true ∧ (s.wbuf.filter fun e => r.entries.contains e.id) = [] ∧
     s.leased 1 = false ∧ s.heldIn 64 false = true ∧
     (let s : State := { s with wbuf := [unpub] }
      (s.wbuf.filter fun e => r.entries.contains e.id) = [unpub] ∧ s.cutOff 0 = false ∧
      s.translate (r.who s 7 unpub.ctx unpub.core) unpub.va 2 = .ok (.dev 8192) (s.worldOf unpub.core)) ∧
     ({ s with ctxs := [] } : State).runs r.ctx = false) ∧
    (let s : State := { m0 with wbuf := [{ unpub with held := some 64 }], guards := [(7, { want false false with thread := .warp 16 0 })], syncs := [(64, { lastScope := 2, lastThread := some (.warp 0 0), gen := 0, lost := false, stuck := false })] }
     s.wbuf.filter (fun e => e.held == some 64) = { unpub with held := some 64 } :: [] ∧
     (s.guards.any fun g => g.2.pa == 64 && g.2.reply.isNone && !g.2.unqueued && s.mustPublish 64 g.2.thread) = true ∧ s.releases = []) ∧
    (let p : Pending := { core := 0, agent := .lane 0 0 31, ctx := 0, pa := 64, bytes := [1, 2] }
     let s : State := { m0 with pending := [p] }
     s.fenced p.agent = false ∧ s.cutOff 0 = false ∧ 1 ∉ s.lost ∧ s.leased (p.pa / 64) = false ∧ s.mem.wf = true) ∧
    (let x := { held0 with granted := false }
     let s : State := { onW fun w => { w with leases := [x] } with leaseQ := [x] }
     (s.warp? 0 0).any (fun w => decide (w.leases.find? (fun x => !x.granted && s.firstLease x) = some x)) = true ∧ s.runs 0 = true ∧
     s.leased x.line = false ∧ s.asideOn x.line = false ∧ s.cutOff 0 = false ∧ s.leasesOn 0 < 16 ∧
     x.line ∉ s.lost ∧ s.pending = []) := by
  decide +kernel

/-! ### Chains -/

/-- The warp's 32 lanes are live and its tiles of 32 lanes bound to integers of a limb width; the group holds every lane. -/
def bound (limb : Nat) : State :=
  { onW fun w => { w with live := 0xFFFFFFFF#32, chain := { bound := some limb, c := 0, o := 0 } } with cur := .lanes 0 0 0xFFFFFFFF#32, tasks := [(1, { task1 with desc := setNth task1.desc 7 (2 * 2 ^ 8) })] }

/-- An earlier chain instruction of the tile has not completed. -/
def chainBusy2 : State := (bound 32).onWarp 0 0 fun w => { w with prods := [{ id := 5, regs := [20], vals := [], replies := 0, flags := [], chain := [0] }] }

theorem witness_ChainArithmetic :
    (∀ e ∈ [(2, fab), (3, fab), (4, fa), (5, fab), (6, fab), (7, fab), (9, fabc), (9, { fabc with fn := 0x8E }), (10, { fabc with fn := 1 }),
        (8, fab), (8, { fab with mod := 2 }), (2, { fab with fn := 1 }), (3, { fab with fn := 1 })],
      lane (bound 32) 8 e.1 e.2 (fun i => (chainDiv true (bound 32) i).isNone && !i.w.chainBusy (i.w.tilesIn i.grp)) = true) ∧
    lane chainBusy2 8 2 fab (fun i => (chainDiv true chainBusy2 i).isNone && i.w.chainBusy (i.w.tilesIn i.grp) && i.fn == 0) = true ∧
    lane (bound 64) 8 2 { fab with mod := 1 } (fun i => (chainDiv true (bound 64) i).isNone) = true := by
  decide +kernel

theorem witness_ChainState :
    (∀ b ∈ [true, false], let s : State := { (onW fun w => { w with live := 0xFFFFFFFF#32 }) with cur := .lanes 0 0 0xFFFFFFFF#32, tasks := if b then (bound 32).tasks else m0.tasks }
      lane s 8 0x00 { f96 with mod := 1 } (fun i => (lbindDiv s i).isNone && s.limbs i.w.task == b && !i.w.chainBusy (List.range 32)) = true ∧
      lane s 8 0x01 f96 (fun i => i.w.chain.bound.isNone) = true ∧ lane s 8 0x0C { f96 with d := 4 } (fun i => i.w.chain.bound.isNone && !i.w.chainBusy (i.w.tilesIn i.grp)) = true) ∧
    lane (bound 32) 8 0x01 f96 (fun i => (lunbindDiv (bound 32) i).isNone && i.w.chain.bound.isSome && !i.w.chainBusy (List.range 32)) = true ∧
    (∀ fn ∈ [0, 1], lane (bound 32) 8 0x0B { f96 with d := 15, fn := BitVec.ofNat 8 fn } (fun i => (chainDiv false (bound 32) i).isNone &&
      !i.w.chainBusy (i.w.tilesIn i.grp)) = true) ∧
    (∀ mo ∈ [0, 2], lane (bound 32) 8 0x0C { f96 with d := 4, mod := BitVec.ofNat 4 mo } (fun i => (lstatDiv (bound 32) i).isNone && i.w.chain.bound.isSome &&
      !i.w.chainBusy (i.w.tilesIn i.grp)) = true) ∧
    (∀ e ∈ [(2, fab), (3, fab), (4, fa), (5, fab), (6, fab), (7, fab), (8, fab), (9, fabc), (10, fabc)],
      ∀ p ∈ [0, 3], (m0.laneIss 8 e.1 { e.2 with pm := p }).any (fun i => i.wellPlaced && i.unstopped m0 && decide (i.act = 0 ↔ p = 3) &&
        (chainDiv true m0 i).isSome) = true) ∧
    lane { chainBusy2 with tasks := (bound 32).tasks } 8 0x00 { f96 with mod := 1 } (fun i => (lbindDiv chainBusy2 i).isNone && chainBusy2.limbs i.w.task &&
      i.w.chainBusy (List.range 32)) = true ∧
    lane chainBusy2 8 0x0B { f96 with d := 15 } (fun i => (chainDiv false chainBusy2 i).isNone && i.w.chainBusy (i.w.tilesIn i.grp)) = true ∧
    lane chainBusy2 8 0x0C { f96 with d := 4 } (fun i => (lstatDiv chainBusy2 i).isNone && i.w.chainBusy (i.w.tilesIn i.grp)) = true := by
  decide +kernel

/-! ### The matrix unit and copies -/

/-- A block of bytes with numbers at offsets: offset, length, number. -/
def block (n : Nat) (ps : List (Nat × Nat × Nat)) : List Byte :=
  ps.foldl (fun bs p => bs.take p.1 ++ (bytesOf p.2.1 p.2.2 ++ bs.drop (p.1 + p.2.1))) (List.replicate n 0)
/-- Tile 0 of 16 rows of 256 bytes holds a block at row 2, tile 1 is an accumulator, tile 2 holds numbers; frame 3 holds weights. -/
def withBlock (bs : List Byte) (cur : Issuer) : State :=
  let s : State := machine [(6, 0), (8, w32 (2 * 2 ^ 16))] [(4, 0), (5, w64 (2 * 2 ^ 16))] cur
  s.onCrewKey 0 fun c => { c with
    tiles := [(0, { level := 0, fmt := 8, rows := 16, cols := 256, bad := [], single := [],
                    bytes := (mapIx (fun n x => (512 + n, x)) 0 bs).filter fun e => e.2 != 0 }),
              (1, { level := 1, fmt := 0x0E, rows := 16, cols := 128, bytes := [], bad := [], single := [] }),
              (2, { level := 0, fmt := 0, rows := 16, cols := 64, bytes := [], bad := [], single := [] })],
    frames := [(3, { fmt := 8, k := 32, n := 32, lost := false })] }
def leadCur : Issuer := .lead 0 0
def mxBlock : List Byte := block 64 [(0, 4, 16), (4, 4, 1), (12, 2, 1), (14, 2, 32), (20, 2, 32), (26, 2, 1), (28, 1, 8), (29, 1, 3), (30, 1, 1), (31, 1, 7)]
def drBlock : List Byte := block 32 [(0, 4, 1), (4, 4, 2), (16, 2, 1), (18, 2, 64), (30, 1, 7)]
def queued (n : Nat) : State := (withBlock mxBlock leadCur).onCrewKey 0 fun c =>
  { c with mx := List.replicate n (MxCmd.make 6 [1] [(0, 1)] 0 [] (some 7) 0 []) }

theorem witness_MatrixInstructions :
    (let s := (withBlock mxBlock leadCur).onCrewKey 0 fun c => { c with mx := List.replicate 7 (MxCmd.make 1 [] [] 3 [] none 0 []) }
     lead s 9 0x00 { f96 with d := 15, a := 4, b := 7 } (fun i => decide (i.c.mx.length < 8) &&
      (match s.tileRef (some (crewKey i.core i.slot)) (asTileWord i.a.toNat) with
       | .at o n tl => !offReach (crewKey i.core i.slot) (o, n, tl) && (weightCols tl.fmt).isSome && tl.cols % 32 == 0 &&
           decide (macrosOf tl.fmt tl.cols tl.rows ≤ 16 ∧ i.c.macrosBut i.f.d.toNat + macrosOf tl.fmt tl.cols tl.rows ≤ i.c.macros)
       | _ => false)) = true) ∧
    lead (queued 7) 9 0x01 { f96 with a := 15 } (fun i => decide (i.c.mx.length < 8)) = true ∧
    lead (queued 7) 9 0x02 { f96 with d := 3, a := 15 } (fun i => decide (i.c.mx.length < 8)) = true ∧
    lane m0 9 0x03 f96 (fun i => decide ((Caller.warp i i.act).performed m0 = .ok m0 ∧ m0.warp? i.core i.slot = some i.w)) = true ∧
    lead (queued 7) 9 0x04 { f96 with a := 4, b := 5 } (fun i => decide (i.c.mx.length < 8 ∧
      (queued 7).blockAt 0 (asTileWord i.a.toNat) (lo32 i.b).toNat 64 64 = .ok mxBlock ∧ crewKey i.core i.slot = 0 ∧
      (let u := (queued 7).correctBlock 0 0 (asTileWord i.a.toNat) (lo32 i.b).toNat 64
       firstBad ((MxParams.of mxBlock).checks u 0 i.c mxBlock) = none))) = true ∧
    (let s : State := { queued 7 with cur := both }
     lane s 9 0x04 { f96 with a := 6, b := 8 } (fun i => decide (i.act ≠ 0 ∧ i.w.crew = some 0) && (look s.crews 0).any fun c => decide (c.mx.length < 8 ∧
      s.blockAt 0 (i.elect.tileWord (lowest i.act)) (i.b32 (lowest i.act)).toNat 64 64 = .ok mxBlock ∧
      (let u := s.correctBlock 0 0 (i.elect.tileWord (lowest i.act)) (i.b32 (lowest i.act)).toNat 64
       firstBad ((MxParams.of mxBlock).checks u 0 c mxBlock) = none))) = true) ∧
    (∀ e ∈ [(0, true), (1, false)], let s := machine [(8, w32 e.1)] [(5, w64 e.1)] both
      lane s 9 0x05 { f96 with a := 7, b := 8 } (fun i => decide (i.grp = i.w.live ∧ i.w.crew = some 0) && (look s.crews 0).any fun c =>
        decide ((i.b false (lowest i.w.live)).toNat ≤ (c.q.getD i.f.a.toNat 0).toNat) == e.2) = true) ∧
    lane { m0 with cur := .lanes 0 0 1 } 9 0x05 { f96 with a := 7, b := 8 } (fun i => decide (i.grp ≠ i.w.live)) = true ∧
    lead m0 9 0x05 { f96 with a := 7, b := 5 } (fun i => decide (i.b.toNat ≤ (i.c.q.getD i.f.a.toNat 0).toNat)) = true ∧
    (let s := (queued 7).onLead 0 0 fun x => { x with k := [(4, 1)] }
     lead s 9 0x06 { f96 with a := 4, b := 7 } (fun i => decide (i.c.mx.length < 8) &&
      (match s.tileRef (some (crewKey i.core i.slot)) (asTileWord i.a.toNat) with | .at o n tl => decide (o = 0 ∧ n = 1 ∧ tl.level = 1) | _ => false)) = true) ∧
    (let s := tiles (access 1 0 0)
     ∀ e ∈ [(0x07, fl), (0x08, fs)], lane s 9 e.1 e.2 (fun i => decide (i.act ≠ 0) && (lanesOf i.act).all (fun l =>
        (match s.tileRef i.w.crew ((i.tileAsk (4 * i.accCount) false (e.1 == 7) (e.1 == 8)) l).tw with | .at k n _ => (k, n) == (0, 1) | _ => false) &&
        gives (s.accAccess i.w.crew (i.tileAsk (4 * i.accCount) false (e.1 == 7) (e.1 == 8) l) i.accCount) (if l = 31 then 256 else 0)) &&
        (Caller.warp i i.act).unfenced s) = true) ∧
    (let s := withBlock drBlock leadCur
     lead s 9 0x09 { f96 with a := 4, b := 5 } (fun i => decide (i.c.mx.length < 8 ∧
      s.blockAt (crewKey i.core i.slot) (asTileWord i.a.toNat) (lo32 i.b).toNat 32 32 = .ok drBlock ∧
      (let u := s.correctBlock 0 (crewKey i.core i.slot) (asTileWord i.a.toNat) (lo32 i.b).toNat 32
       (u.crew? i.core i.slot).isSome = true ∧ firstBad ((Drain.of drBlock).checks u (crewKey i.core i.slot) drBlock) = none))) = true) ∧
    lead m0 9 0x0A { f96 with d := 3 } (fun _ => true) = true ∧
    (∀ e ∈ [(0, { f96 with d := 15, a := 4, b := 7 }), (1, { f96 with a := 15 }), (2, { f96 with d := 3, a := 15 }), (4, { f96 with a := 4, b := 5 }),
        (6, { f96 with a := 4, b := 7 }), (9, { f96 with a := 4, b := 5 })], lead (queued 8) 9 e.1 e.2 (fun i => decide (8 ≤ i.c.mx.length)) = true) := by
  decide +kernel

/-- A crew with one command at the head of its queue. -/
def command (op : Nat) (started : Bool) : State := (withBlock mxBlock leadCur).onCrewKey 0 fun c => { c with
  mx := [{ MxCmd.make op [1] [(0, 1)] 3 mxBlock (some 7) 0 (if op = 4 then [(0, 0)] else []) with started }],
  weights := [(3, { fmt := 8, k := 32, n := 32, cols := [], crc := [], lost := false })] }

theorem witness_MatrixEngine :
    (∀ op ∈ [0, 1, 4, 6], let s := command op false
      (s.crew? 0 0).any (fun c => match c.mx with
        | x :: _ => !x.started && s.runs c.ctx && !c.done && s.fencesMet 0 x && !s.operandsDue 0 x && (s.mxError x).isNone
        | [] => false) = true) ∧
    (∀ op ∈ [1, 6], let s := command op true
      (s.crew? 0 0).any (fun c => match c.mx with
        | x :: _ => x.started && s.runs c.ctx && !c.done && (x.op == 6 || x.op == 1) && x.ev == [] && !c.lead.ended && (x.q == some 7) && decide (7 < c.q.length) &&
            x.tiles == [(crewKey 0 0, 1)] && (look c.tiles 1).isSome
        | [] => false) = true) ∧
    ((command 6 true).crew? 0 0).any (fun c => (look c.weights 3).any fun w => !w.lost) = true ∧
    (((command 6 true).onCrewKey 0 fun c => { c with mx := [] }).crew? 0 0).any (fun c => c.mx == [] && (look c.weights 3).any fun w => !w.lost) = true := by
  decide +kernel

/-- A descriptor of 16 bytes that every copy form accepts with the given shape. -/
def cpBlock (op : Nat) : List Byte :=
  let n := if op ≥ 4 then 192 else 128
  let src := op != 3 && op != 5
  block n ([(0, 8, 8 + 8 * 2 ^ 5 + (if op = 1 ∨ op = 2 then 2 ^ 10 else 0) + 2 ^ 18 + 7 * 2 ^ 19), (8, 4, if src then 2 else 0), (12, 4, 2), (24, 8, 1024), (48, 4, 16), (52, 4, 1),
    (56, 4, 1), (60, 4, 1), (116, 4, 2 ^ 16)] ++
    if op ≥ 4 then [(128, 4, 16), (132, 4, 1), (136, 4, 1), (140, 4, 1), (176, 4, if op = 5 then 1 else 0)] else [])
/-- Copies with tickets 1 to n in the crew's queue. -/
def copies (n : Nat) (started : Bool) (s : State) : State := s.onCrewKey 0 fun c => { c with
  ticket := n, copies := (List.range n).map fun k =>
    { ticket := k + 1, op := 0, desc := cpBlock 0, value := 0, issuer := .lead 0 0, tiles := [(0, 0)], started, done := 4, out := 0, ix := 0, shard := 0,
      buf := [], plane := [], taken := [], wait := .none, answers := [], extData := [], extErr := [], wrote := [], ev := [] } }

theorem witness_Copies :
    (∀ op ∈ [0, 1, 2, 3, 4, 5], let s := copies 15 false (withBlock (cpBlock op) leadCur)
      let n := if op ≥ 4 then 192 else 128
      lead s 10 op { f96 with d := 3, a := 4, b := 5 } (fun i => decide (i.c.copies.length < 16 ∧
        s.blockAt (crewKey i.core i.slot) (asTileWord i.a.toNat) (lo32 i.b).toNat n 64 = .ok (cpBlock op) ∧
        (let v := s.correctBlock (dieOf i.core) (crewKey i.core i.slot) (asTileWord i.a.toNat) (lo32 i.b).toNat n
         firstBad ((CpDesc.of (cpBlock op)).step3 op ++ (CpDesc.of (cpBlock op)).step456 op v ((Caller.lead i).who v 0) (crewKey i.core i.slot) ++
          (CpDesc.of (cpBlock op)).step7 op ++ (CpDesc.of (cpBlock op)).step8 op v ((Caller.lead i).who v 0) (crewKey i.core i.slot)) = none ∧
         (Caller.lead i).unfenced v = true ∧ (Caller.lead i).performed v = .ok v ∧ (v.crew? i.core i.slot).isSome = true))) = true ∧
      lead (copies 16 false (withBlock (cpBlock op) leadCur)) 10 op { f96 with d := 3, a := 4, b := 5 } (fun i => decide (16 ≤ i.c.copies.length)) = true ∧
      (let s : State := { s with cur := both }
       lane s 10 op { f96 with d := 4, a := 6, b := 8 } (fun i => decide (i.act ≠ 0 ∧ i.w.crew = some 0) && (look s.crews 0).any fun x => decide (
        x.copies.length < 16 ∧
        s.blockAt 0 (i.elect.tileWord (lowest i.act)) (i.b32 (lowest i.act)).toNat n 64 = .ok (cpBlock op) ∧
        (let v := s.correctBlock (dieOf i.core) 0 (i.elect.tileWord (lowest i.act)) (i.b32 (lowest i.act)).toNat n
         firstBad ((CpDesc.of (cpBlock op)).step3 op ++ (CpDesc.of (cpBlock op)).step456 op v (i.elect.who v (lowest i.act)) 0 ++
          (CpDesc.of (cpBlock op)).step7 op ++ (CpDesc.of (cpBlock op)).step8 op v (i.elect.who v (lowest i.act)) 0) = none ∧
         i.elect.unfenced v = true ∧ i.elect.performed v = .ok v ∧ (look v.crews 0).isSome = true))) = true) ∧
      (let s : State := { copies 16 false (withBlock (cpBlock op) leadCur) with cur := both }
       lane s 10 op { f96 with d := 4, a := 6, b := 8 } (fun i => decide (i.act ≠ 0 ∧ i.w.crew = some 0) &&
        (look s.crews 0).any fun x => decide (16 ≤ x.copies.length)) = true)) ∧
    lead m0 10 6 { f96 with d := 3, a := 4 } (fun _ => true) = true ∧ lane m0 10 6 fa (fun i => decide (i.act ≠ 0 ∧ i.w.crew = some 0)) = true ∧
    lead m0 10 7 { f96 with d := 3, a := 4 } (fun i => decide (i.c.copies.find? (fun y => y.ticket == i.a.toNat % 2 ^ 32) = none)) = true ∧
    (let s := copies 1 false (machine [] [(4, 1)] leadCur)
     lead s 10 7 { f96 with d := 3, a := 4 } (fun i => i.c.recent (i.a.toNat % 2 ^ 32) && (i.c.copies.find? (fun y => y.ticket == i.a.toNat % 2 ^ 32)).isSome) = true) ∧
    (∀ e ∈ [(0, false), (1, true)], let s := copies 1 false (machine [(6, w32 e.1)] [] both)
     lane s 10 7 fa (fun i => decide (i.act ≠ 0 ∧ i.w.crew = some 0) && (look s.crews 0).any fun x =>
      let n := (i.w.getV (lowest i.act) i.f.a.toNat).toNat
      (x.recent n && (x.copies.find? (fun y => y.ticket == n)).isSome) == e.2) = true) ∧
    ((copies 2 false m0).crew? 0 0).any (fun c => (c.copies.find? (fun y => !y.started)).isSome && (copies 2 false m0).runs c.ctx) = true ∧
    ((copies 1 true m0).cpRun 0 0 1).any (fun r => r.x.started && (r.x.wait == Wait.none) && (copies 1 true m0).runs r.c.ctx && r.over) = true ∧
    (look (copies 1 true m0).crews 0).any (fun c => !c.complete && !c.lead.ended && c.recent 1 && (CpDesc.of (cpBlock 0)).qen &&
      decide ((CpDesc.of (cpBlock 0)).qc < c.q.length)) = true ∧ (CpDesc.of (block 128 [])).qen = false := by
  decide +kernel

/-! ### Continuations -/

/-- The lanes hold a record of code 1 without a join counter from v16, and the context has room for a number of records. -/
def records (quota ovCap : Nat) : State :=
  (machine ((List.range 16).map fun n => (16 + n, if n = 0 then 1 else if n = 2 then 0xFFFFFFFF#32 else 0)) [] both).onCtx 0 fun x => { x with quota, ovCap }
/-- The task of the threads holds a number of buffers, with the flags of its descriptor, bit 2 of which measures it. -/
def measured (held flags : Nat) (s : State) : State :=
  let buffers : List Buffer := (List.range held).map fun n => { handle := 2, off := n, len := 1, pc := 0, qual := 0 }
  { s with tasks := [(1, { task1 with desc := setNth task1.desc 7 (w32 (flags * 2 ^ 8)), buffers })] }

theorem witness_ContinuationInstructions :
    (∀ e ∈ [(1, 0), (0, 1), (0, 0)], let s := records e.1 e.2
      lane s 11 0x00 { f96 with d := 4, a := 16 } (fun i => decide (i.act ≠ 0 ∧ (Caller.warp i i.act).released s = .ok s ∧
        ∀ l ∈ lanesOf i.act, i.noJoin l = true ∧ i.recWord l 3 = 0 ∧ i.contCheck s l = none ∧ i.contOut s l = (0, .ok (.dev 0) false)) &&
        (s.ctx? i.w.ctx).any fun x =>
        if e = (1, 0) then decide (s.gathered i.w.ctx (clusterOf i.core) < x.quota)
        else decide (x.quota ≤ s.gathered i.w.ctx (clusterOf i.core)) && (decide (x.overflow.length < x.ovCap) == (e.2 == 1))) = true) ∧
    (let s := (machine ((List.range 16).map fun n => (16 + n, if n = 0 then 1 else if n = 2 then 2 else 0)) [] both).onCtx 0 fun x => { x with quota := 1 }
     lane s 11 0x00 { f96 with d := 4, a := 16 } (fun i => decide (i.act ≠ 0 ∧ (Caller.warp i i.act).released s = .ok s) &&
       (lanesOf i.act).all fun l => !i.noJoin l && (match i.contOut s l with | (0, .ok (.dev pa) _) => pa == 0 && !s.leased (pa / 64) | _ => false)) = true) ∧
    (let s := access 2 0 0
     lane s 11 0x01 { f96 with a := 6, b := 8 } (fun i => decide (i.act ≠ 0 ∧ s.pending = []) &&
      reaches s (Caller.warp i i.act) (Caller.warp i i.act).cwaitRef (twoAt 0) &&
      decide ((Caller.warp i i.act).acquired s = .ok s) && clear (Caller.warp i i.act) s (twoAt 0) 4) = true) ∧
    lane { m0 with cur := .lanes 0 0 1 } 11 0x02 f96 (fun i => decide (i.grp ≠ i.w.live)) = true ∧
    lane m0 11 0x02 f96 (fun i => decide (i.grp = i.w.live ∧ (m0.stopping (i.w.unit m0 i.core i.slot) && i.w.unleased) = false)) = true ∧
    (let s : State := { m0 with preempts := [{ unit := .gang 0, option := 1, start := 0, missed := false, full := false, parked := false, die := none }] }
     lane s 11 0x02 f96 (fun i => decide (i.grp = i.w.live ∧ (s.stopping (i.w.unit s i.core i.slot) && i.w.unleased) = true)) = true) ∧
    lead m0 11 0x02 f96 (fun i => decide (m0.stopping (.gang i.c.gang) = false)) = true ∧
    (let s : State := { m0 with preempts := [{ unit := .gang 0, option := 1, start := 0, missed := false, full := false, parked := false, die := none }] }
     lead s 11 0x02 f96 (fun i => decide (s.stopping (.gang i.c.gang) = true)) = true) ∧
    (∀ e ∈ [(63, 4, true), (64, 4, false), (63, 0, false)], let s := measured e.1 e.2.1 (access 2 0 4096)
     lane s 12 0x03 fs (fun i => decide (i.act ≠ 0 ∧ s.bufferCheck (i.elect.who s (lowest i.act)) (i.elect.handle (lowest i.act)) (i.elect.off32 (lowest i.act))
        (i.elect.reg (lowest i.act) i.f.c.toNat) = none) && (s.task? i.w.task).any fun x => (x.measured && decide (x.buffers.length < 64)) == e.2.2) = true) ∧
    (∀ e ∈ [(63, 4, true), (64, 4, false), (63, 0, false)], let s : State := { measured e.1 e.2.1 (machine [] [(4, 2), (5, 0), (6, 4096)] both) with cur := leadCur }
      lead s 12 0x03 { f96 with a := 4, b := 5, c := 6 } (fun i => decide (s.bufferCheck ((Caller.lead i).who s 0) ((Caller.lead i).handle 0) ((Caller.lead i).off32 0)
        i.kc.toNat = none) && (s.task? i.c.task).any fun x => (x.measured && decide (x.buffers.length < 64)) == e.2.2) = true) := by
  decide +kernel

/-! ### Tasks, continuations and pre-emption -/

/-- The header of a code object with 64 bytes of code, one entry, for lanes, at 64 (Table 3.15). -/
def codeHead : List Byte := block 64 [(0, 4, 0x314F4C48), (4, 2, 1), (6, 2, 64), (8, 4, 0xFFFFFFFF), (12, 4, 64), (16, 4, 64), (20, 4, 64)]
/-- A descriptor of one gang of one crew of one warp of the code object of handle 1, its arguments behind handle 6. -/
def desc1 : List Word := [w32 (1 + 6 * 2 ^ 16), 0xFFFFFFFF#32, 64, w32 (1 + 2 ^ 16), w32 (1 + 2 ^ 16 + 2 ^ 24), 64] ++ [0, 0, 0, 6] ++ List.replicate 6 0
def task2 : Task := { task1 with desc := desc1, nextGang := 0, waiting := [0, 0, 0, 0] }
def plain : VdConfig := { secure := false, deadline := 200, barLimit := 2 ^ 24, fqLog2 := 6, hback := 0, hbSlots := 0, grants := [] }
def vd0 : Vd := { Vd.fresh plain with state := 2, clusters := [(0, 256, 1)], msixLen := 8, held := [{ type := 9, inst := 0, amount := 4, floor := 0, cap := 0 }, { type := 10, inst := 0, amount := 4, floor := 0, cap := 0 }] }
/-- Interface 0 of context 0: its ring of 1,024 words behind handle 7, its event ring behind handle 5. -/
def qi0 : Qi := Qi.fresh 0 0 false 7 0 10 5 0 6 (w32 (2 ^ 31))
/-- VD 0 is RESIDENT and holds cluster 0; a code object lies behind handle 1. -/
def office : State :=
  { machine [] [] leadCur with
    vds := [(0, vd0)], qis := [(0, qi0)], mem := Memory.writeN [] 0 codeHead, time := 100000000,
    clusters := [(0, { secure := some false, reserve := [] })], dies := List.replicate 4 { up := true, cycle := 71900, isolated := false, step := 0, start := 0 },
    ctxs := [(0, { Ctx.bare 0 0 0 (handles ++ [(6, region 3 0 4 64 64), (7, region 0 3 7 8192 4096), (8, region 0 3 7 0 8192)]) with quota := 64 })] }
def key1 : GroupKey := { ctx := 0, task := 1, code := 1, entry := 64 }
def record1 : ContRec := { id := 5, key := key1, cluster := 0, joinH := none, payload := [7], since := 0 }
def contWarp1 : ContWarp := { key := key1, cluster := 0, recs := [record1], since := 0, wait := .none, answers := [] }

/-- The task of the gang may be restarted, or runs for at most so many microseconds. -/
def withTask (flags maxrun deadline : Nat) : State :=
  { office with tasks := [(1, { task1 with desc := setNth (setNth desc1 7 (w32 (flags * 2 ^ 8))) 8 (w32 maxrun) })],
                vds := [(0, { vd0 with config := { plain with deadline } })] }

/-- A gang of 16 crews of 15 warps, which fits only a cluster that is empty. -/
def descBig : List Word := setNth desc1 4 (w32 (1 + 16 * 2 ^ 16 + 15 * 2 ^ 24))
/-- VD 0 has no floor and was served; VD 1 has a floor, and a gang of its context 64 waits. -/
def rivals (s : State) (d : List Word) : State :=
  let v (f : Nat) : Vd := { (s.vds.map (·.2)).headD vd0 with clusters := [(0, f, 1)] }
  { s with
    vds := [(0, v 0), (1, v 128)], served := [{ cluster := 0, vd := 0, since := 0, till := 71900, slots := 2 }],
    ctxs := s.ctxs ++ [(64, Ctx.bare 1 0 0 handles)], tasks := s.tasks ++ [(2, { task2 with ctx := 64, desc := d })] }

theorem witness_DispatchEvents :
    (let t := { task1 with released := false }; t.deps = [] ∧ office.runs t.ctx = true ∧ office.outweighed t = false) ∧
    (let s := { office with tasks := [(1, task2)] }
     task2.nextIx = some 0 ∧ s.gangDue 0 1 task2 = true ∧ s.gangCores 0 (some 1) 0 task2.need task2.crewCount = some [0] ∧
     (match s.readCode (s.dispatchWho (.hash 1) 0 0 (some task2.args) []) task2.code with | .ok _ ds => ds == [] | _ => false) = true ∧
     s.offered 0 1 0 = true ∧ task2.waiting.getD 0 0 + 65536 ≤ s.clusterCycle 0 ∧ s.clusters.all (fun e => e.2.reserve == []) = true ∧
     task2.crewCount ≤ ((coresIn 0).filter fun c => task2.need.onEmpty c && s.open? c (some 1) 0).length) ∧
    (let t := { task2 with gangsDone := 1, buffers := [{ handle := 2, off := 0, len := 3, pc := 0, qual := 0 }] }
     (firstBuffer t.buffers).isSome = true ∧ t.worked = true ∧ t.wait = .none ∧ office.runs t.ctx = true ∧
     office.hubRead (office.hashWho 1 t) 2 0 3 1 Entry.pr = .ok [0x48, 0x4C, 0x4F] ∧ ({ t with buffers := [] } : Task).worked = true ∧ t.failed = none) ∧
    (let s := { office with gather := [record1] }
     minOf ((s.groupOf 0 key1).map (·.since)) = some 0 ∧ s.runs key1.ctx = true ∧ 2048 ≤ s.clusterCycle 0) ∧
    (let s := { office with contWarps := [(9, contWarp1)] }
     s.runs 0 = true ∧ s.open? 0 none 0 = true ∧ s.freeSlots 0 = (List.range 14).map (· + 1) ∧ clusterOf 0 = contWarp1.cluster ∧
     s.contTurn 0 contWarp1 = true ∧
     (match s.contHeader 0 contWarp1 with | .ok h => h.entryOk 64 && s.fits 0 (contWarp1.need h) | _ => false) = true) ∧
    (let c := { contWarp1 with cluster := 1 }
     let s := { office with contWarps := [(9, c)] }
     s.open? 0 none 0 = true ∧ c.since + 2048 ≤ s.clusterCycle 1 ∧ s.contFits 1 c = false ∧ s.contTurn 0 c = true ∧
     (match s.contHeader 0 c with | .ok h => h.entryOk 64 && s.fits 0 (c.need h) | _ => false) = true) ∧
    (let s := rivals (withTask 0 0 200) desc1
     s.vdOf 0 = 0 ∧ s.vds.map (·.1) = [0, 1] ∧ 0 < s.shortfall 0 1 ∧ s.shortfall 0 0 ≤ 0 ∧ s.wants 0 1 = true) ∧
    contWarp1.recs[0]? = some record1 ∧
    (({ Ctx.bare 0 0 0 [] with quota := 64, overflow := [record1] } : Ctx).overflow.find? fun r => decide (office.gathered 0 r.cluster < 64)) = some record1 := by
  decide +kernel

/-- The gang of the machine. -/
def unit0 : UnitId := .gang 0
def loose0 : UnitId := .loose 0 3
/-- A continuation warp that stands in warp slot 3, and its image. -/
def looseWarp : Warp := { warp2 none [] with regs := 64 }
def withLoose : State := { office with warps := office.warps ++ [(3, looseWarp)] }
def image1 : Image :=
  { vd := 0, ctx := 0, task := 1, gang := none, crews := [], warps := [(3, looseWarp)], how := 0, elapsed := 9, base := 0, len := 0, counters := [], far := [], unit := loose0, wbuf := [],
    releases := [], pending := [], grains := [] }
def saving (option : Nat) (full : Bool) : Preempt := { unit := unit0, option, start := 0, missed := false, full, parked := false, die := none }
theorem witness_PreemptionAndOwl :
    (∀ e ∈ [((withTask 0 0 200), some 1), ((withTask 1 0 200), some 1), ((withTask 1 0 0), some 2), ((withTask 0 30 200), some 0), ((withTask 0 0 0), none)],
      let s := rivals e.1 descBig
      (cheapest (s.options ((s.parts unit0).getD ⟨none, [], []⟩))).map (·.1) = e.2 ∧
        (s.parts unit0).any (fun p => s.runs p.ctx && p.gang.isSome && s.chosen unit0 p) = true) ∧
    (office.parts unit0).any (fun p => decide (0 ≤ office.shortfall (clusterOf p.core) (office.vdOf p.ctx))) = true ∧
    (∀ o ∈ [0, 1], let s := { withTask 0 0 20 with preempts := [saving o false] }
      (s.parts unit0).any (fun p => decide (s.deadline p ≤ s.cycleOf p.core)) = true) ∧
    (∀ x ∈ [saving 1 true, saving 1 false], let s := { office with preempts := [x] }
      let s : State := if x.full then s else { s.onWarp 0 0 fun w => w.onMask w.live fun _ y => { y with wait := .stopped } with crews := mapS s.crews fun _ c => { c with lead := { c.lead with ended := true } } }
      (s.parts unit0).any (fun p => s.runs p.ctx && (x.full || p.stopped) && s.pending == [] && s.heldBy p == [] && !s.saveBusy p &&
        ((s.pauseMatrix p 0).parts unit0).isSome) = true) ∧
    (let s := { office with images := [(9, image1)] }
     s.runs 0 = true ∧ image1.how ≠ 2 ∧ image1.far = [] ∧ s.countersZero { image1 with how := 2 } = true ∧ s.imageBad image1 = false ∧
     s.imageTurn 0 image1 = true ∧ s.imageTurn 0 { image1 with how := 2, far := [.host 0 64] } = true ∧ s.imageCores 0 image1 = some [0] ∧
     s.freeSlots 0 = (List.range 14).map (· + 1) ∧ 0 < looseWarp.lanes.length) ∧
    (let s := { withLoose.onWarp 0 3 fun w => w.onMask w.live fun _ y => { y with wait := .cwait 64 } with tasks := [(1, { task2 with desc := descBig })] }
     (s.parts loose0).any (fun p => s.runs p.ctx && p.parked && s.crowded (clusterOf p.core) p.ctx && !s.preempted loose0) = true) ∧
    (∀ limit ∈ [2 ^ 24, 4096], let s := { (office.onCrewKey 0 fun c => { c with bars := [(0, { counted := false, count := 0, arrived := [], pc := 0, start := 0 })] }) with
        vds := [(0, { vd0 with config := { plain with barLimit := limit } })] }
      (s.parts unit0).any (fun p => s.runs p.ctx && decide (p.scan ≤ s.residentOf p) && p.gang.isSome &&
        (p.timers.find? (fun t => decide (t.start + limit ≤ p.scan))).isSome == decide (limit = 4096)) = true) ∧
    (let s := withTask 0 20 200
     (s.parts unit0).any (fun p => s.runs p.ctx && (s.task? p.task).any (fun t => t.maxrun != 0 && decide (t.maxrun < s.residentOf p)) &&
       p.gang.any fun g => !g.2.overrun) = true) := by
  decide +kernel

/-! ### Queue interfaces -/

/-- The queue interface with its kick words and packets begun, and with a graph of one task. -/
def kicked (kicks : List Word) (begun : List Packet) : State := { office with qis := [(0, { qi0 with kicks, begun })] }
def graph1 (argHandle : Nat) : Graph := { ctx := 0, tasks := [setNth desc1 0 1], regions := [[]], argHandle, slotSize := 64 }
def withGraph (h : Nat) (w : Word) : State := { kicked [w] [] with vds := [(0, { vd0 with graphs := [(3, graph1 h)] })] }

theorem witness_QueueInterfaces :
    (office.ready = true ∧ office.qi? 0 = some qi0 ∧ qi0.bound = true ∧ qi0.closing = false ∧ qi0.records = [] ∧ qi0.ib = []) ∧
    State.reset.ready = false ∧
    (let x := { qi0 with evctl := w32 (2 ^ 31 + 2 ^ 16), unsignalled := 1, oldest := 5 }
     x.bound = true ∧ bitOf x.evctl 31 = true ∧ bits x.evctl.toNat 30 16 ≠ 0 ∧ 0 < x.unsignalled ∧
     x.oldest + 1000 * bits x.evctl.toNat 30 16 ≤ office.time.toNat ∧ bitOf x.remap 31 = true) ∧
    (∀ e ∈ [(withGraph 6 4, 0), (withGraph 2 3, 1), (withGraph 6 0x1003, 2), (withGraph 6 3, 3)],
      (e.1.qi? 0).any (fun x => e.1.takes x && !e.1.launchHeld x && (e.1.vd? x.vd).any fun v => match x.kicks with
        | w :: _ =>
          (match look v.graphs (bits w.toNat 11 0) with
           | none => e.2 == 0
           | some g =>
             let en := e.1.entry (x.who 0) g.argHandle
             let args := slotEntry en (bits w.toNat 23 12) g.slotSize
             if !argsFit en then e.2 == 1
             else if Entry.length en < (bits w.toNat 23 12 + 1) * g.slotSize then e.2 == 2
             else e.2 == 3 && !g.tasks.any (e.1.boundless x.vd) && e.1.matcherRoom x.vd 0 &&
               (match e.1.measuredGraph (x.who 0) args g.tasks with | .ok d => d == [] | _ => false))
        | [] => false) = true) ∧
    (Pkt.mk (w32 (2 ^ 25)) [] 0).measured = true ∧ (Pkt.mk 0 [] 0).event = false ∧ (Pkt.mk (w32 (2 ^ 26)) [] 0).event = true := by
  decide +kernel

/-- The words stand in the ring, and nothing else. -/
def ringed (ws : List Word) : State :=
  { office with mem := (office.mem.writeN 8192 (bytesOfWords ws)).writeN 256 (bytesOfWords (setNth desc1 0 1)), qis := [(0, { qi0 with pw := ws.length })] }
/-- A packet of a type stands at the head of the queue and may be taken, and a condition holds. -/
def offers (s : State) (type : Nat) (c : Qi → Pkt → Bool) : Bool :=
  match s.qi? 0 with
  | some x => s.takes x && x.kicks == [] &&
      match s.head 0 x with
      | .ok p => p.type == type && (!p.barrier || s.idleCtx x.ctx) && c x p
      | _ => false
  | none => false
/-- A packet with the given type and payload. -/
def packet (type : Nat) (ws : List Word) : State := ringed (w32 (type + ws.length * 2 ^ 8) :: ws)
def wordsOfEntry (e : BitVec 256) : List Word := (List.range 8).map fun n => e.extractLsb' (32 * n) 32
def waits (value : Word) : List Word := [2, 0, 0, value, 0xFFFFFFFF#32, 0]
/-- A packet begun is the first of its queue, and a condition holds. -/
def turn (type : Nat) (ws : List Word) (c : State → Qi → Packet → Bool) : Bool :=
  let b : Packet := { type, index := 0, event := false, words := ws, work := none }
  let s := { kicked [] [b] with pkg := { office.pkg with leafEnd := 9 } }
  (s.qi? 0).any fun x => s.active x && (x.begun.head? == some b) && c s x b

/-- SET_HANDLE installs an entry, or zeros. -/
def setsHandle (e : BitVec 256) (good : Bool) : Bool :=
  offers (packet 4 (9 :: wordsOfEntry e)) 4 fun x p => (packet 4 (9 :: wordsOfEntry e)).pending == [] && !(packet 4 (9 :: wordsOfEntry e)).inFlight x.ctx (p.word 0) &&
    (let b := BitVec.ofNat 256 (natOf (bytesOfWords (p.words.drop 1)))
     (office.entryOk x.vd b && office.ownersFit x.vd x.ctx (p.word 0) b) == good)
/-- The word that a WAIT_VALUE at the head of the queue, or begun, watches meets its condition. -/
def waitsFor (value : Word) (met : Bool) : Bool :=
  offers (packet 6 (waits value)) 6 (fun x p => match (packet 6 (waits value)).hubRead (x.who 0) (p.word 0) (p.wide 1) 4 4 Entry.pr with
    | .ok bs => valueMeets (p.word 5) (w32 (natOf bs)) (w32 (p.word 3)) (w32 (p.word 4)) == met | _ => false) &&
  turn 6 (waits value) (fun s x b => match s.hubRead (x.who 0) (b.pkt.word 0) (b.pkt.wide 1) 4 4 Entry.pr with
    | .ok bs => valueMeets (b.pkt.word 5) (w32 (natOf bs)) (w32 (b.pkt.word 3)) (w32 (b.pkt.word 4)) == met | _ => false)
def measures (n : Word) : Bool :=
  offers (packet 11 [2, 0, 0, 64, n]) 11 fun x p =>
    match (packet 11 [2, 0, 0, 64, n]).hubRead (x.who 0) (p.word 0) (p.wide 1) (p.word 3) 1 Entry.pr with | .ok _ => true | _ => false

theorem witness_Packets :
    offers (packet 0 []) 0 (fun _ _ => true) = true ∧
    offers (packet 1 desc1) 1 (fun x p => let s := packet 1 desc1
      !s.launchHeld x && !s.boundless x.vd p.words && s.matcherRoom x.vd 0 &&
      (match s.judge (x.who 0) p.words (descField p.words 2 2) false with | .ok r => r == [] | _ => false) &&
      (match s.measuredData (x.who 0) p.words (s.entry (x.who 0) (descField p.words 2 2)) with | .ok r => r == [] | _ => false)) = true ∧
    offers (packet 1 (setNth desc1 3 0)) 1 (fun x p => let s := packet 1 (setNth desc1 3 0)
      !s.launchHeld x && (match s.judge (x.who 0) p.words (descField p.words 2 2) false with | .error (.fail c) => c == Cls.illegal | _ => false)) = true ∧
    offers (packet 2 [2, 0, 0, 4]) 2 (fun x p => !p.measured && !p.event && decide (0 < p.word 3 ∧ x.ib = [])) = true ∧
    setsHandle (region 0 3 7 0 64) true = true ∧ setsHandle (region 0 3 7 0 64 ||| BitVec.ofNat 256 (2 ^ 192)) false = true ∧
    (∀ e ∈ [(2, true), (9, false)], let s := packet 5 [w32 e.1, 0, 0, 7]
      offers s 5 (fun x p => match s.hubWrite (x.who 0) (p.word 0) (p.wide 1) 4 (bytesOfWords (p.words.drop 3)) with
        | .ok _ => e.2 | .error (.fail _) => !e.2 | _ => false) = true) ∧
    waitsFor 0x314F4C48#32 true = true ∧ waitsFor 7 false = true ∧
    turn 7 [2, 64, 0, 5] (fun s x b => match s.hubWrite (x.who 0) (b.pkt.word 0) (b.pkt.wide 1) 4 (bytesOf 4 (b.pkt.word 3)) with
      | .ok _ => true | _ => false) = true ∧
    (let s := packet 8 [3, 1, 2, 256, 0, 64, 0, w32 (6 + 2 ^ 12)]
     offers s 8 (fun x p => !s.graphBusy x.vd (p.word 0) && match s.graphOf (x.who 0) x.vd p with | .ok _ => true | _ => false) = true) ∧
    offers (packet 9 [3]) 9 (fun _ _ => true) = true ∧
    offers (packet 10 [1]) 10 (fun _ p => !p.measured && (packet 10 [1]).tenants.length == 1) = true ∧
    (let s := { packet 10 [1] with vds := [(0, vd0), (1, vd0)] }; offers s 10 (fun _ p => !p.measured && s.tenants.length != 1) = true) ∧
    measures 1 = true ∧ measures 2 = true ∧ measures 3 = true ∧
    (∀ e ∈ [(0, none), (32, some Cls.misalign)], turn 12 (8 :: w32 e.1 :: List.replicate 9 0) (fun s x b =>
      s.pkg.signing == [] && s.receiptCheck (x.who 0) (b.pkt.word 0) (b.pkt.wide 1) == e.2 && s.takeLeaf.isSome) = true) ∧
    turn 14 [] (fun _ _ _ => true) = true ∧
    (let s := ringed [0x80000000#32]
     (s.qi? 0).any (fun x => s.takes x && x.kicks == [] && match s.head 0 x with | .bad c _ => c == Cls.illegal | _ => false) = true) := by
  decide +kernel

/-- A RECEIPT is begun on interface 0, and its signature is in the signer. -/
def sealing : State := kicked [] [{ type := 12, index := 0, event := false, words := 8 :: List.replicate 10 0, work := none }]
def seal0 : Signing := { qi := 0, leaf := 0, body := List.replicate 128 0, handle := 8, off := 0, made := false }
/-- The signature is made. -/
def sealed : State := sealing.onPkg fun p => { p with signing := [{ seal0 with made := true }] }
def sealRuns : List Run := [{ off := 0, len := 4096, out := .ok (.dev 0) false }, { off := 4096, len := 1748, out := .ok (.dev 4096) false }]

theorem sealed_reach (kind : Nat → Nat → ExtKind) :
    sealed.reachRange (qi0.who 0) 8 0 5844 { w := 5844, align := 1, acc := 2, ok4 := permits 2 } kind = .ok sealRuns := by
  have h1 : sealed.precheck (qi0.who 0) 8 ((0 : Nat) : Int) { w := 5844, align := 1, acc := 2, ok4 := permits 2 } = none := by decide +kernel
  have h2 : sealed.runsAt (qi0.who 0) (sealed.entry (qi0.who 0) 8) (0 + 5844) { w := 5844, align := 1, acc := 2, ok4 := permits 2 }
    (pieces (Entry.base (sealed.entry (qi0.who 0) 8)) 0 5844) = sealRuns := by decide +kernel
  have h3 : AccOut.decide (sealRuns.map (·.out)) = .ok (.dev 0) false := by decide +kernel
  have h4 : sealRuns.any sealed.runLeased = false := by decide +kernel
  simp only [State.reachRange, h1, h2, h3, h4]
  rfl

/-- A signature made is written, on the queue where its packet is begun. -/
theorem witness_Packets_receipt : ∃ (x : Qi) (b : Packet) (u : State),
    (sealing.onPkg fun p => { p with signing := [seal0] }).qi? 0 = some x ∧ x.wait = Wait.none ∧
    ([seal0].find? fun g => g.qi == 0) = some seal0 ∧ x.begun.find? (fun b => b.type == 0x0C) = some b ∧
    sealed.hubWrite (x.who 0) seal0.handle seal0.off 1 (receiptBytes seal0.leaf seal0.body) = .ok u ∧
    (u.signed 0).qi? 0 = some x ∧ (u.signed 0).active x = true := by
  obtain ⟨u, h, hq, hp, hc⟩ := State.hubWrite_ok (s := sealed) (who := qi0.who 0) (h := 8) (o := 0) (align := 1)
    (receiptBytes_length 0 (body := List.replicate 128 0) rfl) sealed_reach
  refine ⟨{ qi0 with begun := [{ type := 12, index := 0, event := false, words := 8 :: List.replicate 10 0, work := none }] }, _, u,
    by decide +kernel, rfl, rfl, rfl, h, ?_, ?_⟩
  · show look u.qis 0 = _
    rw [hq]; decide +kernel
  · have : (u.signed 0).runs 0 = sealed.runs 0 := by simp only [State.runs, State.ctx?, State.signed, State.onPkg, hc, hp]
    show (true && true && (u.signed 0).runs 0) = true
    rw [this]; decide +kernel

/-! ### The mailbox and the registers of the host -/

/-- The mailbox is served, with the given words in MBARG. -/
def served (arg : List Word) : State :=
  { office with pkg := { office.pkg with stage := 7, standby := true }, mb := { office.mb with arg := arg ++ List.replicate (64 - arg.length) 0 } }
def free (s : State) (op : Nat) : Bool := s.mailboxOn && !s.mb.busy && s.barred op == none
def image2 : FwImage := { version := 2, verifies := true, imports := true }

theorem witness_MailboxAccepts :
    State.reset.mailboxOn = false ∧
    (let s := (served []).onMb fun m => { m with busy := true }; s.mb.busy = true ∧ s.mb.wait ≠ some .update) ∧
    (let s := (served []).onMb fun m => { m with alarmLevel := 2 }; s.mailboxOn = true ∧ s.mb.busy = false ∧ s.barred 0x10 = some 4 ∧ s.pkg.recovery = false) ∧
    [0x01, 0x02, 0x03, 0x10, 0x11, 0x12, 0x13, 0x14, 0x15, 0x20, 0x21, 0x22, 0x23, 0x30, 0x31, 0x32, 0x40, 0x60, 0x61, 0x70].all (free (served [])) = true ∧
    (State.reset.onPkg fun p => { p with recovery := true }).pkg.recovery = true ∧
    (free (served []) 0 && decide (0x71 ≤ bits (0x00230071#32).toNat 15 0)) = true := by
  decide +kernel

theorem witness_PackageCommands :
    (let s := served [0, 0, 8]; free s 0x01 = true ∧ 6 ≤ s.argN 2 ∧ s.argN 2 ≤ 16) ∧
    (∀ n ∈ [0, 1, 2], let s := served [w32 n]; free s 0x02 = true ∧ (s.info (s.argN 0)).isSome = true) ∧
    (free (served []) 0x03 && (served []).pkg.signing == [] && free (served []) 0x70 && !office.pkg.keysErased) = true ∧
    (free (served []) 0x50 && (served []).pkg.standby && office.pkg.imageOk image2) = true ∧
    (let s := (served [0, 0, 0, 1]).onPkg fun p => { p with recovery := true }
     free s 0x51 = true ∧ s.pkg.recovery = true ∧ s.argN 3 ≤ 1 ∧ s.pkg.imageOk image2 = true) ∧
    (∀ n ∈ [1, 3], let s := (served []).onMb fun m => { m with alarmLevel := n }
      free s 0x40 = true ∧ s.vds.all (fun e => e.2.state != 4) = true) ∧
    (∀ hi ∈ [0, 2 ^ 31],
      let s := { served [0, 0, 0, 0, w32 hi] with vds := [(0, { vd0 with held := [{ type := 6, inst := 0, amount := 1, floor := 0, cap := 0 }] })] }
      let e := BitVec.ofNat 128 (s.argQ 1 + 2 ^ 64 * s.argQ 3)
      free s 0x60 = true ∧ s.argN 0 < 512 ∧ endpointOk (s.argN 0) e = true ∧ e.getLsbD 127 = decide (hi ≠ 0) ∧ s.endpointGranted (s.argN 0) e = true) ∧
    (let s := { served [] with vds := [] }
     free s 0x61 = true ∧ s.argN 0 < 4 ∧ s.dies.length = 4 ∧ (∀ n ∈ List.range 4, (s.die n).step = 0) ∧ (s.die 1).up = true ∧ s.residents = []) := by
  decide +kernel

/-- A configuration record of VD 1 with a number of clusters of die 0 (Table 18.5). -/
def config1 (clusters : Word) : List Word := [w32 (1 + 2 ^ 24), 0, 0, 6, 0, 0, 0, 0, 1, clusters, 0, 0]
def vd1 (state : Nat) (clusters : Word) : Vd :=
  { Vd.fresh (((parseConfig (bytesOfWords (config1 clusters ++ List.replicate 52 0))).map (·.2)).getD plain) with state }
/-- VD 1 stands in a state beside VD 0. -/
def second (arg : List Word) (v : Vd) : State := { served arg with vds := [(0, vd0), (1, v)] }

theorem witness_VirtualDeviceCommands :
    (let s := served (config1 1)
     free s 0x10 = true ∧ (parseConfig (bytesOfWords s.mb.arg)).any (fun c => c.1 == 1) = true ∧ s.vd? 1 = none ∧ s.firstQi 1 = none) ∧
    (∀ e ∈ [(1, true), (65, false)], let s := second [1] (vd1 1 (w32 e.1))
      free s 0x11 = true ∧ s.argN 0 = 1 ∧ (s.admission 1 (vd1 1 (w32 e.1)).config).isSome = e.2 ∧ s.firstQi 1 = none) ∧
    (let s := second (config1 2) (vd1 1 1)
     free s 0x12 = true ∧ (parseConfig (bytesOfWords s.mb.arg)).any (fun c => c.1 == 1) = true ∧ s.firstQi 1 = none) ∧
    (let s : State := { second [1] (vd1 2 1) with gangs := [], warps := [], crews := [] }
     free s 0x13 = true ∧ free s 0x14 = true ∧ free s 0x15 = true ∧ s.argN 0 = 1 ∧ (s.vd? 1).any (fun v => v.state == 2) = true ∧
     s.firstQi 1 = none ∧ s.ctxsOf 1 = [] ∧ s.mb.alarmLevel < 2) ∧
    (let s := (second [] (vd1 3 1)).onMb fun m => { m with wait := some (.scrub 1) }
     s.mb.wait = some (.scrub 1) ∧ s.firstQi 1 = none) := by
  decide +kernel

theorem witness_ContextCommands :
    (let s := served [0, 1, 0x1000, 0, 5, 64]
     free s 0x20 = true ∧ rootOf (s.argQ 2) = some (some 0x1000) ∧ s.argN 0 < 1024 ∧ s.argN 1 < 64 ∧ s.argN 4 < 4096 ∧
     s.ctx? (ctxKey (s.argN 0) (s.argN 1)) = none ∧ vd0.state = 2) ∧
    (let s := served [0, 0, 0xFFFFFFFF#32, 0xFFFFFFFF#32]
     free s 0x21 = true ∧ free s 0x22 = true ∧ free s 0x23 = true ∧ rootOf (s.argQ 2) = some none ∧
     (s.ctx? (ctxKey (s.argN 0) (s.argN 1))).any (fun x => x.kill.isNone) = true ∧ s.qis.all (fun e => e.2.records == []) = true ∧ s.pending = []) ∧
    (let s := served [1, 0, 0, 7, 0, 0, 10, 5, 0, 0, 6, 0]
     free s 0x30 = true ∧ (s.vd? 0).any (fun v => v.state == 2 && s.mayBind 0 v (hubOfQi 1) 0) = true ∧ s.qi? 1 = none ∧
     (s.ctx? 0).any (fun x => ringFits ((look x.handles 7).getD 0) 0 4096 4 true && Entry.pr ((look x.handles 7).getD 0) &&
       ringFits ((look x.handles 5).getD 0) 0 2048 32 true && Entry.pw ((look x.handles 5).getD 0) && Entry.kind ((look x.handles 5).getD 0) != 0) = true) ∧
    (let s := served []
     free s 0x31 = true ∧ free s 0x32 = true ∧ (s.qi? 0).any (fun x => x.bound && !x.closing && x.begun == []) = true) := by
  decide +kernel

theorem witness_HostRegisters :
    (office.vd? 0 = some vd0 ∧ office.qi? 0 = some qi0 ∧ qi0.bound = true ∧ qi0.vd = 0 ∧ qi0.closing = false ∧ qi0.unsignalled = 0 ∧ office.ready = true) ∧
    (office.ctx? (ctxKey 0 0)).any (fun x => let e := (look x.handles 5).getD 0
      Entry.valid e && Entry.space e == 0 && Entry.kind e == 3 && Entry.pr e && Entry.pw e && decide (32 ≤ Entry.length e)) = true ∧
    (let f : Fid := { ctx := 0, page := 9, va := 36864, access := 1, cause := 0, eng := 0, core := 0, merged := 0, time := 0, index := 0 }
     look ({ vd0 with fids := [(7, f)] } : Vd).fids (bits (0x80000007#32).toNat 23 0) = some f ∧ bits (0x80000007#32).toNat 30 24 = 0 ∧
     bits (0x01000007#32).toNat 30 24 ≠ 0) ∧
    alarmLevelOf office.mb.alarmCount 0 ≤ office.mb.alarmLevel ∧ office.mb.busy = false ∧
    (let s := office.onMb fun m => { m with busy := true }; s.mb.busy = true ∧ s.mb.wait ≠ some .update) ∧
    bits vd0.fpsel.toNat 4 0 ≤ 23 := by
  decide +kernel

/-! ### Translation and links -/

def walk0 (host : Bool) (phase : Nat) : Walk := { ctx := 0, page := 9, host, acc := 1, phase, hub := 0, stale := false }
def fault0 : Fid := { ctx := 0, page := 9, va := 36864, access := 1, cause := 1, eng := 0, core := 0, merged := 0, time := 0, index := 0 }
/-- An invalidation of VD 0 whose descriptor, of a TYPE, stands behind handle 5. -/
def invalidating (type : Nat) : State :=
  { office with mem := office.mem.writeN 12288 [BitVec.ofNat 8 type],
                vds := [(0, { vd0 with invals := [{ ctx := 0, handle := 5, off := 0, wait := .none, answers := [], extData := [], extErr := [] }] })] }
/-- Tables of both stages: the stage-2 root at 4096, the stage-1 root at page 3, and pages 0 to 15 in one table at 24576, whose
entry for page 3 is given. -/
def tables (e : Nat) : State :=
  let entries : List (Nat × Nat) := [(4096, 0x2001), (8192, 0x5001), (20480, 0x6001), (24576 + 24, e), (24576 + 32, 0x401F), (12288, 0x4001), (16384, 0x1F)]
  { office with ctxs := [(0, { Ctx.bare 0 0 0 handles with root := some 12288 })], vds := [(0, { vd0 with config := { plain with hbSlots := 16 } })], mem := entries.foldl (fun (m : Memory) x => m.writeN x.1 (bytesOf 8 x.2)) [] }

/-- A walk is that of the tables, at the root that the part has. -/
theorem walk_at (s : State) (c page acc root : Nat) (x : Ctx) (v : Vd) (t : Walked) (hc : s.ctx? c = some x) (hx : x.root = some root)
    (hv : s.vd? x.vd = some v) (h : walk1 s.mem v.config.hbSlots (Config.stage2Root x.vd) [0, 1, 2, 3] root (page * 4096) = .ok t)
    (h1 : covers t.rights1 (needRights acc) = true) (h2 : covers t.rights2 (needRights acc) = true) : s.walkTables c page acc = .ok t := by
  simp [State.walkTables, State.walkRaw, hc, hx, hv, h, h1, h2]

/-- The tables translate, on a part whose stage-2 root of VD 0 lies where they stand: Config gives it no value. -/
theorem witness_TranslationEvents_walk (h : Config.stage2Root 0 = 4096) :
    (tables 0x301F).walkTables 0 4 1 = .ok ⟨4, 7, 7, false, false⟩ := by
  refine walk_at _ 0 4 1 12288 _ _ _ rfl rfl rfl ?_ (by decide +kernel) (by decide +kernel)
  show walk1 (tables 0x301F).mem 16 (Config.stage2Root 0) [0, 1, 2, 3] 12288 (4 * 4096) = _
  rw [h]; decide +kernel

/-- The entry of the stage-1 table's page is host-backed: slot 0, writable, readable. -/
def backed : State := { tables 0x5E with walks := [(9, { walk0 false 2 with page := 0 })] }

/-- A host-backed page is met, on a part with those roots and pages: with no region, or with a free one. -/
theorem witness_TranslationEvents_backed (h : Config.stage2Root 0 = 4096) (hm : Config.vdMemory 0 = [(65536, 4096)] ∨ Config.vdMemory 0 = []) :
    backed.hbLeaf 0 { vd0 with config := { plain with hbSlots := 16 } } 0 0 = some 12288 ∧
    leaf2 backed.mem [0, 1, 2, 3] (Config.stage2Root 0) 12288 = some (3, 24600, 0x5E) ∧
    (Config.vdMemory 0 = [] → backed.regionless 0 4096 = true) ∧ (Config.vdMemory 0 ≠ [] → backed.regionFree 0 65536 4096 = true) := by
  refine ⟨?_, ?_, ?_, ?_⟩
  · have hv : visited backed.mem 16 (Config.stage2Root 0) [0, 1, 2, 3] 12288 0 = [12288] := by rw [h]; decide +kernel
    have hw : walk2 backed.mem 16 [0, 1, 2, 3] (Config.stage2Root 0) 12288 = .error .hostBacked := by rw [h]; decide +kernel
    show (visited backed.mem 16 (Config.stage2Root 0) [0, 1, 2, 3] 12288 (0 * 4096)).find? (fun ipa =>
      match walk2 backed.mem 16 [0, 1, 2, 3] (Config.stage2Root 0) ipa with | .error .hostBacked => true | _ => false) = some 12288
    rw [Nat.zero_mul, hv]; simp [hw]
  · rw [h]; decide +kernel
  · intro e; simp [State.regionless, e]
  · intro e
    have e : Config.vdMemory 0 = [(65536, 4096)] := hm.resolve_right e
    have hl : (leaves2 backed.mem [0, 1, 2, 3] (Config.stage2Root 0)).any (fun l => decide (l.1 < 65536 + 4096 ∧ 65536 < l.1 + l.2.1)) = false := by
      rw [h]; decide +kernel
    simp only [State.regionFree, e, hl]; decide +kernel

theorem witness_TranslationEvents :
    (office.walkTables 0 9 1 = .error .pageFatal ∧ (walk0 false 0).host = false ∧ (walk0 false 0).phase = 0) ∧
    (let v : Vd := { vd0 with waiting := [(.queue 0, fault0)] }
     v.fids.length < 1024 ∧ v.fqFull = false ∧ office.vdOf fault0.ctx = 0 ∧ v.fids.find? (fun e => e.2.ctx == 0 && e.2.page == 9) = none) ∧
    ((walk0 true 0).stale = false ∧ covers 7 (needRights 1) = true ∧ office.mayAsk 0 = true) ∧
    ((walk0 true 1).host = true ∧ (walk0 true 1).phase = 1 ∧ office.hubs[0]? = some Hub.reset ∧ office.qis.all (fun e => e.2.records == []) = true ∧
      Hub.reset.invals.length < 32) ∧
    ((office.onHub 0 fun h => { h with invals := [(0, 1, 2)] }).hubs[0]? = some { Hub.reset with invals := [(0, 1, 2)] } ∧ office.exts = []) ∧
    (∀ e ∈ [(0, false), (1, true)], let s := invalidating e.1
      (s.vd? 0).any (fun v => match v.invals with
        | x :: _ => x.wait == Wait.none && s.mb.wait == none &&
          match s.hubRead (s.controlWho 0 x) x.handle x.off 32 32 (fun e => Entry.pr e && Entry.pw e) with
          | .ok b => (s.invalOf 0 b).isSome == e.2
          | _ => false
        | [] => false) = true ∧ s.pending = [] ∧ s.quiet 0 = true) ∧
    ({ vd0 with config := plain } : Vd).config.hbSlots = 0 ∧ office.hbLeaf 0 vd0 0 9 = none := by
  decide +kernel

/-- A request for 4 bytes of an agent at a location. -/
def asked4 (loc : Loc) : Ext := { agent := .queue 0, ctx := 0, loc, kind := .read 4, group := 3 }
/-- Endpoint 1 exposes handle 2 of context 0 to endpoint 4 of peer 9. -/
def exposing : State := { office with endpoints := [(1, BitVec.ofNat 128 (2 ^ 127 + 2 * 2 ^ 89 + 9 * 2 ^ 73 + 4 * 2 ^ 64))] }
def peerRead : PeerRequest := { endpoint := 1, peerId := 9, peerEp := 4, offset := 0, op := .read 4 }

theorem witness_LinkEvents :
    (∀ loc ∈ [Loc.host 0 64, Loc.peer 0 1 64], let s := { office with exts := [(7, asked4 loc), (8, asked4 (.host 0 128))] }
      look s.exts 7 = some (asked4 loc) ∧ ([1, 2, 3, 4] : List Byte).length = (asked4 loc).kind.size ∧ s.runs 0 = true ∧ s.qi? 0 = some qi0 ∧
      (drop s.exts 7).any (fun y => y.2.group == 3) = true) ∧
    (office.inbound = [] ∧ office.exposed peerRead = none ∧ exposing.exposed peerRead = some (0, 2)) ∧
    (let x : Inbound := { req := peerRead, wait := .none, answers := [], extData := [], extErr := [] }
     let s : State := { exposing with nextId := exposing.nextId + 1, inbound := [(exposing.nextId, x)] }
     (match s.hubRead (exposing.peerWho exposing.nextId 0 x) 2 0 4 (peerAlign 4) (permits 1) with | .ok b => b == [0x48, 0x4C, 0x4F, 0x31] | _ => false) = true) ∧
    (office.dieUp 3 = true ∧ 13 ≤ office.modules 3 ∧ 13 ≤ office.modules 4) ∧
    (let s : State := { office with training := [3], vds := [] }
     3 < s.links.length ∧ s.training.contains 3 = true ∧ 12 ≤ s.modules 3 ∧ s.residents = []) := by
  decide +kernel

/-! ### The package, its dies, and kills -/

def updating (phase since : Nat) : State := State.reset.onPkg fun p => { p with update := some { image := image2, slot := 1, phase, since } }

theorem witness_PowerBootAndFirmware :
    (∀ n ∈ List.range 7, let p := { State.reset.pkg with stage := n }
      p.ready = false ∧ p.tripped = false ∧ p.recovery = false ∧ p.dieless = false ∧ (p.stage = 1 → p.bootSlot.isSome = true)) ∧
    (let p := { State.reset.pkg with stage := 1, slots := [] }; p.dieless = false ∧ p.bootSlot = none) ∧
    (State.reset.pkg.update = none ∧ (updating 0 0).pkg.update.isSome = true ∧ State.reset.pkg.cls ≤ 2 ∧ State.reset.pkg.clsTarget = none ∧ State.reset.residents = []) ∧
    (let s := State.reset.onPkg fun p => { p with cls := 3, clk100 := 28 }; 2 < s.pkg.cls ∧ s.pkg.clsTarget = none ∧ s.pkg.clk100 ≠ 0) ∧
    (∀ c ∈ [2, 3], let s := State.reset.onPkg fun p => { p with clsTarget := some c }
      s.pkg.clsTarget = some c ∧ s.pkg.capped = false ∧ s.residents = []) ∧
    (∀ n ∈ [4, 7], ∀ u ∈ [none, (updating 0 0).pkg.update], let s := (updating 0 0).onPkg fun p => { p with stage := n, update := u }
      4 ≤ s.pkg.stage ∧ s.pkg.update = u ∧ s.pkg.signing = []) ∧ State.reset.pkg.stage < 4 ∧
    (image2.imports = true ∧ (updating 0 0).pkg.resetHeld = false ∧ (updating 0 0).mb.held = none ∧ (updating 0 0).qis = [] ∧
      ({ qi0 with extData := [(.dev 0, [])] } : Qi).partly = true ∧ qi0.stopped = false) ∧
    ((updating 1 0).time.toNat ≤ 2000000 ∧ (updating 1 0).pkg.signing = [] ∧ 2000000 ≤ ({ updating 1 0 with time := 2000000 } : State).time.toNat) ∧
    (let s := office.onPkg fun p => { p with standby := true }
     s.pkg.update = none ∧ s.pkg.ready = true ∧ s.pkg.signing = [] ∧ s.qis.all (fun e => !e.2.partly) = true) := by
  decide +kernel

/-- The temperatures that cross a threshold of a part; one below every throttle threshold, when none of them is 0. -/
theorem witness_PowerBootAndFirmware_temperatures : Config.throttleAt 0 ≤ Config.throttleAt 0 ∧ Config.tripAt 0 ≤ Config.tripAt 0 ∧
    ((∀ d, 0 < Config.throttleAt d) → 0 < Config.throttleAt 0 ∧ (State.reset.sense 0 0).pkg.hot = false) := by
  refine ⟨Nat.le_refl _, Nat.le_refl _, fun h => ⟨h 0, ?_⟩⟩
  have z : ∀ d, ([0, 0, 0, 0, 0, 0] : List Nat).getD d 0 = 0 := by intro d; rcases d with _ | _ | _ | _ | _ | _ | d <;> rfl
  have t : (State.reset.sense 0 0).pkg.temps = [0, 0, 0, 0, 0, 0] := rfl
  simp only [Package.hot, t, z]
  simp only [List.any_eq_false, List.mem_range, decide_eq_true_eq]
  intro d _ hd; exact absurd (h d) (by omega)

/-- A die at its throttle threshold is too hot. -/
theorem witness_PowerBootAndFirmware_hot : (State.reset.sense 0 (Config.throttleAt 0)).pkg.hotDies ≠ [] := by
  refine List.ne_nil_of_mem (a := 0) (List.mem_filter.mpr ⟨by decide, ?_⟩)
  show decide (Config.throttleAt 0 ≤ Config.throttleAt 0) = true
  exact decide_eq_true (Nat.le_refl _)

/-- A die at a step of its warm reset, and the gang of the machine on it no more. -/
def resetting (step : Nat) (isolated : Bool) : State :=
  ({ office with gangs := [], warps := [], crews := [], vds := [] } : State).onDie 0 fun x => { x with step, isolated, up := false }

theorem witness_DieEvents :
    (∀ n ∈ [2, 4, 5, 6, 7], let s := resetting n false
      0 < s.dies.length ∧ (s.die 0).step = n ∧ (s.die 0).isolated = false ∧ s.unitsOn 0 = [] ∧ s.pending = [] ∧ s.residents = [] ∧ s.wbuf = [] ∧
      s.atoms = []) ∧
    ((resetting 4 true).die 0).isolated = true ∧ (resetting 4 true).unanswered 0 = [] ∧ (resetting 4 true).atoms = [] ∧
    (let s : State := { resetting 4 false with atoms := [(7, req 0)] }; (s.die 0).step = 4 ∧ (req 0).onDie 0 = true) ∧
    (let s : State := { (office.onDie 0 fun x => { x with step := 2 }) with preempts := [{ saving 1 false with die := some 0 }], vds := [(0, { vd0 with config := { plain with deadline := 20 } })] }
     (s.parts unit0).any (fun p => decide (s.deadline p ≤ s.cycleOf p.core)) = true ∧ (s.die 0).step = 2) ∧
    (let s : State := { office with ctxs := [], vds := [] }
     (s.die 0).up = true ∧ (s.die 0).isolated = false ∧ (s.die 0).step = 0 ∧ s.probes = [] ∧ s.qis.all (fun e => e.2.records == []) = true) ∧
    (3 ∉ office.pkg.chanOut ∧ 3 ∈ (office.onPkg fun p => { p with chanOut := [3] }).pkg.chanOut) ∧
    (let s := office.onMb fun m => { m with alarmLevel := 1 }; alarmLevelOf (satAdd 0xFFFF s.mb.alarmCount 1) s.mb.alarmCfg ≤ s.mb.alarmLevel) := by
  decide +kernel

/-- A kill of the context is in progress, its engines done so far as given. -/
def killing (done : Nat) : State := office.onCtx 0 fun x => { x with kill := some { killOf 0 true with done } }

theorem witness_KillAndDrain :
    (office.runs 0 = true ∧ Cls.perm ≠ Cls.world ∧ Cls.perm ≠ Cls.killed ∧ (killing 0).runs 0 = false) ∧
    (∀ n ∈ List.range 10, let s := killing 0
      ((s.ctx? 0).bind (·.kill)).any (fun k => !k.done.testBit n && (k.done ||| 2 ^ n) != 1023) = true ∧ s.drained 0 n = true) ∧
    (let s := killing 1023; ((s.ctx? 0).bind (·.kill)).any (fun k => k.done == 1023) = true ∧ s.drained 0 10 = true ∧ s.mb.wait = none) ∧
    (let s : State := { killing 0 with exts := [(7, asked4 (.host 0 64))] }
     s.drained 0 9 = false ∧ drainTimeout 9 ≤ s.time.toNat ∧ s.killAwaited 0 = false) := by
  decide +kernel

/-! ### Encodings that are refused, and values that the spec works out -/

theorem witness_EncodingRoundTrip : wellFormed .lane false (.iadd { f96 with d := 3, a := 1, b := 2047, imm := 5, pn := true, pm := 3 }) = true ∧
    wellFormed .lane true (.nop { f96 with form := .w32 }) = true ∧ wellFormed .lead false (.sadd { f96 with d := 3, a := 4, b := 5 }) = true := by
  decide +kernel

theorem witness_OneMeaningPerEncoding : (splitWords [0x68]).any (fun e => e.1 == 13) = true ∧
    (splitWords [0x000001E0 ||| 0x1F80]).any (fun e => decide (e.1 < 13 ∧ e.2.1 = 63)) = true ∧
    decodeWords .lane false [0x000001E0 ||| 0x1F80] = .error (.illegal .operation) ∧ decodeWords .lane false [0x60, 7] = .ok (.nop { f96 with form := .w32 }) := by
  decide +kernel

/-- Why an instruction is not well-formed in a stream. -/
def whyNot (st : Stream) (loose : Bool) (i : Instr) : Option IllegalWhy := (isaOf i).bind fun e => illegal? st loose e.1 e.2.1 e.2.2

/-- One ill-formed term for each check (R39, R53 to R63, Table 3.12). -/
theorem test_wf_refuses :
    [(Stream.lane, false, Instr.iadd { f96 with mod := 15 }, some IllegalWhy.modFn), (.lead, false, .iadd f96, some .stream),
      (.lane, true, .ubr { f96 with imm := 4 }, some .loose), (.lane, false, .iadd { f96 with c := 1 }, some .unusedReg),
      (.lane, false, .iadd { f96 with tc := true }, some .policy), (.lane, false, .iadd { f96 with imm := 5 }, some .immediate),
      (.lane, false, .iadd { f96 with pn := true }, some .predicate), (.lane, false, .icmp { f96 with a := 1, b := 2 }, some .maskZero),
      (.lane, false, .nop { f96 with live := some 0x80000000#32 }, some .liveness)].all (fun e =>
        whyNot e.1 e.2.1 e.2.2.1 == e.2.2.2 && !wellFormed e.1 e.2.1 e.2.2.1) = true ∧
    wellFormed .lane false (.iadd { f96 with form := .w32, mod := 1 }) = false ∧ isaOf (.flitCrcError 0) = none ∧
    wellFormed .lane false (.flitCrcError 0) = false ∧ decodeWords .lane false [] = .error .short ∧ decodeWords .lane false [0x62, 0] = .error .short := by
  decide +kernel

/-- The register that an instruction leaves in lane 31 of the machine with these registers. -/
def writes (v : SMap Word) (i : Instr) (r : Nat) : Option Word :=
  match exec i (machine v [] both) with
  | .next t => (t.warp? 0 0).bind fun w => look (w.lane 31).v r
  | _ => none

/-- A sum wraps; the high half of a signed product; |−2^31| saturates with .sat only (R190). -/
theorem test_integer : writes [(6, 0xFFFFFFFF#32), (12, 2)] (.iadd { fab with b := 12 }) 4 = some 1 ∧
    writes [(6, 0xFFFFFFFE#32), (12, 3)] (.imulh { fab with b := 12 }) 4 = some 0xFFFFFFFF#32 ∧
    writes [(6, 0x80000000#32)] (.iabs fa) 4 = some 0x80000000#32 ∧ writes [(6, 0x80000000#32)] (.iabs { fa with fn := 1 }) 4 = some 0x7FFFFFFF#32 := by
  decide +kernel

/-- idp4.s8.sat: 127·1 + 3·1 + 2·(−1) + 1·(−128), with 5 (R191). -/
theorem test_dot : writes [(6, 0x0102037F#32), (10, 5), (12, 0x80FF0101#32)] (.idp4 { fabc with b := 12, mod := 4, fn := 1 }) 4 = some 5 := by
  decide +kernel

/-- 1.5 · 2 = 3 (R101). -/
theorem test_float : writes [(6, 0x3FC00000#32), (12, 0x40000000#32)] (.fmul { fab with b := 12 }) 4 = some 0x40400000#32 := by decide +kernel

/-- 464 rounds to 448 in e4m3 without an overflow; 7 rounds to 6 in e2m1 with one; 5 goes up to 6 (R103, R114). -/
theorem test_rounding : (fltOf 3).round .rne false (Val.ofInt 464) = (0x7E, []) ∧ (fltOf 7).round .rne false (Val.ofInt 7) = (7, [2]) ∧
    (fltOf 7).round .rup false (Val.ofInt 5) = (7, []) := by decide +kernel

/-- The block of 5, −0.3 and 0.01 in txb8 and in mxf8e4m3, and the one of 63.9 (R108, R111). -/
theorem test_blocks :
    let xs := [Val.ofInt 5, .fin true 0x99999A (-25), .fin false 0xA3D70A (-30)] ++ List.replicate 29 (Val.zero false)
    ((txbEncode 0x10 xs).elems.take 4, (txbEncode 0x10 xs).exps) = ([0x28, 0x42, 0x85, 0], [0x7C, 0x76]) ∧
    ((mxEncode 0x13 xs).elems.take 4, (mxEncode 0x13 xs).exps) = ([0x7A, 0xDA, 0x32, 0], [0x79]) ∧
    (let b := txbEncode 0x10 [Val.div (Val.ofInt 639) (Val.ofInt 10)]; (b.elems, b.exps) = ([32], [128, 122])) := by
  decide +kernel

/-- The offsets of lanes 0, 2, 5 and 7 at a handle of 0x3000 bytes (R226). -/
def offsets (l2 l5 l : Nat) : Nat := if l = 2 then l2 else if l = 5 then l5 else if l = 7 then 0x2800 else 0x100
def outcome (l2 l5 : Nat) : GroupOut :=
  let s := m0.onCtx 0 fun x => { x with handles := x.handles ++ [(9, region 0 3 4 0 0x3000)] }
  groupOut 0xA5 fun l => s.access ((s.warp? 0 0).elim (qi0.who 0) fun w => s.laneWho 0 0 w l) 9 (offsets l2 l5 l)
    { w := 4, align := 4, acc := 1, ok4 := permits 1 }
/-- One load, its first two outcomes: MISALIGN in lane 5 alone, then BOUNDS in lane 2 alone. -/
theorem test_load_faults : outcome 0x3000 0x2FFE = .fault Cls.misalign 0x20 0 ∧ outcome 0x3000 0x2FFC = .fault Cls.bounds 4 0 ∧
    outcome 0x2FF0 0x2FFC = .ok := by decide +kernel

/-- Lanes 0 to 3 add 1 to 4 to a word of 10 in turn (R249). -/
theorem test_atomic_order : ([1, 2, 3, 4].foldl (fun (a : List Nat × Nat) c => (a.1 ++ [a.2], ((atomValue 0 1 0 a.2 c 0).1).getD a.2)) ([], 10)) =
    ([10, 11, 13, 16], 20) := by decide +kernel

/-- A barrier of 3 in phase 5; arrivals of 1 and 2 end the phase; one of 4 changes nothing (R252). -/
theorem test_barrier :
    let a (n m : Nat) : AtomReq := { req 0x0D with operand := [w64 n, w64 m] }
    let s := ((((asked (a 3 5)).performBinit 7 (a 3 5)).performArrive 7 (a 1 0)).performArrive 7 (a 2 0)).performArrive 7 (a 4 0)
    s.mem.readN 64 16 = [6, 0, 0, 0, 3, 0, 0, 0, 3, 0, 0, 0, 1, 0, 0, 0] ∧ (look s.atoms 7).bind (·.reply) = some [6, 2] := by
  decide +kernel

/-- CRC-32C of "123456789", and SHA-256 of "abc", as their standards give them. -/
theorem test_digests : crc32c [0x31, 0x32, 0x33, 0x34, 0x35, 0x36, 0x37, 0x38, 0x39] = 0xE3069283#32 ∧
    (sha256 [0x61, 0x62, 0x63]).take 8 = [0xBA, 0x78, 0x16, 0xBF, 0x8F, 0x01, 0xCF, 0xEA] := by decide +kernel

/-- A word is stored low byte first (R1). -/
theorem test_byte_order : (Memory.writeN [] 4 (bytesOf 4 0x12345678)) = [(4, 0x78), (5, 0x56), (6, 0x34), (7, 0x12)] := by decide +kernel

end Sys2Proof.Tests
end

section
/-! Device memory as stores and reads see it: numbers as bytes, bytes read back, what a store leaves alone, and the one
canonical memory of given bytes. -/

namespace Sys2Proof.Machine

/-! ### Numbers and bytes -/

theorem bytesOf_succ (n x : Nat) : bytesOf (n + 1) x = BitVec.ofNat 8 x :: bytesOf n (x / 256) := by
  have shift : ∀ i, x / 2 ^ (8 * (i + 1)) = x / 256 / 2 ^ (8 * i) := fun i => by
    rw [Nat.div_div_eq_div_mul, Nat.mul_succ, Nat.pow_add, Nat.mul_comm]
  simp [bytesOf, List.range_succ_eq_map, Function.comp_def, shift]

/-- Bytes hold the number they were taken from, as far as they reach (R1). -/
theorem natOf_bytesOf (n x : Nat) : natOf (bytesOf n x) = x % 2 ^ (8 * n) := by
  induction n generalizing x with
  | zero => simp [bytesOf, natOf, Nat.mod_one]
  | succ n ih =>
    calc natOf (bytesOf (n + 1) x) = x % 256 + 256 * (x / 256 % 2 ^ (8 * n)) := by simp [bytesOf_succ, natOf, ih]
      _ = x % (256 * 2 ^ (8 * n)) := (Nat.mod_mul ..).symm
      _ = x % 2 ^ (8 * (n + 1)) := by rw [Nat.mul_succ, Nat.pow_add, Nat.mul_comm]

/-! ### Bytes read back -/

theorem Memory.readN_writeN {m : Memory} (h : m.wf = true) (a : Nat) (bs : List Byte) :
    (m.writeN a bs).readN a bs.length = bs := by
  refine List.ext_getElem (by simp [Memory.readN]) fun k _ hk => ?_
  simpa [Memory.readN] using Memory.read_writeN_in h a bs hk

theorem State.store_readN {s : State} (h : s.memOk) (pa : Nat) (bs : List Byte) :
    (s.store pa bs).mem.readN pa bs.length = bs := Memory.readN_writeN h pa bs

/-! ### What a store leaves alone -/

/-- A later write reaches nothing of a buffered store but its bytes. -/
theorem WEntry.under_frame (e : WEntry) (pa : Nat) (bs : List Byte) :
    { e.under pa bs with bytes := [] } = { e with bytes := [] } := by
  unfold WEntry.under
  split
  · split <;> rfl
  · rfl

theorem State.store_wbuf (s : State) (pa : Nat) (bs : List Byte) :
    (s.store pa bs).wbuf = s.wbuf.map fun e => e.under pa bs := rfl

theorem State.store_wbuf_frame (s : State) (pa : Nat) (bs : List Byte) :
    (s.store pa bs).wbuf.map (fun e => { e with bytes := [] }) = s.wbuf.map (fun e => { e with bytes := [] }) := by
  simp [State.store_wbuf, WEntry.under_frame]

theorem State.store_frame (s : State) (pa : Nat) (bs : List Byte) :
    { s.store pa bs with mem := s.mem, warps := s.warps, images := s.images, wbuf := s.wbuf, syncs := s.syncs } = s := rfl

/-! ### The canonical memory of given bytes -/

@[simp] theorem Memory.read_cons_self (c : Host.Cell) (m : Memory) : Memory.read (c :: m) c.1 = c.2 := by
  simp [Memory.read]

theorem Memory.read_cons_ne (c : Host.Cell) (m : Memory) {a : Nat} (h : a ≠ c.1) :
    Memory.read (c :: m) a = m.read a := by
  simp [Memory.read, h.symm]

theorem Memory.read_head_ne_unlisted {c : Host.Cell} {m : Memory} (h : Memory.wf (c :: m) = true) :
    Memory.read (c :: m) c.1 ≠ unlisted := by
  simpa using ((Memory.wf_cons c m).1 h).1

/-- The addresses rise, so the tail lists nothing at the first address. -/
theorem Memory.read_tail {c : Host.Cell} {m : Memory} (h : Memory.wf (c :: m) = true) (a : Nat) :
    m.read a = if a = c.1 then unlisted else Memory.read (c :: m) a := by
  obtain ⟨-, hhead, hm⟩ := (Memory.wf_cons c m).1 h
  split
  case isTrue ha => exact Memory.read_below hm (ha ▸ hhead)
  case isFalse ha => exact (Memory.read_cons_ne c m ha).symm

/-- Were the other memory to begin above `c`, it would list nothing at `c.1`. -/
theorem Memory.head_le_of_read_eq {c d : Host.Cell} {m n : Memory} (hm : Memory.wf (c :: m) = true)
    (hn : Memory.wf (d :: n) = true) (hread : ∀ a, Memory.read (c :: m) a = Memory.read (d :: n) a) : d.1 ≤ c.1 := by
  by_contra hlt
  have hbelow : Memory.read (d :: n) c.1 = unlisted := Memory.read_below hn (by simpa using hlt)
  exact Memory.read_head_ne_unlisted hm ((hread c.1).trans hbelow)

/-- By induction along the cells: the memories agree on the first cell, and hence on what their tails read. -/
theorem Memory.eq_of_read_eq {m n : Memory} (hm : m.wf = true) (hn : n.wf = true) (hread : ∀ a, m.read a = n.read a) :
    m = n := by
  induction m generalizing n with
  | nil =>
    cases n with
    | nil => rfl
    | cons d n => exact absurd (hread d.1).symm (Memory.read_head_ne_unlisted hn)
  | cons c m ih =>
    cases n with
    | nil => exact absurd (hread c.1) (Memory.read_head_ne_unlisted hm)
    | cons d n =>
      have haddr : c.1 = d.1 := Nat.le_antisymm (Memory.head_le_of_read_eq hn hm fun a => (hread a).symm)
        (Memory.head_le_of_read_eq hm hn hread)
      have hbyte : c.2 = d.2 := by rw [← Memory.read_cons_self c m, hread, haddr, Memory.read_cons_self]
      have htail : m = n := ih (Memory.wf_tail hm) (Memory.wf_tail hn) fun a => by
        rw [Memory.read_tail hm, Memory.read_tail hn, haddr, hread]
      rw [Prod.ext haddr hbyte, htail]

/-- Settles O28: the bytes of a number are the number again, a store is a read after write on canonical memory, and a
canonical memory is determined by what it reads. -/
theorem memoryOfBytes : Obligations.MemoryOfBytes := by
  unfold Obligations.MemoryOfBytes
  refine ⟨fun s pa n v h => ?_, fun s pa a bs ha => s.store_read_out pa bs ha, fun s pa bs h => State.store_memOk h pa bs,
    fun s pa bs => ⟨s.store_frame pa bs, s.store_wbuf_frame pa bs⟩, fun m n => Memory.eq_of_read_eq⟩
  have hread := State.store_readN h pa (bytesOf n v)
  rw [bytesOf_length] at hread
  rw [hread, natOf_bytesOf]

end Sys2Proof.Machine
end

section
/-! What carrying out gives: an instruction of a stream is an issue, which goes on for a thread that stands in its slot, and
an operation or event goes on in every state. -/

namespace Sys2Proof.Machine

/-- Every instruction of the two streams is an issue; every operation and event has a next state in every state: those
that look up what they name have one whether it is there or not. -/
theorem exec_issue_or_next (i : Instr) (s : State) :
    (∃ eng op f, isaOf i = some (eng, op, f) ∧ ∃ div k kl, exec i s = issue eng op f s div k kl) ∨
      (isaOf i = none ∧ ∃ t, exec i s = .next t) := by
  cases i
  -- Operations and events that find what they act on by themselves.
  case coldReset | bootStageComplete | throttleThresholdCrossed | throttleRecovery | tripThresholdCrossed | flr |
      forcedPublish | leaseExpiry | macroCrcScrub | kick | pwptrWrite | evrptrWrite | qstatClear | nopPacket | launch |
      ibCall | setHandle | writeData | waitValue | signal | graphReg | graphDrop | freqHint | measurePacket | receipt |
      fencePacket | activeComplexFailure | mgmtRing | infoRead | pkgReset | vdCreate | vdAdmit | vdResize | vdEvict |
      vdReset | vdDestroy | ctxCreate | ctxKill | ctxDestroy | ctxSetroot | qiBind | qiUnbind | qiRestart | alarmClear |
      fwImage | fwRecover | epSet | dieReset | rcptKey | mailboxBadOpcode | mgrptrWrite | mgdropClear | fqrptrWrite |
      qrestart | plainRegisterWrite | atsInvalidationRequest | pcieCompletion | pcieCompletionTimeout |
      inboundPoisonedRequest | cihamResponse | cihamRequestTimeout | flitCrcError | linkModuleFailure |
      clockSupplyGlitch | dieUnitsSaved | dieQuiesced | dieWritebackDone | dieSelftestDone | dieLinkRetrained |
      receiptSignatureComplete | vdScrubComplete | priReenable | meteringWindowEnd | hbmChannelLeaveOrRejoin =>
    exact .inr ⟨rfl, _, rfl⟩
  -- Those that look up what they name.
  case clockClassChangeDone | atomicRequestPerform | bwaitRetry | badgerCreditRelease | replyArrival | producerWriteback |
      guardRequestRetry | releaseWritebackComplete | leaseGrant | dieIsolation | matrixCommandStart |
      matrixCommandComplete | matrixEngineHang | copyStart | copyComplete | gangPlacement | gangReservation |
      continuationGatherTimeout | continuationPlacement | continuationRemotePlacement | overflowRecordReturn |
      parkedUnitSave | parkedUnitRestore | preemptionDecision | fullSaveTimeout | drainDeadlineExpiry | gangSaveComplete |
      gangRestore | owlScan | maxrunOverrun | kickLaunch | waitValueSatisfied | invalidPacket | taskDependenceRelease |
      measureHashing | taskCompletionPoint | eventInterruptTimer | liveUpdateTakeover | liveUpdateRollback | invsub |
      invalidationComplete | fresp | pageWalkComplete | faultRecordDeferredWrite | hbPageServiceComplete |
      atsTranslationCompletion | pageRequestGroupResponse | atsInvalidationCompletion | cihamInboundRequest |
      linkRetrainComplete | engineDrainDone | killDrainTimeout | standbyImportComplete | dieSaveDeadlineExpiry |
      homeDirectoryRequest =>
    refine .inr ⟨rfl, ?_⟩
    simp only [exec, execClockClassChangeDone, execAtomicRequestPerform, execBwaitRetry, execBadgerCreditRelease, execReplyArrival,
      execProducerWriteback, execGuardRequestRetry, execReleaseWritebackComplete, execLeaseGrant, execDieIsolation,
      execMatrixCommandStart, execMatrixCommandComplete, execMatrixEngineHang, execCopyStart, execCopyComplete,
      execGangPlacement, execGangReservation, execContinuationGatherTimeout, execContinuationPlacement,
      execContinuationRemotePlacement, execOverflowRecordReturn, execParkedUnitSave, execParkedUnitRestore,
      execPreemptionDecision, execFullSaveTimeout, execDrainDeadlineExpiry, execGangSaveComplete, execGangRestore,
      execOwlScan, execMaxrunOverrun, execKickLaunch, execWaitValueSatisfied, execInvalidPacket,
      execTaskDependenceRelease, execMeasureHashing, execTaskCompletionPoint, execEventInterruptTimer,
      execLiveUpdateTakeover, execLiveUpdateRollback, execInvsub, execInvalidationComplete, execFresp,
      execPageWalkComplete, execFaultRecordDeferredWrite, execHbPageServiceComplete, execAtsTranslationCompletion,
      execPageRequestGroupResponse, execAtsInvalidationCompletion, execCihamInboundRequest, execLinkRetrainComplete,
      execEngineDrainDone, execKillDrainTimeout, execStandbyImportComplete, execDieSaveDeadlineExpiry,
      execHomeDirectoryRequest]
    (repeat' split) <;> exact ⟨_, rfl⟩
  -- The instructions of the two streams.
  all_goals exact .inl ⟨_, _, _, rfl, _, _, _, rfl⟩

/-- An operation or event has a next state. -/
theorem exec_event_next {i : Instr} (h : isaOf i = none) (s : State) : ∃ t, exec i s = .next t := by
  rcases exec_issue_or_next i s with ⟨eng, op, f, hi, -⟩ | ⟨-, ht⟩
  · rw [h] at hi; cases hi
  · exact ht

/-- The thread that `cur` names stands in its slot. -/
def State.threaded (s : State) : Prop :=
  (∃ core slot g w, s.cur = .lanes core slot g ∧ s.warp? core slot = some w) ∨
    ∃ core slot c, s.cur = .lead core slot ∧ s.crew? core slot = some c

theorem State.threaded_lanes {s : State} {core slot : Nat} {w : Warp} (h : s.warp? core slot = some w) (g : Word) :
    ({ s with cur := .lanes core slot g } : State).threaded := .inl ⟨core, slot, g, w, rfl, h⟩

theorem State.threaded_lead {s : State} {core slot : Nat} {c : Crew} (h : s.crew? core slot = some c) :
    ({ s with cur := .lead core slot } : State).threaded := .inr ⟨core, slot, c, rfl, h⟩

theorem issue_next {s : State} (h : s.threaded) (eng op : Nat) (f : Fields) (div : State → Iss → Option Word)
    (k : State → Iss → State) (kl : State → LIss → State) : ∃ t, issue eng op f s div k kl = .next t := by
  rcases h with ⟨core, slot, g, w, hc, hw⟩ | ⟨core, slot, c, hc, hw⟩
  · exact ⟨issueLanes eng op f s core slot g w div k, by simp only [issue, hc, hw]⟩
  · exact ⟨issueLead eng op f s core slot c kl, by simp only [issue, hc, hw]⟩

/-- Where a thread issues, whatever is carried out has a next state. -/
theorem exec_next {s : State} (h : s.threaded) (i : Instr) : ∃ t, exec i s = .next t := by
  rcases exec_issue_or_next i s with ⟨eng, op, f, -, div, k, kl, hi⟩ | ⟨-, ht⟩
  · rw [hi]; exact issue_next h eng op f div k kl
  · exact ht

end Sys2Proof.Machine
end

section
/-! The step goes on: fetching, the cycles of a core, the turns and the timers, each with its next state, and what a step
with a scheduled event is (R12, R359). -/

namespace Sys2Proof.Machine

/-! ### Fetching -/

/-- What a group is due goes on: nothing issues, or an instruction of a warp that stands in its slot. -/
theorem fetchGroup_go_next (s : State) (core slot : Nat) (g : Word) : ∃ t, (s.fetchGroup core slot g).go exec = .next t := by
  unfold State.fetchGroup
  cases hw : s.warp? core slot with
  | none => exact ⟨_, rfl⟩
  | some w =>
    dsimp only
    split
    · split
      · exact exec_next (State.threaded_lanes hw g) _
      · exact ⟨_, rfl⟩
    all_goals exact ⟨_, rfl⟩

theorem fetchLead_go_next (s : State) (core slot : Nat) : ∃ t, (s.fetchLead core slot).go exec = .next t := by
  unfold State.fetchLead
  cases hc : s.crew? core slot with
  | none => exact ⟨_, rfl⟩
  | some c =>
    dsimp only
    split
    · split
      · exact exec_next (State.threaded_lead hc) _
      · exact ⟨_, rfl⟩
    all_goals exact ⟨_, rfl⟩

/-! ### The cycles of a core -/

theorem issueGroup_next (core slot : Nat) (g : Word) (after : List Word) (s : State) :
    ∃ b t, issueGroup exec core slot g after s = (b, .next t) := by
  obtain ⟨t, ht⟩ := fetchGroup_go_next { s with second := if after = [] then none else some (core, slot, after) } core slot g
  unfold issueGroup
  simp only [ht]
  split <;> exact ⟨_, _, rfl⟩

theorem issueFirst_next (w : Warp) (core slot : Nat) (gs : List Word) (s : State) :
    ∃ b t, issueFirst exec w core slot gs s = (b, .next t) := by
  induction gs generalizing s with
  | nil => exact ⟨_, _, rfl⟩
  | cons g gs ih =>
    have first (s : State) : ∃ b t, (match issueGroup exec core slot g (s.beside core slot g (w.seconds gs)) s with
        | (false, .next t) => issueFirst exec w core slot gs t
        | x => x) = (b, .next t) := by
      obtain ⟨b, t, hg⟩ := issueGroup_next core slot g (s.beside core slot g (w.seconds gs)) s
      rw [hg]
      cases b with
      | false => exact ih t
      | true => exact ⟨_, _, rfl⟩
    unfold issueFirst
    dsimp only
    split
    case h_1 h _ _ =>
      split
      · obtain ⟨b, t, hh⟩ := issueGroup_next core slot h [] s
        rw [hh]
        cases b with
        | false => exact first t
        | true => exact ⟨_, _, rfl⟩
      · exact first s
    case h_2 => exact first s

theorem issueWarps_next (core : Nat) (slots : List Nat) (s : State) : ∃ t, issueWarps exec core slots s = .next t := by
  induction slots generalizing s with
  | nil => exact ⟨_, rfl⟩
  | cons slot slots ih =>
    unfold issueWarps
    split
    case h_1 => exact ih s
    case h_2 w _ =>
      obtain ⟨b, t, hf⟩ := issueFirst_next w core slot w.groups (s.ageGroups core slot)
      rw [hf]
      cases b with
      | false => exact ih _
      | true => exact ⟨_, rfl⟩

theorem issueSecond_next (core slot : Nat) (gs : List Word) (s : State) : ∃ t, issueSecond exec core slot gs s = .next t := by
  induction gs generalizing s with
  | nil => exact ⟨_, rfl⟩
  | cons g gs ih =>
    unfold issueSecond
    split
    case h_1 => exact ⟨_, rfl⟩
    case h_2 w _ =>
      obtain ⟨t, ht⟩ := fetchGroup_go_next s core slot g
      simp only [ht]
      split
      · split
        · exact ih t
        · exact ⟨_, rfl⟩
      · exact ih s

theorem issueLeads_next (core : Nat) (slots : List Nat) (s : State) : ∃ t, issueLeads exec core slots s = .next t := by
  induction slots generalizing s with
  | nil => exact ⟨_, rfl⟩
  | cons slot slots ih =>
    obtain ⟨t, ht⟩ := fetchLead_go_next s core slot
    unfold issueLeads
    simp only [ht]
    split
    · split
      · exact ih t
      · exact ⟨_, rfl⟩
    · exact ih s

theorem badgerIssue_next (k id : Nat) (s : State) : ∃ t, badgerIssue exec k id s = .next t := by
  obtain ⟨t, ht⟩ := exec_event_next (i := .atomicRequestPerform id) rfl
    { s with badgers := if s.tenantReady (k * 16) then k :: s.badgers.filter (· != k) else s.badgers.filter (· != k) }
  exact ⟨t.ageWarps (k * 16) 15, by simp only [badgerIssue, ht]⟩

theorem issueCore_next (core : Nat) (s : State) : ∃ t, issueCore exec core s = .next t := by
  unfold issueCore
  dsimp only
  generalize (if core % 16 = 0 ∧ s.badgerYields (core / 16) = false then s.badgerNext (core / 16) else none) = due
  cases due with
  | none => exact issueWarps_next core _ _
  | some id => exact badgerIssue_next _ id s

/-! ### Turns -/

theorem takeTurn_event {i : Instr} (h : isaOf i = none) (hp : ∀ id, i ≠ .atomicRequestPerform id) (s : State) :
    takeTurn exec (.event i) s = exec i s := by
  unfold takeTurn
  split
  case h_3 id he => exact absurd (Turn.event.inj he) (hp id)
  case h_4 j _ he => cases he; simp [h]
  all_goals contradiction

theorem takeTurn_perform (id : Nat) (s : State) : takeTurn exec (.event (.atomicRequestPerform id)) s =
    match (look s.atoms id).bind (·.badger) with
    | some k => if s.badgerYields k then .next s else badgerIssue exec k id s
    | none => exec (.atomicRequestPerform id) s := rfl

/-- A timer is an event of the part, or the end of the saves that a mailbox command waits for. -/
def IsTimer (f : Timer) : Prop := (∃ i, isaOf i = none ∧ f = exec i) ∨ f = fun s => .next s.finishSaves

theorem IsTimer.event {i : Instr} (h : isaOf i = none) : IsTimer (exec i) := .inl ⟨i, h, rfl⟩

theorem IsTimer.next {f : Timer} (h : IsTimer f) (s : State) : ∃ t, f s = .next t := by
  rcases h with ⟨i, hi, rfl⟩ | rfl
  · exact exec_event_next hi s
  · exact ⟨_, rfl⟩

theorem State.isTimer_unitTimers {s : State} {f : Timer} (h : f ∈ s.unitTimers) : IsTimer f := by
  simp only [State.unitTimers, List.mem_append, List.mem_flatMap, List.mem_cons, List.not_mem_nil, or_false] at h
  rcases h with ⟨x, -, rfl | rfl⟩ | ⟨u, -, rfl | rfl | rfl | rfl⟩
  · exact .event (i := .fullSaveTimeout x.unit) rfl
  · exact .event (i := .drainDeadlineExpiry x.unit) rfl
  · exact .event (i := .owlScan u) rfl
  · exact .event (i := .maxrunOverrun u) rfl
  · exact .event (i := .parkedUnitSave u) rfl
  · exact .event (i := .preemptionDecision u) rfl

theorem State.isTimer_workTimers {s : State} {f : Timer} (h : f ∈ s.workTimers) : IsTimer f := by
  simp only [State.workTimers, List.mem_append, List.mem_flatMap, List.mem_map, List.mem_ite_nil_right, List.mem_singleton] at h
  rcases h with ((⟨e, -, k, -, rfl⟩ | ⟨-, -, l, -, rfl⟩) | ⟨e, -, -, rfl⟩) | ⟨e, -, -, n, -, rfl⟩
  · exact .event (i := .gangReservation e.1 k) rfl
  · exact .event (i := .leaseExpiry l.core l.line) rfl
  · exact .event (i := .eventInterruptTimer e.1) rfl
  · exact .event (i := .killDrainTimeout e.1 n) rfl

theorem State.isTimer_dieTimers {s : State} {f : Timer} (h : f ∈ s.dieTimers) : IsTimer f := by
  simp only [State.dieTimers, List.mem_append, List.mem_flatMap, List.mem_map, List.mem_cons, List.not_mem_nil, or_false] at h
  obtain ⟨d, -, (rfl | rfl | rfl | rfl | rfl) | ⟨x, -, rfl⟩⟩ := h
  · exact .event (i := .dieUnitsSaved d) rfl
  · exact .event (i := .dieQuiesced d) rfl
  · exact .event (i := .dieWritebackDone d) rfl
  · exact .event (i := .dieSelftestDone d true) rfl
  · exact .event (i := .dieLinkRetrained d true) rfl
  · exact .event (i := .dieSaveDeadlineExpiry d x.unit) rfl

theorem State.isTimer_firmwareTimers {s : State} {f : Timer} (h : f ∈ s.firmwareTimers) : IsTimer f := by
  simp only [State.firmwareTimers, List.mem_append, List.mem_ite_nil_right, List.mem_cons, List.not_mem_nil, or_false] at h
  rcases h with (h | ⟨-, rfl⟩) | ⟨-, rfl | rfl | rfl⟩
  · split at h
    case h_1 vd _ => exact List.mem_singleton.mp h ▸ .event (i := .vdScrubComplete vd) rfl
    case h_2 => exact .inr (List.mem_singleton.mp h)
    case h_3 => cases h
  · exact .event (i := .clockClassChangeDone) rfl
  · exact .event (i := .standbyImportComplete true) rfl
  · exact .event (i := .liveUpdateTakeover) rfl
  · exact .event (i := .liveUpdateRollback) rfl

theorem State.isTimer_timers {s : State} {f : Timer} (h : f ∈ s.timers) : IsTimer f := by
  simp only [State.timers, List.mem_append] at h
  rcases h with ((h | h) | h) | h
  · exact State.isTimer_unitTimers h
  · exact State.isTimer_workTimers h
  · exact State.isTimer_dieTimers h
  · exact State.isTimer_firmwareTimers h

theorem takeTurn_next (t : Turn) (s : State) : ∃ u, takeTurn exec t s = .next u := by
  unfold takeTurn
  split
  case h_1 core => exact issueCore_next core s
  case h_2 core => exact issueLeads_next core _ s
  case h_3 id =>
    split
    case h_1 k _ =>
      split
      · exact ⟨_, rfl⟩
      · exact badgerIssue_next k id s
    case h_2 => exact exec_event_next rfl s
  case h_4 i _ =>
    split
    case isTrue => exact ⟨_, rfl⟩
    case isFalse h => exact exec_event_next (Option.not_isSome_iff_eq_none.mp h) s

/-! ### The step -/

theorem step_tripped {s : State} (h : s.pkg.tripped = true) : step s = stepTripped exec s := by
  simp [step, stepWith, h]

theorem step_scheduled {s : State} {t : Turn} {r : List Turn} (h : s.pkg.tripped = false) (h2 : s.second = none)
    (hi : s.inbox = t :: r) : step s = takeTurn exec t { s.tick with inbox := r } := by
  simp [step, stepWith, h, h2, hi]

theorem stepTripped_idle {s : State} (h : ∀ r, s.inbox ≠ .event .coldReset :: r) :
    stepTripped exec s = .next { s with inbox := s.inbox.drop 1 } := by
  unfold stepTripped
  split
  case h_1 r hr => exact absurd hr (h r)
  case h_2 => rfl

theorem stepTripped_coldReset {s : State} {r : List Turn} (h : s.inbox = .event .coldReset :: r) :
    stepTripped exec s = exec .coldReset { s with inbox := r } := by
  simp [stepTripped, h]

theorem step_next (s : State) : ∃ t, step s = .next t := by
  cases htrip : s.pkg.tripped with
  | true =>
    rw [step_tripped htrip]
    unfold stepTripped
    split <;> exact ⟨_, rfl⟩
  | false =>
    unfold step stepWith
    simp only [htrip, Bool.false_eq_true, if_false]
    split
    case h_1 core slot gs _ => exact issueSecond_next core slot gs _
    case h_2 =>
      split
      case h_1 t r _ => exact takeTurn_next t _
      case h_2 =>
        split
        · split
          case h_1 => exact ⟨_, rfl⟩
          case h_2 f hf => exact (State.isTimer_timers (List.mem_of_getElem? hf)).next _
        · split
          case h_1 => exact ⟨_, rfl⟩
          case h_2 t _ => exact takeTurn_next t _

theorem badgerIssue_of_perform {k id : Nat} {s t : State} {bs : List Nat}
    (hbs : bs = if s.tenantReady (k * 16) then k :: s.badgers.filter (· != k) else s.badgers.filter (· != k))
    (h : exec (.atomicRequestPerform id) { s with badgers := bs } = .next t) :
    badgerIssue exec k id s = .next (t.ageWarps (k * 16) 15) := by
  subst hbs
  simp only [badgerIssue, h]

/-- Settles O26: every turn ends in a next state, since an instruction is carried out only for a thread that stands in its
slot, and whatever else is carried out has a next state everywhere. -/
theorem stepsGoOn : Obligations.StepsGoOn := by
  unfold Obligations.StepsGoOn
  refine ⟨step_next, fun s i r hup h2 hin hi hp => ?_, fun s v id r hup h2 hin hv => ?_, fun s hup hin => ?_,
    fun s r hup hin => ?_⟩
  · rw [step_scheduled hup h2 hin, takeTurn_event hi hp]
  · have hturn : step s = takeTurn exec (.event (.atomicRequestPerform id)) v := hv ▸ step_scheduled hup h2 hin
    have hatoms : v.atoms = s.atoms := hv ▸ rfl
    have hbadgers : v.badgers = s.badgers := hv ▸ rfl
    rw [hturn, takeTurn_perform, ← hatoms]
    refine ⟨fun hu => ?_, fun a k ha hk => ⟨fun hy => ?_, fun hy bs t hbs ht => ?_⟩⟩
    · rw [Option.bind_eq_none_iff.mpr hu]
    · simp [ha, hk, hy]
    · rw [← hbadgers] at hbs
      simp [ha, hk, hy, badgerIssue_of_perform hbs ht]
  · rw [step_tripped hup, stepTripped_idle hin]
  · rw [step_tripped hup, stepTripped_coldReset hin]
    exact ⟨_, rfl, rfl⟩

end Sys2Proof.Machine
end

section
/-! What reset leaves (R19, R20, R22, R439). -/

namespace Sys2Proof.Machine

/-- Settles O30: each value is read off the state of a cold reset, with every die out until boot stage 0x05. -/
theorem resetValues : Obligations.ResetValues := by
  have down : ∀ d ∈ State.reset.dies, d.up = false := fun d hd => by rw [List.eq_of_mem_replicate hd]; rfl
  exact ⟨rfl, rfl, rfl, rfl, rfl, rfl, rfl, rfl, rfl, rfl, rfl, rfl, rfl, rfl, rfl, rfl, rfl, rfl, rfl, down⟩

end Sys2Proof.Machine
end

section
/-! What the operations of the package leave of it: records of dies, the clock, the leaves, the boot stages and the end of a
live update (R12, R18 to R27, R401 to R404). -/

namespace Sys2Proof.Machine

/-! ### Records of dies -/

theorem State.postMgmt_eq (s : State) (r : Rec) : ∃ mb out, s.postMgmt r = { s with mb, out } := by
  unfold State.postMgmt
  split
  · exact ⟨_, _, rfl⟩
  · split <;> exact ⟨_, _, rfl⟩

/-- With no VD resident, a die that is too hot stops launches and is recorded in the management ring, and nothing else
changes (R12). -/
theorem State.throttle_eq {s : State} (h : s.residents = []) (die : Nat) :
    ∃ mb out, s.throttle die = { (s.onPkg fun p => { p with throttled := true }) with mb, out } := by
  have hres : (s.onPkg fun p => { p with throttled := true }).residents = [] := h
  simp only [State.throttle, State.postDie, hres, List.foldl_nil]
  exact State.postMgmt_eq _ _

/-- The same for several dies, one after the other. -/
theorem State.foldl_throttle_eq {s : State} (h : s.residents = []) (dies : List Nat) :
    ∃ mb out, dies.foldl State.throttle s =
      { (s.onPkg fun p => { p with throttled := p.throttled || !dies.isEmpty }) with mb, out } := by
  induction dies generalizing s with
  | nil => exact ⟨s.mb, s.out, by simp [State.onPkg]⟩
  | cons d dies ih =>
    obtain ⟨mb, out, hd⟩ := State.throttle_eq h d
    obtain ⟨mb', out', hds⟩ := ih (s := s.throttle d) (by rw [hd]; exact h)
    refine ⟨mb', out', ?_⟩
    rw [List.foldl_cons, hds, hd]
    simp [State.onPkg]

/-! ### The clock -/

/-- A change of the clock class may begin, and nothing else. -/
theorem State.reclock_eq (s : State) : ∃ target, s.reclock = s.onPkg fun p => { p with clsTarget := target } := by
  unfold State.reclock
  split
  · exact ⟨_, rfl⟩
  · exact ⟨s.pkg.clsTarget, rfl⟩

@[simp] theorem State.reclock_cls (s : State) : s.reclock.pkg.cls = s.pkg.cls := by
  obtain ⟨_, h⟩ := s.reclock_eq; rw [h]; rfl

@[simp] theorem State.reclock_clk100 (s : State) : s.reclock.pkg.clk100 = s.pkg.clk100 := by
  obtain ⟨_, h⟩ := s.reclock_eq; rw [h]; rfl

@[simp] theorem State.reclock_capped (s : State) : s.reclock.pkg.capped = s.pkg.capped := by
  obtain ⟨_, h⟩ := s.reclock_eq; rw [h]; rfl

@[simp] theorem State.reclock_throttled (s : State) : s.reclock.pkg.throttled = s.pkg.throttled := by
  obtain ⟨_, h⟩ := s.reclock_eq; rw [h]; rfl

@[simp] theorem State.reclock_vds (s : State) : s.reclock.vds = s.vds := by
  obtain ⟨_, h⟩ := s.reclock_eq; rw [h]; rfl

/-- While a die is too hot, the class due is 2.4 GHz at most (R12). -/
theorem State.classDue_le {s : State} (h : s.pkg.capped = true) : s.classDue ≤ 2 := by
  simp [State.classDue, h]

/-- A class above 2.4 GHz is lowered when a die is too hot (R12). -/
theorem State.reclock_lowers {s : State} (hcap : s.pkg.capped = true) (hcls : 2 < s.pkg.cls) (hidle : s.pkg.clsTarget = none)
    (hclk : s.pkg.clk100 ≠ 0) : s.reclock.pkg.clsTarget = some s.classDue := by
  have hne : s.pkg.cls ≠ s.classDue := by have := State.classDue_le hcap; omega
  simp [State.reclock, hidle, hne, hclk]

/-! ### Leaves and signatures -/

/-- Of the package only the leaves change (R401). -/
theorem Package.reserveLeaves_eq (p : Package) :
    ∃ leafNext leafEnd reserved, p.reserveLeaves = { p with leafNext, leafEnd, reserved } := by
  unfold Package.reserveLeaves
  split <;> exact ⟨_, _, _, rfl⟩

theorem State.finishSignings_nil {s : State} (h : s.pkg.signing = []) : s.finishSignings = s := by
  simp [State.finishSignings, h]

@[simp] theorem State.switchHub_qis (s : State) : s.switchHub.qis = s.qis := rfl

/-- The other hub becomes active, with leaves of its own (R401, R403). -/
theorem State.switchHub_eq (s : State) : ∃ leafNext leafEnd reserved, s.switchHub =
    (s.onPkg fun p => { p with activeHub := 1 - p.activeHub, leafNext, leafEnd, reserved }).capChange := by
  obtain ⟨next, last, reserved, h⟩ := Package.reserveLeaves_eq { s.pkg with activeHub := 1 - s.pkg.activeHub }
  exact ⟨next, last, reserved, by simp only [State.switchHub, State.onPkg, h]⟩

/-! ### Boot stages -/

theorem Package.load_some {p : Package} {k : Nat} (h : p.bootSlot = some k) :
    p.load [] = { p.note [] with stage := 2, runSlot := k } := by
  simp [Package.load, h]

theorem Package.load_none {p : Package} (h : p.bootSlot = none) (fs : List (Nat × Nat × Nat)) :
    (p.load fs).recovery = true ∧ (p.load fs).stage = 2 := by
  simp [Package.load, h]

/-- Where no die failed, every die is admitted (R24). -/
theorem State.admitDies_nil (s : State) : ∃ dies links, s.admitDies [] =
    { (s.onPkg fun p => { p.note [] with stage := 5, cls := 2, clsTarget := none, clk100 := 24 }) with dies, links } ∧
      ∀ d ∈ dies, d.up = true := by
  refine ⟨_, _, rfl, fun d hd => ?_⟩
  obtain ⟨n, hn⟩ := List.mem_iff_getElem?.mp hd
  rw [getElem?_mapIx] at hn
  obtain ⟨x, -, rfl⟩ := Option.map_eq_some_iff.mp hn
  rfl

theorem State.becomeReady_pkg (s : State) (fs : List (Nat × Nat × Nat)) : (s.becomeReady fs).pkg =
    ({ s.pkg.note fs with stage := 7, ready := true, flashBad := fs != [] } : Package).reserveLeaves := by
  unfold State.becomeReady
  dsimp only
  split <;> rfl

/-! ### Live update -/

/-- With no reset and no command held, a live update ends with its RESULT and nothing more (R27, R422). -/
theorem State.endUpdate_unheld {s : State} (hr : s.pkg.resetHeld = false) (hm : s.mb.held = none) (standby : Bool) (result : Nat) :
    s.endUpdate standby result = (s.onPkg fun p => { p with update := none, standby }).mbDone result := by
  simp [State.endUpdate, State.heldReset, State.runHeld, State.mbDone, hr, hm]

end Sys2Proof.Machine
end

section
/-! Reset, boot, temperature, clock classes and live update, an event each. -/

namespace Sys2Proof.Machine

/-! ### Boot (R20 to R24) -/

/-- A stage that finds no failure leads to the next. -/
theorem exec_bootStage {s : State} {r : BootResult} (hready : s.pkg.ready = false) (htrip : s.pkg.tripped = false)
    (hrec : s.pkg.recovery = false) (hdie : s.pkg.dieless = false) (hf : r.fails = []) (hn : s.pkg.stage < 7)
    (hslot : s.pkg.stage = 1 → s.pkg.bootSlot.isSome) :
    ∃ t, exec (.bootStageComplete r) s = .next t ∧ t.pkg.stage = s.pkg.stage + 1 ∧
      (s.pkg.stage = 4 → (∀ d ∈ t.dies, d.up = true) ∧ t.pkg.cls = 2) ∧ (s.pkg.stage = 5 → t.mem = []) ∧
      (s.pkg.stage = 6 → t.pkg.ready = true) ∧ (s.pkg.stage ≠ 6 → t.pkg.ready = false) := by
  simp only [exec, execBootStageComplete, hready, htrip, hrec, hdie, hf, Bool.or_false, Bool.false_eq_true, if_false]
  refine ⟨_, rfl, ?_⟩
  generalize hst : s.pkg.stage = n at hn hslot
  match n, hn with
  | 0, _ => simp [hready]
  | 1, _ =>
    obtain ⟨k, hk⟩ := Option.isSome_iff_exists.mp (hslot rfl)
    simp [Package.load_some hk, Package.note, hready]
  | 2, _ => simp [Package.elect, hready]
  | 3, _ => simp [Package.note, hready]
  | 4, _ =>
    obtain ⟨dies, links, h, hup⟩ := State.admitDies_nil s
    simpa [h, Package.note, hready] using hup
  | 5, _ => simp [hready]
  | 6, _ =>
    obtain ⟨next, last, reserved, h⟩ :=
      Package.reserveLeaves_eq { s.pkg.note [] with stage := 7, ready := true, flashBad := false }
    simp [State.becomeReady_pkg, h]

theorem exec_bootStage_recovery {s : State} {r : BootResult} (hready : s.pkg.ready = false) (htrip : s.pkg.tripped = false)
    (hrec : s.pkg.recovery = false) (hdie : s.pkg.dieless = false) (hst : s.pkg.stage = 1) (hslot : s.pkg.bootSlot = none) :
    ∃ t, exec (.bootStageComplete r) s = .next t ∧ t.pkg.recovery = true ∧ t.pkg.stage = 2 := by
  simp only [exec, execBootStageComplete, hready, htrip, hrec, hdie, hst, Bool.or_false, Bool.false_eq_true, if_false]
  exact ⟨_, rfl, Package.load_none hslot _⟩

/-! ### Resets (R20, R21, R25 to R27) -/

/-- After a cold reset nothing is ready and no stage is complete, whatever flash and fuses hold. -/
theorem State.bootstat_cold {s : State} {slots : List (Nat × Bool)} {rollback reserved : Nat}
    (hpkg : s.pkg = Package.cold slots rollback reserved) (hdies : s.dies = List.replicate 4 Die.reset) : s.bootstat = 0 := by
  simp [State.bootstat, State.ready, State.stage, State.failcode, State.dieless, State.dieUp, hpkg, hdies, Package.cold,
    Die.reset, flagAt, List.range_succ]

theorem exec_coldReset (s : State) : ∃ t, exec .coldReset s = .next t ∧ t.bootstat = 0 ∧ t.mem = [] ∧ t.vds = [] ∧
    t.ctxs = [] ∧ t.warps = [] ∧ t.crews = [] ∧ t.time = 0 ∧ t.pkg.slots = s.pkg.slots ∧ t.pkg.rollback = s.pkg.rollback ∧
    t.pkg.reserved = s.pkg.reserved ∧ t.pkg.tripped = false :=
  ⟨_, rfl, State.bootstat_cold rfl rfl, rfl, rfl, rfl, rfl, rfl, rfl, rfl, rfl, rfl, rfl⟩

theorem State.configAnswer_done {s : State} (h : 4 ≤ s.pkg.stage) : s.configAnswer = .done := by
  simp [State.configAnswer, show ¬ s.pkg.stage < 2 by omega, show ¬ s.pkg.stage < 4 by omega]

theorem State.configAnswer_early {s : State} (h : s.pkg.stage < 4) : s.configAnswer ≠ .done := by
  unfold State.configAnswer
  split
  · decide
  · simp

/-- Once configuration requests are carried out, FLR is a package warm reset, which keeps memory and TIME. -/
theorem exec_flr_resets {s : State} (hst : 4 ≤ s.pkg.stage) (hup : s.pkg.update = none) (hsig : s.pkg.signing = []) :
    ∃ t, exec .flr s = .next t ∧ t.pkg.ready = false ∧ t.pkg.stage = 2 ∧ t.mb.busy = false ∧ t.vds = [] ∧ t.ctxs = [] ∧
      t.warps = [] ∧ t.mem = s.mem ∧ t.time = s.time := by
  simp only [exec, execFlr, State.configAnswer_done hst, hup, State.packageReset, State.finishSignings_nil hsig]
  exact ⟨_, rfl, rfl, rfl, rfl, rfl, rfl, rfl, rfl, rfl⟩

theorem exec_flr_held {s : State} (hst : 4 ≤ s.pkg.stage) (hup : s.pkg.update.isSome) :
    exec .flr s = .next (s.onPkg fun p => { p with resetHeld := true }) := by
  simp [exec, execFlr, State.configAnswer_done hst, hup]

theorem exec_flr_early {s : State} (hst : s.pkg.stage < 4) : exec .flr s = .next s := by
  simp [exec, execFlr, State.configAnswer_early hst]

/-! ### Temperatures and the clock (R12, R18, R19) -/

/-- The temperature of a die is read, and caps the class at 2.4 GHz. -/
def State.overheat (s : State) (die temp : Nat) : State := (s.sense die temp).onPkg fun p => { p with capped := true }

theorem exec_throttleCrossed {s : State} {die temp : Nat} (hd : die < 6) (ht : Config.throttleAt die ≤ temp) :
    exec (.throttleThresholdCrossed die temp) s =
      .next (if s.pkg.cls ≤ 2 ∧ s.pkg.clsTarget ≠ some 3 then (s.overheat die temp).throttle die
        else (s.overheat die temp).reclock) := by
  simp only [exec, execThrottleThresholdCrossed, if_pos (And.intro hd ht)]
  rfl

/-- At 2.4 GHz a die that is too hot stops launches. -/
theorem exec_throttleCrossed_stops {s : State} {die temp : Nat} (hd : die < 6) (ht : Config.throttleAt die ≤ temp)
    (hcls : s.pkg.cls ≤ 2) (hidle : s.pkg.clsTarget = none) (hres : s.residents = []) :
    ∃ t, exec (.throttleThresholdCrossed die temp) s = .next t ∧ t.pkg.throttled = true ∧ t.mem = s.mem := by
  obtain ⟨mb, out, h⟩ := State.throttle_eq (s := s.overheat die temp) hres die
  rw [exec_throttleCrossed hd ht, if_pos ⟨hcls, by simp [hidle]⟩, h]
  exact ⟨_, rfl, rfl, rfl⟩

/-- Above 2.4 GHz a die that is too hot lowers the class. -/
theorem exec_throttleCrossed_lowers {s : State} {die temp : Nat} (hd : die < 6) (ht : Config.throttleAt die ≤ temp)
    (hcls : 2 < s.pkg.cls) (hidle : s.pkg.clsTarget = none) :
    ∃ t, exec (.throttleThresholdCrossed die temp) s = .next t ∧ t.pkg.throttled = s.pkg.throttled ∧ t.pkg.capped = true ∧
      (s.pkg.clk100 ≠ 0 → ∃ c, t.pkg.clsTarget = some c ∧ c ≤ 2) := by
  rw [exec_throttleCrossed hd ht, if_neg fun hc => absurd hc.1 (by omega)]
  exact ⟨_, rfl, State.reclock_throttled _, State.reclock_capped _, fun hclk =>
    ⟨_, State.reclock_lowers rfl hcls hidle hclk, State.classDue_le rfl⟩⟩

theorem exec_throttleRecovery_cool {s : State} {die temp : Nat} (hd : die < 6) (ht : temp < Config.throttleAt die)
    (hcool : (s.sense die temp).pkg.hot = false) :
    ∃ t, exec (.throttleRecovery die temp) s = .next t ∧ t.pkg.throttled = false ∧ t.pkg.capped = false := by
  simp only [exec, execThrottleRecovery, if_pos (And.intro hd ht), hcool, Bool.false_eq_true, if_false]
  exact ⟨_, rfl, State.reclock_throttled _, State.reclock_capped _⟩

theorem exec_tripCrossed {s : State} {die temp : Nat} (hd : die < 6) (ht : Config.tripAt die ≤ temp) :
    ∃ t, exec (.tripThresholdCrossed die temp) s = .next t ∧ t.pkg.tripped = true ∧ t.out = .surpriseDown :: s.out := by
  simp only [exec, execTripThresholdCrossed, if_pos (And.intro hd ht)]
  exact ⟨_, rfl, rfl, rfl⟩

/-! ### Changes of the clock class (R12, R18, R19) -/

/-- The class takes effect; launches of a new VD that waited for 2.4 GHz go on. -/
def State.classSet (s : State) (c : Nat) : State :=
  let s := s.onPkg fun p => { p with cls := c, clsTarget := none, clk100 := 16 + 4 * c }
  if c = 2 then { s with vds := mapS s.vds fun _ v => { v with hold := false } } else s

theorem State.classSet_pkg (s : State) (c : Nat) :
    (s.classSet c).pkg = { s.pkg with cls := c, clsTarget := none, clk100 := 16 + 4 * c } := by
  unfold State.classSet
  dsimp only
  split <;> rfl

theorem State.classSet_unheld (s : State) : ∀ e ∈ (s.classSet 2).vds, e.2.hold = false := by
  intro e he
  obtain ⟨x, -, rfl⟩ := List.mem_map.mp he
  rfl

theorem State.classSet_residents {s : State} (h : s.residents = []) (c : Nat) : (s.classSet c).residents = [] := by
  unfold State.classSet
  dsimp only
  split
  · simpa [State.residents, mapS, List.filter_map] using h
  · exact h

/-- Dies that are still too hot stop launches once the class that was lowered for them is in effect. -/
def State.classTaken (s : State) (c : Nat) : State :=
  if c ≤ 2 ∧ s.pkg.capped ∧ !s.pkg.throttled then s.pkg.hotDies.foldl State.throttle s else s

theorem exec_clockClassChangeDone {s : State} {c : Nat} (h : s.pkg.clsTarget = some c) :
    exec .clockClassChangeDone s = .next ((s.classSet c).classTaken c).reclock := by
  simp only [exec, execClockClassChangeDone, h]
  rfl

/-- With no VD to tell of it, of the package and the VDs nothing changes but that launches stop. -/
theorem State.classTaken_rest {s : State} (h : s.pkg.capped = false ∨ s.residents = []) (c : Nat) :
    (s.classTaken c).vds = s.vds ∧ ∃ throttled, (s.classTaken c).pkg = { s.pkg with throttled } ∧
      (c ≤ 2 → s.pkg.capped = true → s.pkg.hotDies ≠ [] → throttled = true) := by
  unfold State.classTaken
  split
  case isTrue hc =>
    obtain ⟨-, hcap, -⟩ := hc
    obtain ⟨mb, out, he⟩ := State.foldl_throttle_eq (h.resolve_left (by simp [hcap])) s.pkg.hotDies
    rw [he]
    exact ⟨rfl, _, rfl, fun _ _ hhot => by simp [hhot]⟩
  case isFalse hc =>
    refine ⟨rfl, s.pkg.throttled, rfl, fun hle hcap _ => ?_⟩
    by_contra hthr
    exact hc ⟨hle, hcap, by simpa using hthr⟩

theorem exec_classChange {s : State} {c : Nat} (htarget : s.pkg.clsTarget = some c)
    (hres : s.pkg.capped = false ∨ s.residents = []) :
    ∃ t, exec .clockClassChangeDone s = .next t ∧ t.pkg.cls = c ∧ t.pkg.clk100 = 16 + 4 * c ∧
      (c = 2 → ∀ e ∈ t.vds, e.2.hold = false) ∧
      (c ≤ 2 → s.pkg.capped = true → s.pkg.hotDies ≠ [] → t.pkg.throttled = true) := by
  have hset := s.classSet_pkg c
  obtain ⟨hvds, throttled, hpkg, hthr⟩ := State.classTaken_rest (s := s.classSet c)
    (hres.imp (fun h => by rw [hset]; exact h) fun h => State.classSet_residents h c) c
  rw [hset] at hpkg hthr
  refine ⟨_, exec_clockClassChangeDone htarget, ?_⟩
  simp only [State.reclock_cls, State.reclock_clk100, State.reclock_vds, State.reclock_throttled, hvds, hpkg]
  exact ⟨trivial, trivial, fun h2 => h2 ▸ s.classSet_unheld, hthr⟩

/-! ### Live update and failover (R402 to R404) -/

/-- At a boundary at which no packet is partly taken the standby imports, and packets stop. -/
theorem exec_import {s : State} {u : Update} (hup : s.pkg.update = some u) (hph : u.phase = 0) (himp : u.image.imports = true)
    (hq : ∀ e ∈ s.qis, e.2.partly = false) :
    exec (.standbyImportComplete true) s = .next (s.onPkg fun p =>
      { p with standby := true, update := some { u with phase := 1, since := s.time.toNat } }) := by
  have hwhole : (s.qis.any fun e => e.2.partly && !e.2.stopped) = false := by
    simp only [List.any_eq_false]
    intro e he
    simp [hq e he]
  simp [exec, execStandbyImportComplete, hup, hph, himp, hwhole]

/-- A packet that is partly taken holds the import up. -/
theorem exec_import_waits {s : State} {u : Update} (hup : s.pkg.update = some u) (hph : u.phase = 0)
    (himp : u.image.imports = true) {e : Nat × Qi} (he : e ∈ s.qis) (hpart : e.2.partly = true) (hrun : e.2.stopped = false) :
    exec (.standbyImportComplete true) s = .next s := by
  have hpartly : (s.qis.any fun e => e.2.partly && !e.2.stopped) = true :=
    List.any_eq_true.mpr ⟨e, he, by simp [hpart, hrun]⟩
  simp [exec, execStandbyImportComplete, hup, hph, himp, hpartly]

theorem exec_import_fails {s : State} {u : Update} (hup : s.pkg.update = some u) (hph : u.phase = 0) :
    exec (.standbyImportComplete false) s = .next (s.endUpdate false 1) := by
  simp [exec, execStandbyImportComplete, hup, hph]

theorem exec_takeover {s : State} {u : Update} (hup : s.pkg.update = some u) (hph : u.phase = 1)
    (hin : s.time.toNat ≤ u.since + 2000000) (hsig : s.pkg.signing = []) :
    exec .liveUpdateTakeover s = .next ((s.switchHub.onPkg fun p =>
      { p with runSlot := u.slot, rollback := max p.rollback u.image.version }).endUpdate true 0) := by
  simp [exec, execLiveUpdateTakeover, hup, hph, hin, hsig]

/-- The old complex goes on where the takeover was not in time. -/
theorem exec_rollback {s : State} {u : Update} (hup : s.pkg.update = some u) (hph : u.phase = 1)
    (hlate : u.since + 2000000 ≤ s.time.toNat) : exec .liveUpdateRollback s = .next (s.endUpdate true 3) := by
  simp [exec, execLiveUpdateRollback, hup, hph, hlate]

/-- The standby takes over; where no packet was partly taken, no queue stops. -/
theorem exec_failover {s : State} (hstand : s.pkg.standby = true) (hup : s.pkg.update = none) (hready : s.pkg.ready = true)
    (hsig : s.pkg.signing = []) (hq : ∀ e ∈ s.qis, e.2.partly = false) :
    exec .activeComplexFailure s = .next (s.switchHub.onPkg fun p => { p with standby := false }) := by
  have hwhole : (s.qis.filter fun e => e.2.partly && !e.2.stopped) = [] :=
    List.filter_eq_nil_iff.mpr fun e he => by simp [hq e he]
  simp [exec, execActiveComplexFailure, hstand, hup, hready, State.finishSignings_nil hsig, hwhole]

/-- Settles O58: an event each, from what the operations of the package leave of it. -/
theorem powerBootAndFirmware : Obligations.PowerBootAndFirmware := by
  unfold Obligations.PowerBootAndFirmware
  refine ⟨exec_coldReset, fun s r => exec_bootStage,
    fun s r => exec_bootStage_recovery, fun s => exec_flr_resets, fun s => exec_flr_held, fun s => exec_flr_early,
    fun s die temp hd ht => ⟨exec_throttleCrossed_stops hd ht, exec_throttleCrossed_lowers hd ht⟩,
    fun s die temp => exec_throttleRecovery_cool, fun s die temp => exec_tripCrossed, fun s c => exec_classChange,
    fun s u hup hph => ⟨fun himp => ⟨fun hq => ⟨_, exec_import hup hph himp hq, rfl, rfl, rfl⟩, fun e he =>
      exec_import_waits hup hph himp he⟩, fun hr hm => ?_⟩,
    fun s u hup hph hr hm => ⟨fun hin hsig => ?_, fun hlate => ?_⟩, fun s hstand hup hready hsig hq => ?_⟩
  · rw [exec_import_fails hup hph, State.endUpdate_unheld hr hm]
    exact ⟨_, rfl, rfl, rfl, rfl, rfl, rfl⟩
  · obtain ⟨next, last, reserved, hswitch⟩ := s.switchHub_eq
    rw [exec_takeover hup hph hin hsig, hswitch, State.endUpdate_unheld]
    · exact ⟨_, rfl, rfl, rfl, rfl, rfl, rfl, rfl⟩
    · exact hr
    · exact hm
  · rw [exec_rollback hup hph hlate, State.endUpdate_unheld hr hm]
    exact ⟨_, rfl, rfl, rfl, rfl, rfl⟩
  · obtain ⟨next, last, reserved, hswitch⟩ := s.switchHub_eq
    rw [exec_failover hstand hup hready hsig hq, hswitch]
    exact ⟨_, rfl, rfl, rfl, rfl, rfl⟩

end Sys2Proof.Machine
end

section
/-! What leaves crews and warps in their slots: stores, guards served and records written end waits, and place or remove
nothing. -/

namespace Sys2Proof.Machine

/-! ### Keys of a sparse store -/

theorem look_eq_none_iff {α : Type} (m : SMap α) (n : Nat) : look m n = none ↔ n ∉ m.map (·.1) := by
  induction m with
  | nil => simp [look]
  | cons e m ih =>
    by_cases h : e.1 = n
    · simp [look, h]
    · simp [look, h, ih, Ne.symm h]

theorem look_keep_none {α : Type} (m : SMap α) {p : Nat → α → Bool} {n : Nat} (h : ∀ x, p n x = false) :
    look (keep m p) n = none := by
  rw [look_eq_none_iff]
  intro hn
  obtain ⟨e, he, rfl⟩ := List.mem_map.mp hn
  simpa [h] using (List.mem_filter.mp he).2

theorem look_mapS_some {α : Type} {m : SMap α} {n : Nat} {x : α} (h : look m n = some x) (g : Nat → α → α) :
    look (mapS m g) n = some (g n x) := by
  rw [look_mapS', h, Option.map_some]

@[simp] theorem keys_mapS {α : Type} (m : SMap α) (g : Nat → α → α) : (mapS m g).map (·.1) = m.map (·.1) := by
  simp [mapS, Function.comp_def]

/-! ### Slots that stay taken -/

/-- The crews are the same, and the same warp slots are taken. -/
def State.SameSlots (s t : State) : Prop := t.crews = s.crews ∧ t.warps.map (·.1) = s.warps.map (·.1)

theorem State.SameSlots.refl (s : State) : s.SameSlots s := ⟨rfl, rfl⟩

theorem State.SameSlots.trans {s t u : State} (h : s.SameSlots t) (k : t.SameSlots u) : s.SameSlots u :=
  ⟨k.1.trans h.1, k.2.trans h.2⟩

theorem State.SameSlots.foldl {α : Type} {f : State → α → State} (h : ∀ (s : State) a, s.SameSlots (f s a))
    (xs : List α) (s : State) : s.SameSlots (xs.foldl f s) := by
  induction xs generalizing s with
  | nil => exact .refl s
  | cons x xs ih => exact (h s x).trans (ih _)

/-- An empty warp slot stays empty. -/
theorem State.SameSlots.no_warp {s t : State} (h : s.SameSlots t) {k : Nat} (hk : look s.warps k = none) :
    look t.warps k = none := by
  rw [look_eq_none_iff] at hk ⊢
  rwa [h.2]

/-- A write ends waits of lanes, in their slots. -/
theorem State.write_sameSlots (s : State) (pa : Nat) (bs : List Byte) : s.SameSlots (s.write pa bs) :=
  ⟨rfl, by simp [State.write, State.wakeCwait]⟩

theorem State.store_sameSlots (s : State) (pa : Nat) (bs : List Byte) : s.SameSlots (s.store pa bs) :=
  State.write_sameSlots ((s.overtake pa bs fun _ => true).unstick pa bs.length) pa bs

theorem State.storeFresh_sameSlots (s : State) (pa : Nat) (bs : List Byte) : s.SameSlots (s.storeFresh pa bs) :=
  s.store_sameSlots pa bs

theorem State.storeHub_sameSlots (s : State) (pa : Nat) (bs : List Byte) : s.SameSlots (s.storeHub pa bs) :=
  s.store_sameSlots pa bs

/-! ### Guards -/

theorem State.grantGuard_sameSlots (s : State) (id pa : Nat) (shared : Bool) : s.SameSlots (s.grantGuard id pa shared) :=
  s.write_sameSlots pa _

theorem State.probe_sameSlots (s : State) (line : Nat) (agent : Option Agent) : s.SameSlots (s.probe line agent) := by
  unfold State.probe
  split
  · exact .refl s
  · dsimp only
    split <;> exact .refl s

theorem State.serveList_sameSlots (pa : Nat) (rs : List (Nat × GuardReq)) (held : Bool) (s : State) :
    s.SameSlots (State.serveList pa rs held s) := by
  induction rs generalizing held s with
  | nil => exact .refl s
  | cons r rs ih =>
    obtain ⟨id, r⟩ := r
    have replied (status : Nat) : s.SameSlots (State.serveList pa rs held (s.replyGuard id status)) :=
      ih held (s.replyGuard id status)
    simp only [State.serveList]
    split
    · exact replied 2
    · split
      · split
        · exact ih true s
        · exact (s.grantGuard_sameSlots id pa r.shared).trans (ih held _)
      · split
        · exact replied 1
        · exact ih true s

theorem State.serveGuard_sameSlots (s : State) (pa : Nat) : s.SameSlots (s.serveGuard pa) := by
  unfold State.serveGuard
  split
  · exact s.probe_sameSlots _ _
  · exact State.serveList_sameSlots pa _ false s

theorem State.serveGuards_sameSlots (s : State) (pas : List Nat) : s.SameSlots (s.serveGuards pas) :=
  .foldl State.serveGuard_sameSlots pas s

/-! ### Walks and faults -/

theorem State.requestWalk_sameSlots (s : State) (c page acc hub : Nat) (host : Bool) :
    s.SameSlots (s.requestWalk c page acc hub host).2 := by
  unfold State.requestWalk
  split <;> exact .refl s

theorem State.requestService_sameSlots (s : State) (c : Nat) (page : Nat × Bool) (acc hub : Nat) :
    s.SameSlots (s.requestService c page acc hub).2 := by
  unfold State.requestService
  dsimp only
  split <;> exact s.requestWalk_sameSlots c page.1 acc hub page.2

theorem State.onVd_sameSlots (s : State) (k : Nat) (g : Vd → Vd) : s.SameSlots (s.onVd k g) := .refl s

theorem State.onQi_sameSlots (s : State) (k : Nat) (g : Qi → Qi) : s.SameSlots (s.onQi k g) := .refl s

theorem State.countFault_sameSlots (s : State) (c cls : Nat) : s.SameSlots (s.countFault c cls) := .refl s

theorem State.openFid_sameSlots {s t : State} {vd id : Nat} {f : Fid} (h : s.openFid vd f = some (id, t)) : s.SameSlots t := by
  unfold State.openFid at h
  split at h
  · cases h
  · split at h
    · cases h
    · simp only [Option.some.injEq, Prod.mk.injEq] at h
      obtain ⟨-, rfl⟩ := h
      have drawn : s.SameSlots s.draw.2 := .refl s
      exact (drawn.trans (State.store_sameSlots _ _ _)).trans (State.onVd_sameSlots _ _ _)

theorem State.postFault_sameSlots (s : State) (a : Agent) (c va acc cause eng core : Nat) :
    s.SameSlots (s.postFault a c va acc cause eng core).2 := by
  unfold State.postFault
  dsimp only
  split
  · exact .refl s
  · split
    · dsimp only
      split
      · exact State.store_sameSlots (s.onVd _ _) _ _
      · exact .refl s
    · split
      case h_1 h => exact State.openFid_sameSlots h
      case h_2 => exact .refl s

theorem State.postFaults_sameSlots (s : State) (a : Agent) (c acc eng core : Nat) (pages : List (Nat × Nat)) :
    s.SameSlots (s.postFaults a c acc eng core pages).2 := by
  induction pages generalizing s with
  | nil => exact .refl s
  | cons page pages ih => exact (s.postFault_sameSlots a c page.1 acc page.2 eng core).trans (ih _)

/-! ### Records -/

theorem State.interrupt_sameSlots (s : State) (q : Nat) : s.SameSlots (s.interrupt q) := by
  unfold State.interrupt
  split
  · exact .refl s
  · dsimp only
    split <;> exact .refl s

theorem State.signalled_sameSlots (s : State) (q : Nat) (now : Bool) : s.SameSlots (s.signalled q now) := by
  unfold State.signalled
  dsimp only
  split
  · exact .refl s
  · split
    · exact State.interrupt_sameSlots (s.onQi q _) q
    · exact .refl s

/-- Records are dropped, written to device memory, sent to the host or held, and no unit moves. -/
theorem State.flushN_sameSlots (n : Nat) (s : State) (q : Nat) : s.SameSlots (State.flushN n s q) := by
  induction n generalizing s with
  | zero => exact .refl s
  | succ n ih =>
    have written {t : State} (h : s.SameSlots t) (g : Qi → Qi) (now : Bool) :
        s.SameSlots (State.flushN n ((t.onQi q g).signalled q now) q) :=
      ((h.trans (t.onQi_sameSlots q g)).trans (State.signalled_sameSlots _ q now)).trans (ih _)
    have dropped (g : Qi → Qi) : s.SameSlots (State.flushN n (s.onQi q g) q) := (s.onQi_sameSlots q g).trans (ih _)
    simp only [State.flushN]
    split
    · exact .refl s
    · split
      · exact .refl s
      · split
        · exact dropped _
        · split
          · split
            · exact .refl s
            · exact written (s.storeHub_sameSlots _ _) _ _
          · exact written (t := s.emit _) (.refl s) _ _
          · exact ((s.postFaults_sameSlots _ _ _ _ _ _).trans (State.countFault_sameSlots _ _ _)).trans
              (State.onQi_sameSlots _ q _)
          · exact ((s.requestService_sameSlots _ _ _ _).trans (State.countFault_sameSlots _ _ _)).trans
              (State.onQi_sameSlots _ q _)
          · exact (s.requestWalk_sameSlots _ _ _ _ _).trans (State.onQi_sameSlots _ q _)
          · exact dropped _

theorem State.flush_sameSlots (s : State) (q : Nat) : s.SameSlots (s.flush q) := by
  unfold State.flush
  split
  · exact .refl s
  · split
    · exact State.flushN_sameSlots _ s q
    · exact .refl s

theorem State.flushAll_sameSlots (s : State) : s.SameSlots s.flushAll :=
  .foldl (fun s (e : Nat × Qi) => s.flush_sameSlots e.1) s.qis s

theorem State.tidyLeases_sameSlots (s : State) : s.SameSlots s.tidyLeases := by
  have served (t : State) (pas : List Nat) (h : s.SameSlots t) : s.SameSlots (t.serveGuards pas).flushAll :=
    (h.trans (t.serveGuards_sameSlots pas)).trans (State.flushAll_sameSlots _)
  exact served _ _ ⟨rfl, rfl⟩

end Sys2Proof.Machine
end

section
/-! The save of a unit (R376): what remains of its slots, and the image that is written. -/

namespace Sys2Proof.Machine

/-! ### A unit leaves its slots -/

/-- No warp and no crew of the unit is in a slot. -/
def State.lacks (s : State) (p : Parts) : Prop :=
  (∀ e ∈ p.warps, look s.warps e.1 = none) ∧ ∀ e ∈ p.crews, look s.crews e.1 = none

theorem State.SameSlots.lacks {s t : State} (h : s.SameSlots t) {p : Parts} (hs : s.lacks p) : t.lacks p :=
  ⟨fun e he => h.no_warp (hs.1 e he), fun e he => (congrArg (look · e.1) h.1).trans (hs.2 e he)⟩

theorem State.leaseQ_sameSlots (s : State) (leaseQ : List Lease) : s.SameSlots { s with leaseQ } := .refl s

theorem State.remove_lacks (s : State) (p : Parts) : (s.remove p).lacks p := by
  unfold State.remove
  refine (State.tidyLeases_sameSlots _).lacks ⟨fun e he => ?_, fun e he => ?_⟩
  all_goals
    dsimp only
    exact look_keep_none _ fun _ => by simpa using ⟨e.2, he⟩

/-! ### The image -/

/-- A store reaches the buffered stores and the waiting lanes of an image only. -/
theorem State.storeFresh_image {s : State} {n : Nat} {x : Image} (h : look s.images n = some x) (pa : Nat) (bs : List Byte) :
    ∃ y, look (s.storeFresh pa bs).images n = some y ∧ y.ctx = x.ctx ∧ y.task = x.task ∧ y.how = x.how := by
  simp only [State.storeFresh, State.store, State.write, State.wakeCwait, State.unstick, State.overtake,
    look_mapS_some (look_mapS_some h _) _]
  exact ⟨_, rfl, rfl, rfl, rfl⟩

theorem State.storeImage_image (s : State) (id : Nat) (img : Image) (sections : List (Nat × Nat × Nat)) :
    ∃ y, look (s.storeImage id img sections).images id = some y ∧ y.ctx = img.ctx ∧ y.task = img.task ∧ y.how = img.how :=
  State.storeFresh_image (x := { img with
    base := Config.saveArea img.vd id * 64, len := 64 + (imageSections (s.stamp + 1) sections).length })
    (look_put_self _ _ _) _ _

theorem State.storeImage_sameSlots (s : State) (id : Nat) (img : Image) (sections : List (Nat × Nat × Nat)) :
    s.SameSlots (s.storeImage id img sections) :=
  State.storeFresh_sameSlots { s with
    stamp := s.stamp + sections.length + 1,
    images := put s.images id { img with
      base := Config.saveArea img.vd id * 64, len := 64 + (imageSections (s.stamp + 1) sections).length } } _ _

theorem State.disownLoose_sameSlots (s : State) (core ctx : Nat) : s.SameSlots (s.disownLoose core ctx) := by
  unfold State.disownLoose
  split <;> exact .refl s

@[simp] theorem State.disownLoose_images (s : State) (core ctx : Nat) : (s.disownLoose core ctx).images = s.images := by
  unfold State.disownLoose
  split <;> rfl

/-- A save stores the image once the unit is in no slot any more; a continuation warp then gives up its grains. -/
theorem State.writeImage_eq (s : State) (p : Parts) (u : UnitId) (how : Nat) : ∃ t : State, t.lacks p ∧
    s.writeImage p u how = if p.gang.isSome then t.storeImage s.nextId (s.imageOf p u how) (s.sections p (how == 1))
      else (t.storeImage s.nextId (s.imageOf p u how) (s.sections p (how == 1))).disownLoose p.core p.ctx := by
  refine ⟨_, ?_, rfl⟩
  exact (State.leaseQ_sameSlots _ _).lacks (State.remove_lacks _ p)

/-- The image has the context and the task of the unit. -/
theorem State.writeImage_image (s : State) (p : Parts) (u : UnitId) (how : Nat) :
    ∃ img, look (s.writeImage p u how).images s.nextId = some img ∧ img.ctx = p.ctx ∧ img.task = p.task ∧ img.how = how := by
  obtain ⟨t, -, h⟩ := s.writeImage_eq p u how
  obtain ⟨img, himg⟩ := t.storeImage_image s.nextId (s.imageOf p u how) (s.sections p (how == 1))
  refine ⟨img, ?_⟩
  rw [h]
  split
  · exact himg
  · rw [State.disownLoose_images]
    exact himg

theorem State.writeImage_lacks (s : State) (p : Parts) (u : UnitId) (how : Nat) : (s.writeImage p u how).lacks p := by
  obtain ⟨t, ht, h⟩ := s.writeImage_eq p u how
  have hstored := (t.storeImage_sameSlots s.nextId (s.imageOf p u how) (s.sections p (how == 1))).lacks ht
  rw [h]
  split
  · exact hstored
  · exact (State.disownLoose_sameSlots _ _ _).lacks hstored

/-! ### The save goes as far as the image -/

theorem State.performFree_nil {s : State} (h : s.pending = []) (p : Pending → Bool) : s.performFree p = s := by
  have hrest : { s with pending := [] } = s := by rw [← h]
  simp [State.performFree, State.performWhere, h, hrest]

/-- With nothing in flight, the save is the image of what the pause of the matrix engine leaves (R376). -/
theorem State.trySave_quiet {s : State} {p q : Parts} {u : UnitId} {how : Nat} (hpending : s.pending = [])
    (hheld : s.heldBy p = []) (hbusy : s.saveBusy p = false) (hparts : (s.pauseMatrix p how).parts u = some q) :
    s.trySave p u how = (s.pauseMatrix p how).writeImage q u how := by
  simp [State.trySave, State.performFree_nil hpending, hheld, hbusy, hpending, hparts]

end Sys2Proof.Machine
end

section
/-! The restore of a continuation warp (R376): its lanes under their waits in the new slot. -/

namespace Sys2Proof.Machine

/-! ### Waits of a warp that end -/

/-- Waits of lanes have ended or been renamed: the registers and masks are the same, and a lane that waited for nothing is. -/
structure Warp.Woken (w w' : Warp) : Prop where
  m : w'.m = w.m
  j : w'.j = w.j
  live : w'.live = w.live
  elapsed : w'.elapsed = w.elapsed
  count : w'.lanes.length = w.lanes.length
  regs : ∀ l, l < w.lanes.length → (w'.lane l).v = (w.lane l).v
  stay : ∀ l, l < w.lanes.length → (w.lane l).wait = Wait.none → w'.lane l = w.lane l

theorem Warp.Woken.refl (w : Warp) : w.Woken w := ⟨rfl, rfl, rfl, rfl, rfl, fun _ _ => rfl, fun _ _ _ => rfl⟩

theorem Warp.Woken.trans {a b c : Warp} (h : a.Woken b) (k : b.Woken c) : a.Woken c where
  m := k.m.trans h.m
  j := k.j.trans h.j
  live := k.live.trans h.live
  elapsed := k.elapsed.trans h.elapsed
  count := k.count.trans h.count
  regs l hl := (k.regs l (h.count ▸ hl)).trans (h.regs l hl)
  stay l hl hw := by
    have hb := h.stay l hl hw
    exact (k.stay l (h.count ▸ hl) (hb ▸ hw)).trans hb

/-- A change of each lane that leaves its registers, and leaves it alone where it waits for nothing. -/
theorem Warp.woken_onLanes (w : Warp) {g : Nat → Lane → Lane} (hv : ∀ l x, (g l x).v = x.v)
    (hw : ∀ l x, x.wait = Wait.none → g l x = x) : w.Woken (w.onLanes g) where
  m := rfl
  j := rfl
  live := rfl
  elapsed := rfl
  count := w.length_onLanes g
  regs l hl := by rw [w.lane_onLanes g l hl, hv]
  stay l hl h := by rw [w.lane_onLanes g l hl, hw l _ h]

/-- The waiters of a join mask go on (R172). -/
theorem Warp.checkJoin_woken (w : Warp) (j : Nat) : w.Woken (w.checkJoin j) := by
  unfold Warp.checkJoin
  split
  · have h := w.woken_onLanes (g := fun _ x => if x.atJoin j then x.pass else x)
      (fun _ x => by split <;> rfl) (fun _ x hx => by simp [Lane.atJoin, hx])
    exact ⟨h.m, h.j, h.live, h.elapsed, h.count, h.regs, h.stay⟩
  · exact .refl w

theorem Warp.checkJoins_woken (w : Warp) : w.Woken w.checkJoins := by
  unfold Warp.checkJoins
  generalize List.range 12 = js
  induction js generalizing w with
  | nil => exact .refl w
  | cons j js ih => exact (w.checkJoin_woken j).trans (ih _)

/-- The lanes whose counter reads 0 go on (R370). -/
theorem State.wakeCwait_warp {s : State} {k : Nat} {w : Warp} (h : look s.warps k = some w) :
    ∃ w', look s.wakeCwait.warps k = some w' ∧ w.Woken w' := by
  simp only [State.wakeCwait, look_mapS_some h]
  refine ⟨_, rfl, w.woken_onLanes (fun _ x => ?_) fun _ x hx => by simp [hx]⟩
  split
  · split <;> rfl
  · rfl

/-! ### The new slot -/

theorem Lane.with_wait_none {x : Lane} (h : x.wait = Wait.none) : { x with wait := Wait.none } = x := by
  rw [← h]

/-- A restored warp is the saved one, resident anew, with its waits under the new names. -/
theorem Ren.onWarp_woken (r : Ren) (key cycle elapsed : Nat) (w : Warp) :
    { w with elapsed }.Woken (r.onWarp key cycle elapsed w) := by
  refine Warp.Woken.trans ?_ (Warp.checkJoins_woken _)
  refine ⟨rfl, rfl, rfl, rfl, by simp, fun l hl => ?_, fun l hl hw => ?_⟩
  · have hl : l < w.lanes.length := hl
    simp [Warp.lane, hl]
  · have hl : l < w.lanes.length := hl
    have hw : w.lanes[l].wait = Wait.none := by simpa [Warp.lane, hl] using hw
    simpa [Warp.lane, hl, hw] using Lane.with_wait_none hw

theorem State.returnQueues_empty (s : State) {img : Image} (hw : img.wbuf = []) (hr : img.releases = [])
    (hp : img.pending = []) (r : Ren) : s.returnQueues img r = s := by
  simp [State.returnQueues, hw, hr, hp]

section
variable {s : State} {cluster core k old : Nat} {ks : List Nat} {img : Image} {w : Warp}
  (hbad : s.imageBad img = false) (hgang : img.gang = none) (hwarps : img.warps = [(old, w)]) (hwbuf : img.wbuf = [])
  (hreleases : img.releases = []) (hpending : img.pending = []) (hcores : s.imageCores cluster img = some [core])
  (hfree : s.freeSlots core = k :: ks)
include hbad hgang hwarps hwbuf hreleases hpending hcores hfree

/-- An image of a warp alone returns to the first free slot of the core. -/
theorem State.restore_loose (n : Nat) : s.restore n cluster img = ({ s with
    warps := put s.warps (warpKey core k) (({ crews := [], warps := [(old, warpKey core k)] } : Ren).onWarp
      (warpKey core k) (s.cycleOf core) img.elapsed w),
    images := drop s.images n } : State).wakeCwait := by
  simp [State.restore, State.restoreLoose, hbad, hgang, hcores, hwarps, hfree,
    State.returnQueues_empty _ hwbuf hreleases hpending]

/-- A continuation warp is back in a slot, with its registers and masks, and its image is gone (R48, R376). -/
theorem State.restore_loose_warp (n : Nat) : ∃ w', (s.restore n cluster img).warp? core k = some w' ∧
    look (s.restore n cluster img).images n = none ∧ { w with elapsed := img.elapsed }.Woken w' := by
  rw [State.restore_loose hbad hgang hwarps hwbuf hreleases hpending hcores hfree]
  obtain ⟨w', hw', hwoken⟩ := State.wakeCwait_warp (s := { s with
    warps := put s.warps (warpKey core k) _, images := drop s.images n }) (look_put_self _ _ _)
  exact ⟨w', hw', by simp [State.wakeCwait, look_drop_self], (Ren.onWarp_woken _ _ _ _ w).trans hwoken⟩

end

end Sys2Proof.Machine
end

section
/-! Pre-emption, saved images and the Owl, an event each. -/

namespace Sys2Proof.Machine

/-! ### The choice (R361, R373) -/

theorem cheapest_eq_none (l : List (Nat × Nat)) : cheapest l = none ↔ l = [] := by
  cases l with
  | nil => simp [cheapest]
  | cons a l =>
    simp only [cheapest]
    split
    · simp
    · split <;> simp

/-- The choice is one of the options, and none costs less. -/
theorem cheapest_least {l : List (Nat × Nat)} {x : Nat × Nat} (h : cheapest l = some x) : x ∈ l ∧ ∀ y ∈ l, x.2 ≤ y.2 := by
  induction l generalizing x with
  | nil => cases h
  | cons a l ih =>
    simp only [cheapest] at h
    split at h
    case h_1 hnone =>
      obtain rfl := (cheapest_eq_none l).mp hnone
      cases h
      simp
    case h_2 b hb =>
      obtain ⟨hmem, hleast⟩ := ih hb
      split at h <;> cases h
      case isTrue hlt =>
        exact ⟨List.mem_cons_of_mem _ hmem, List.forall_mem_cons.mpr ⟨hlt.le, hleast⟩⟩
      case isFalse hge =>
        exact ⟨List.mem_cons_self, List.forall_mem_cons.mpr ⟨le_rfl, fun y hy => (not_lt.mp hge).trans (hleast y hy)⟩⟩

section
variable {s : State} {u : UnitId} {p : Parts} (hparts : s.parts u = some p)
include hparts

section
variable (hruns : s.runs p.ctx = true) (hchosen : s.chosen u p = true)
include hruns hchosen

/-- A drain or a save begins. -/
theorem exec_preemption_begins {n cost : Nat} (hc : cheapest (s.options p) = some (n, cost)) (hn : n ≠ 2) :
    exec (.preemptionDecision u) s = .next { s with
      preempts := s.preempts ++ [{ unit := u, option := n, start := s.cycleOf p.core, missed := false, full := false,
                                   parked := false, die := none }] } := by
  simp [exec, execPreemptionDecision, hparts, hruns, hchosen, hc, hn]

theorem exec_preemption_discards {cost g : Nat} {x : Gang} (hc : cheapest (s.options p) = some (2, cost))
    (hgang : p.gang = some (g, x)) : exec (.preemptionDecision u) s = .next (s.discardGang p x) := by
  simp [exec, execPreemptionDecision, hparts, hruns, hchosen, hc, hgang]

theorem exec_preemption_misses (hnone : s.options p = []) :
    exec (.preemptionDecision u) s = .next { s with
      preempts := s.preempts ++ [{ unit := u, option := 1, start := s.cycleOf p.core, missed := true, full := false,
                                   parked := false, die := none }] } := by
  simp [exec, execPreemptionDecision, hparts, hruns, hchosen, hnone, cheapest]

end

/-- A unit whose VD has no more than its floor is not chosen (R361). -/
theorem exec_preemption_floor (hfloor : 0 ≤ s.shortfall (clusterOf p.core) (s.vdOf p.ctx)) :
    exec (.preemptionDecision u) s = .next s := by
  have hkept : s.chosen u p = false := by simp [State.chosen, hfloor.not_gt]
  simp [exec, execPreemptionDecision, hparts, hkept]

/-! ### Deadlines and saves (R48, R49, R373 to R376) -/

theorem exec_fullSaveTimeout {x : Preempt} (hx : s.preempts.find? (fun x => x.unit == u) = some x) (hfull : x.full = false)
    (hsave : x.option = 1) (hlate : x.start + s.deadline p / 2 ≤ s.cycleOf p.core) :
    exec (.fullSaveTimeout u) s = .next { s with
      preempts := s.preempts.map fun q => if q.unit = u then { q with full := true } else q } := by
  simp [exec, execFullSaveTimeout, hparts, hx, hfull, hsave, hlate, State.onPreempt]

theorem exec_drainDeadlineExpiry {x : Preempt} (hx : s.preempts.find? (fun x => x.unit == u) = some x)
    (hfull : x.full = false) (hdrain : x.option = 0) (hlate : x.start + s.deadline p ≤ s.cycleOf p.core) :
    exec (.drainDeadlineExpiry u) s = .next { s with
      preempts := s.preempts.map fun q => if q.unit = u then { q with full := true, missed := true } else q } := by
  simp [exec, execDrainDeadlineExpiry, hparts, hx, hfull, hdrain, hlate, State.onPreempt]

theorem exec_gangSaveComplete {x : Preempt} (hx : s.preempts.find? (fun x => x.unit == u) = some x)
    (hruns : s.runs p.ctx = true) (hdue : x.full = true ∨ x.option = 1 ∧ p.stopped = true) :
    exec (.gangSaveComplete u) s = .next ((s.onPreempt u fun y =>
      { y with missed := y.missed || decide (x.start + s.deadline p < s.cycleOf p.core) }).trySave p u
        (if x.full then 1 else 0)).finishSaves := by
  have hgo : (s.runs p.ctx && (x.full || (x.option == 1 && p.stopped))) = true := by simpa [hruns] using hdue
  simp only [exec, execGangSaveComplete, hparts, hx, hgo, if_true]

theorem exec_parkedUnitSave (hruns : s.runs p.ctx = true) (hparked : p.parked = true)
    (hcrowded : s.crowded (clusterOf p.core) p.ctx = true) (hfree : s.preempted u = false) :
    exec (.parkedUnitSave u) s = .next (s.trySave p u 2) := by
  simp [exec, execParkedUnitSave, hparts, hruns, hparked, hcrowded, hfree]

/-! ### The Owl (R377, R378) -/

section
variable (hruns : s.runs p.ctx = true) (hscan : p.scan ≤ s.residentOf p)
include hruns hscan

/-- The first timer at the limit stops the context. -/
theorem exec_owlScan_timeout {t : OwlTimer} (ht : p.timers.find? (fun t => decide
    (t.start + (s.vd? (s.vdOf p.ctx)).elim (2 ^ 24) (fun v => v.config.barLimit) ≤ p.scan)) = some t) :
    exec (.owlScan u) s = .next (s.barrierTimeout p t p.scan) := by
  simp [-Nat.reducePow, exec, execOwlScan, hparts, hruns, hscan.not_gt, ht]

/-- Where no timer has reached the limit, a gang goes to its next scan. -/
theorem exec_owlScan_quiet {g : Nat} {x : Gang} (hgang : p.gang = some (g, x)) (hquiet : ∀ t ∈ p.timers,
    p.scan < t.start + (s.vd? (s.vdOf p.ctx)).elim (2 ^ 24) (fun v => v.config.barLimit)) :
    exec (.owlScan u) s = .next (s.onGang g fun y => { y with scan := y.scan + 4096 }) := by
  have hnone : p.timers.find? (fun t => decide
      (t.start + (s.vd? (s.vdOf p.ctx)).elim (2 ^ 24) (fun v => v.config.barLimit) ≤ p.scan)) = none := by
    simpa using hquiet
  simp [-Nat.reducePow, exec, execOwlScan, hparts, hruns, hscan.not_gt, hnone, State.scanned, hgang]

end

end

@[simp] theorem State.onGang_vdOf (s : State) (k : Nat) (g : Gang → Gang) (c : Nat) : (s.onGang k g).vdOf c = s.vdOf c := rfl

@[simp] theorem State.onGang_taskNo (s : State) (k : Nat) (g : Gang → Gang) (t : Nat) :
    (s.onGang k g).taskNo t = s.taskNo t := rfl

/-- A gang past its MAXRUN is marked, and the record of its VD says so (R433). -/
theorem exec_maxrunOverrun_gang {s : State} {g : Nat} {x : Gang} {p : Parts} {t : Task} (hparts : s.parts (.gang g) = some p)
    (hgang : p.gang = some (g, x)) (hruns : s.runs p.ctx = true) (htask : s.task? p.task = some t) (hrun : t.maxrun ≠ 0)
    (hfirst : x.overrun = false) (hpast : t.maxrun < s.residentOf p) :
    exec (.maxrunOverrun (.gang g)) s = .next ((s.onGang g fun y => { y with overrun := true }).postVd (s.vdOf p.ctx)
      { source := s.taskNo p.task, kind := 7, status := 3, fclass := 1, fpc := clusterOf p.core, detail := t.maxrun }) := by
  simp [exec, execMaxrunOverrun, hparts, hgang, hruns, htask, hrun, hfirst, hpast.not_ge]

/-! ### Images return (R358, R360, R371) -/

section
variable {s : State} {n cluster : Nat} {x : Image} (hx : look s.images n = some x) (hruns : s.runs x.ctx = true)
include hx hruns

theorem exec_gangRestore (hturn : s.imageTurn cluster x = true) (hhow : x.how ≠ 2) :
    exec (.gangRestore n cluster) s = .next (s.restore n cluster x) := by
  simp [exec, execGangRestore, hx, hruns, hturn, hhow]

theorem exec_parkedUnitRestore (hturn : s.imageTurn cluster x = true) (hhow : x.how = 2) (hfar : x.far = [])
    (hzero : s.countersZero x = true) : exec (.parkedUnitRestore n cluster) s = .next (s.restore n cluster x) := by
  simp [exec, execParkedUnitRestore, hx, hruns, hturn, hhow, hfar, hzero]

theorem exec_parkedUnitRestore_far (hhow : x.how = 2) (hfar : x.far ≠ []) :
    exec (.parkedUnitRestore n cluster) s = .next (s.askSaved n x) := by
  simp [exec, execParkedUnitRestore, hx, hruns, hhow, hfar]

end

/-- Settles O48: an event each; the image written is read back from what the save leaves, and the warp restored from the
waits that the restore ends. -/
theorem preemptionAndOwl : Obligations.PreemptionAndOwl := by
  unfold Obligations.PreemptionAndOwl
  refine ⟨fun s u p hp hr hc => ⟨fun n cost => exec_preemption_begins hp hr hc,
      fun cost g x => exec_preemption_discards hp hr hc, exec_preemption_misses hp hr hc⟩,
    fun s u p => exec_preemption_floor, fun l => ⟨cheapest_eq_none l, fun x => cheapest_least⟩,
    fun s u p x hp hx hf => ⟨exec_fullSaveTimeout hp hx hf, exec_drainDeadlineExpiry hp hx hf⟩,
    fun s u p x hp => exec_gangSaveComplete hp, fun s t p q u how hpending hheld hbusy ht hq => ?_,
    fun s n cluster x hx hr hturn => ⟨exec_gangRestore hx hr hturn, exec_parkedUnitRestore hx hr hturn,
      exec_parkedUnitRestore_far hx hr⟩,
    fun s n cluster core k old ks img w _ hbad hgang hwarps hwbuf hrel hpending hcores hfree => ?_,
    fun s u p => exec_parkedUnitSave,
    fun s u p limit hp hr hscan hlimit => ?_,
    fun s g x p t hp hg hr ht hrun hfirst hpast =>
      ⟨_, exec_maxrunOverrun_gang hp hg hr ht hrun hfirst hpast, rfl, rfl, rfl, rfl, rfl, rfl⟩⟩
  · subst ht
    rw [State.trySave_quiet hpending hheld hbusy hq]
    obtain ⟨img, himg, hctx, htask, hhow⟩ := State.writeImage_image (s.pauseMatrix p how) q u how
    exact ⟨img, himg, hctx, htask, hhow, State.writeImage_lacks (s.pauseMatrix p how) q u how⟩
  · obtain ⟨w', hw', himg, h⟩ := State.restore_loose_warp hbad hgang hwarps hwbuf hrel hpending hcores hfree n
    exact ⟨w', hw', himg, h.m, h.j, h.live, h.elapsed, fun l hl => ⟨h.regs l hl, fun hwait => by
      have hstay := h.stay l hl hwait
      exact ⟨congrArg Lane.pc hstay, (congrArg Lane.wait hstay).trans hwait⟩⟩⟩
  · subst hlimit
    exact ⟨fun t => exec_owlScan_timeout hp hr hscan, fun g x hg hquiet =>
      ⟨_, exec_owlScan_quiet hp hr hscan hg hquiet, look_adjust_self s.gangs g _, rfl⟩⟩

end Sys2Proof.Machine
end

section
/-! The opcode map both ways, and which words the decoder takes for an instruction (R52, R82). -/

namespace Sys2Proof

/-- Every instruction has the place that the map gives it back for; an operation or event has none. -/
theorem opcode_statement (i : Instr) : Laws.Opcode.Statement i := by
  intro eng op f h
  cases i
  all_goals cases h
  all_goals exact ⟨by decide, by decide, rfl⟩

theorem isaOf_of_ofOp {eng op : Nat} {f : Fields} {i : Instr} (h : ofOp eng op f = some i) :
    isaOf i = some (eng, op, f) := by
  unfold ofOp at h
  split at h
  case h_14 => cases h
  all_goals
    simp only [ofOp0, ofOp1, ofOp2, ofOp3, ofOp4, ofOp5, ofOp6, ofOp7, ofOp8, ofOp9, ofOp10, ofOp11, ofOp12] at h
    split at h <;> cases h <;> rfl

/-- The opcode map and the places of the instructions are inverse. -/
theorem ofOp_eq_some_iff {eng op : Nat} {f : Fields} {i : Instr} :
    ofOp eng op f = some i ↔ isaOf i = some (eng, op, f) :=
  ⟨isaOf_of_ofOp, fun h => (opcode_statement i eng op f h).2.2⟩

theorem ofOp_eq_none_of_reserved {eng : Nat} (h : 13 ≤ eng) (op : Nat) (f : Fields) : ofOp eng op f = none := by
  refine Option.eq_none_iff_forall_ne_some.mpr fun i hi => ?_
  have := (opcode_statement i eng op f (isaOf_of_ofOp hi)).1
  omega

theorem ofOp_eq_none_of_unlisted {eng op : Nat} {f : Fields} (h : ∀ i, isaOf i ≠ some (eng, op, f)) :
    ofOp eng op f = none :=
  Option.eq_none_iff_forall_ne_some.mpr fun i hi => h i (isaOf_of_ofOp hi)

theorem decodeWords_unlisted {ws : List Word} {eng op : Nat} {f : Fields} (hs : splitWords ws = some (eng, op, f))
    (ho : ofOp eng op f = none) (st : Stream) (loose : Bool) :
    decodeWords st loose ws = .error (.illegal (if eng ≥ 13 then .engine else .operation)) := by
  simp only [decodeWords, hs, ho]

theorem decodeWords_eq_ok_iff {st : Stream} {loose : Bool} {ws : List Word} {i : Instr} :
    decodeWords st loose ws = .ok i ↔
      ∃ eng op f, splitWords ws = some (eng, op, f) ∧ isaOf i = some (eng, op, f) ∧
        illegal? st loose eng op f = none := by
  constructor
  · intro h
    unfold decodeWords at h
    split at h
    case h_1 => cases h
    case h_2 eng op f hs =>
      split at h
      case h_1 => cases h
      case h_2 j hj =>
        split at h
        case h_1 => cases h
        case h_2 hl =>
          cases h
          exact ⟨eng, op, f, hs, isaOf_of_ofOp hj, hl⟩
  · rintro ⟨eng, op, f, hs, hi, hl⟩
    simp only [decodeWords, hs, ofOp_eq_some_iff.mpr hi, hl]

theorem wellFormed_iff {st : Stream} {loose : Bool} {i : Instr} :
    wellFormed st loose i = true ↔
      ∃ eng op f, isaOf i = some (eng, op, f) ∧ f.formOk = true ∧ illegal? st loose eng op f = none := by
  unfold wellFormed
  split
  case h_1 h => simp [h]
  case h_2 eng op f h => simp [h]

end Sys2Proof
end

section
/-! The words of an instruction and its fields: each is recovered from the other (Tables 3.1 to 3.4 and 3.8). -/

namespace Sys2Proof

open BitVec

/-! ### Parts of bit vectors -/

theorem ofBool_getLsbD {w : Nat} (x : BitVec w) (k : Nat) : ofBool (x.getLsbD k) = x.extractLsb' k 1 := by
  refine eq_of_getLsbD_eq fun i hi => ?_
  obtain rfl : i = 0 := by omega
  simp

theorem getLsbD_eq_iff_extractLsb' {w : Nat} {x : BitVec w} {k : Nat} {b : Bool} :
    x.getLsbD k = b ↔ x.extractLsb' k 1 = ofBool b := by
  rw [← ofBool_getLsbD, ofBool_eq_iff_eq]

/-- A register number from the parts that W1 and W0 hold of it. -/
theorem high_append_low (x : BitVec 11) : x.extractLsb' 6 5 ++ x.extractLsb' 0 6 = x :=
  extractLsb'_append_extractLsb' (w := 5) (len := 6)

/-- A register number of the 32-bit form, whose high part is absent. -/
theorem setWidth_low {x : BitVec 11} (h : x.toNat < 64) : (x.extractLsb' 0 6).setWidth 11 = x := by
  refine eq_of_toNat_eq ?_
  rw [toNat_setWidth, extractLsb'_toNat, Nat.shiftRight_zero]
  omega

theorem low_setWidth (x : BitVec 6) : (x.setWidth 11).extractLsb' 0 6 = x := by
  refine eq_of_toNat_eq ?_
  rw [extractLsb'_toNat, toNat_setWidth, Nat.shiftRight_zero]
  omega

/-! ### The fields that a word holds

A field is cut out of a word along the sum of the widths before it, so `simp` leaves these sums as they stand. -/

@[simp] theorem formOfLen_lenOfForm (form : Form) : formOfLen (lenOfForm form) = form := by cases form <;> rfl

@[simp] theorem lenOfForm_formOfLen (len : BitVec 2) : lenOfForm (formOfLen len) = len := by
  revert len; decide

theorem encodeW0_fields (eng op : Nat) (f : Fields) :
    (encodeW0 eng op f).extractLsb' 0 2 = lenOfForm f.form ∧
    (encodeW0 eng op f).getLsbD 2 = f.live.isSome ∧
    (encodeW0 eng op f).extractLsb' 3 4 = BitVec.ofNat 4 eng ∧
    (encodeW0 eng op f).extractLsb' 7 6 = BitVec.ofNat 6 op ∧
    (encodeW0 eng op f).getLsbD 13 = f.t ∧
    (encodeW0 eng op f).extractLsb' 14 6 = f.d.extractLsb' 0 6 ∧
    (encodeW0 eng op f).extractLsb' 20 6 = f.a.extractLsb' 0 6 ∧
    (encodeW0 eng op f).extractLsb' 26 6 = f.b.extractLsb' 0 6 := by
  simp only [getLsbD_eq_iff_extractLsb']
  refine ⟨extractLsb'_append_eq_right, ?_, ?_, ?_, ?_, ?_, ?_, ?_⟩
  all_goals
    rw [encodeW0, extractLsb'_append_eq_of_le (by decide)]
    simp [extractLsb'_append_eq_of_le, extractLsb'_append_eq_of_add_le, -Nat.reduceAdd]

theorem encodeW1_fields (f : Fields) :
    (encodeW1 f).extractLsb' 0 5 = f.d.extractLsb' 6 5 ∧ (encodeW1 f).extractLsb' 5 5 = f.a.extractLsb' 6 5 ∧
    (encodeW1 f).extractLsb' 10 5 = f.b.extractLsb' 6 5 ∧ (encodeW1 f).extractLsb' 15 11 = f.c ∧
    (encodeW1 f).getLsbD 26 = f.tb ∧ (encodeW1 f).getLsbD 27 = f.tc ∧ (encodeW1 f).extractLsb' 28 4 = f.mod := by
  simp only [getLsbD_eq_iff_extractLsb']
  refine ⟨extractLsb'_append_eq_right, ?_, ?_, ?_, ?_, ?_, ?_⟩
  all_goals
    rw [encodeW1, extractLsb'_append_eq_of_le (by decide)]
    simp [extractLsb'_append_eq_of_le, extractLsb'_append_eq_of_add_le, -Nat.reduceAdd]

theorem encodeW2_fields (f : Fields) :
    (encodeW2 f).extractLsb' 0 4 = f.pm ∧ (encodeW2 f).getLsbD 4 = f.pn ∧
    (encodeW2 f).extractLsb' 5 8 = f.fn ∧ (encodeW2 f).extractLsb' 13 19 = f.imm := by
  simp only [getLsbD_eq_iff_extractLsb']
  refine ⟨extractLsb'_append_eq_right, ?_, ?_, ?_⟩
  all_goals
    rw [encodeW2, extractLsb'_append_eq_of_le (by decide)]
    simp [extractLsb'_append_eq_of_le, extractLsb'_append_eq_of_add_le, -Nat.reduceAdd]

/-! ### From fields to words and back -/

/-- The words after W0, as far as the form has them. -/
def Fields.bodyWords (f : Fields) : List Word :=
  [encodeW1 f, encodeW2 f, f.lit.extractLsb' 0 32, f.lit.extractLsb' 32 32].take (wordsOfForm f.form - 1)

/-- The words of an instruction with the given place in the opcode map. -/
def wordsOfFields (eng op : Nat) (f : Fields) : List Word := encodeW0 eng op f :: f.bodyWords ++ f.live.toList

theorem encodeWords_of_isaOf {i : Instr} {eng op : Nat} {f : Fields} (h : isaOf i = some (eng, op, f)) :
    encodeWords i = wordsOfFields eng op f := by
  simp only [encodeWords, h, wordsOfFields, Fields.bodyWords]
  cases f.form <;> rfl

theorem bodyLength_le (form : Form) : wordsOfForm form - 1 ≤ 4 := by cases form <;> decide

theorem length_bodyWords (f : Fields) : f.bodyWords.length = wordsOfForm f.form - 1 := by
  rw [Fields.bodyWords]
  cases f.form <;> rfl

/-- The decoder reads the four places after W0 where the encoder has put the words of the form. -/
theorem take_getD_eq_take {r : List Word} {n : Nat} (h4 : n ≤ 4) (hr : n ≤ r.length) :
    [r.getD 0 0, r.getD 1 0, r.getD 2 0, r.getD 3 0].take n = r.take n := by
  refine List.ext_getElem (by simp; omega) fun k hk _ => ?_
  have hk4 : k < 4 := by simp at hk; omega
  have hkr : k < r.length := by simp at hk; omega
  rw [List.getElem_take, List.getElem_take, ← List.getD_eq_getElem (d := 0) (hn := hkr)]
  interval_cases k <;> rfl

/-- The words that the form has determine the fields; those that it lacks are not read, and the fields in them have their
defaults (R56). -/
theorem fieldsOfWords_encode {f : Fields} (hf : f.formOk = true) (eng op : Nat) {w1 w2 w3 w4 : Word}
    (hbody : [w1, w2, w3, w4].take (wordsOfForm f.form - 1) = f.bodyWords) :
    fieldsOfWords f.form f.live (encodeW0 eng op f) w1 w2 w3 w4 = f := by
  obtain ⟨-, -, -, -, ht, hd, ha, hb⟩ := encodeW0_fields eng op f
  obtain ⟨hd', ha', hb', hc, htb, htc, hmod⟩ := encodeW1_fields f
  obtain ⟨hpm, hpn, hfn, himm⟩ := encodeW2_fields f
  obtain ⟨form, live, t, tb, tc, d, a, b, c, mod, fn, pn, pm, imm, lit⟩ := f
  cases form with
  | w32 =>
    simp only [Fields.formOk, decide_eq_true_eq] at hf
    obtain ⟨hd6, ha6, hb6, rfl, rfl, rfl, rfl, rfl, rfl, rfl, rfl, rfl⟩ := hf
    simp only [fieldsOfWords, ht, hd, ha, hb, setWidth_low hd6, setWidth_low ha6, setWidth_low hb6]
  | w64 =>
    simp only [Fields.formOk, decide_eq_true_eq] at hf
    obtain ⟨rfl, rfl, rfl, rfl, rfl⟩ := hf
    cases hbody
    simp only [fieldsOfWords, Form.atLeast96, ht, hd, ha, hb, hd', ha', hb', hc, htb, htc, hmod, high_append_low,
      Bool.false_eq_true, if_false, Bool.false_and, reduceCtorEq]
  | w96 =>
    simp only [Fields.formOk, decide_eq_true_eq] at hf
    subst hf
    cases hbody
    simp only [fieldsOfWords, Form.atLeast96, ht, hd, ha, hb, hd', ha', hb', hc, htb, htc, hmod, hpm, hpn, hfn, himm,
      high_append_low, if_true, if_false, Bool.true_and, reduceCtorEq]
  | w160 =>
    cases hbody
    simp only [fieldsOfWords, Form.atLeast96, ht, hd, ha, hb, hd', ha', hb', hc, htb, htc, hmod, hpm, hpn, hfn, himm,
      high_append_low, if_true, Bool.true_and, extractLsb'_append_extractLsb' (w := 32) (len := 32)]

theorem splitWords_wordsOfFields {eng op : Nat} {f : Fields} (he : eng < 16) (ho : op < 64) (hf : f.formOk = true) :
    splitWords (wordsOfFields eng op f) = some (eng, op, f) := by
  obtain ⟨hlen, hsp, heng, hop, -, -, -, -⟩ := encodeW0_fields eng op f
  have hr : wordsOfForm f.form - 1 ≤ (f.bodyWords ++ f.live.toList).length := by simp [length_bodyWords]
  have hlive : (if f.live.isSome then some ((f.bodyWords ++ f.live.toList).getD (wordsOfForm f.form - 1) 0)
      else none) = f.live := by
    rw [← length_bodyWords]
    cases f.live <;> simp
  have hbody : (f.bodyWords ++ f.live.toList).take (wordsOfForm f.form - 1) = f.bodyWords :=
    List.take_left' (length_bodyWords f)
  rw [← take_getD_eq_take (bodyLength_le f.form) hr] at hbody
  have hlong : ¬ (f.bodyWords ++ f.live.toList).length < wordsOfForm f.form - 1 + if f.live.isSome then 1 else 0 := by
    cases f.live <;> simp [length_bodyWords]
  have heng' : eng % 2 ^ 4 = eng := Nat.mod_eq_of_lt he
  have hop' : op % 2 ^ 6 = op := Nat.mod_eq_of_lt ho
  simp only [wordsOfFields, List.cons_append, splitWords, hlen, hsp, heng, hop, formOfLen_lenOfForm, if_neg hlong, hlive,
    toNat_ofNat, heng', hop', fieldsOfWords_encode hf eng op hbody]

/-! ### From words to fields and back -/

@[simp] theorem formOk_fieldsOfWords (form : Form) (live : Option Word) (w0 w1 w2 w3 w4 : Word) :
    (fieldsOfWords form live w0 w1 w2 w3 w4).formOk = true := by
  have short (x : BitVec 6) : (x.setWidth 11).toNat < 64 := by bv_omega
  cases form with
  | w32 => exact decide_eq_true ⟨short _, short _, short _, rfl, rfl, rfl, rfl, rfl, rfl, rfl, rfl, rfl⟩
  | w64 => rfl
  | w96 => rfl
  | w160 => rfl

@[simp] theorem form_fieldsOfWords (form : Form) (live : Option Word) (w0 w1 w2 w3 w4 : Word) :
    (fieldsOfWords form live w0 w1 w2 w3 w4).form = form := by cases form <;> rfl

@[simp] theorem live_fieldsOfWords (form : Form) (live : Option Word) (w0 w1 w2 w3 w4 : Word) :
    (fieldsOfWords form live w0 w1 w2 w3 w4).live = live := by cases form <;> rfl

/-- In every form the low parts of the fields are the bits of W0 (R52, R53). -/
theorem low_fieldsOfWords (form : Form) (live : Option Word) (w0 w1 w2 w3 w4 : Word) :
    (fieldsOfWords form live w0 w1 w2 w3 w4).t = w0.getLsbD 13 ∧
    (fieldsOfWords form live w0 w1 w2 w3 w4).d.extractLsb' 0 6 = w0.extractLsb' 14 6 ∧
    (fieldsOfWords form live w0 w1 w2 w3 w4).a.extractLsb' 0 6 = w0.extractLsb' 20 6 ∧
    (fieldsOfWords form live w0 w1 w2 w3 w4).b.extractLsb' 0 6 = w0.extractLsb' 26 6 := by
  cases form with
  | w32 => exact ⟨rfl, low_setWidth _, low_setWidth _, low_setWidth _⟩
  | w64 | w96 | w160 =>
    exact ⟨rfl, extractLsb'_append_eq_right, extractLsb'_append_eq_right, extractLsb'_append_eq_right⟩

theorem encodeW0_fieldsOfWords {w0 : Word} {live : Option Word} (hlive : live.isSome = w0.getLsbD 2) (w1 w2 w3 w4 : Word) :
    encodeW0 (w0.extractLsb' 3 4).toNat (w0.extractLsb' 7 6).toNat
      (fieldsOfWords (formOfLen (w0.extractLsb' 0 2)) live w0 w1 w2 w3 w4) = w0 := by
  obtain ⟨ht, hd, ha, hb⟩ := low_fieldsOfWords (formOfLen (w0.extractLsb' 0 2)) live w0 w1 w2 w3 w4
  rw [encodeW0, form_fieldsOfWords, live_fieldsOfWords, hlive, lenOfForm_formOfLen, ofNat_toNat, ofNat_toNat, ht, hd, ha, hb,
    ofBool_getLsbD, ofBool_getLsbD, setWidth_eq, setWidth_eq]
  iterate 7 rw [extractLsb'_append_extractLsb'_eq_extractLsb' (by rfl)]
  exact extractLsb'_eq_self

theorem encodeW1_fieldsOfWords {form : Form} (h : form.atLeast64 = true) (live : Option Word) (w0 w1 w2 w3 w4 : Word) :
    encodeW1 (fieldsOfWords form live w0 w1 w2 w3 w4) = w1 := by
  have fields : encodeW1 (fieldsOfWords form live w0 w1 w2 w3 w4) = w1.extractLsb' 28 4 ++ w1.extractLsb' 27 1 ++
      w1.extractLsb' 26 1 ++ w1.extractLsb' 15 11 ++ w1.extractLsb' 10 5 ++ w1.extractLsb' 5 5 ++ w1.extractLsb' 0 5 := by
    rw [← ofBool_getLsbD, ← ofBool_getLsbD]
    cases form with
    | w32 => cases h
    | w64 | w96 | w160 => simp only [encodeW1, fieldsOfWords, extractLsb'_append_eq_left (w := 5) (w' := 6)]
  rw [fields]
  iterate 6 rw [extractLsb'_append_extractLsb'_eq_extractLsb' (by rfl)]
  exact extractLsb'_eq_self

theorem encodeW2_fieldsOfWords {form : Form} (h : form.atLeast96 = true) (live : Option Word) (w0 w1 w2 w3 w4 : Word) :
    encodeW2 (fieldsOfWords form live w0 w1 w2 w3 w4) = w2 := by
  have fields : encodeW2 (fieldsOfWords form live w0 w1 w2 w3 w4) =
      w2.extractLsb' 13 19 ++ w2.extractLsb' 5 8 ++ w2.extractLsb' 4 1 ++ w2.extractLsb' 0 4 := by
    rw [← ofBool_getLsbD]
    cases form with
    | w32 | w64 => cases h
    | w96 | w160 => rfl
  rw [fields]
  iterate 3 rw [extractLsb'_append_extractLsb'_eq_extractLsb' (by rfl)]
  exact extractLsb'_eq_self

theorem bodyWords_fieldsOfWords (form : Form) (live : Option Word) (w0 w1 w2 w3 w4 : Word) :
    (fieldsOfWords form live w0 w1 w2 w3 w4).bodyWords = [w1, w2, w3, w4].take (wordsOfForm form - 1) := by
  rw [Fields.bodyWords, form_fieldsOfWords]
  cases form with
  | w32 => rfl
  | w64 => rw [encodeW1_fieldsOfWords rfl]; rfl
  | w96 => rw [encodeW1_fieldsOfWords rfl, encodeW2_fieldsOfWords rfl]; rfl
  | w160 =>
    have hlit : (fieldsOfWords .w160 live w0 w1 w2 w3 w4).lit = w4 ++ w3 := rfl
    rw [encodeW1_fieldsOfWords rfl, encodeW2_fieldsOfWords rfl, hlit, extractLsb'_append_eq_right,
      extractLsb'_append_eq_left]

/-- The words of the form and the liveness word, where the decoder finds it, stand at the head. -/
theorem take_append_live_prefix {r : List Word} {n : Nat} {sp : Bool} (h : n + (if sp then 1 else 0) ≤ r.length) :
    r.take n ++ (if sp then some (r.getD n 0) else none).toList <+: r := by
  cases sp with
  | false => simpa using List.take_prefix n r
  | true =>
    have hn : n < r.length := h
    simpa [List.getElem?_eq_getElem hn] using List.take_prefix (n + 1) r

/-- Words that the decoder takes apart begin with the encoding of what it finds. -/
theorem wordsOfFields_prefix_of_splitWords {ws : List Word} {eng op : Nat} {f : Fields}
    (h : splitWords ws = some (eng, op, f)) : wordsOfFields eng op f <+: ws ∧ f.formOk = true := by
  cases ws with
  | nil => cases h
  | cons w0 r =>
    simp only [splitWords, Option.ite_none_left_eq_some, not_lt, Option.some.injEq, Prod.mk.injEq] at h
    obtain ⟨hlong, rfl, rfl, rfl⟩ := h
    refine ⟨?_, formOk_fieldsOfWords ..⟩
    have hsp : (if w0.getLsbD 2 = true then some (r.getD (wordsOfForm (formOfLen (w0.extractLsb' 0 2)) - 1) 0)
        else none).isSome = w0.getLsbD 2 := by cases w0.getLsbD 2 <;> rfl
    rw [wordsOfFields, encodeW0_fieldsOfWords hsp, bodyWords_fieldsOfWords, live_fieldsOfWords,
      take_getD_eq_take (bodyLength_le _) (by omega), List.cons_append, List.prefix_cons_inj]
    exact take_append_live_prefix hlong

/-! ### Words and bytes -/

theorem wordOfBytes_extract (w : Word) :
    wordOfBytes (w.extractLsb' 0 8) (w.extractLsb' 8 8) (w.extractLsb' 16 8) (w.extractLsb' 24 8) = w := by
  rw [wordOfBytes]
  iterate 3 rw [extractLsb'_append_extractLsb'_eq_extractLsb' (by rfl)]
  exact extractLsb'_eq_self

@[simp] theorem wordsOfBytes_flatMap_bytesOfWord (ws : List Word) : wordsOfBytes (ws.flatMap bytesOfWord) = ws := by
  induction ws with
  | nil => rfl
  | cons w ws ih =>
    simp only [List.flatMap_cons, bytesOfWord, List.cons_append, List.nil_append, wordsOfBytes, wordOfBytes_extract, ih]

end Sys2Proof
end

section
/-! Instructions are recovered from their words, and words that are an instruction from it (R51 to R62, R82). -/

namespace Sys2Proof

theorem decodeWords_encodeWords {st : Stream} {loose : Bool} {i : Instr} (h : wellFormed st loose i = true) :
    decodeWords st loose (encodeWords i) = .ok i := by
  obtain ⟨eng, op, f, hi, hform, hlegal⟩ := wellFormed_iff.mp h
  obtain ⟨heng, hop, -⟩ := opcode_statement i eng op f hi
  rw [encodeWords_of_isaOf hi]
  exact decodeWords_eq_ok_iff.mpr ⟨eng, op, f, splitWords_wordsOfFields (by omega) hop hform, hi, hlegal⟩

theorem encodeWords_prefix_of_decodeWords {st : Stream} {loose : Bool} {ws : List Word} {i : Instr}
    (h : decodeWords st loose ws = .ok i) : encodeWords i <+: ws ∧ wellFormed st loose i = true := by
  obtain ⟨eng, op, f, hs, hi, hlegal⟩ := decodeWords_eq_ok_iff.mp h
  obtain ⟨hprefix, hform⟩ := wordsOfFields_prefix_of_splitWords hs
  exact ⟨encodeWords_of_isaOf hi ▸ hprefix, wellFormed_iff.mpr ⟨eng, op, f, hi, hform, hlegal⟩⟩

/-- Settles O2: the fields are read back from the words that hold them, the place from the opcode map, and the words from
their bytes. -/
theorem encodingRoundTrip : Obligations.EncodingRoundTrip := by
  unfold Obligations.EncodingRoundTrip
  intro st loose i h
  refine ⟨decodeWords_encodeWords h, ?_⟩
  rw [decode, encode, wordsOfBytes_flatMap_bytesOfWord]
  exact decodeWords_encodeWords h

/-- Settles O3: the opcode map has an instruction for no other place, and every bit of the words read stands in a field. -/
theorem oneMeaningPerEncoding : Obligations.OneMeaningPerEncoding := by
  unfold Obligations.OneMeaningPerEncoding
  refine ⟨fun st loose ws eng op f hs => ⟨fun heng => ?_, fun heng hno => ?_⟩,
    fun st loose ws i => encodeWords_prefix_of_decodeWords⟩
  · rw [decodeWords_unlisted hs (ofOp_eq_none_of_reserved heng op f), if_pos heng]
  · rw [decodeWords_unlisted hs (ofOp_eq_none_of_unlisted hno), if_neg (by omega)]

end Sys2Proof
end

section
/-! The faults that the encoding of an instruction raises, in the order of R83: of the issue of an instruction, and of words
that are no instruction (R70, R71, R82). -/

namespace Sys2Proof.Machine

/-- An instruction of the two streams is the issue of its place and its fields. -/
theorem exec_eq_issue {n : Instr} {eng op : Nat} {f : Fields} (h : isaOf n = some (eng, op, f)) (s : State) :
    ∃ div k kl, exec n s = issue eng op f s div k kl := by
  rcases exec_issue_or_next n s with ⟨eng', op', f', hn, hexec⟩ | ⟨hn, -⟩
  · rw [h] at hn
    cases hn
    exact hexec
  · rw [h] at hn
    cases hn

/-! ### Lanes -/

section
variable {s : State} {eng op : Nat} {f : Fields} {i : Iss} (h : s.laneIss eng op f = some i)
  {div : State → Iss → Option Word} {k : State → Iss → State} {kl : State → LIss → State}
include h

theorem issue_lane_illegal (hbad : (f.formOk && (illegal? .lane i.w.crew.isNone eng op f).isNone) = false) :
    issue eng op f s div k kl = .next (i.raiseAll s Cls.illegal ((encodeW0 eng op f).setWidth 64)) := by
  rw [issue_lane h]
  obtain ⟨-, -, rfl, rfl, rfl, hact, hpc⟩ := State.laneIss_spec h
  simp only [issueLanes, hbad, Bool.not_false, if_true, ← hact, ← hpc]

theorem issue_lane_regnum (hok : (f.formOk && (illegal? .lane i.w.crew.isNone eng op f).isNone) = true) {d : Nat}
    (hd : regBad .lane eng op f i.w.regs = some d) :
    issue eng op f s div k kl = .next (i.raiseAll s Cls.regnum (w64 d)) := by
  rw [issue_lane h]
  obtain ⟨-, -, rfl, rfl, rfl, hact, hpc⟩ := State.laneIss_spec h
  simp only [issueLanes, hok, hd, Bool.not_true, Bool.false_eq_true, if_false, ← hact, ← hpc]

end

/-! ### The lead thread -/

theorem issue_lead {s : State} {eng op : Nat} {f : Fields} {i : LIss} (h : s.leadIss eng op f = some i)
    (div : State → Iss → Option Word) (k : State → Iss → State) (kl : State → LIss → State) :
    issue eng op f s div k kl = .next (issueLead eng op f s i.core i.slot i.c kl) := by
  obtain ⟨hcur, hcrew, -⟩ := State.leadIss_spec h
  simp only [issue, hcur, hcrew]

section
variable {s : State} {eng op : Nat} {f : Fields} {i : LIss} (h : s.leadIss eng op f = some i)
  {div : State → Iss → Option Word} {k : State → Iss → State} {kl : State → LIss → State}
include h

theorem issue_lead_illegal (hbad : (f.formOk && (illegal? .lead false eng op f).isNone) = false) :
    issue eng op f s div k kl =
      .next (s.trapLead i.core i.slot Cls.illegal ((encodeW0 eng op f).setWidth 64)) := by
  rw [issue_lead h]
  simp only [issueLead, hbad, Bool.not_false, if_true, LIss.raise]

variable (hok : (f.formOk && (illegal? .lead false eng op f).isNone) = true)
include hok

theorem issue_lead_regnum {d : Nat} (hd : regBad .lead eng op f 0 = some d) :
    issue eng op f s div k kl = .next (s.trapLead i.core i.slot Cls.regnum (w64 d)) := by
  rw [issue_lead h]
  simp only [issueLead, hok, hd, Bool.not_true, Bool.false_eq_true, if_false, LIss.raise]

variable (hreg : regBad .lead eng op f 0 = none) (hgo : (f.live.isSome && s.stopping (.gang i.c.gang)) = false)
include hreg hgo

theorem issue_lead_empty {d : Nat} (hd : ready .lead eng op f i.c.lead.empty i.c.lead.hold = .empty d) :
    issue eng op f s div k kl = .next (s.trapLead i.core i.slot Cls.empty (w64 d)) := by
  rw [issue_lead h]
  simp only [issueLead, hok, hreg, hgo, hd, Bool.not_true, Bool.false_eq_true, if_false, LIss.raise]

theorem issue_lead_wait (hd : ready .lead eng op f i.c.lead.empty i.c.lead.hold = .wait) :
    issue eng op f s div k kl = .next (i.retry s) := by
  rw [issue_lead h]
  obtain ⟨-, -, rfl, rfl, rfl, hpc⟩ := State.leadIss_spec h
  simp only [issueLead, hok, hreg, hgo, hd, Bool.not_true, Bool.false_eq_true, if_false, ← hpc]

end

/-! ### Words that are no instruction -/

theorem State.fetchGroup_illegal {s : State} {core slot : Nat} {w : Warp} {g : Word} {ws : List Word} {e : DecodeError}
    (hw : s.warp? core slot = some w)
    (hf : s.fetch (s.laneWho core slot w (lowest g)) (s.codeOf w).1 (s.codeOf w).2.1 (s.codeOf w).2.2
      (w.lane (lowest g)).pc.toNat = .ok ws)
    (hd : decodeWords .lane w.crew.isNone ws = .error e) :
    s.fetchGroup core slot g = .idle (s.groupFault core slot g (w.lane (lowest g)).pc
      ((ws.getD 0 0).extractLsb' 3 4).toNat ((ws.getD 0 0).extractLsb' 7 6).toNat ws.length Cls.illegal 0
      ((ws.getD 0 0).setWidth 64)) := by
  simp only [State.fetchGroup, hw, hf, hd]

theorem State.fetchLead_illegal {s : State} {core slot : Nat} {c : Crew} {ws : List Word} {e : DecodeError}
    (hc : s.crew? core slot = some c)
    (hf : s.fetch (s.leadWho core slot c) c.code c.codeLo c.codeHi c.lead.pc.toNat = .ok ws)
    (hd : decodeWords .lead false ws = .error e) :
    s.fetchLead core slot = .idle (s.trapLead core slot Cls.illegal ((ws.getD 0 0).setWidth 64)) := by
  simp only [State.fetchLead, hc, hf, hd]

/-- Settles O27: the first check of R83 that fails ends the issue, and words that decode to nothing end the fetch. -/
theorem encodingFaults : Obligations.EncodingFaults := by
  unfold Obligations.EncodingFaults
  refine ⟨fun n eng op f s i hn hi => ?_, fun n eng op f s i hn hi => ?_,
    fun s core slot w g ws e hw hf hd => ⟨_, rfl, State.fetchGroup_illegal hw hf hd⟩,
    fun s core slot c ws e => State.fetchLead_illegal⟩
  · obtain ⟨div, k, kl, hexec⟩ := exec_eq_issue hn s
    rw [hexec]
    exact ⟨issue_lane_illegal hi, fun d hok => issue_lane_regnum hi hok⟩
  · obtain ⟨div, k, kl, hexec⟩ := exec_eq_issue hn s
    rw [hexec]
    exact ⟨issue_lead_illegal hi, fun d hok => issue_lead_regnum hi hok, fun hok hreg hgo =>
      ⟨fun d => issue_lead_empty hi hok hreg hgo, issue_lead_wait hi hok hreg hgo⟩⟩

end Sys2Proof.Machine
end

section
/-! The step of a turn in which the words at the PC are an instruction that goes on: the cycle of a sequencer, of a lead
engine and of a second slot (R58, R142, R164, R359). -/

namespace Sys2Proof.Machine

/-! ### Fetching -/

theorem State.fetchGroup_run {s : State} {core slot : Nat} {w : Warp} {g : Word} {ws : List Word} {i : Instr}
    (hw : s.warp? core slot = some w)
    (hf : s.fetch (s.laneWho core slot w (lowest g)) (s.codeOf w).1 (s.codeOf w).2.1 (s.codeOf w).2.2
      (w.lane (lowest g)).pc.toNat = .ok ws)
    (hd : decodeWords .lane w.crew.isNone ws = .ok i) :
    s.fetchGroup core slot g = .run i { s with cur := .lanes core slot g } := by
  simp only [State.fetchGroup, hw, hf, hd]

theorem State.fetchLead_run {s : State} {core slot : Nat} {c : Crew} {ws : List Word} {i : Instr}
    (hc : s.crew? core slot = some c)
    (hf : s.fetch (s.leadWho core slot c) c.code c.codeLo c.codeHi c.lead.pc.toNat = .ok ws)
    (hd : decodeWords .lead false ws = .ok i) :
    s.fetchLead core slot = .run i { s with cur := .lead core slot } := by
  simp only [State.fetchLead, hc, hf, hd]

/-! ### The cycle of a sequencer -/

section
variable {ex : Instr → State → Host.Outcome State Fault Refusal} {core slot : Nat} {s t u : State} {i : Instr}

theorem issueGroup_run {g : Word} {after : List Word}
    (hu : u = { s with second := if after = [] then none else some (core, slot, after) })
    (hfetch : u.fetchGroup core slot g = .run i { u with cur := .lanes core slot g })
    (hex : ex i { u with cur := .lanes core slot g } = .next t)
    (hheld : (t.warp? core slot).any (fun x : Warp => x.held g) = false) :
    issueGroup ex core slot g after s = (true, .next t) := by
  subst hu
  simp only [issueGroup, hfetch, Due.go, hex, hheld, Bool.false_eq_true, if_false]

/-- The first group issues when no aged group takes its place. -/
theorem issueFirst_issues {w : Warp} {g : Word} {gs : List Word}
    (haged : ∀ h, (w.seconds gs).head? = some h → 224 ≤ w.ageOf h → s.clash core slot g h = false)
    (hissue : issueGroup ex core slot g (s.beside core slot g (w.seconds gs)) s = (true, .next t)) :
    issueFirst ex w core slot (g :: gs) s = (true, .next t) := by
  unfold issueFirst
  dsimp only
  split
  case h_1 h _ hcand =>
    rw [if_neg, hissue]
    rintro ⟨hage, hclash⟩
    simp [haged h (by rw [hcand]; rfl) hage] at hclash
  case h_2 => rw [hissue]

theorem issueWarps_issues {w : Warp} {ks : List Nat} (hw : s.warp? core slot = some w)
    (hissue : issueFirst ex w core slot w.groups (s.ageGroups core slot) = (true, .next t)) :
    issueWarps ex core (slot :: ks) s = .next (t.ageWarps core slot) := by
  simp only [issueWarps, hw, hissue]

/-- The warps have the cycle unless the Badger's warp performs a request in it (R359). -/
theorem issueCore_warps
    (hbadger : core % 16 = 0 → s.badgerYields (core / 16) = true ∨ s.badgerNext (core / 16) = none) :
    issueCore ex core s = issueWarps ex core (s.warpOrder core)
      { s with badgers := if core % 16 = 0 then s.badgers.filter (· != core / 16) else s.badgers } := by
  have hnone : (if core % 16 = 0 ∧ s.badgerYields (core / 16) = false then s.badgerNext (core / 16) else none) = none := by
    split
    case isTrue h => exact (hbadger h.1).resolve_left (by simp [h.2])
    case isFalse => rfl
  simp only [issueCore, hnone]

theorem issueSecond_issues {w : Warp} {g : Word} {gs : List Word} (hw : s.warp? core slot = some w)
    (hruns : s.runs w.ctx = true) (hmay : (lanesOf g).all w.may = true)
    (hfetch : s.fetchGroup core slot g = .run i { s with cur := .lanes core slot g })
    (hex : ex i { s with cur := .lanes core slot g } = .next t)
    (hheld : (t.warp? core slot).any (fun x : Warp => x.held g) = false) :
    issueSecond ex core slot (g :: gs) s = .next t := by
  simp only [issueSecond, hw, hruns, hmay, hfetch, Due.go, hex, hheld, Bool.and_self, if_true, Bool.false_eq_true, if_false]

/-! ### The cycle of a lead engine -/

/-- The lead threads before the one that may issue are passed over. -/
theorem issueLeads_issues {slots : List Nat} (hfind : slots.find? (s.leadMay core) = some slot)
    (hfetch : s.fetchLead core slot = .run i { s with cur := .lead core slot })
    (hex : ex i { s with cur := .lead core slot } = .next t)
    (hheld : (t.crew? core slot).any (fun x : Crew => x.lead.wait == Wait.retry) = false) :
    issueLeads ex core slots s =
      .next { t with rot := put t.rot core (((look t.rot core).getD (15, 3)).1, slot) } := by
  induction slots with
  | nil => cases hfind
  | cons k slots ih =>
    cases hmay : s.leadMay core k with
    | true =>
      obtain rfl : k = slot := by simpa [List.find?_cons, hmay] using hfind
      simp only [issueLeads, hmay, hfetch, Due.go, hex, hheld, if_true, Bool.false_eq_true, if_false]
    | false =>
      rw [issueLeads, if_neg (by simp [hmay])]
      exact ih (by simpa [List.find?_cons, hmay] using hfind)

end

/-! ### The step -/

theorem step_second {s : State} {core slot : Nat} {gs : List Word} (h : s.pkg.tripped = false)
    (h2 : s.second = some (core, slot, gs)) : step s = issueSecond exec core slot gs { s.tick with second := none } := by
  simp [step, stepWith, h, h2, State.tick]

/-- Settles O25: each cycle reaches the thread that the statement names, whose fetch gives the decoded instruction. -/
theorem stepRunsDecoded : Obligations.StepRunsDecoded := by
  unfold Obligations.StepRunsDecoded
  refine ⟨fun s v a u t core slot ks r w x g gs ws i hup h2 hin hv hbadger horder hw hgs ha haged hu hx hfetch hdec hex
      hheld => ?_,
    fun s u t core slot r c ws i hup h2 hin hu hfind hc hfetch hdec hex hheld => ?_,
    fun s u t core slot w g gs ws i hup h2 hu hw hruns hmay hfetch hdec hex hheld => ?_⟩
  · have hturn : step s = issueCore exec core v := hv ▸ step_scheduled hup h2 hin
    have hbadgers : v.badgers = s.badgers := hv ▸ rfl
    have hwv : v.warp? core slot = some w := hv ▸ hw
    have hgroup := issueGroup_run hu (State.fetchGroup_run hx hfetch hdec) hex hheld
    have hfirst := issueFirst_issues haged hgroup
    rw [← hgs, ha, ← hbadgers] at hfirst
    rw [hturn, issueCore_warps hbadger, horder]
    exact issueWarps_issues hwv hfirst
  · have hturn : step s = takeTurn exec (.lead core) u := hu ▸ step_scheduled hup h2 hin
    have hrot : u.rot = s.rot := hu ▸ rfl
    have hcu : u.crew? core slot = some c := hu ▸ hc
    rw [hturn, takeTurn, hrot]
    exact issueLeads_issues hfind (State.fetchLead_run hcu hfetch hdec) hex hheld
  · rw [step_second hup h2, ← hu]
    have hwu : u.warp? core slot = some w := hu ▸ hw
    exact issueSecond_issues hwu hruns hmay (State.fetchGroup_run hwu hfetch hdec) hex hheld

end Sys2Proof.Machine
end

section
/-! The integer types of MOD as bit vectors of their width: an operand is the low bits of its register or pair, a result is an
exact integer reduced to that width, and both agree with the arithmetic of patterns (R97, R189). -/

namespace Sys2Proof.Machine

/-! ### trunc and the signed value of a pattern (R96, R97) -/

theorem ofNat_truncN (w : Nat) (x : Int) : BitVec.ofNat w (truncN w x) = BitVec.ofInt w x := by
  rw [truncN, ← BitVec.toNat_ofInt, BitVec.ofNat_toNat, BitVec.setWidth_eq]

theorem signedOf_eq_toInt (w n : Nat) : signedOf w n = (BitVec.ofNat w n).toInt := by
  simp only [signedOf, BitVec.toInt_eq_toNat_cond, BitVec.toNat_ofNat, ← Nat.not_lt, ite_not]

theorem lo32_w64 (n : Nat) : lo32 (w64 n) = BitVec.ofNat 32 n :=
  BitVec.setWidth_ofNat_of_le (by decide) n

theorem ofInt_sub_eq (w : Nat) (x y : Int) : BitVec.ofInt w (x - y) = BitVec.ofInt w x - BitVec.ofInt w y := by
  rw [Int.sub_eq_add_neg, BitVec.ofInt_add, BitVec.ofInt_neg, BitVec.sub_eq_add_neg]

/-! ### Operands (R189) -/

theorem tyRead_signed {mo : Nat} (h : tySigned mo = true) (p : DWord) : tyRead mo p = (p.setWidth (tyWidth mo)).toInt := by
  rw [tyRead, readInt, if_pos h, signedOf_eq_toInt, BitVec.ofNat_toNat]

theorem tyRead_unsigned {mo : Nat} (h : tySigned mo = false) (p : DWord) :
    tyRead mo p = ((p.setWidth (tyWidth mo)).toNat : Int) := by
  rw [tyRead, readInt, h, if_neg Bool.false_ne_true, BitVec.toNat_setWidth]

/-- Modulo 2^w an operand is its pattern, whether the type is signed or not. -/
theorem ofInt_tyRead (mo : Nat) (p : DWord) : BitVec.ofInt (tyWidth mo) (tyRead mo p) = p.setWidth (tyWidth mo) := by
  cases h : tySigned mo with
  | true => rw [tyRead_signed h, BitVec.ofInt_toInt]
  | false => rw [tyRead_unsigned h, BitVec.ofInt_natCast, BitVec.ofNat_toNat, BitVec.setWidth_eq]

theorem ofInt_tyRead_word {mo : Nat} (h : mo = 0 ∨ mo = 1) (p : DWord) : BitVec.ofInt 32 (tyRead mo p) = lo32 p := by
  obtain rfl | rfl := h <;> exact ofInt_tyRead _ p

theorem ofInt_tyRead_wide {mo : Nat} (h : mo = 6 ∨ mo = 7) (p : DWord) : BitVec.ofInt 64 (tyRead mo p) = p := by
  obtain rfl | rfl := h <;> exact (ofInt_tyRead _ p).trans (BitVec.setWidth_eq p)

/-! ### Results (R97, R189) -/

theorem tyTrunc_wide {mo : Nat} (h : mo = 6 ∨ mo = 7) (x : Int) : tyTrunc mo x = BitVec.ofInt 64 x := by
  have hw : tyWidth mo = 64 := by obtain rfl | rfl := h <;> rfl
  rw [tyTrunc, tyExtend, if_pos hw, hw, w64, ofNat_truncN]

theorem lo32_tyTrunc_signed {mo : Nat} (h : tyWidth mo ≠ 64) (hs : tySigned mo = true) (x : Int) :
    lo32 (tyTrunc mo x) = (BitVec.ofInt (tyWidth mo) x).signExtend 32 := by
  rw [tyTrunc, tyExtend, if_neg h, if_pos hs, lo32_w64, ofNat_truncN, signedOf_eq_toInt, ofNat_truncN, BitVec.signExtend]

theorem lo32_tyTrunc_unsigned {mo : Nat} (h : tyWidth mo ≠ 64) (hs : tySigned mo = false) (x : Int) :
    lo32 (tyTrunc mo x) = (BitVec.ofInt (tyWidth mo) x).setWidth 32 := by
  rw [tyTrunc, tyExtend, if_neg h, hs, if_neg Bool.false_ne_true, lo32_w64, ← ofNat_truncN, ← BitVec.ofNat_toNat,
    BitVec.toNat_ofNat]

theorem lo32_tyTrunc_word {mo : Nat} (h : mo = 0 ∨ mo = 1) (x : Int) : lo32 (tyTrunc mo x) = BitVec.ofInt 32 x := by
  obtain rfl | rfl := h
  · exact (lo32_tyTrunc_signed (by decide) rfl x).trans (BitVec.signExtend_eq _)
  · exact (lo32_tyTrunc_unsigned (by decide) rfl x).trans (BitVec.setWidth_eq _)

theorem tySat_eq_clamp {mo : Nat} {lo hi : Int} (hlo : minInt (tyWidth mo) (tySigned mo) = lo)
    (hhi : maxInt (tyWidth mo) (tySigned mo) = hi) (x : Int) : tySat mo x = tyTrunc mo (max lo (min hi x)) := by
  rw [tySat, satInt, hlo, hhi]

/-- Settles O4: each operand is the low bits of its pattern and each result an exact integer modulo the width of its type, so
that sums, differences and products are those of the patterns. -/
theorem integerTypes : Obligations.IntegerTypes := by
  unfold Obligations.IntegerTypes
  refine ⟨fun p => ?_, fun x => ?_, fun x => ?_, fun a b mo h => ?_, fun a b mo h => ?_⟩
  · have h6 : tyRead 6 p = (p.setWidth 64).toInt := tyRead_signed rfl p
    have h7 : tyRead 7 p = ((p.setWidth 64).toNat : Int) := tyRead_unsigned rfl p
    rw [BitVec.setWidth_eq] at h6 h7
    exact ⟨tyRead_signed rfl p, tyRead_unsigned rfl p, tyRead_signed rfl p, tyRead_unsigned rfl p, tyRead_signed rfl p,
      tyRead_unsigned rfl p, h6, h7⟩
  · exact ⟨lo32_tyTrunc_word (.inl rfl) x, lo32_tyTrunc_word (.inr rfl) x, lo32_tyTrunc_signed (by decide) rfl x,
      lo32_tyTrunc_unsigned (by decide) rfl x, lo32_tyTrunc_signed (by decide) rfl x,
      lo32_tyTrunc_unsigned (by decide) rfl x, tyTrunc_wide (.inl rfl) x, tyTrunc_wide (.inr rfl) x⟩
  · exact ⟨tySat_eq_clamp rfl rfl x, tySat_eq_clamp rfl rfl x, tySat_eq_clamp rfl rfl x, tySat_eq_clamp rfl rfl x,
      tySat_eq_clamp rfl rfl x, tySat_eq_clamp rfl rfl x, tySat_eq_clamp rfl rfl x, tySat_eq_clamp rfl rfl x⟩
  · simp only [lo32_tyTrunc_word h, BitVec.ofInt_add, ofInt_sub_eq, BitVec.ofInt_mul, ofInt_tyRead_word h, and_self]
  · simp only [tyTrunc_wide h, BitVec.ofInt_add, ofInt_sub_eq, BitVec.ofInt_mul, ofInt_tyRead_wide h, and_self]

end Sys2Proof.Machine
end

section
/-! The canonical form of device memory along every step: one law for each operation of the machine. Each proof
follows the shape of the operation's definition, so that the one idea is in the laws of `Laws/Memory.lean`: bytes
written keep the form, and nothing else touches memory. -/

namespace Sys2Proof.Machine

theorem Memory.wf_foldl {α : Type} {f : Memory → α → Memory} (hf : ∀ m a, m.wf = true → (f m a).wf = true) {m : Memory}
    (h : m.wf = true) (xs : List α) : (xs.foldl f m).wf = true :=
  List.foldlRecOn (motive := fun m : Memory => m.wf = true) _ _ h fun m hm a _ => hf m a hm

/-! ### What a result keeps -/

/-- Every state in which an outcome goes on has canonical memory. -/
def NextOk (o : Host.Outcome State Fault Refusal) : Prop := ∀ t, o = .next t → t.memOk

/-- A computation that can stop with a state of its own: that state has canonical memory, and a result that it hands
on meets a condition. -/
def EndsOk {α : Type} (P : α → Prop) : Except State α → Prop
  | .ok a => P a
  | .error t => t.memOk

/-- The state of a try of one unit of a copy has canonical memory. -/
def CpOut.memOk : CpOut → Prop
  | .next s => s.memOk
  | .halt s => s.memOk

/-- The state of an attempt to issue has canonical memory. -/
def Due.memOk : Due → Prop
  | .idle s => s.memOk
  | .run _ s => s.memOk

theorem CpOut.memOk.next {s : State} (h : s.memOk) : (CpOut.next s).memOk := h

theorem CpOut.memOk.halt {s : State} (h : s.memOk) : (CpOut.halt s).memOk := h

theorem Due.memOk.idle {s : State} (h : s.memOk) : (Due.idle s).memOk := h

theorem Due.memOk.run {i} {s : State} (h : s.memOk) : (Due.run i s).memOk := h

theorem NextOk.next {s : State} (h : s.memOk) : NextOk (.next s) := by
  intro t e
  cases e
  exact h

theorem NextOk.fault {r : Fault} : NextOk (.fault r) := by
  intro t e
  cases e

theorem NextOk.refused {r : Refusal} : NextOk (.refused r) := by
  intro t e
  cases e

theorem NextOk.ite {o p : Host.Outcome State Fault Refusal} {c : Prop} [Decidable c] (h : NextOk o) (h' : NextOk p) :
    NextOk (if c then o else p) := by
  split <;> assumption

theorem EndsOk.ok {α : Type} {P : α → Prop} {a : α} (h : P a) : EndsOk P (.ok a) := h

theorem EndsOk.error {α : Type} {P : α → Prop} {t : State} (h : t.memOk) : EndsOk P (.error t) := h

theorem EndsOk.bind {α β : Type} {P : α → Prop} {Q : β → Prop} {r : Except State α} {k : α → Except State β}
    (hr : EndsOk P r) (hk : ∀ a, P a → EndsOk Q (k a)) : EndsOk Q (r >>= k) := by
  cases r with
  | ok a => exact hk a hr
  | error t => exact hr

theorem State.memOk.ite {s t : State} {c : Prop} [Decidable c] (h : s.memOk) (h' : t.memOk) :
    (if c then s else t).memOk := by
  split <;> assumption

theorem State.memOk.foldl {α : Type} {f : State → α → State} {s : State} {xs : List α}
    (hf : ∀ s a, s.memOk → (f s a).memOk) (h : s.memOk) : (xs.foldl f s).memOk := memOk_foldl hf xs h

theorem State.memOk.of_next {o : Host.Outcome State Fault Refusal} {t : State} (h : NextOk o)
    (e : o = .next t) : t.memOk :=
  h t e

theorem State.memOk.of_ok {r : Except State State} {t : State} (h : EndsOk State.memOk r)
    (e : r = .ok t) : t.memOk := by
  rwa [e] at h

theorem State.memOk.of_error {α : Type} {P : α → Prop} {r : Except State α} {t : State} (h : EndsOk P r)
    (e : r = .error t) : t.memOk := by
  rwa [e] at h

theorem State.memOk.of_ok_snd {α : Type} {r : Except State (α × State)} {a : α} {t : State}
    (h : EndsOk (fun x => x.2.memOk) r) (e : r = .ok (a, t)) : t.memOk := by
  rwa [e] at h

theorem State.memOk.of_ok_third {α β : Type} {r : Except State (α × β × State)} {a : α} {b : β} {t : State}
    (h : EndsOk (fun x => x.2.2.memOk) r) (e : r = .ok (a, b, t)) : t.memOk := by
  rwa [e] at h

theorem State.memOk.of_next_snd {p : Bool × Host.Outcome State Fault Refusal} {b : Bool} {t : State} (h : NextOk p.2)
    (e : p = (b, .next t)) : t.memOk := by
  rw [e] at h
  exact h t rfl

theorem State.memOk.of_moved {o : CpOut} {t : State} (h : o.memOk) (e : o = .next t) : t.memOk := by
  rwa [e] at h

theorem State.memOk.of_halted {o : CpOut} {t : State} (h : o.memOk) (e : o = .halt t) : t.memOk := by
  rwa [e] at h

theorem State.memOk.of_snd {α : Type} {p : α × State} {a : α} {t : State} (h : p.2.memOk) (e : p =
    (a, t)) : t.memOk := by
  rwa [e] at h

/-- Memory as given, whatever else changes. -/
theorem State.memOk.of_wf {t : State} {m : Memory} (h : m.wf = true) (e : t.mem = m) : t.memOk := by
  rwa [State.memOk, e]

/-- A change of anything but memory. -/
theorem State.memOk.of_mem {s t : State} (h : s.memOk) (e : t.mem = s.mem) : t.memOk := by
  rwa [State.memOk, e]

/-- Bytes written to memory, whatever else changes. -/
theorem State.memOk.written {s t : State} (h : s.memOk) {pa bs} (e : t.mem = s.mem.writeN pa bs) : t.memOk :=
  State.memOk_of_writeN h e

/-! ### The laws of `Laws/Memory.lean`, as steps of a chain -/

theorem State.memOk.write {pa bs} {s : State} (h : s.memOk) : (s.write pa bs).memOk := .written h rfl

theorem State.memOk.store {pa bs} {s : State} (h : s.memOk) : (s.store pa bs).memOk := State.store_memOk h pa bs

theorem State.memOk.storeFresh {pa bs} {s : State} (h : s.memOk) : (s.storeFresh pa bs).memOk :=
  State.storeFresh_memOk h pa bs

theorem State.memOk.storeHub {pa bs} {s : State} (h : s.memOk) : (s.storeHub pa bs).memOk :=
  State.storeHub_memOk h pa bs

theorem State.memOk.coreStore {core pa bs} {s : State} (h : s.memOk) : (s.coreStore core pa bs).memOk :=
  State.coreStore_memOk h core pa bs

theorem State.memOk.publishAt {e pa} {s : State} (h : s.memOk) : (s.publishAt e pa).memOk :=
  State.publishAt_memOk h e pa

theorem State.memOk.performWhere {p} {s : State} (h : s.memOk) : (s.performWhere p).memOk :=
  State.performWhere_memOk h p

theorem State.memOk.serveGuard {pa} {s : State} (h : s.memOk) : (s.serveGuard pa).memOk := State.serveGuard_memOk h pa

theorem State.memOk.dropGuard {pa shared scope t} {s : State} (h : s.memOk) : (s.dropGuard pa shared scope t).memOk :=
  State.dropGuard_memOk h pa shared scope t

theorem State.memOk.dirWrite {line die} {s : State} (h : s.memOk) : (s.dirWrite line die).memOk := by
  simpa [State.memOk] using h

theorem State.memOk.coreOwn {line core} {s : State} (h : s.memOk) : (s.coreOwn line core).memOk := by
  simpa [State.memOk] using h

theorem State.memOk.patchLine {core pa n} {s : State} (h : s.memOk) : (s.patchLine core pa n).memOk := by
  simpa [State.memOk] using h

theorem State.memOk.probe {line a} {s : State} (h : s.memOk) : (s.probe line a).memOk := by simpa [State.memOk] using h

end Sys2Proof.Machine
end

section
/-! Operations that leave memory as it is: each holds by computation. -/

namespace Sys2Proof.Machine

theorem State.memOk.setWarp {core slot w} {s : State} (h : s.memOk) : (s.setWarp core slot w).memOk := h

theorem State.memOk.onWarp {core slot g} {s : State} (h : s.memOk) : (s.onWarp core slot g).memOk := h

theorem State.memOk.onCrewKey {k g} {s : State} (h : s.memOk) : (s.onCrewKey k g).memOk := h

theorem State.memOk.onLead {core slot g} {s : State} (h : s.memOk) : (s.onLead core slot g).memOk := h

theorem State.memOk.onGang {k g} {s : State} (h : s.memOk) : (s.onGang k g).memOk := h

theorem State.memOk.onCtx {k g} {s : State} (h : s.memOk) : (s.onCtx k g).memOk := h

theorem State.memOk.onVd {k g} {s : State} (h : s.memOk) : (s.onVd k g).memOk := h

theorem State.memOk.onQi {k g} {s : State} (h : s.memOk) : (s.onQi k g).memOk := h

theorem State.memOk.onTask {k g} {s : State} (h : s.memOk) : (s.onTask k g).memOk := h

theorem State.memOk.onPkg {g} {s : State} (h : s.memOk) : (s.onPkg g).memOk := h

theorem State.memOk.onMb {g} {s : State} (h : s.memOk) : (s.onMb g).memOk := h

theorem State.memOk.onDie {d g} {s : State} (h : s.memOk) : (s.onDie d g).memOk := h

theorem State.memOk.fresh {s : State} (h : s.memOk) : s.fresh.2.memOk := h

theorem State.memOk.emit {o} {s : State} (h : s.memOk) : (s.emit o).memOk := h

theorem State.memOk.errUp {n lo width k} {s : State} (h : s.memOk) : (s.errUp n lo width k).memOk := h

theorem State.memOk.wakeCwait {s : State} (h : s.memOk) : s.wakeCwait.memOk := h

theorem State.memOk.dieTake {line die cores} {s : State} (h : s.memOk) : (s.dieTake line die cores).memOk := h

theorem State.memOk.unhold {pa n} {s : State} (h : s.memOk) : (s.unhold pa n).memOk := h

theorem State.memOk.countFault {c cls} {s : State} (h : s.memOk) : (s.countFault c cls).memOk := h

theorem State.memOk.mbDone {result} {s : State} (h : s.memOk) : (s.mbDone result).memOk := h

theorem State.memOk.onWaiters {g} {s : State} (h : s.memOk) : (s.onWaiters g).memOk := h

theorem State.memOk.issCommit {i : Iss} {g} {s : State} (h : s.memOk) : (i.commit s g).memOk := h

theorem State.memOk.issDone {i : Iss} {s : State} (h : s.memOk) : (i.done s).memOk := h

theorem State.memOk.issProduce {i : Iss} {vals flags chain} {s : State} (h : s.memOk) :
    (i.produce s vals flags chain).memOk := h

theorem State.memOk.issAwait {i : Iss} {m wait} {s : State} (h : s.memOk) : (i.await s m wait).memOk := h

theorem State.memOk.leadCommit {i : LIss} {g} {s : State} (h : s.memOk) : (i.commit s g).memOk := h

theorem State.memOk.leadDone {i : LIss} {s : State} (h : s.memOk) : (i.done s).memOk := h

theorem State.memOk.issWrite {i : Iss} {wide v} {s : State} (h : s.memOk) : (i.write s wide v).memOk := h

theorem State.memOk.trimDq {k} {s : State} (h : s.memOk) : (s.trimDq k).memOk := h

theorem State.memOk.issLoadTo {i : Iss} {bytes} {s : State} (h : s.memOk) : (i.loadTo s bytes).memOk := h

theorem State.memOk.leadProduce {i : LIss} {v} {s : State} (h : s.memOk) : (i.produce s v).memOk := h

theorem State.memOk.shareWrites {core ctx} {s : State} (h : s.memOk) : (s.shareWrites core ctx).memOk := h

theorem State.memOk.onRelease {id g} {s : State} (h : s.memOk) : (s.onRelease id g).memOk := h

theorem State.memOk.wakeBarrier {p phase} {s : State} (h : s.memOk) : (s.wakeBarrier p phase).memOk := h

theorem State.memOk.unveil {stamp} {s : State} (h : s.memOk) : (s.unveil stamp).memOk := h

theorem State.memOk.onCopy {k ticket g} {s : State} (h : s.memOk) : (s.onCopy k ticket g).memOk := h

theorem State.memOk.runAdvance {r : CpRun} {ev g} {s : State} (h : s.memOk) : (r.advance s ev g).memOk := h

theorem State.memOk.unage {core slot w} {s : State} (h : s.memOk) : (s.unage core slot w).memOk := h

theorem State.memOk.ageWarps {core slot} {s : State} (h : s.memOk) : (s.ageWarps core slot).memOk := h

theorem State.memOk.onContWarp {id g} {s : State} (h : s.memOk) : (s.onContWarp id g).memOk := h

theorem State.memOk.disownUnit {p} {s : State} (h : s.memOk) : (s.disownUnit p).memOk := h

theorem State.memOk.unfile {p} {s : State} (h : s.memOk) : (s.unfile p).memOk := h

theorem State.memOk.onInval {vd g} {s : State} (h : s.memOk) : (s.onInval vd g).memOk := h

theorem State.memOk.endInval {vd} {s : State} (h : s.memOk) : (s.endInval vd).memOk := h

theorem State.memOk.begin {q p work} {s : State} (h : s.memOk) : (s.begin q p work).memOk := h

theorem State.memOk.letGo {q} {s : State} (h : s.memOk) : (s.letGo q).memOk := h

theorem State.memOk.signed {q} {s : State} (h : s.memOk) : (s.signed q).memOk := h

theorem State.memOk.mbWaits {w} {s : State} (h : s.memOk) : (s.mbWaits w).memOk := h

theorem State.memOk.unbindAll {vd} {s : State} (h : s.memOk) : (s.unbindAll vd).memOk := h

theorem State.memOk.dirForget {d} {s : State} (h : s.memOk) : (s.dirForget d).memOk := h

theorem State.memOk.onKill {c g} {s : State} (h : s.memOk) : (s.onKill c g).memOk := h

theorem State.memOk.switchHub {s : State} (h : s.memOk) : s.switchHub.memOk := h

theorem State.memOk.peerAnswer {id ep status data} {s : State} (h : s.memOk) :
    (s.peerAnswer id ep status data).memOk := h

end Sys2Proof.Machine
end

section
/-! Memory stays canonical: memory, guards, records, the stop of a context, and the issue of an instruction. -/

namespace Sys2Proof.Machine

/-! ### Device memory and tiles -/

theorem State.memOk.wakeWaita {crew tile} {s : State} (h : s.memOk) : (s.wakeWaita crew tile).memOk := by
  unfold State.wakeWaita
  dsimp only
  split
  · exact h
  · split <;> exact h

theorem State.memOk.writeTile {crew tile off bs} {s : State} (h : s.memOk) : (s.writeTile crew tile off bs).memOk :=
  .wakeWaita h

theorem State.memOk.correct {die crew tile off n} {s : State} (h : s.memOk) :
    (s.correct die crew tile off n).memOk := by
  unfold State.correct
  dsimp only
  split <;> exact h

theorem State.memOk.storeTile {crew tile off bs} {s : State} (h : s.memOk) : (s.storeTile crew tile off bs).memOk :=
  .of_mem (.writeTile h) rfl

theorem State.memOk.afterFence {core slot lane tile off n} {s : State} (h : s.memOk) :
    (s.afterFence core slot lane tile off n).memOk := by
  unfold State.afterFence
  dsimp only
  split <;> exact h

theorem State.memOk.laneTile {core slot lane crew tile off bs} {s : State} (h : s.memOk) :
    (s.laneTile core slot lane crew tile off bs).memOk := .afterFence (.storeTile h)

theorem State.memOk.performPending {p} {s : State} (h : s.memOk) : (s.performPending p).memOk := .coreStore h

/-! ### Walks, services and the fault queue -/

theorem State.memOk.requestWalk {c page acc hub host} {s : State} (h : s.memOk) :
    (s.requestWalk c page acc hub host).2.memOk := by
  unfold State.requestWalk
  dsimp only
  split <;> exact h

theorem State.memOk.requestService {c page acc hub} {s : State} (h : s.memOk) :
    (s.requestService c page acc hub).2.memOk := by
  unfold State.requestService
  dsimp only
  split
  · exact .requestWalk h
  · exact .of_mem (.requestWalk h) rfl

theorem State.memOk.requestServices {c acc hub ps} {s : State} (h : s.memOk) :
    (s.requestServices c acc hub ps).2.memOk := by
  induction ps generalizing s with
  | nil => exact h
  | cons x xs ih =>
    unfold State.requestServices
    dsimp only
    exact ih (.requestService h)

theorem State.memOk.requestWalks {c acc hub ps} {s : State} (h : s.memOk) : (s.requestWalks c acc hub ps).2.memOk := by
  induction ps generalizing s with
  | nil => exact h
  | cons x xs ih =>
    unfold State.requestWalks
    dsimp only
    exact ih (.requestWalk h)

theorem State.memOk.openFid {vd f id} {s t : State} (h : s.memOk) (e : s.openFid vd f = some (id, t)) : t.memOk := by
  unfold State.openFid at e
  split at e
  · cases e
  · split at e
    · cases e
    · rw [← (Prod.mk.inj (Option.some.inj e)).2]
      exact .onVd (.store h)

theorem State.memOk.postFault {a c va acc cause eng core} {s : State} (h : s.memOk) :
    (s.postFault a c va acc cause eng core).2.memOk := by
  unfold State.postFault
  dsimp only
  split
  · exact h
  · split
    · split
      · exact .store h
      · exact h
    · split
      · exact .openFid h ‹_›
      · exact h

theorem State.memOk.postFaults {a c acc eng core ps} {s : State} (h : s.memOk) :
    (s.postFaults a c acc eng core ps).2.memOk := by
  induction ps generalizing s with
  | nil => exact h
  | cons x xs ih =>
    unfold State.postFaults
    dsimp only
    exact ih (.postFault h)

/-! ### Guards -/

theorem State.memOk.publishAll {es} {s : State} (h : s.memOk) : (s.publishAll es).memOk := by
  unfold State.publishAll
  refine .foldl ?_ h
  intro s' a hs
  split
  · split
    · exact .publishAt hs
    · exact hs
  · exact hs

theorem State.memOk.serveGuards {pas} {s : State} (h : s.memOk) : (s.serveGuards pas).memOk :=
  .foldl (fun _ _ hs => .serveGuard hs) h

theorem State.memOk.withdrawGuards {gone} {s : State} (h : s.memOk) : (s.withdrawGuards gone).memOk := .serveGuards h

theorem State.memOk.publishHeld {obj} {s : State} (h : s.memOk) : (s.publishHeld obj).memOk := by
  unfold State.publishHeld
  dsimp only
  split
  · exact h
  · split <;> exact h

theorem State.memOk.settleHeld {e} {s : State} (h : s.memOk) : (s.settleHeld e).memOk := by
  unfold State.settleHeld
  split
  · exact h
  · split
    · split
      · exact .publishAt h
      · exact h
    · exact h

theorem State.memOk.dropWrites {c} {s : State} (h : s.memOk) : (s.dropWrites c).memOk :=
  .of_mem (.foldl (fun _ _ hs => .settleHeld hs) h) rfl

/-! ### Event records -/

theorem State.memOk.interrupt {q} {s : State} (h : s.memOk) : (s.interrupt q).memOk := by
  unfold State.interrupt
  dsimp only
  split
  · exact h
  · exact .onQi (.ite h h)

theorem State.memOk.signalled {q now} {s : State} (h : s.memOk) : (s.signalled q now).memOk := by
  unfold State.signalled
  dsimp only
  split
  · exact h
  · split
    · exact .interrupt h
    · exact h

theorem State.memOk.flushN {n q} {s : State} (h : s.memOk) : (State.flushN n s q).memOk := by
  induction n generalizing s with
  | zero => exact h
  | succ n ih =>
    unfold State.flushN
    dsimp only
    split
    · exact h
    · split
      · exact h
      · split
        · exact ih h
        · split
          · split
            · exact h
            · exact ih (.signalled (.onQi (.storeHub h)))
          · exact ih (.signalled h)
          · exact .onQi (.countFault (.postFaults h))
          · exact .onQi (.countFault (.requestService h))
          · exact .onQi (.requestWalk h)
          · exact ih h

theorem State.memOk.flush {q} {s : State} (h : s.memOk) : (s.flush q).memOk := by
  unfold State.flush
  split
  · exact h
  · split
    · exact .flushN h
    · exact h

theorem State.memOk.flushAll {s : State} (h : s.memOk) : s.flushAll.memOk := .foldl (fun _ _ hs => .flush hs) h

theorem State.memOk.post {q r} {s : State} (h : s.memOk) : (s.post q r).memOk := by
  unfold State.post
  split
  · exact h
  · split
    · exact .flush h
    · exact h

theorem State.memOk.postVd {vd r} {s : State} (h : s.memOk) : (s.postVd vd r).memOk := by
  unfold State.postVd
  split
  · exact h
  · exact .post h

theorem State.memOk.postMgmt {r} {s : State} (h : s.memOk) : (s.postMgmt r).memOk := by
  unfold State.postMgmt
  split
  · exact h
  · split <;> exact h

theorem State.memOk.postState {vd r} {s : State} (h : s.memOk) : (s.postState vd r).memOk := .postMgmt (.postVd h)

theorem State.memOk.postDie {source status event detail} {s : State} (h : s.memOk) :
    (s.postDie source status event detail).memOk := .postMgmt (.foldl (fun _ _ hs => .postVd hs) h)

/-! ### Kills, the alarm, the stop of a context -/

theorem State.memOk.tidyLeases {s : State} (h : s.memOk) : s.tidyLeases.memOk := .flushAll (.serveGuards h)

theorem State.memOk.killStep {c} {s : State} (h : s.memOk) : (s.killStep c).memOk := .withdrawGuards (.tidyLeases h)

theorem State.memOk.scrub {c engine} {s : State} (h : s.memOk) : (s.scrub c engine).memOk := by
  unfold State.scrub
  split
  · exact h
  · exact h
  · exact h
  · exact .dropWrites h
  · exact h
  · exact h
  · exact h
  · exact h
  · exact h

theorem State.memOk.endTasks {c k} {s : State} (h : s.memOk) : (s.endTasks c k).memOk := by
  unfold State.endTasks
  dsimp only
  refine .onVd (.of_mem (.foldl (fun _ _ hs => .post hs) (.foldl ?_ h)) rfl)
  intro s' a hs
  split
  · exact hs
  · exact .post hs

theorem State.memOk.killRecords {c k} {s : State} (h : s.memOk) : (s.killRecords c k).memOk := .endTasks (.postVd h)

theorem State.memOk.kill {c k} {s : State} (h : s.memOk) : (s.kill c k).memOk := by
  unfold State.kill
  split
  · exact h
  · split
    · exact h
    · exact .killStep h

theorem State.memOk.alarmStop {s : State} (h : s.memOk) : s.alarmStop.memOk :=
  .foldl (fun _ _ hs => .postState hs) (.foldl (fun _ _ hs => .kill hs) (.foldl (fun _ _ hs => hs) h))

theorem State.memOk.alarmTo {level} {s : State} (h : s.memOk) : (s.alarmTo level).memOk := by
  unfold State.alarmTo
  dsimp only
  split
  · exact h
  · split
    · exact .onMb (.onPkg (.ite (.alarmStop h) h))
    · split
      · exact .alarmStop h
      · exact h

theorem State.memOk.alarm {source n} {s : State} (h : s.memOk) : (s.alarm source n).memOk := .alarmTo (.postMgmt h)

theorem State.memOk.reclock {s : State} (h : s.memOk) : s.reclock.memOk := by
  unfold State.reclock
  split <;> exact h

theorem State.memOk.stop {c cls source qual fpc faddr unit} {s : State} (h : s.memOk) :
    (s.stop c cls source qual fpc faddr unit).memOk := by
  unfold State.stop
  dsimp only
  split
  · exact h
  · split
    · exact .alarm (.kill h)
    · exact .kill h

/-! ### Registers and threads -/

theorem State.memOk.observe {k q} {s : State} (h : s.memOk) : (s.observe k q).memOk :=
  .foldl (fun _ _ hs => .wakeWaita hs) h

theorem State.memOk.wakeWalk {id ans} {s : State} (h : s.memOk) : (s.wakeWalk id ans).memOk := .flushAll h

theorem State.memOk.wakePark {fid hb c page host fatal} {s : State} (h : s.memOk) :
    (s.wakePark fid hb c page host fatal).memOk := .flushAll h

theorem State.memOk.waitWalks {core slot grp c acc pages} {s : State} (h : s.memOk) :
    (s.waitWalks core slot grp c acc pages).memOk := .onWarp (.requestWalks h)

theorem State.memOk.parkLanes {core slot lanes c acc eng faults hbs} {s : State} (h : s.memOk) :
    (s.parkLanes core slot lanes c acc eng faults hbs).memOk := .onWarp (.requestServices (.postFaults h))

theorem State.memOk.enterHandler {core slot i f entry} {s : State} (h : s.memOk) :
    (s.enterHandler core slot i f entry).memOk := .tidyLeases h

theorem State.memOk.trap {core slot i f} {s : State} (h : s.memOk) : (s.trap core slot i f).memOk := by
  unfold State.trap
  dsimp only
  split
  · exact h
  · split
    · exact h
    · split
      · exact .stop h
      · split
        · exact .stop h
        · split
          · exact .enterHandler h
          · split
            · exact .enterHandler h
            · exact .stop h
            · exact .parkLanes h
            · exact .parkLanes h
            · exact .waitWalks h
            · exact .stop h

theorem State.memOk.trapLead {core slot cls faddr} {s : State} (h : s.memOk) :
    (s.trapLead core slot cls faddr).memOk := by
  unfold State.trapLead
  split
  · exact h
  · exact .stop h

/-! ### The issue of an instruction -/

theorem State.memOk.issRaise {i : Iss} {cls lanes addr data} {s : State} (h : s.memOk) :
    (i.raise s cls lanes addr data).memOk := .trap h

theorem State.memOk.issRaiseAll {i : Iss} {cls data} {s : State} (h : s.memOk) : (i.raiseAll s cls data).memOk :=
  .issRaise h

theorem State.memOk.leadRaise {i : LIss} {cls faddr} {s : State} (h : s.memOk) : (i.raise s cls faddr).memOk :=
  .trapLead h

theorem State.memOk.issRaiseBad {i : Iss} {m} {s : State} (h : s.memOk) : (i.raiseBad s m).memOk := .issRaise h

theorem State.memOk.issueLanes {eng op f core slot grp w div k} {s : State} (h : s.memOk)
    (hk : ∀ s a, s.memOk → (k s a).memOk) : (issueLanes eng op f s core slot grp w div k).memOk := by
  unfold Machine.issueLanes
  dsimp only
  split
  · exact .issRaiseAll h
  · split
    · exact .issRaiseAll h
    · split
      · exact h
      · split
        · exact .issRaise h
        · split
          · split
            · exact h
            · exact .issRaise h
          · exact h
          · split
            · exact hk _ _ h
            · exact .issRaiseBad h

theorem State.memOk.issueLead {eng op f core slot c k} {s : State} (h : s.memOk)
    (hk : ∀ s a, s.memOk → (k s a).memOk) : (issueLead eng op f s core slot c k).memOk := by
  unfold Machine.issueLead
  dsimp only
  split
  · exact .leadRaise h
  · split
    · exact .leadRaise h
    · split
      · exact h
      · split
        · exact .leadRaise h
        · exact h
        · split
          · exact .leadRaise h
          · exact hk _ _ h

theorem NextOk.issue {eng op f div k kl} {s : State} (h : s.memOk) (hk : ∀ s a, s.memOk → (k s a).memOk)
    (hkl : ∀ s a, s.memOk → (kl s a).memOk) : NextOk (issue eng op f s div k kl) := by
  unfold Machine.issue
  split
  · exact .fault
  · split
    · exact .fault
    · exact .next (.issueLanes h hk)
  · split
    · exact .fault
    · exact .next (.issueLead h hkl)

theorem NextOk.laneInstr {eng op f k} {s : State} (h : s.memOk) (hk : ∀ s a, s.memOk → (k s a).memOk) :
    NextOk (laneInstr eng op f s k) := .issue h hk fun _ _ hs => hs

theorem NextOk.leadInstr {eng op f k} {s : State} (h : s.memOk) (hk : ∀ s a, s.memOk → (k s a).memOk) :
    NextOk (leadInstr eng op f s k) := .issue h (fun _ _ hs => hs) hk

theorem NextOk.tiledInstr {eng op f out k} {s : State} (h : s.memOk) (hk : ∀ s a, s.memOk → (k s a).memOk) :
    NextOk (tiledInstr eng op f s out k) := .issue h hk fun _ _ hs => hs

theorem State.memOk.issPerWarp {i : Iss} {k} {s : State} (h : s.memOk) (hk : ∀ s, s.memOk → (k s).memOk) :
    (i.perWarp s k).memOk := by
  unfold Iss.perWarp
  split
  · exact hk _ h
  · exact h

/-! ### Numbers -/

theorem State.memOk.countOne {task pc n k} {s : State} (h : s.memOk) : (s.countOne task pc n k).memOk := by
  unfold State.countOne
  dsimp only
  split
  · exact h
  · split
    · exact .postVd h
    · exact h

theorem State.memOk.countFp {task pc ns} {s : State} (h : s.memOk) : (s.countFp task pc ns).memOk :=
  .foldl (fun _ _ hs => .countOne hs) h

/-! ### What a warp, a crew and a gang leave behind -/

theorem State.memOk.passArrived {b wait} {s : State} (h : s.memOk) : (s.passArrived b wait).memOk :=
  .foldl (fun _ _ hs => hs) h

theorem State.memOk.checkBars {k} {s : State} (h : s.memOk) : (s.checkBars k).memOk := by
  unfold State.checkBars
  dsimp only
  split
  · exact h
  · exact .onCrewKey (.foldl (fun _ _ hs => .passArrived hs) h)

theorem State.memOk.checkGbars {g} {s : State} (h : s.memOk) : (s.checkGbars g).memOk := by
  unfold State.checkGbars
  dsimp only
  split
  · exact h
  · exact .onGang (.foldl (fun _ _ hs => .passArrived hs) h)

theorem State.memOk.endPreempt {u} {s : State} (h : s.memOk) : (s.endPreempt u).memOk := by
  unfold State.endPreempt
  dsimp only
  split
  · exact h
  · split
    · exact .postVd h
    · exact h

theorem State.memOk.checkGang {g} {s : State} (h : s.memOk) : (s.checkGang g).memOk := by
  unfold State.checkGang
  dsimp only
  split
  · exact h
  · split
    · exact .of_mem (.endPreempt h) rfl
    · exact h

theorem State.memOk.checkCrew {k} {s : State} (h : s.memOk) : (s.checkCrew k).memOk := by
  unfold State.checkCrew
  dsimp only
  split
  · exact h
  · split
    · exact .checkGang h
    · exact h

theorem State.memOk.disownLoose {core ctx} {s : State} (h : s.memOk) : (s.disownLoose core ctx).memOk := by
  unfold State.disownLoose
  split <;> exact h

theorem State.memOk.checkWarp {core slot} {s : State} (h : s.memOk) : (s.checkWarp core slot).memOk := by
  unfold State.checkWarp
  dsimp only
  split
  · exact h
  · split
    · exact h
    · split
      · exact .disownLoose (.onTask (.tidyLeases (.of_mem (.ite (.endPreempt h) h) rfl)))
      · exact .checkCrew (.trimDq (.onCrewKey (.tidyLeases (.of_mem (.ite (.endPreempt h) h) rfl))))

/-! ### The path from an instruction to memory -/

theorem State.memOk.callerDone {c : Caller} {s : State} (h : s.memOk) : (c.done s).memOk := by
  unfold Caller.done
  split <;> exact h

theorem State.memOk.callerRetry {c : Caller} {s : State} (h : s.memOk) : (c.retry s).memOk := by
  unfold Caller.retry
  split <;> exact h

theorem State.memOk.callerHold {c : Caller} {wait} {s : State} (h : s.memOk) : (c.hold s wait).memOk := by
  unfold Caller.hold
  split <;> exact h

theorem State.memOk.callerStatus {c : Caller} {v} {s : State} (h : s.memOk) : (c.status s v).memOk := by
  unfold Caller.status
  split <;> exact h

theorem State.memOk.stopLost {c unit} {s : State} (h : s.memOk) : (s.stopLost c unit).memOk := .stop h

theorem State.memOk.callerFault {c : Caller} {cls lanes acc far ref} {s : State} (h : s.memOk) :
    (c.fault s cls lanes acc far ref).memOk := by
  unfold Caller.fault
  dsimp only
  split
  · exact .stopLost h
  · split
    · exact .issRaise (.ite h h)
    · exact .leadRaise (.ite h h)

theorem State.memOk.callerPark {c : Caller} {acc faults hbs} {s : State} (h : s.memOk) :
    (c.park s acc faults hbs).memOk := by
  unfold Caller.park
  dsimp only
  split
  · exact .onWarp (.parkLanes h)
  · exact .onLead (.requestServices (.postFaults h))

theorem State.memOk.callerWalk {c : Caller} {acc pages} {s : State} (h : s.memOk) : (c.walk s acc pages).memOk := by
  unfold Caller.walk
  dsimp only
  split
  · exact .waitWalks h
  · exact .onLead (.requestWalks h)

theorem State.memOk.callerAsk {c : Caller} {l kind} {s : State} (h : s.memOk) : (c.ask s l kind).memOk :=
  .callerHold (.foldl (fun _ _ hs => hs) h)

theorem State.memOk.callerFollow {c : Caller} {acc ref out kind gate k} {s : State} (h : s.memOk)
    (hgate : ∀ s, s.memOk → EndsOk State.memOk (gate s)) (hk : ∀ s, s.memOk → (k s).memOk) :
      (c.follow s acc ref out kind gate k).memOk := by
  unfold Caller.follow
  split
  · exact .callerFault h
  · exact .callerWalk h
  · exact .callerPark h
  · split
    · exact .of_error (hgate _ h) ‹_›
    · exact .callerAsk (.of_ok (hgate _ h) ‹_›)
  · split
    · exact .of_error (hgate _ h) ‹_›
    · exact hk _ (.of_ok (hgate _ h) ‹_›)

theorem State.memOk.callerSettle {c : Caller} {acc ref kind gate k} {s : State} (h : s.memOk)
    (hgate : ∀ s, s.memOk → EndsOk State.memOk (gate s)) (hk : ∀ a s, s.memOk → (k a s).memOk) :
      (c.settle s acc ref kind gate k).memOk := .callerFollow h hgate fun _ hs => hk _ _ hs

theorem EndsOk.open_ {s : State} (h : s.memOk) : EndsOk State.memOk (open_ s) := .ok h

theorem State.memOk.performFree {p} {s : State} (h : s.memOk) : (s.performFree p).memOk := .performWhere h

theorem State.memOk.callerDeferred {c : Caller} {r} {s : State} (h : s.memOk) : (c.deferred s r).memOk := .stop h

theorem EndsOk.callerCompletion {c : Caller} {s : State} (h : s.memOk) : EndsOk State.memOk (c.completion s) := by
  unfold Caller.completion
  split
  · exact .ok h
  · split
    · exact .error (.callerDeferred h)
    · exact .error (.callerRetry h)

theorem EndsOk.callerAcquired {c : Caller} {s : State} (h : s.memOk) : EndsOk State.memOk (c.acquired s) := by
  unfold Caller.acquired
  split
  · exact .error (.callerRetry h)
  · exact .ok h

theorem State.memOk.callerBehindFence {c : Caller} {s : State} (h : s.memOk) : (c.behindFence s).memOk := by
  unfold Caller.behindFence
  split
  · exact .callerDeferred h
  · exact .callerRetry h

theorem EndsOk.callerPerformed {c : Caller} {s : State} (h : s.memOk) : EndsOk State.memOk (c.performed s) := by
  unfold Caller.performed
  dsimp only
  split
  · exact .error (.callerBehindFence h)
  · split
    · exact .error (.callerRetry (.performWhere h))
    · exact .callerAcquired (.performWhere h)

theorem EndsOk.callerReleased {c : Caller} {s : State} (h : s.memOk) : EndsOk State.memOk (c.released s) := by
  unfold Caller.released
  refine .bind (.callerCompletion h) fun _ hs => ?_
  refine .bind (.callerPerformed hs) fun _ ht => ?_
  split
  · exact .ok ht
  · exact .error (.callerRetry ht)

theorem State.memOk.callerWaitLines {c : Caller} {loc} {s : State} (h : s.memOk) : (c.waitLines s loc).memOk := by
  unfold Caller.waitLines
  refine .callerRetry (.foldl ?_ h)
  intro s' a hs
  split
  · split
    · exact .probe hs
    · exact hs
  · exact hs

theorem State.memOk.claim {who : Who} {grain} {s : State} (h : s.memOk) : (s.claim who grain).memOk := by
  unfold State.claim
  dsimp only
  split <;> exact h

theorem State.memOk.touch {who : Who} {hd loc} {s : State} (h : s.memOk) : (s.touch who hd loc).memOk := by
  unfold State.touch
  split
  · split
    · exact .claim h
    · exact h
  · exact h

theorem State.memOk.filled {core loc} {s : State} (h : s.memOk) : (s.filled core loc).memOk := by
  unfold State.filled
  split <;> exact h

theorem State.memOk.callerPut1 {c : Caller} {l hd o loc bs} {s : State} (h : s.memOk) :
    (c.put1 s l hd o loc bs).memOk := by
  unfold Caller.put1
  dsimp only
  split
  · exact h
  · split <;> exact h
  · split
    · exact .coreStore (.claim h)
    · exact h
    · split <;> exact h

theorem EndsOk.callerStoreGate {c : Caller} {hd} {s : State} (h : s.memOk) : EndsOk State.memOk (c.storeGate hd s) := by
  unfold Caller.storeGate
  dsimp only
  split
  · exact .ok h
  · exact .error (.callerBehindFence h)

theorem State.memOk.issTilesBy {i : Iss} {ask out gate k} {s : State} (h : s.memOk)
    (hgate : ∀ s, s.memOk → EndsOk State.memOk (gate s)) (hk : ∀ a s, s.memOk → (k a s).memOk) :
      (i.tilesBy s ask out gate k).memOk := by
  unfold Iss.tilesBy
  dsimp only
  split
  · exact .issRaise (.ite h h)
  · split
    · exact .of_error (hgate _ h) ‹_›
    · exact hk _ _ (.of_ok (hgate _ h) ‹_›)

theorem State.memOk.issTiles {i : Iss} {ask gate k} {s : State} (h : s.memOk)
    (hgate : ∀ s, s.memOk → EndsOk State.memOk (gate s)) (hk : ∀ a s, s.memOk → (k a s).memOk) :
      (i.tiles s ask gate k).memOk := .issTilesBy h hgate hk

theorem State.memOk.issActing {i : Iss} {k} {s : State} (h : s.memOk) (hk : ∀ a, (k a).memOk) :
    (i.acting s k).memOk := by
  unfold Iss.acting
  split
  · exact h
  · exact hk _

theorem State.memOk.issElected {i : Iss} {k} {s : State} (h : s.memOk) (hk : ∀ a, (k a).memOk) :
    (i.elected s k).memOk := by
  unfold Iss.elected
  split
  · exact h
  · exact hk _

end Sys2Proof.Machine
end

section
/-! Memory stays canonical: the instructions. -/

namespace Sys2Proof.Machine

/-! ### Loads, stores and tiles -/

theorem NextOk.execLd {f} {s : State} (h : s.memOk) : NextOk (execLd f s) := by
  unfold Machine.execLd
  dsimp only
  refine .laneInstr h fun _ _ hs => ?_
  refine .issActing hs fun _ => ?_
  refine .callerSettle hs ?_ fun _ _ hs => .ite (.callerWaitLines hs)
    (.issLoadTo (.foldl (fun _ _ ht => .filled (.touch ht)) hs))
  intro s'' ht
  split
  · exact .callerAcquired ht
  · exact .open_ ht

theorem NextOk.execSt {f} {s : State} (h : s.memOk) : NextOk (execSt f s) := by
  unfold Machine.execSt
  dsimp only
  refine .laneInstr h fun _ _ hs => ?_
  refine .issActing hs fun _ => ?_
  refine .callerSettle hs ?_ fun _ _ hs => .ite (.callerWaitLines hs)
    (.issDone (.foldl (fun _ _ ht => .callerPut1 ht) hs))
  intro s'' ht
  split
  · exact .callerReleased ht
  · exact .callerStoreGate ht

theorem State.memOk.issCorrected {i : Iss} {at_ w} {s : State} (h : s.memOk) : (i.corrected s at_ w).memOk :=
  .foldl (fun _ _ hs => .correct hs) h

theorem NextOk.execLdt {f} {s : State} (h : s.memOk) : NextOk (execLdt f s) := by
  unfold Machine.execLdt
  dsimp only
  refine .laneInstr h fun _ _ hs => ?_
  refine .issActing hs fun _ => ?_
  refine .issTiles hs ?_ fun _ _ hs => .ite (.callerRetry hs) (.issLoadTo (.issCorrected hs))
  intro s'' ht
  split
  · exact .callerAcquired ht
  · exact .open_ ht

theorem State.memOk.issStoreTiles {i : Iss} {at_ w} {s : State} (h : s.memOk) : (i.storeTiles s at_ w).memOk :=
  .foldl (fun _ _ hs => .laneTile hs) h

theorem NextOk.execStt {f} {s : State} (h : s.memOk) : NextOk (execStt f s) := by
  unfold Machine.execStt
  dsimp only
  refine .laneInstr h fun _ _ hs => ?_
  refine .issActing hs fun _ => ?_
  refine .issTiles hs ?_ fun _ _ hs => .ite (.callerRetry hs) (.issDone (.issStoreTiles (.ite (.issCorrected hs) hs)))
  intro s'' ht
  split
  · exact .callerReleased ht
  · split
    · exact .ok ht
    · exact .error (.callerBehindFence ht)

theorem NextOk.execTalloc {f} {s : State} (h : s.memOk) : NextOk (execTalloc f s) := by
  unfold Machine.execTalloc
  dsimp only
  refine .laneInstr h fun _ _ hs => ?_
  refine .issActing hs fun _ => ?_
  split
  · exact .issRaiseAll hs
  · split
    · exact .issRaise hs
    · exact hs

theorem State.memOk.issTileFault {i : Iss} {cls lanes} {s : State} (h : s.memOk) : (i.tileFault s cls lanes).memOk :=
  .issRaise h

theorem NextOk.execWaita {f} {s : State} (h : s.memOk) : NextOk (execWaita f s) :=
  .laneInstr h fun _ _ hs => .issActing hs
    (fun _ => .issTiles hs (fun _ ht => .open_ ht)
      (fun _ _ ht => .ite (.callerRetry ht) (.issAwait (.issCorrected ht))))

theorem State.memOk.issPrefetch {i : Iss} {l} {s : State} (h : s.memOk) : (i.prefetch s l).memOk := by
  unfold Iss.prefetch
  dsimp only
  split
  · split
    · exact .filled h
    · exact h
  · exact h

theorem NextOk.execPref {f} {s : State} (h : s.memOk) : NextOk (execPref f s) :=
  .laneInstr h fun _ _ hs => .issDone (.foldl (fun _ _ ht => .issPrefetch ht) hs)

theorem NextOk.execFence {f} {s : State} (h : s.memOk) : NextOk (execFence f s) := by
  unfold Machine.execFence
  refine .laneInstr h fun s i hs => .issActing hs fun c => ?_
  have hgate : EndsOk State.memOk (do
      let s ← c.completion s
      if i.mo = 0 then c.acquired s else c.performed s) :=
  .bind (.callerCompletion hs) fun s hs => by
    split
    · exact .callerAcquired hs
    · exact .callerPerformed hs
  split
  · exact .of_error hgate ‹_›
  · have ht := State.memOk.of_ok hgate ‹_›
    split <;> exact ht

theorem NextOk.execSld {f} {s : State} (h : s.memOk) : NextOk (execSld f s) :=
  .leadInstr h fun _ _ hs => .callerSettle hs (fun _ ht => .open_ ht)
    (fun _ _ ht => .ite (.callerWaitLines ht) (.leadProduce (.filled (.touch ht))))

theorem NextOk.execSst {f} {s : State} (h : s.memOk) : NextOk (execSst f s) := by
  unfold Machine.execSst
  dsimp only
  refine .leadInstr h fun _ _ hs => ?_
  refine .callerSettle hs ?_ fun _ _ hs => .ite (.callerWaitLines hs) (.leadDone (.callerPut1 hs))
  intro s'' ht
  split
  · exact .callerReleased ht
  · exact .callerStoreGate ht

theorem NextOk.execProducerWriteback {th n} {s : State} (h : s.memOk) : NextOk (execProducerWriteback th n s) := by
  unfold Machine.execProducerWriteback
  split
  · split
    · exact .next (.ite h h)
    · exact .next h
  · split
    · exact .next (.ite h h)
    · exact .next h

/-! ### The lead engine -/

theorem NextOk.leadOp {op f g} {s : State} (h : s.memOk) : NextOk (leadOp op f s g) := .leadInstr h fun _ _ hs => hs

theorem State.memOk.leadCall {i : LIss} {target} {s : State} (h : s.memOk) : (i.call s target).memOk := by
  unfold LIss.call
  split
  · exact .leadRaise h
  · exact h

theorem NextOk.execDqpush {f} {s : State} (h : s.memOk) : NextOk (execDqpush f s) := by
  unfold Machine.execDqpush
  dsimp only
  refine .leadInstr h fun _ _ hs => ?_
  split
  · exact hs
  · split
    · exact .of_error (.callerPerformed hs) ‹_›
    · exact .trimDq (.leadDone (.onCrewKey (.of_ok (.callerPerformed hs) ‹_›)))

/-! ### The sequencer -/

theorem State.memOk.issConsume {i : Iss} {s : State} (h : s.memOk) : (i.consume s).memOk := by
  unfold Iss.consume
  dsimp only
  split <;> exact h

theorem State.memOk.issDecision {i : Iss} {data k} {s : State} (h : s.memOk) (hk : ∀ s a, s.memOk → (k s a).memOk) :
    (i.decision s data k).memOk := by
  unfold Iss.decision
  split
  · exact h
  · exact .issRaise h
  · split
    · exact .issRaise h
    · exact .issConsume (hk _ _ h)

theorem NextOk.execUbr {f} {s : State} (h : s.memOk) : NextOk (execUbr f s) :=
  .issue h (fun _ _ hs => .issDecision hs (fun _ _ ht => ht)) fun _ _ hs => hs

theorem NextOk.execDqpop {f} {s : State} (h : s.memOk) : NextOk (execDqpop f s) :=
  .issue h (fun _ _ hs => .issDecision hs (fun _ _ ht => ht)) fun _ _ hs => hs

theorem EndsOk.issReleased {i : Iss} {m} {s : State} (h : s.memOk) : EndsOk State.memOk (i.released s m) :=
  .callerPerformed h

theorem NextOk.execWaitj {f} {s : State} (h : s.memOk) : NextOk (execWaitj f s) := by
  unfold Machine.execWaitj
  dsimp only
  refine .tiledInstr h fun _ _ hs => ?_
  split
  · exact .of_error (.issReleased hs) ‹_›
  · exact .onWarp (.issAwait (.of_ok (.issReleased hs) ‹_›))

theorem NextOk.execBar {f} {s : State} (h : s.memOk) : NextOk (execBar f s) := by
  unfold Machine.execBar
  dsimp only
  refine .tiledInstr h fun _ _ hs => ?_
  split
  · exact hs
  · split
    · exact .issRaise hs
    · split
      · exact .of_error (.issReleased hs) ‹_›
      · exact .checkBars (.onCrewKey (.issAwait (.of_ok (.issReleased hs) ‹_›)))

theorem NextOk.execGbar {f} {s : State} (h : s.memOk) : NextOk (execGbar f s) := by
  unfold Machine.execGbar
  dsimp only
  refine .tiledInstr h fun _ _ hs => ?_
  split
  · exact hs
  · split
    · exact .issRaise hs
    · split
      · exact .of_error (.issReleased hs) ‹_›
      · exact .checkGbars (.onGang (.issAwait (.shareWrites (.of_ok (.issReleased hs) ‹_›))))

theorem State.memOk.issExit {i : Iss} {s : State} (h : s.memOk) : (i.exit s).memOk := by
  unfold Iss.exit
  dsimp only
  refine .checkWarp ?_
  split
  · exact h
  · exact .checkGbars (.checkBars h)

theorem State.memOk.issSoft {i : Iss} {cls} {s : State} (h : s.memOk) : (i.soft s cls).memOk := by
  unfold Iss.soft
  split
  · exact h
  · exact .issRaise h

theorem NextOk.execRte {f} {s : State} (h : s.memOk) : NextOk (execRte f s) :=
  .laneInstr h fun _ _ hs => .ite (.ite hs (.issRaise hs)) (.ite (.issRaise hs) hs)

/-! ### Integer lane arithmetic -/

theorem NextOk.intOp {op f sat g} {s : State} (h : s.memOk) : NextOk (intOp op f s sat g) :=
  .laneInstr h fun _ _ hs => hs

theorem NextOk.shiftOp {op f g} {s : State} (h : s.memOk) : NextOk (shiftOp op f s g) := .laneInstr h fun _ _ hs => hs

theorem NextOk.bitOp {op f g} {s : State} (h : s.memOk) : NextOk (bitOp op f s g) := .laneInstr h fun _ _ hs => hs

theorem NextOk.dotOp {op w n unsignedMo f} {s : State} (h : s.memOk) : NextOk (dotOp op w n unsignedMo f s) :=
  .laneInstr h fun _ _ hs => hs

theorem State.memOk.issWriteCond {i : Iss} {p} {s : State} (h : s.memOk) : (i.writeCond s p).memOk := by
  unfold Iss.writeCond
  split <;> exact h

theorem NextOk.execMmov {f} {s : State} (h : s.memOk) : NextOk (execMmov f s) := by
  unfold Machine.execMmov
  refine .laneInstr h fun _ _ hs => ?_
  split <;> exact hs

/-! ### Float lane arithmetic -/

theorem State.memOk.issWriteFp {i : Iss} {wide r} {s : State} (h : s.memOk) : (i.writeFp s wide r).memOk := .countFp h

theorem NextOk.floatOp {op f g} {s : State} (h : s.memOk) : NextOk (floatOp op f s g) :=
  .laneInstr h fun _ _ hs => .issWriteFp hs

theorem NextOk.minMaxOp {op larger f} {s : State} (h : s.memOk) : NextOk (minMaxOp op larger f s) :=
  .laneInstr h fun _ _ hs => .issWriteFp hs

theorem NextOk.pairOp {op fmt f g usesC} {s : State} (h : s.memOk) : NextOk (pairOp op fmt f s g usesC) :=
  .laneInstr h fun _ _ hs => .issWriteFp hs

/-! ### The home engine -/

theorem State.memOk.callerAwait {c : Caller} {wait} {s : State} (h : s.memOk) : (c.await s wait).memOk := by
  unfold Caller.await
  split <;> exact h

theorem State.memOk.callerRequestGuard {c : Caller} {pa once} {s : State} (h : s.memOk) :
    (c.requestGuard s pa once).memOk := .serveGuard (.callerAwait h)

theorem State.memOk.callerAcquireGuard {c : Caller} {once} {s : State} (h : s.memOk) :
    (c.acquireGuard s once).memOk := by
  unfold Caller.acquireGuard
  dsimp only
  refine .callerSettle h (fun _ hs => .callerAcquired hs) fun _ _ hs => ?_
  split
  · split
    · exact .callerWaitLines hs
    · split
      · exact .callerBehindFence hs
      · exact .callerRequestGuard (.performWhere hs)
  · exact .callerStatus hs

theorem State.memOk.callerReleaseGuard {c : Caller} {s : State} (h : s.memOk) : (c.releaseGuard s).memOk := by
  unfold Caller.releaseGuard
  dsimp only
  refine .callerSettle h ?_ ?_
  · intro s' hs
    split
    · exact .callerReleased hs
    · exact .bind (.callerCompletion hs) fun _ hs => .callerPerformed hs
  · intro a s' hs
    split
    · exact .callerDone hs
    · split <;> exact .callerDone hs

theorem NextOk.execGacq {f} {s : State} (h : s.memOk) : NextOk (execGacq f s) :=
  .issue h (fun _ _ hs => .issElected hs (fun _ => .callerAcquireGuard hs)) fun _ _ hs => .callerAcquireGuard hs

theorem NextOk.execGtry {f} {s : State} (h : s.memOk) : NextOk (execGtry f s) :=
  .issue h (fun _ _ hs => .issElected hs (fun _ => .callerAcquireGuard hs)) fun _ _ hs => .callerAcquireGuard hs

theorem NextOk.execGrel {f} {s : State} (h : s.memOk) : NextOk (execGrel f s) :=
  .issue h (fun _ _ hs => .issElected hs (fun _ => .callerReleaseGuard hs)) fun _ _ hs => .callerReleaseGuard hs

theorem NextOk.execGuardRequestRetry {id} {s : State} (h : s.memOk) : NextOk (execGuardRequestRetry id s) := by
  unfold Machine.execGuardRequestRetry
  split
  · exact .next h
  · exact .next (.ite (.serveGuard h) h)

theorem State.memOk.failRelease {id cls e rest} {s : State} (h : s.memOk) : (s.failRelease id cls e rest).memOk := by
  unfold State.failRelease
  refine .onRelease (.of_mem (s := List.foldl _ _ _) ?_ rfl)
  exact .foldl (fun _ _ hs => hs) h

theorem State.memOk.takeEffect {id r} {s : State} (h : s.memOk) : (s.takeEffect id r).memOk := by
  unfold State.takeEffect
  dsimp only
  split
  · exact h
  · exact h
  · exact .serveGuard h
  · split
    · exact .probe h
    · split
      · exact .dropGuard h
      · exact .serveGuard h

theorem State.memOk.writeBack {id r es} {s : State} (h : s.memOk) : (State.writeBack id r es s).memOk := by
  induction es generalizing r s with
  | nil => exact .takeEffect h
  | cons e rest ih =>
    unfold State.writeBack
    dsimp only
    split
    · exact ih h
    · split
      · exact h
      · split
        · split
          · exact ih h
          · split
            · exact .failRelease h
            · split
              · exact ih h
              · exact h
        · split
          · split
            · exact .failRelease h
            · split
              · exact .stopLost h
              · split
                · exact ih h
                · exact ih (.publishAt h)
          · exact .onRelease (.requestWalk h)
          · exact .onRelease (.postFault h)
          · exact .onRelease (.requestService h)
          · exact .failRelease h
          · exact .failRelease h

theorem NextOk.execReleaseWritebackComplete {id} {s : State} (h : s.memOk) :
    NextOk (execReleaseWritebackComplete id s) := by
  unfold Machine.execReleaseWritebackComplete
  split
  · exact .next h
  · exact .next (.ite h (.ite (.writeBack h) h))

theorem State.memOk.callerPublishRange {c : Caller} {l lo hi} {s : State} (h : s.memOk) :
    (c.publishRange s l lo hi).memOk := by
  unfold Caller.publishRange
  dsimp only
  split
  · exact .callerDone h
  · split
    · exact .callerFollow h (fun _ hs => .open_ hs) fun _ hs => .callerDone hs
    · refine .callerDone (.foldl ?_ h)
      intro s' a hs
      split
      · split
        · exact hs
        · exact .publishAt hs
      · exact hs

theorem State.memOk.callerPublishPeer {c : Caller} {l ep lo hi} {s : State} (h : s.memOk) :
    (c.publishPeer s l ep lo hi).memOk := by
  unfold Caller.publishPeer
  dsimp only
  split
  · exact .callerDone h
  · split
    · exact .callerDone h
    · split
      · exact .callerDone (.foldl (fun _ _ hs => hs) h)
      · split
        · exact .callerFollow h (fun _ hs => .open_ hs) fun _ hs => .callerDone hs
        · split
          · split
            · exact .callerDone h
            · exact .callerAsk h
          · exact .callerAsk h

theorem State.memOk.callerPublish {c : Caller} {s : State} (h : s.memOk) : (c.publish s).memOk := by
  unfold Caller.publish
  dsimp only
  exact .callerFollow h (fun _ hs => .open_ hs) fun _ hs => .ite (.callerDone hs)
    (.ite (.callerPublishPeer hs) (.callerPublishRange hs))

theorem NextOk.execPublish {f} {s : State} (h : s.memOk) : NextOk (execPublish f s) :=
  .issue h (fun _ _ hs => .issElected hs (fun _ => .callerPublish hs)) fun _ _ hs => .callerPublish hs

theorem State.memOk.callerDiscard {c : Caller} {s : State} (h : s.memOk) : (c.discard s).memOk :=
  .callerFollow h (fun _ hs => .open_ hs) fun _ hs => .ite (.callerDone hs) (.callerDone hs)

theorem NextOk.execDiscard {f} {s : State} (h : s.memOk) : NextOk (execDiscard f s) :=
  .issue h (fun _ _ hs => .issElected hs (fun _ => .callerDiscard hs)) fun _ _ hs => .callerDiscard hs

theorem State.memOk.moveGrain {who : Who} {target g} {s : State} (h : s.memOk) : (s.moveGrain who target g).memOk :=
  .of_mem (.claim h) rfl

theorem NextOk.execMove {f} {s : State} (h : s.memOk) : NextOk (execMove f s) :=
  .laneInstr h fun _ _ hs => .issActing hs
    (fun _ => .callerFollow hs (fun _ ht => .callerPerformed ht)
      (fun _ ht => .ite (.callerFault ht)
        (.ite (.callerFault ht)
          (.ite (.issRaise ht) (.issDone (.foldl (fun _ _ hu => .foldl (fun _ _ hv => .moveGrain hv) hu) ht))))))

theorem NextOk.execOwnq {f} {s : State} (h : s.memOk) : NextOk (execOwnq f s) :=
  .laneInstr h fun _ _ hs => .issActing hs (fun _ => .callerSettle hs (fun _ ht => .open_ ht) (fun _ _ ht => ht))

theorem NextOk.execLease {f} {s : State} (h : s.memOk) : NextOk (execLease f s) :=
  .laneInstr h fun _ _ hs => .issActing hs
    (fun _ => .callerSettle hs (fun _ ht => .callerAcquired ht)
      (fun _ _ ht => .ite (.issRaise ht) (.ite (.issRaise ht) (.callerAwait ht))))

theorem State.memOk.grantLease {core slot w x} {s : State} (h : s.memOk) : (s.grantLease core slot w x).memOk :=
  .onWarp (.coreOwn (.of_mem (.performFree h) rfl))

theorem NextOk.execLeaseGrant {core slot} {s : State} (h : s.memOk) : NextOk (execLeaseGrant core slot s) := by
  unfold Machine.execLeaseGrant
  split
  · exact .next h
  · split
    · exact .next h
    · split
      · exact .next (.stopLost h)
      · exact .next (.grantLease h)

theorem NextOk.execLeaseExpiry {core line} {s : State} (h : s.memOk) : NextOk (execLeaseExpiry core line s) :=
  .next (.tidyLeases h)

theorem State.memOk.commitLeases {core slot ls} {s : State} (h : s.memOk) : (s.commitLeases core slot ls).memOk :=
  .foldl (fun _ _ hs => .store (.patchLine hs)) (.foldl (fun _ _ hs => .performPending hs) h)

theorem State.memOk.issUnlease {i : Iss} {status} {s : State} (h : s.memOk) : (i.unlease s status).memOk :=
  .issCommit (.tidyLeases (.onWarp (.ite (.commitLeases h) h)))

theorem NextOk.execUnlease {f} {s : State} (h : s.memOk) : NextOk (execUnlease f s) := by
  unfold Machine.execUnlease
  dsimp only
  refine .laneInstr h fun _ _ hs => ?_
  refine .issActing hs fun _ => ?_
  split
  · exact .issUnlease hs
  · split
    · exact .callerDeferred hs
    · exact .callerRetry hs

theorem NextOk.execHomeDirectoryRequest {core line} {s : State} (h : s.memOk) :
    NextOk (execHomeDirectoryRequest core line s) := by
  unfold Machine.execHomeDirectoryRequest
  dsimp only
  split
  · exact .next h
  · exact .next (.ite (.stopLost h) (.performWhere h))

/-! ### Atomics -/

theorem State.memOk.accept {id a} {s : State} (h : s.memOk) : (s.accept id a).memOk := by
  unfold State.accept
  dsimp only
  split
  · exact h
  · split
    · exact h
    · exact h
    · exact h
    · split <;> exact h

theorem State.memOk.fpEvents {batch id task pc ev} {s : State} (h : s.memOk) :
    (s.fpEvents batch id task pc ev).memOk := by
  unfold State.fpEvents
  split
  · exact h
  · split
    · exact h
    · exact .countFp h

theorem State.memOk.issRequest {i : Iss} {at_ rel} {s : State} (h : s.memOk) : (i.request s at_ rel).memOk := by
  unfold Iss.request
  dsimp only
  split
  · exact .issDone (.fpEvents (.foldl (fun _ _ hs => .accept hs) h))
  · exact .onWarp
      (.ite (.issAwait (.fpEvents (.foldl (fun _ _ hs => .accept hs) h)))
        (.issDone (.fpEvents (.foldl (fun _ _ hs => .accept hs) h))))

theorem EndsOk.callerAtomGate {c : Caller} {i : Iss} {s : State} (h : s.memOk) :
    EndsOk State.memOk (c.atomGate i s) := by
  unfold Caller.atomGate
  split
  · exact .error (.callerRetry h)
  · split
    · exact .bind (.callerCompletion h) fun _ hs => .callerPerformed hs
    · split
      · exact .ok h
      · exact .error (.callerBehindFence h)

theorem State.memOk.issAtomSend {i : Iss} {c : Caller} {at_} {s : State} (h : s.memOk) :
    (i.atomSend s c at_).memOk := by
  unfold Iss.atomSend
  dsimp only
  split
  · exact .issRequest (.ite h h)
  · exact .issRequest h

theorem State.memOk.issAtomMemory {i : Iss} {c : Caller} {s : State} (h : s.memOk) : (i.atomMemory s c).memOk := by
  unfold Iss.atomMemory
  dsimp only
  refine .callerFollow h ?_ fun _ hs => .ite (.issRaise hs)
    (.ite (.callerRetry hs) (.issAtomSend (.foldl (fun _ _ ht => .touch ht) hs)))
  intro s' hs
  split
  · exact .error (.callerFault hs)
  · exact .callerAtomGate hs

theorem State.memOk.issAtomTiles {i : Iss} {c : Caller} {s : State} (h : s.memOk) : (i.atomTiles s c).memOk := by
  unfold Iss.atomTiles
  dsimp only
  refine .issTiles h ?_ fun _ _ hs => .issRequest (.ite hs hs)
  intro s' hs
  split
  · exact .error (.issRaise hs)
  · exact .callerAtomGate hs

theorem NextOk.atomic {op f} {s : State} (h : s.memOk) : NextOk (atomic op f s) :=
  .laneInstr h fun _ _ hs => .issActing hs (fun _ => .ite (.issAtomTiles hs) (.issAtomMemory hs))

theorem State.memOk.writePlace {a bs} {s : State} (h : s.memOk) : (s.writePlace a bs).memOk := by
  unfold State.writePlace
  split
  · exact .store h
  · exact h
  · exact .laneTile h

theorem State.memOk.takePlace {a} {s : State} (h : s.memOk) : (s.takePlace a).memOk := by
  unfold State.takePlace
  dsimp only
  split
  · split
    · exact .coreOwn h
    · exact .dieTake (.dirWrite h)
  · exact .correct h
  · exact h

theorem State.memOk.replyAtom {id a v} {s : State} (h : s.memOk) : (s.replyAtom id a v).memOk := by
  unfold State.replyAtom
  split <;> exact h

theorem State.memOk.performBinit {id a} {s : State} (h : s.memOk) : (s.performBinit id a).memOk :=
  .wakeBarrier (.writePlace (.replyAtom h))

theorem State.memOk.advancePhase {p} {s : State} (h : s.memOk) : (s.advancePhase p).memOk := by
  unfold State.advancePhase
  split <;> exact h

theorem State.memOk.performArrive {id a} {s : State} (h : s.memOk) : (s.performArrive id a).memOk := by
  unfold State.performArrive
  dsimp only
  split
  · exact .wakeBarrier (.replyAtom h)
  · split
    · exact .wakeBarrier (.replyAtom h)
    · split
      · exact .wakeBarrier (.advancePhase (.writePlace (.replyAtom h)))
      · exact .wakeBarrier (.writePlace (.replyAtom h))

theorem State.memOk.performBwait {id a} {s : State} (h : s.memOk) : (s.performBwait id a).memOk := by
  unfold State.performBwait
  dsimp only
  split
  · exact .replyAtom h
  · split
    · exact .replyAtom h
    · exact h

theorem State.memOk.performValue {id a} {s : State} (h : s.memOk) : (s.performValue id a).memOk := by
  unfold State.performValue
  dsimp only
  refine .fpEvents ?_
  split
  · exact .replyAtom h
  · exact .writePlace (.replyAtom h)

theorem State.memOk.ownFirst {a} {s : State} (h : s.memOk) : (s.ownFirst a).memOk := by
  unfold State.ownFirst
  dsimp only
  split
  · exact .publishAll (.performWhere h)
  · exact h

theorem State.memOk.stopPoisoned {id a} {s : State} (h : s.memOk) : (s.stopPoisoned id a).memOk := .stop h

theorem State.memOk.refusePeer {id a status} {s : State} (h : s.memOk) : (s.refusePeer id a status).memOk :=
  .emit (.of_mem (.ite (.errUp h) h) rfl)

theorem State.memOk.performAtom {id a} {s : State} (h : s.memOk) : (s.performAtom id a).memOk := by
  unfold State.performAtom
  dsimp only
  split
  · split
    · exact .refusePeer h
    · exact .stopLost h
  · split
    · split
      · exact .refusePeer (.ownFirst h)
      · exact .stopPoisoned (.ownFirst h)
    · split
      · exact .performBinit (.takePlace (.ownFirst h))
      · exact .performArrive (.takePlace (.ownFirst h))
      · exact .performBwait (.takePlace (.ownFirst h))
      · exact .performValue (.takePlace (.ownFirst h))

theorem State.memOk.serveAtom {id a} {s : State} (h : s.memOk) : (s.serveAtom id a).memOk := by
  unfold State.serveAtom
  split
  · exact h
  · split
    · exact .performAtom h
    · split
      · split
        · exact .performAtom h
        · exact h
      · exact h

theorem NextOk.execAtomicRequestPerform {id} {s : State} (h : s.memOk) : NextOk (execAtomicRequestPerform id s) := by
  unfold Machine.execAtomicRequestPerform
  split
  · exact .next h
  · exact .next (.ite (.serveAtom h) h)

theorem NextOk.execBwaitRetry {id} {s : State} (h : s.memOk) : NextOk (execBwaitRetry id s) := by
  unfold Machine.execBwaitRetry
  split
  · exact .next h
  · exact .next (.ite (.accept h) h)

theorem NextOk.execBadgerCreditRelease {id} {s : State} (h : s.memOk) : NextOk (execBadgerCreditRelease id s) := by
  unfold Machine.execBadgerCreditRelease
  split
  · exact .next h
  · exact .next (.ite (.accept h) h)

theorem State.memOk.answerAtom {id r} {s : State} (h : s.memOk) : (s.answerAtom id r).memOk := by
  unfold State.answerAtom
  dsimp only
  split
  · exact h
  · split
    · exact .fpEvents (.replyAtom h)
    · exact .stop (.ite h h)

theorem State.memOk.deliverAtom {id a v} {s : State} (h : s.memOk) : (s.deliverAtom id a v).memOk := by
  unfold State.deliverAtom
  dsimp only
  split <;> exact h

theorem State.memOk.deliverGuard {id g v} {s : State} (h : s.memOk) : (s.deliverGuard id g v).memOk := by
  unfold State.deliverGuard
  dsimp only
  refine .serveGuard ?_
  split
  · split <;> exact h
  · exact h

theorem NextOk.execReplyArrival {id} {s : State} (h : s.memOk) : NextOk (execReplyArrival id s) := by
  unfold Machine.execReplyArrival
  split
  · refine .next ?_
    split
    · exact .deliverAtom h
    · exact h
  · split
    · refine .next ?_
      split
      · exact .deliverGuard h
      · exact h
    · exact .next h

/-! ### The matrix engine -/

theorem State.memOk.callerRefuse {c : Caller} {cls addr data faddr} {s : State} (h : s.memOk) :
    (c.refuse s cls addr data faddr).memOk := by
  unfold Caller.refuse
  split
  · exact .issRaise h
  · exact .leadRaise h

theorem State.memOk.correctBlock {die crew tw coord n} {s : State} (h : s.memOk) :
    (s.correctBlock die crew tw coord n).memOk := by
  unfold State.correctBlock
  split
  · exact h
  · exact .correct h

theorem State.memOk.callerBlock {c : Caller} {k n align g} {s : State} (h : s.memOk)
    (hg : ∀ a s, s.memOk → (g a s).memOk) : (c.block s k n align g).memOk := by
  unfold Caller.block
  dsimp only
  split
  · exact hg _ _ (.correctBlock h)
  · exact .callerRefuse (.ite h h)

theorem State.memOk.callerBadField {c : Caller} {cls off} {s : State} (h : s.memOk) : (c.badField s cls off).memOk :=
  .callerRefuse h

theorem NextOk.tileCommand {op f k} {s : State} (h : s.memOk)
    (hk : ∀ s i r fail, s.memOk → (∀ cls, (fail cls : State).memOk) → (k s i r fail).memOk) :
    NextOk (tileCommand op f s k) := by
  unfold Machine.tileCommand
  dsimp only
  exact .leadInstr h fun _ _ hs => .ite hs (hk _ _ _ _ hs (fun _ => .leadRaise hs))

theorem NextOk.execWload {f} {s : State} (h : s.memOk) : NextOk (execWload f s) := by
  unfold Machine.execWload
  dsimp only
  refine .tileCommand h fun _ _ _ _ hs a => ?_
  split
  · exact a _
  · split
    · exact a _
    · split
      · exact a _
      · split
        · exact a _
        · split
          · exact a _
          · exact hs

theorem NextOk.execMxfence {f} {s : State} (h : s.memOk) : NextOk (execMxfence f s) := by
  unfold Machine.execMxfence
  refine .laneInstr h fun _ _ hs => ?_
  split
  · exact .of_error (.callerPerformed hs) ‹_›
  · exact .issCommit (.of_ok (.callerPerformed hs) ‹_›)

theorem NextOk.execAcczero {f} {s : State} (h : s.memOk) : NextOk (execAcczero f s) := by
  unfold Machine.execAcczero
  dsimp only
  refine .tileCommand h fun _ _ _ _ hs a => ?_
  split
  · exact a _
  · split
    · exact a _
    · exact hs

theorem State.memOk.callerMxissue {c : Caller} {s : State} (h : s.memOk) : (c.mxissue s).memOk := by
  unfold Caller.mxissue
  dsimp only
  split
  · exact .callerRetry h
  · split
    · exact .callerRetry h
    · refine .callerBlock h fun _ _ hs => ?_
      split
      · exact .callerBadField hs
      · exact .callerDone hs

theorem NextOk.execMxissue {f} {s : State} (h : s.memOk) : NextOk (execMxissue f s) :=
  .issue h (fun _ _ hs => .issElected hs (fun _ => .callerMxissue hs)) fun _ _ hs => .callerMxissue hs

theorem NextOk.execMxwait {f} {s : State} (h : s.memOk) : NextOk (execMxwait f s) := by
  unfold Machine.execMxwait
  refine .issue h ?_ fun _ _ hs => .ite (.leadDone (.observe hs)) hs
  intro s' a hs
  refine .issPerWarp hs fun _ ht => ?_
  split
  · exact ht
  · split
    · exact .issDone (.observe ht)
    · exact ht

theorem State.memOk.issAccTiles {i : Iss} {store gate k} {s : State} (h : s.memOk)
    (hgate : ∀ s, s.memOk → EndsOk State.memOk (gate s)) (hk : ∀ a s, s.memOk → (k a s).memOk) :
      (i.accTiles s store gate k).memOk := .issTilesBy h hgate hk

theorem NextOk.execAccrd {f} {s : State} (h : s.memOk) : NextOk (execAccrd f s) :=
  .laneInstr h fun _ _ hs => .issActing hs
    (fun _ => .issAccTiles hs (fun _ ht => .open_ ht) (fun _ _ ht => .issProduce (.issCorrected ht)))

theorem NextOk.execAccwr {f} {s : State} (h : s.memOk) : NextOk (execAccwr f s) := by
  unfold Machine.execAccwr
  refine .laneInstr h fun _ _ hs => ?_
  refine .issActing hs fun _ => ?_
  refine .issAccTiles hs ?_ fun _ _ hs => .issDone (.issStoreTiles hs)
  intro s'' ht
  split
  · exact .ok ht
  · exact .error (.callerBehindFence ht)

theorem NextOk.execAccdrain {f} {s : State} (h : s.memOk) : NextOk (execAccdrain f s) := by
  unfold Machine.execAccdrain
  dsimp only
  refine .leadInstr h fun _ _ hs => ?_
  split
  · exact hs
  · refine .callerBlock hs fun _ _ ht => ?_
    split
    · exact .callerBadField ht
    · exact ht

theorem State.memOk.mxWrites {ws} {s : State} (h : s.memOk) : (s.mxWrites ws).memOk :=
  .foldl (fun _ _ hs => .writeTile hs) h

theorem State.memOk.mxApply {task x e} {s : State} (h : s.memOk) : (s.mxApply task x e).memOk := .countFp (.mxWrites h)

theorem State.memOk.mxCorrect {die rs} {s : State} (h : s.memOk) : (s.mxCorrect die rs).memOk :=
  .foldl (fun _ _ hs => .correct hs) h

theorem NextOk.execMatrixCommandStart {core slot} {s : State} (h : s.memOk) :
    NextOk (execMatrixCommandStart core slot s) := by
  unfold Machine.execMatrixCommandStart
  dsimp only
  split
  · exact .next h
  · split
    · exact .next h
    · split
      · exact .next (.stop (.onCrewKey (.errUp (.mxApply h))))
      · exact .next h

theorem State.memOk.countUp {k q} {s : State} (h : s.memOk) : (s.countUp k q).memOk := by
  unfold State.countUp
  split <;> exact h

theorem NextOk.execMatrixCommandComplete {core slot} {s : State} (h : s.memOk) :
    NextOk (execMatrixCommandComplete core slot s) := by
  unfold Machine.execMatrixCommandComplete
  dsimp only
  split
  · exact .next h
  · refine .next (.checkCrew (.unveil (.countUp (.onCrewKey ?_))))
    split
    · exact .onCrewKey (.mxApply (.mxCorrect h))
    · exact .onCrewKey (.onCrewKey (.mxApply (.mxCorrect h)))
    · exact .mxApply (.mxCorrect h)

theorem State.memOk.mxPause {core slot} {s : State} (h : s.memOk) : (s.mxPause core slot).memOk := by
  unfold State.mxPause
  dsimp only
  split
  · exact h
  · split
    · exact h
    · exact .onCrewKey (.mxWrites (.mxCorrect h))

theorem State.memOk.resetMatrix {core ctx} {s : State} (h : s.memOk) : (s.resetMatrix core ctx).memOk :=
  .foldl (fun _ _ hs => hs) h

theorem NextOk.execMatrixEngineHang {core slot} {s : State} (h : s.memOk) :
    NextOk (execMatrixEngineHang core slot s) := by
  unfold Machine.execMatrixEngineHang
  split
  · exact .next h
  · exact .next (.stop (.resetMatrix h))

/-! ### The copy engine -/

theorem State.memOk.callerCopy {c : Caller} {s : State} (h : s.memOk) : (c.copy s).memOk := by
  unfold Caller.copy
  dsimp only
  split
  · exact .callerRetry h
  · split
    · exact .callerRetry h
    · refine .callerBlock h fun _ _ hs => ?_
      split
      · exact .callerBadField hs
      · split
        · exact .callerBehindFence hs
        · split
          · exact .of_error (.callerPerformed hs) ‹_›
          · exact .callerStatus (.onCrewKey (.of_ok (.callerPerformed hs) ‹_›))

theorem NextOk.copyForm {op f g} {s : State} (h : s.memOk) (hg : ∀ a s, s.memOk → (g a s).memOk) :
    NextOk (copyForm op f s g) := .issue h (fun _ _ hs => .issElected hs (fun _ => hg _ _ hs)) fun _ _ hs => hg _ _ hs

theorem State.memOk.copyEnd {k x status} {s : State} (h : s.memOk) : (s.copyEnd k x status).memOk := by
  unfold State.copyEnd
  dsimp only
  refine .checkCrew (.countUp (.onCrewKey ?_))
  split
  · exact .storeTile (.storeTile (.countFp h))
  · exact .countFp h

theorem NextOk.execCpyq {f} {s : State} (h : s.memOk) : NextOk (execCpyq f s) := by
  unfold Machine.execCpyq
  refine .copyForm h fun _ _ hs => ?_
  split
  · exact .callerRetry hs
  · exact .callerStatus hs

theorem NextOk.execCpycan {f} {s : State} (h : s.memOk) : NextOk (execCpycan f s) := by
  unfold Machine.execCpycan
  dsimp only
  refine .copyForm h fun _ _ hs => ?_
  split
  · exact .callerRetry hs
  · split
    · exact .callerStatus (.copyEnd hs)
    · exact .callerStatus hs

theorem NextOk.execCopyStart {core slot} {s : State} (h : s.memOk) : NextOk (execCopyStart core slot s) := by
  unfold Machine.execCopyStart
  split
  · exact .next h
  · split
    · exact .next (.ite h h)
    · exact .next h

theorem State.memOk.runFail {r : CpRun} {cls hd off} {s : State} (h : s.memOk) : (r.fail s cls hd off).memOk := by
  unfold CpRun.fail
  dsimp only
  split
  · exact .stopLost h
  · split
    · exact .stop (.copyEnd h)
    · exact .copyEnd h

theorem State.memOk.runFailTile {r : CpRun} {s : State} (h : s.memOk) : (r.failTile s).memOk := .runFail h

theorem State.memOk.runBlockedBy {r : CpRun} {hd acc ps kind} {s t : State} (h : s.memOk)
    (e : r.blockedBy s hd acc ps kind = some t) : t.memOk := by
  unfold CpRun.blockedBy at e
  dsimp only at e
  split at e
  · rw [← Option.some.inj e]
    exact .onCopy (.requestWalk h)
  · rw [← Option.some.inj e]
    exact .onCopy (.countFault (.postFaults h))
  · rw [← Option.some.inj e]
    exact .onCopy (.countFault (.requestService h))
  · rw [← Option.some.inj e]
    exact .runFail (.ite h h)
  · rw [← Option.some.inj e]
    refine .onCopy (.foldl ?_ h)
    intro s' a hs
    split <;> exact hs
  · split at e
    · split at e
      · rwa [← Option.some.inj e]
      · cases e
    · rw [← Option.some.inj e]
      exact .foldl (fun _ _ hs => .probe hs) h

theorem EndsOk.runReadHandle {r : CpRun} {hd o n} {s : State} (h : s.memOk) :
    EndsOk (fun x => x.2.memOk) (r.readHandle s hd o n) := by
  unfold CpRun.readHandle
  dsimp only
  split
  · exact .error (.runBlockedBy h ‹_›)
  · exact .ok (.foldl (fun _ _ hs => .filled (.touch hs)) h)

theorem State.memOk.runFreshLine {r : CpRun} {pa n} {s : State} (h : s.memOk) : (r.freshLine s pa n).memOk := by
  unfold CpRun.freshLine
  dsimp only
  split
  · exact h
  · split <;> exact h

theorem State.memOk.runPut1 {r : CpRun} {hd loc bs} {s : State} (h : s.memOk) : (r.put1 s hd loc bs).memOk := by
  unfold CpRun.put1
  dsimp only
  split
  · exact h
  · exact h
  · exact .runFreshLine (.store (.coreOwn (.ite (.claim h) h)))

theorem EndsOk.runWriteHandle {r : CpRun} {hd o bs} {s : State} (h : s.memOk) :
    EndsOk State.memOk (r.writeHandle s hd o bs) := by
  unfold CpRun.writeHandle
  dsimp only
  split
  · exact .error (.runBlockedBy h ‹_›)
  · exact .ok (.foldl (fun _ _ hs => .runPut1 hs) h)

theorem State.memOk.putElem {k n e pat} {s : State} (h : s.memOk) : (s.putElem k n e pat).memOk := by
  unfold State.putElem
  dsimp only
  split
  · exact h
  · exact .storeTile h

theorem State.memOk.freshWords {die k n unit whole} {s : State} (h : s.memOk) :
    (s.freshWords die k n unit whole).memOk := .foldl (fun _ _ hs => .correct hs) h

theorem EndsOk.runReadUnit {r : CpRun} {run start i0 n} {s : State} (h : s.memOk) :
    EndsOk (fun x => x.2.2.memOk) (r.readUnit s run start i0 n) := by
  unfold CpRun.readUnit
  extract_lets
  split
  · split
    · exact .error (.runFail h)
    · extract_lets
      split
      · exact .error (.runFailTile h)
      · exact .ok (.foldl (fun _ _ hs => .correct hs) h)
  · split
    · exact .error (.of_error (.runReadHandle h) ‹_›)
    · have ht := State.memOk.of_ok_snd (.runReadHandle h) ‹_›
      split
      · exact .ok ht
      · split
        · exact .error (.of_error (.runReadHandle ht) ‹_›)
        · exact .ok (.of_ok_snd (.runReadHandle ht) ‹_›)

theorem EndsOk.runWriteUnit {r : CpRun} {run start lo hi i0 pats exps} {s : State} (h : s.memOk) :
    EndsOk State.memOk (r.writeUnit s run start lo hi i0 pats exps) := by
  unfold CpRun.writeUnit
  dsimp only
  split
  · split
    · exact .error (.runFail h)
    · split
      · exact .error (.runFailTile h)
      · exact .ok
          (.ite (.foldl (fun _ _ hs => .putElem hs) (.freshWords h))
            (.storeTile (.foldl (fun _ _ hs => .putElem hs) (.freshWords h))))
  · split
    · exact .error (.of_error (.runWriteHandle h) ‹_›)
    · split
      · exact .ok (.of_ok (.runWriteHandle h) ‹_›)
      · exact .runWriteHandle (.of_ok (.runWriteHandle h) ‹_›)

theorem EndsOk.runIndex {r : CpRun} {i1} {s : State} (h : s.memOk) : EndsOk (fun _ => True) (r.index s i1) := by
  unfold CpRun.index
  dsimp only
  split
  · exact .error (.runFail h)
  · split
    · exact .error (.runFailTile h)
    · exact .ok trivial

theorem CpOut.memOk.runMove {r : CpRun} {s : State} (h : s.memOk) : (r.move s).memOk := by
  have hread {run src i0 n} : EndsOk (fun x => x.2.2.memOk) (if r.x.op = 3 then
      .ok (List.replicate n (r.d.aux % 2 ^ fmtBits r.d.dst.fmt), [], s) else r.readUnit s run src i0 n) := by
    split
    · exact .ok h
    · exact .runReadUnit h
  have hindex {c : Prop} [Decidable c] {i} : EndsOk (fun _ => True) (if c then r.index s i else .ok r.x.ix) := by
    split
    · exact .runIndex h
    · exact .ok trivial
  unfold CpRun.move
  extract_lets d run i0 n at_ indexed
  split
  · exact .halt (.of_error hindex ‹_›)
  · extract_lets ats src dst got
    split
    · exact .halt (.runFail h)
    · unfold got
      split
      · exact .halt (.of_error hread ‹_›)
      · have ht := State.memOk.of_ok_third hread ‹_›
        dsimp only
        split
        · exact .halt (.of_error (.runWriteUnit ht) ‹_›)
        · exact .next (.runAdvance (.of_ok (.runWriteUnit ht) ‹_›))

theorem CpOut.memOk.runSave {r : CpRun} {s : State} (h : s.memOk) : (r.save s).memOk := by
  unfold CpRun.save
  dsimp only
  split
  · split
    · exact .halt (.of_error (.runReadUnit h) ‹_›)
    · exact .next (.runAdvance (.of_ok_third (.runReadUnit h) ‹_›))
  · split
    · exact .halt (.of_error (.runWriteHandle h) ‹_›)
    · exact .next (.runAdvance (.of_ok (.runWriteHandle h) ‹_›))

theorem EndsOk.runEntry {r : CpRun} {s : State} (h : s.memOk) : EndsOk (fun _ => True) (r.entry s) := by
  unfold CpRun.entry
  dsimp only
  split
  · exact .error (.runFail h)
  · split
    · exact .error (.runFailTile h)
    · split
      · exact .error (.runFail h)
      · exact .ok trivial

theorem State.memOk.runRejected {r : CpRun} {reason} {s : State} (h : s.memOk) : (r.rejected s reason).memOk :=
  .copyEnd h

theorem EndsOk.runWriteBits {r : CpRun} {hd start bit w pats} {s : State} (h : s.memOk) :
    EndsOk State.memOk (r.writeBits s hd start bit w pats) := .runWriteHandle h

theorem CpOut.memOk.runLoad {r : CpRun} {s : State} (h : s.memOk) : (r.load s).memOk := by
  unfold CpRun.load
  extract_lets
  split
  · exact .halt (.of_error (.runEntry h) ‹_›)
  · extract_lets
    split
    · exact .halt (.runRejected h)
    · split
      · exact .halt (.runRejected h)
      · split
        · split
          · exact .halt (.of_error (.runReadHandle h) ‹_›)
          · exact .next (.runAdvance (.of_ok_snd (.runReadHandle h) ‹_›))
        · split
          · exact .halt (.runRejected h)
          · dsimp only
            split
            · split
              · exact .next h
              · split
                · split
                  · exact .halt (.of_error (.runWriteUnit h) ‹_›)
                  · exact .next (.runAdvance (.of_ok (.runWriteUnit h) ‹_›))
                · split
                  · exact .halt (.of_error (.runWriteBits h) ‹_›)
                  · exact .next (.runAdvance (.of_ok (.runWriteBits h) ‹_›))
            · exact .next h

theorem State.memOk.copyOn {n core slot ticket} {s : State} (h : s.memOk) :
    (State.copyOn n s core slot ticket).memOk := by
  induction n generalizing s with
  | zero => exact h
  | succ n ih =>
    unfold State.copyOn
    split
    · exact h
    · split
      · exact .copyEnd h
      · split
        · exact h
        · split
          · split at *
            · exact .of_halted (.runSave h) ‹_›
            · exact .of_halted (.runLoad h) ‹_›
            · exact .of_halted (.runMove h) ‹_›
          · refine ih ?_
            split at *
            · exact .of_moved (.runSave h) ‹_›
            · exact .of_moved (.runLoad h) ‹_›
            · exact .of_moved (.runMove h) ‹_›

theorem NextOk.execCopyComplete {core slot ticket} {s : State} (h : s.memOk) :
    NextOk (execCopyComplete core slot ticket s) := by
  unfold Machine.execCopyComplete
  split
  · exact .next h
  · split
    · exact .next (.copyOn h)
    · exact .next h

theorem State.memOk.resetCopies {core ctx} {s : State} (h : s.memOk) : (s.resetCopies core ctx).memOk := by
  unfold State.resetCopies
  dsimp only
  refine .foldl ?_ h
  intro s' a hs
  split
  · exact hs
  · split
    · exact hs
    · refine .foldl ?_ hs
      intro s'' a' ht
      split <;> exact ht

theorem NextOk.execTfree {f} {s : State} (h : s.memOk) : NextOk (execTfree f s) := by
  unfold Machine.execTfree
  dsimp only
  refine .laneInstr h fun _ _ hs => ?_
  refine .issActing hs fun _ => ?_
  split
  · exact hs
  · split
    · exact .issTileFault hs
    · split
      · exact .issTileFault hs
      · split
        · exact .issTileFault hs
        · split
          · exact hs
          · exact .issDone (.foldl (fun _ _ hs => hs) hs)

/-! ### The chain unit -/

theorem NextOk.chainOp {op f g} {s : State} (h : s.memOk) : NextOk (chainOp op f s g) :=
  .issue h (fun _ _ hs => .ite hs hs) fun _ _ hs => hs

end Sys2Proof.Machine
end

section
/-! Memory stays canonical: the dispatch engines, the queue interfaces and the hubs. -/

namespace Sys2Proof.Machine

/-! ### Continuations -/

theorem NextOk.execYield {f} {s : State} (h : s.memOk) : NextOk (execYield f s) :=
  .issue h (fun _ _ hs => .issPerWarp hs (fun _ ht => .ite ht ht)) fun _ _ hs => .ite hs hs

theorem State.memOk.countJoin {pa d} {s : State} (h : s.memOk) : (s.countJoin pa d).memOk :=
  .store (.dieTake (.dirWrite h))

theorem State.memOk.lower {at_ l} {s : State} (h : s.memOk) : (State.lower at_ s l).memOk := by
  unfold State.lower
  split
  · exact .countJoin h
  · exact h

theorem State.memOk.issExitJoined {i : Iss} {s : State} (h : s.memOk) : (i.exitJoined s).memOk := by
  unfold Iss.exitJoined
  dsimp only
  split
  · exact .stop h
  · exact .callerWalk h
  · exact .callerPark h
  · split
    · exact .callerWaitLines h
    · exact .issExit (.foldl (fun _ _ hs => .lower hs) h)

theorem NextOk.execExit {f} {s : State} (h : s.memOk) : NextOk (execExit f s) := by
  unfold Machine.execExit
  refine .tiledInstr h fun _ _ hs => ?_
  split
  · exact hs
  · split
    · exact .issExit hs
    · split
      · exact hs
      · split
        · exact .of_error (.callerReleased hs) ‹_›
        · exact .issExitJoined (.of_ok (.callerReleased hs) ‹_›)

theorem NextOk.execSret {f} {s : State} (h : s.memOk) : NextOk (execSret f s) := by
  unfold Machine.execSret
  refine .leadInstr h fun _ _ hs => ?_
  split
  · exact hs
  · split
    · exact hs
    · split
      · exact .of_error (.callerReleased hs) ‹_›
      · exact .checkCrew (.leadCommit (.of_ok (.callerReleased hs) ‹_›))

theorem State.memOk.enterGather {r} {s : State} (h : s.memOk) : (s.enterGather r).memOk := by
  unfold State.enterGather
  dsimp only
  split <;> exact h

theorem State.memOk.issEmit {i : Iss} {at_ l} {s : State} (h : s.memOk) : (i.emit at_ s l).2.memOk := by
  unfold Iss.emit
  dsimp only
  split
  · exact h
  · split
    · refine .enterGather (.onTask ?_)
      split
      · split
        · exact h
        · exact .countJoin h
      · exact h
    · split
      · refine .onCtx (.onTask ?_)
        split
        · split
          · exact h
          · exact .countJoin h
        · exact h
      · exact h

theorem State.memOk.issEmitAll {i : Iss} {at_ ls} {s : State} (h : s.memOk) : (i.emitAll at_ ls s).2.memOk := by
  induction ls generalizing s with
  | nil => exact h
  | cons l ls ih =>
    unfold Iss.emitAll
    dsimp only
    exact ih (.issEmit h)

theorem NextOk.execCont {f} {s : State} (h : s.memOk) : NextOk (execCont f s) :=
  .laneInstr h fun _ _ hs => .issActing hs
    (fun _ => .callerFollow hs (fun _ ht => .callerReleased ht)
      (fun _ ht => .ite (.callerWaitLines ht) (.issWrite (.issEmitAll ht))))

theorem State.memOk.issWatch {i : Iss} {c : Caller} {loc} {s : State} (h : s.memOk) : (i.watch s c loc).memOk := by
  unfold Iss.watch
  dsimp only
  split
  · exact h
  · split <;> exact h

theorem NextOk.execCwait {f} {s : State} (h : s.memOk) : NextOk (execCwait f s) :=
  .laneInstr h fun _ _ hs => .issActing hs
    (fun _ => .callerSettle hs (fun _ ht => .callerAcquired ht)
      (fun _ _ ht => .ite (.callerWaitLines ht) (.ite (.callerRetry ht) (.issWatch ht))))

theorem NextOk.execContinuationGatherTimeout {cluster key} {s : State} (h : s.memOk) :
    NextOk (execContinuationGatherTimeout cluster key s) := by
  unfold Machine.execContinuationGatherTimeout
  split
  · exact .next h
  · exact .next (.ite h h)

theorem NextOk.execOverflowRecordReturn {ctx} {s : State} (h : s.memOk) : NextOk (execOverflowRecordReturn ctx s) := by
  unfold Machine.execOverflowRecordReturn
  split
  · exact .next h
  · split
    · exact .next h
    · exact .next (.ite (.enterGather h) h)

/-! ### The placement of gangs -/

theorem State.memOk.freeGroups {n} {s : State} (h : s.memOk) : (freeGroups n s).2.memOk := by
  induction n generalizing s with
  | zero => exact h
  | succ n ih =>
    unfold Machine.freeGroups
    dsimp only
    exact ih h

theorem State.memOk.placeWarps {core crew task code lo hi t entry slots rank} {s : State} (h : s.memOk) :
    (s.placeWarps core crew task code lo hi t entry slots rank).memOk := by
  induction slots generalizing s rank with
  | nil => exact h
  | cons k slots ih =>
    unfold State.placeWarps
    dsimp only
    exact ih (.setWarp (.freeGroups h))

theorem State.memOk.placeCrews {gang task code lo hi t tiles cores rank} {s : State} (h : s.memOk) :
    (s.placeCrews gang task code lo hi t tiles cores rank).2.memOk := by
  induction cores generalizing s rank with
  | nil => exact h
  | cons core cores ih =>
    unfold State.placeCrews
    dsimp only
    exact ih (.placeWarps h)

theorem State.memOk.placeGang {task cluster ix lo hi t tiles cores} {s : State} (h : s.memOk) :
    (s.placeGang task cluster ix lo hi t tiles cores).memOk := .onTask (.of_mem (.placeCrews (.fresh h)) rfl)

theorem State.memOk.taskWaits {task ctx acc hub eng core o} {s : State} (h : s.memOk) :
    (s.taskWaits task ctx acc hub eng core o).memOk := by
  unfold State.taskWaits
  dsimp only
  split
  · exact .onTask (.requestWalk h)
  · exact .onTask (.postFault h)
  · exact .onTask (.requestService h)
  · exact h

theorem State.memOk.tryGang {task cluster t ix cores} {s : State} (h : s.memOk) :
    (s.tryGang task cluster t ix cores).memOk := by
  unfold State.tryGang
  dsimp only
  split
  · exact .placeGang h
  · exact .stop h
  · exact .taskWaits h

theorem NextOk.execGangPlacement {task cluster} {s : State} (h : s.memOk) :
    NextOk (execGangPlacement task cluster s) := by
  unfold Machine.execGangPlacement
  split
  · exact .next h
  · split
    · exact .next h
    · refine .next (.ite ?_ h)
      split
      · exact h
      · exact .tryGang h

theorem NextOk.execGangReservation {task cluster} {s : State} (h : s.memOk) :
    NextOk (execGangReservation task cluster s) := by
  unfold Machine.execGangReservation
  dsimp only
  split
  · exact .next h
  · exact .next (.ite h h)

theorem State.memOk.placeCont {id core c} {s : State} (h : s.memOk) : (s.placeCont id core c).memOk := by
  unfold State.placeCont
  dsimp only
  split
  · split
    · exact .stop h
    · split
      · exact h
      · split <;> exact h
  · exact .stop h
  · exact .onContWarp (.requestWalk h)
  · exact .onContWarp (.postFault h)
  · exact .onContWarp (.requestService h)
  · exact h

theorem NextOk.execContinuationPlacement {id core} {s : State} (h : s.memOk) :
    NextOk (execContinuationPlacement id core s) := by
  unfold Machine.execContinuationPlacement
  split
  · exact .next h
  · exact .next (.ite (.placeCont h) h)

theorem NextOk.execContinuationRemotePlacement {id core} {s : State} (h : s.memOk) :
    NextOk (execContinuationRemotePlacement id core s) := by
  unfold Machine.execContinuationRemotePlacement
  split
  · exact .next h
  · exact .next (.ite (.placeCont h) h)

/-! ### Pre-emption, saving and restoring -/

theorem State.memOk.forget {p} {s : State} (h : s.memOk) : (s.forget p).memOk := .withdrawGuards h

theorem State.memOk.remove {p} {s : State} (h : s.memOk) : (s.remove p).memOk := .tidyLeases h

theorem State.memOk.settleUnit {p} {s : State} (h : s.memOk) : (s.settleUnit p).memOk :=
  .foldl (fun _ _ hs => .settleHeld hs) h

theorem State.memOk.discardGang {p g} {s : State} (h : s.memOk) : (s.discardGang p g).memOk :=
  .onTask (.remove (.disownUnit (.forget (.settleUnit h))))

theorem NextOk.execPreemptionDecision {u} {s : State} (h : s.memOk) : NextOk (execPreemptionDecision u s) := by
  unfold Machine.execPreemptionDecision
  dsimp only
  split
  · exact .next h
  · split
    · exact .next h
    · split
      · exact .next (.discardGang h)
      · exact .next h
      · exact .next h

theorem NextOk.execFullSaveTimeout {u} {s : State} (h : s.memOk) : NextOk (execFullSaveTimeout u s) := by
  unfold Machine.execFullSaveTimeout
  split
  · exact .next (.ite h h)
  · exact .next h

theorem NextOk.execDrainDeadlineExpiry {u} {s : State} (h : s.memOk) : NextOk (execDrainDeadlineExpiry u s) := by
  unfold Machine.execDrainDeadlineExpiry
  split
  · exact .next (.ite h h)
  · exact .next h

theorem State.memOk.setGrains {grains ctx parked at_} {s : State} (h : s.memOk) :
    (s.setGrains grains ctx parked at_).memOk := .foldl (fun _ _ hs => hs) h

theorem State.memOk.storeImage {id img sections} {s : State} (h : s.memOk) : (s.storeImage id img sections).memOk :=
  .storeFresh h

theorem State.memOk.writeImage {p u how} {s : State} (h : s.memOk) : (s.writeImage p u how).memOk := by
  unfold State.writeImage
  dsimp only
  split
  · exact .storeImage (.of_mem (.remove (.forget (.unfile (.setGrains (.endPreempt (.fresh h)))))) rfl)
  · exact .disownLoose (.storeImage (.of_mem (.remove (.forget (.unfile (.setGrains (.endPreempt (.fresh h)))))) rfl))

theorem State.memOk.pauseMatrix {p how} {s : State} (h : s.memOk) : (s.pauseMatrix p how).memOk :=
  .foldl (fun _ _ hs => .ite (.mxPause hs) hs) h

theorem State.memOk.trySave {p u how} {s : State} (h : s.memOk) : (s.trySave p u how).memOk := by
  unfold State.trySave
  dsimp only
  split
  · exact .foldl (fun _ _ hs => .publishHeld hs) (.performFree h)
  · split
    · exact .performFree h
    · split
      · exact .writeImage (.pauseMatrix (.performFree h))
      · exact .pauseMatrix (.performFree h)

theorem NextOk.execParkedUnitSave {u} {s : State} (h : s.memOk) : NextOk (execParkedUnitSave u s) := by
  unfold Machine.execParkedUnitSave
  split
  · exact .next h
  · exact .next (.ite (.trySave h) h)

theorem State.memOk.returnQueues {img r} {s : State} (h : s.memOk) : (s.returnQueues img r).memOk :=
  .foldl (fun _ _ hs => hs) h

theorem State.memOk.restoreGang {id cluster img g cores} {s : State} (h : s.memOk) :
    (s.restoreGang id cluster img g cores).memOk := by
  unfold State.restoreGang
  dsimp only
  exact .setGrains (.returnQueues h)

theorem State.memOk.restoreLoose {id core img} {s : State} (h : s.memOk) : (s.restoreLoose id core img).memOk := by
  unfold State.restoreLoose
  dsimp only
  split
  · exact .returnQueues h
  · exact h

theorem State.memOk.restore {id cluster img} {s : State} (h : s.memOk) : (s.restore id cluster img).memOk := by
  unfold State.restore
  split
  · exact .stop h
  · split
    · exact .wakeCwait (.restoreGang h)
    · exact .wakeCwait (.restoreLoose h)
    · exact h

theorem NextOk.execGangRestore {img cluster} {s : State} (h : s.memOk) : NextOk (execGangRestore img cluster s) := by
  unfold Machine.execGangRestore
  split
  · exact .next h
  · exact .next (.ite (.restore h) h)

theorem State.memOk.askSaved {id x} {s : State} (h : s.memOk) : (s.askSaved id x).memOk := by
  unfold State.askSaved
  dsimp only
  split
  · exact h
  · exact .foldl (fun _ _ hs => hs) h

theorem NextOk.execParkedUnitRestore {img cluster} {s : State} (h : s.memOk) :
    NextOk (execParkedUnitRestore img cluster s) := by
  unfold Machine.execParkedUnitRestore
  split
  · exact .next h
  · exact .next (.ite h (.ite (.askSaved h) (.ite (.restore h) h)))

/-! ### The Owl -/

theorem State.memOk.writeDiag {vd b} {s : State} (h : s.memOk) : (s.writeDiag vd b).2.memOk := .onVd (.storeFresh h)

theorem State.memOk.barrierTimeout {p t scan} {s : State} (h : s.memOk) : (s.barrierTimeout p t scan).memOk :=
  .stop (.postVd (.writeDiag h))

theorem State.memOk.scanned {p} {s : State} (h : s.memOk) : (s.scanned p).memOk := by
  unfold State.scanned
  split
  · exact h
  · exact .foldl (fun _ _ hs => hs) h

theorem NextOk.execOwlScan {u} {s : State} (h : s.memOk) : NextOk (execOwlScan u s) := by
  unfold Machine.execOwlScan
  dsimp only
  split
  · exact .next h
  · refine .next (.ite h ?_)
    split
    · exact .barrierTimeout h
    · exact .scanned h

theorem NextOk.execMaxrunOverrun {u} {s : State} (h : s.memOk) : NextOk (execMaxrunOverrun u s) := by
  unfold Machine.execMaxrunOverrun
  dsimp only
  split
  · exact .next h
  · refine .next (.ite h (.postVd ?_))
    split
    · exact h
    · exact .foldl (fun _ _ hs => hs) h

/-! ### What a hub reads and writes -/

theorem State.memOk.putRun {o bs r} {s : State} (h : s.memOk) : (s.putRun o bs r).memOk := by
  unfold State.putRun
  dsimp only
  split
  · exact .storeHub h
  · exact h
  · exact h

theorem State.memOk.hubWrite {who hd o align bs} {s t : State} (h : s.memOk)
    (e : s.hubWrite who hd o align bs = .ok t) : t.memOk := by
  unfold State.hubWrite at e
  cases hr : s.writeRuns who hd o align bs with
  | error x => simp [hr, Except.bind, bind] at e
  | ok rs =>
    rw [hr] at e
    rw [← Except.ok.inj e]
    exact .foldl (fun _ _ hs => .putRun hs) h

theorem State.memOk.linkWrite {who hd o align bs} {s t : State} (h : s.memOk)
    (e : s.linkWrite who hd o align bs = .ok t) : t.memOk := by
  unfold State.linkWrite at e
  cases hr : s.writeRuns who hd o align bs with
  | error x => simp [hr, Except.bind, bind] at e
  | ok rs =>
    cases ht : s.hubWrite who hd o align bs with
    | error x => simp [hr, ht, Except.bind, bind] at e
    | ok u =>
      rw [hr, ht] at e
      rw [← Except.ok.inj e]
      exact .of_mem (.hubWrite h ht) rfl

theorem State.memOk.askFor {agent ctx loc kind} {s : State} (h : s.memOk) : (s.askFor agent ctx loc kind).2.memOk := h

theorem State.memOk.await {agent ctx hub eng x w d} {s t : State} (h : s.memOk)
    (e : s.await agent ctx hub eng x = some (w, d, t)) : t.memOk := by
  unfold State.await at e
  dsimp only at e
  split at e
  · rw [← (Prod.mk.inj (Prod.mk.inj (Option.some.inj e)).2).2]
    exact .requestWalk h
  · rw [← (Prod.mk.inj (Prod.mk.inj (Option.some.inj e)).2).2]
    exact .postFault h
  · rw [← (Prod.mk.inj (Prod.mk.inj (Option.some.inj e)).2).2]
    exact .requestService h
  · rw [← (Prod.mk.inj (Prod.mk.inj (Option.some.inj e)).2).2]
    exact .askFor h
  · cases e

/-! ### Pages, invalidations and their answers -/

theorem NextOk.execPageWalkComplete {id} {s : State} (h : s.memOk) : NextOk (execPageWalkComplete id s) := by
  unfold Machine.execPageWalkComplete
  dsimp only
  split
  · exact .next h
  · refine .next (.ite h ?_)
    split
    · exact .wakeWalk (.ite h h)
    · exact .wakeWalk h
    · exact .wakeWalk h

theorem State.memOk.namePark {a key} {s : State} (h : s.memOk) : (s.namePark a key).memOk := by
  unfold State.namePark
  dsimp only
  split
  · split <;> exact h
  · exact h
  · exact h
  · exact h
  · exact h
  · exact h
  · exact h
  · exact h
  · exact h
  · exact h

theorem NextOk.execFaultRecordDeferredWrite {vd} {s : State} (h : s.memOk) :
    NextOk (execFaultRecordDeferredWrite vd s) := by
  unfold Machine.execFaultRecordDeferredWrite
  dsimp only
  split
  · exact .next h
  · split
    · exact .next h
    · refine .next (.ite ?_ h)
      split
      · exact .namePark (.of_snd (.postFault (.onVd h)) ‹_›)
      · exact .of_snd (.postFault (.onVd h)) ‹_›

theorem NextOk.execFresp {vd v} {s : State} (h : s.memOk) : NextOk (execFresp vd v s) := by
  unfold Machine.execFresp
  dsimp only
  split
  · exact .next h
  · exact .next (.ite h (.wakePark h))

theorem NextOk.execInvsub {vd v} {s : State} (h : s.memOk) : NextOk (execInvsub vd v s) := by
  unfold Machine.execInvsub
  dsimp only
  split
  · exact .next h
  · exact .next (.ite h h)

theorem State.memOk.invalWaits {vd c hd} {s : State} (h : s.memOk) : (s.invalWaits vd c hd).memOk := by
  unfold State.invalWaits
  split
  · exact h
  · exact .onInval (.await h ‹_›)

theorem State.memOk.writeDone {vd x value} {s : State} (h : s.memOk) : (s.writeDone vd x value).memOk := by
  unfold State.writeDone
  split
  · exact .endInval (.hubWrite h ‹_›)
  · exact h
  · exact .invalWaits h

theorem NextOk.execInvalidationComplete {vd} {s : State} (h : s.memOk) : NextOk (execInvalidationComplete vd s) := by
  unfold Machine.execInvalidationComplete
  extract_lets t
  have ht : t.memOk := by
    unfold t
    split
    · split <;> exact h
    · exact h
  clear_value t
  dsimp only
  split
  · exact .next ht
  · refine .next (.ite ht ?_)
    split
    · exact .endInval ht
    · exact .invalWaits ht
    · split
      · exact .writeDone ht
      · split
        · exact .writeDone (.performFree ht)
        · exact .performFree ht

theorem State.memOk.sendOut {to_ lo size} {s : State} (h : s.memOk) : (s.sendOut to_ lo size).memOk := by
  unfold State.sendOut
  dsimp only
  split
  · exact h
  · exact .foldl (fun _ _ hs => hs) h

theorem State.memOk.evict {vd ipa} {s : State} (h : s.memOk) : (s.evict vd ipa).memOk := by
  unfold State.evict
  dsimp only
  split
  · exact .store (.unhold (.ite (.sendOut h) h))
  · exact h

theorem State.memOk.tenantTables {vd c} {s : State} (h : s.memOk) : (s.tenantTables vd c).memOk := by
  unfold State.tenantTables
  apply List.foldlRecOn (motive := fun r : State × Nat => r.1.memOk) _ _ h
  intro r hr l _
  extract_lets size e used
  split
  · exact State.memOk.store hr
  · show State.memOk (if _ then _ else _)
    exact .ite (.store hr) hr

theorem State.memOk.serviced {id w fatal} {s : State} (h : s.memOk) : (s.serviced id w fatal).memOk := .wakePark h

theorem NextOk.execHbPageServiceComplete {id victims region data} {s : State} (h : s.memOk) :
    NextOk (execHbPageServiceComplete id victims region data s) := by
  unfold Machine.execHbPageServiceComplete
  dsimp only
  split
  · exact .next h
  · split
    · exact .next h
    · refine .next (.ite h ?_)
      split
      · exact .serviced h
      · split
        · split
          · exact .serviced h
          · exact h
        · split
          · split
            · exact .serviced (.onVd (.store (.storeFresh (.foldl (fun _ _ hs => .evict hs) (.performFree h)))))
            · exact h
          · exact h

theorem State.memOk.sendHeld {hub} {s : State} (h : s.memOk) : (s.sendHeld hub).memOk :=
  .foldl (fun _ _ hs => .ite hs hs) h

theorem State.memOk.askPage {id w} {s : State} (h : s.memOk) : (s.askPage id w).memOk := by
  unfold State.askPage
  split <;> exact h

theorem NextOk.execAtsTranslationCompletion {id t} {s : State} (h : s.memOk) :
    NextOk (execAtsTranslationCompletion id t s) := by
  unfold Machine.execAtsTranslationCompletion
  dsimp only
  split
  · exact .next h
  · refine .next (.ite h ?_)
    split
    · exact .wakeWalk (.askPage h)
    · split
      · exact .wakePark (.wakeWalk (.ite h h))
      · exact .wakeWalk (.askPage h)

theorem NextOk.execPageRequestGroupResponse {id r} {s : State} (h : s.memOk) :
    NextOk (execPageRequestGroupResponse id r s) := by
  unfold Machine.execPageRequestGroupResponse
  dsimp only
  split
  · exact .next h
  · refine .next (.ite h ?_)
    split
    · exact .sendHeld (.wakePark h)
    · exact .sendHeld (.wakePark h)
    · exact .foldl (fun _ _ hs => .wakePark hs) h

theorem NextOk.execAtsInvalidationCompletion {hub} {s : State} (h : s.memOk) :
    NextOk (execAtsInvalidationCompletion hub s) := by
  unfold Machine.execAtsInvalidationCompletion
  dsimp only
  split
  · exact .next h
  · exact .next (.ite h h)

/-! ### Queue interfaces and packets -/

theorem State.memOk.kickPage {q g} {s : State} (h : s.memOk) : (s.kickPage q g).memOk := by
  unfold State.kickPage
  split <;> exact h

theorem State.memOk.setEvctl {q v} {s : State} (h : s.memOk) : (s.setEvctl q v).memOk := by
  unfold State.setEvctl
  dsimp only
  split
  · exact .interrupt (.kickPage h)
  · exact .kickPage h

theorem NextOk.execEventInterruptTimer {qi} {s : State} (h : s.memOk) : NextOk (execEventInterruptTimer qi s) := by
  unfold Machine.execEventInterruptTimer
  dsimp only
  split
  · exact .next h
  · exact .next (.ite (.interrupt h) h)

theorem State.memOk.consume {q p} {s : State} (h : s.memOk) : (s.consume q p).memOk := by
  unfold State.consume
  dsimp only
  split <;> exact h

theorem State.memOk.queueFault {q cls} {s : State} (h : s.memOk) : (s.queueFault q cls).memOk := by
  unfold State.queueFault
  dsimp only
  split
  · exact h
  · split
    · exact .stopLost h
    · split
      · exact .stop h
      · split <;> exact h

theorem State.memOk.packetDone {q type index event status cls} {s : State} (h : s.memOk) :
    (s.packetDone q type index event status cls).memOk := by
  unfold State.packetDone
  dsimp only
  split
  · exact .post (.queueFault h)
  · exact .queueFault h

theorem State.memOk.pktDone {q p status cls} {s : State} (h : s.memOk) : (s.pktDone q p status cls).memOk :=
  .packetDone h

theorem State.memOk.queueWaits {q hd} {s : State} (h : s.memOk) : (s.queueWaits q hd).memOk := by
  unfold State.queueWaits
  split
  · exact h
  · exact .onQi (.await h ‹_›)

theorem State.memOk.effect {α : Type} {q p k} {r : Except Hitch α} {s : State} (h : s.memOk)
    (hk : ∀ a s, s.memOk → (k a s : State).memOk) : (s.effect q p r k).memOk := by
  unfold State.effect
  split
  · exact hk _ _ (.consume h)
  · exact .pktDone (.consume h)
  · exact .queueWaits h

theorem State.memOk.takePacket {q type k} {s : State} (h : s.memOk) (hk : ∀ a b s, s.memOk → (k a b s).memOk) :
    (s.takePacket q type k).memOk := by
  unfold State.takePacket
  split
  · exact h
  · split
    · split
      · split
        · exact hk _ _ _ h
        · exact h
      · exact .queueWaits h
      · exact h
    · exact h

theorem State.memOk.stopQueue {q cls index hdr} {s : State} (h : s.memOk) : (s.stopQueue q cls index hdr).memOk :=
  .post (.queueFault h)

theorem NextOk.execInvalidPacket {qi} {s : State} (h : s.memOk) : NextOk (execInvalidPacket qi s) := by
  unfold Machine.execInvalidPacket
  split
  · exact .next h
  · refine .next (.ite ?_ h)
    split
    · exact .stopQueue h
    · exact .queueWaits h
    · exact h

theorem NextOk.execWriteData {qi} {s : State} (h : s.memOk) : NextOk (execWriteData qi s) := by
  unfold Machine.execWriteData
  refine .next (.takePacket h ?_)
  intro a b s' hs
  split
  · exact .pktDone (.consume (.hubWrite hs ‹_›))
  · exact .pktDone (.consume hs)
  · exact .queueWaits hs

theorem NextOk.execMeasurePacket {qi} {s : State} (h : s.memOk) : NextOk (execMeasurePacket qi s) :=
  .next (.takePacket h (fun _ _ _ hs => .effect hs (fun _ _ ht => .pktDone ht)))

theorem NextOk.execWaitValue {qi} {s : State} (h : s.memOk) : NextOk (execWaitValue qi s) :=
  .next (.takePacket h (fun _ _ _ hs => .effect hs (fun _ _ ht => .ite (.pktDone ht) ht)))

theorem State.memOk.endBegun {q b status cls} {s : State} (h : s.memOk) : (s.endBegun q b status cls).memOk :=
  .letGo (.packetDone h)

theorem State.memOk.resume {α : Type} {q b k} {r : Except Hitch α} {s : State} (h : s.memOk)
    (hk : ∀ a, r = .ok a → (k a : State).memOk) : (s.resume q b r k).memOk := by
  unfold State.resume
  split
  · exact hk _ rfl
  · exact .endBegun h
  · exact .queueWaits h

theorem NextOk.execWaitValueSatisfied {qi} {s : State} (h : s.memOk) : NextOk (execWaitValueSatisfied qi s) := by
  unfold Machine.execWaitValueSatisfied
  split
  · exact .next h
  · split
    · exact .next h
    · exact .next (.ite (.resume h (fun _ hs => .ite (.endBegun h) h)) h)

theorem State.memOk.inTurn {q type act} {s : State} (h : s.memOk) (hact : ∀ a b s, s.memOk → (act a b s).memOk) :
    (s.inTurn q type act).memOk := by
  unfold State.inTurn
  dsimp only
  split
  · exact h
  · split
    · split
      · exact h
      · split
        · split
          · exact hact _ _ _ h
          · exact h
        · exact h
    · refine .takePacket h fun _ _ _ hs => ?_
      split
      · exact .begin (.consume hs)
      · split
        · split
          · exact hact _ _ _ (.begin (.consume hs))
          · exact .begin (.consume hs)
        · exact .begin (.consume hs)

theorem NextOk.execSignal {qi} {s : State} (h : s.memOk) : NextOk (execSignal qi s) :=
  .next (.inTurn h (fun _ _ _ hs => .resume hs (fun _ ht => .endBegun (.hubWrite hs ‹_›))))

theorem State.memOk.performVia {c hd} {s : State} (h : s.memOk) : (s.performVia c hd).memOk := by
  unfold State.performVia
  refine .foldl ?_ h
  intro s' a hs
  split
  · exact .publishAt hs
  · exact hs

theorem NextOk.execSetHandle {qi} {s : State} (h : s.memOk) : NextOk (execSetHandle qi s) :=
  .next (.takePacket h
    (fun _ _ _ hs => .ite (.performVia (.performFree hs))
      (.pktDone (.onCtx (.consume (.performVia (.performFree hs)))))))

/-! ### Receipts -/

theorem State.memOk.takeLeaf {leaf} {s t : State} (h : s.memOk) (e : s.takeLeaf = some (leaf, t)) : t.memOk := by
  unfold State.takeLeaf at e
  split at e
  · cases e
  · extract_lets u at e
    have hu : u.memOk := .ite h h
    split at e
    · rw [← (Prod.mk.inj (Option.some.inj e)).2]
      exact hu
    · cases e

theorem State.memOk.receiptDone {q b status cls leaf} {s : State} (h : s.memOk) :
    (s.receiptDone q b status cls leaf).memOk := .endBegun (.post h)

theorem NextOk.execReceipt {qi} {s : State} (h : s.memOk) : NextOk (execReceipt qi s) := by
  unfold Machine.execReceipt
  dsimp only
  refine .next (.inTurn h ?_)
  intro a b s' hs
  split
  · exact hs
  · split
    · exact .receiptDone hs
    · split
      · exact .receiptDone hs
      · exact .onPkg (.takeLeaf hs ‹_›)

theorem State.memOk.completeReceipt {qi} {s : State} (h : s.memOk) : (s.completeReceipt qi).memOk := by
  unfold State.completeReceipt
  dsimp only
  split
  · split
    · exact h
    · split
      · split
        · exact .signed (.hubWrite (.onPkg h) ‹_›)
        · split
          · exact .receiptDone (.signed (.hubWrite (.onPkg h) ‹_›))
          · exact .signed (.hubWrite (.onPkg h) ‹_›)
      · split
        · exact h
        · split
          · exact .receiptDone h
          · exact h
      · split
        · exact .queueWaits h
        · exact h
  · exact h

end Sys2Proof.Machine
end

section
/-! Memory stays canonical: the tenant controller, the command engine and the links. -/

namespace Sys2Proof.Machine

/-! ### Boot -/

theorem NextOk.execColdReset {s : State} : NextOk (execColdReset s) := .next rfl

theorem State.memOk.finishSignings {s : State} (h : s.memOk) : s.finishSignings.memOk :=
  .foldl (fun _ _ hs => .completeReceipt hs) h

theorem State.memOk.packageReset {s : State} (h : s.memOk) : s.packageReset.memOk := .of_mem (.finishSignings h) rfl

theorem State.memOk.heldReset {s : State} (h : s.memOk) : s.heldReset.memOk := by
  unfold State.heldReset
  split
  · exact .packageReset h
  · exact h

theorem State.memOk.admitDies {fs} {s : State} (h : s.memOk) : (s.admitDies fs).memOk := by
  unfold State.admitDies
  dsimp only
  split <;> exact h

theorem State.memOk.becomeReady {fs} {s : State} (h : s.memOk) : (s.becomeReady fs).memOk := by
  unfold State.becomeReady
  dsimp only
  split <;> exact h

theorem NextOk.execBootStageComplete {r} {s : State} (h : s.memOk) : NextOk (execBootStageComplete r s) := by
  unfold Machine.execBootStageComplete
  refine .next (.ite h ?_)
  split
  · exact h
  · exact h
  · exact h
  · exact .admitDies h
  · exact rfl
  · exact .becomeReady h
  · exact h

theorem State.memOk.throttle {die} {s : State} (h : s.memOk) : (s.throttle die).memOk := .postDie h

theorem NextOk.execClockClassChangeDone {s : State} (h : s.memOk) : NextOk (execClockClassChangeDone s) := by
  unfold Machine.execClockClassChangeDone
  dsimp only
  split
  · exact .next h
  · exact .next (.reclock (.ite (.foldl (fun _ _ hs => .throttle hs) (.ite h h)) (.ite h h)))

/-! ### Mailbox commands -/

theorem State.memOk.vdRecord {vd state} {s : State} (h : s.memOk) : (s.vdRecord vd state).memOk := .postState h

theorem State.memOk.doMgmtRing {s : State} (h : s.memOk) : s.doMgmtRing.memOk := by
  unfold State.doMgmtRing
  dsimp only
  split <;> exact h

theorem NextOk.execPlainRegisterWrite {r v} {s : State} (h : s.memOk) : NextOk (execPlainRegisterWrite r v s) := by
  unfold Machine.execPlainRegisterWrite
  dsimp only
  refine .next ?_
  split
  · exact .setEvctl h
  · exact .alarmTo h
  · split <;> exact h
  · split <;> exact h
  · split <;> exact h

theorem State.memOk.doInfoRead {s : State} (h : s.memOk) : s.doInfoRead.memOk := by
  unfold State.doInfoRead
  split <;> exact h

theorem State.memOk.doPkgReset {s : State} (h : s.memOk) : s.doPkgReset.memOk := .mbWaits (.packageReset h)

theorem State.memOk.doRcptKey {s : State} (h : s.memOk) : s.doRcptKey.memOk := by
  unfold State.doRcptKey
  split <;> exact h

theorem State.memOk.doFwImage {img} {s : State} (h : s.memOk) : (s.doFwImage img).memOk := by
  unfold State.doFwImage
  dsimp only
  split
  · exact h
  · split <;> exact h

theorem State.memOk.doFwRecover {img} {s : State} (h : s.memOk) : (s.doFwRecover img).memOk := by
  unfold State.doFwRecover
  split
  · exact h
  · split <;> exact h

theorem State.memOk.doVdCreate {s : State} (h : s.memOk) : s.doVdCreate.memOk := by
  unfold State.doVdCreate
  split
  · exact h
  · split
    · exact h
    · extract_lets t u
      have hu : u.memOk := .tenantTables (.foldl (fun _ _ hs => .storeFresh hs) h)
      clear_value u
      exact .mbDone (.vdRecord hu)

theorem State.memOk.doVdAdmit {s : State} (h : s.memOk) : s.doVdAdmit.memOk := by
  unfold State.doVdAdmit
  dsimp only
  split
  · exact h
  · split
    · exact h
    · split
      · exact h
      · split
        · exact h
        · exact .mbDone (.reclock (.vdRecord h))

theorem State.memOk.saveUnits {die us} {s : State} (h : s.memOk) : (s.saveUnits die us).memOk :=
  .foldl (fun _ _ hs => .ite hs hs) h

theorem State.memOk.finishSaves {s : State} (h : s.memOk) : s.finishSaves.memOk := by
  unfold State.finishSaves
  dsimp only
  split
  · split
    · exact h
    · exact .mbDone (.reclock (.vdRecord (.ite h h)))
  · exact h

theorem State.memOk.doVdEvict {s : State} (h : s.memOk) : s.doVdEvict.memOk := by
  unfold State.doVdEvict
  dsimp only
  split
  · exact h
  · split
    · exact h
    · split
      · exact h
      · exact .finishSaves (.mbWaits (.saveUnits h))

theorem State.memOk.doVdResize {s : State} (h : s.memOk) : s.doVdResize.memOk := by
  unfold State.doVdResize
  dsimp only
  split
  · exact h
  · split
    · exact h
    · split
      · exact .mbDone (.vdRecord (.onVd (.tenantTables h)))
      · split
        · exact h
        · split
          · exact h
          · split
            · exact h
            · split
              · exact h
              · exact .finishSaves (.mbWaits (.saveUnits h))

theorem NextOk.execGangSaveComplete {u} {s : State} (h : s.memOk) : NextOk (execGangSaveComplete u s) := by
  unfold Machine.execGangSaveComplete
  dsimp only
  split
  · exact .next (.ite (.finishSaves (.trySave h)) h)
  · exact .next (.finishSaves h)
  · exact .next h

theorem State.memOk.finishKills {s : State} (h : s.memOk) : s.finishKills.memOk := by
  unfold State.finishKills
  dsimp only
  split
  · split
    · exact h
    · split
      · exact h
      · exact .mbDone (.foldl (fun _ _ hs => hs) h)
      · exact .mbDone (.unbindAll (.vdRecord (.onVd (.foldl (fun _ _ hs => hs) h))))
      · exact .mbWaits (.unbindAll (.foldl (fun _ _ hs => hs) h))
  · exact h

theorem State.memOk.killAll {vd cs op} {s : State} (h : s.memOk) : (s.killAll vd cs op).memOk :=
  .finishKills (.mbWaits (.foldl (fun _ _ hs => .kill hs) h))

theorem State.memOk.doVdReset {s : State} (h : s.memOk) : s.doVdReset.memOk := by
  unfold State.doVdReset
  dsimp only
  split
  · exact h
  · split
    · exact h
    · exact .killAll h

theorem State.memOk.doVdDestroy {s : State} (h : s.memOk) : s.doVdDestroy.memOk := by
  unfold State.doVdDestroy
  dsimp only
  split
  · exact h
  · split
    · exact h
    · exact .killAll h

theorem NextOk.execVdScrubComplete {vd} {s : State} (h : s.memOk) : NextOk (execVdScrubComplete vd s) := by
  unfold Machine.execVdScrubComplete
  refine .next (.ite (.mbDone (.reclock (.vdRecord ?_))) h)
  exact .of_wf (Memory.wf_foldl (fun m g hm => Memory.wf_zero hm g.1 g.2) h (Config.vdMemory vd)) rfl

theorem State.memOk.doCtxCreate {s : State} (h : s.memOk) : s.doCtxCreate.memOk := by
  unfold State.doCtxCreate
  dsimp only
  split
  · exact h
  · split
    · exact h
    · split <;> exact h

theorem State.memOk.onCtxCommand {k} {s : State} (h : s.memOk) (hk : ∀ a b s, s.memOk → (k a b s).memOk) :
    (s.onCtxCommand k).memOk := by
  unfold State.onCtxCommand
  dsimp only
  split
  · exact h
  · split
    · exact h
    · exact hk _ _ _ h

theorem State.memOk.doCtxKill {s : State} (h : s.memOk) : s.doCtxKill.memOk :=
  .onCtxCommand h fun _ _ _ hs => .killAll hs

theorem State.memOk.doCtxDestroy {s : State} (h : s.memOk) : s.doCtxDestroy.memOk :=
  .onCtxCommand h fun _ _ _ hs => .killAll hs

theorem State.memOk.doCtxSetroot {s : State} (h : s.memOk) : s.doCtxSetroot.memOk := by
  unfold State.doCtxSetroot
  split
  · exact h
  · exact .onCtxCommand h fun _ _ _ hs => .mbWaits (.performFree hs)

theorem State.memOk.doQiBind {s : State} (h : s.memOk) : s.doQiBind.memOk := by
  unfold State.doQiBind
  dsimp only
  split
  · exact h
  · split
    · split
      · exact h
      · split
        · exact h
        · split <;> exact h
    · exact h

theorem State.memOk.onQiCommand {k} {s : State} (h : s.memOk) (hk : ∀ a s, s.memOk → (k a s).memOk) :
    (s.onQiCommand k).memOk := by
  unfold State.onQiCommand
  dsimp only
  split
  · exact h
  · split
    · exact h
    · exact .mbDone (hk _ _ h)

theorem State.memOk.doQiUnbind {s : State} (h : s.memOk) : s.doQiUnbind.memOk := .onQiCommand h fun _ _ hs => hs

theorem State.memOk.doQiRestart {s : State} (h : s.memOk) : s.doQiRestart.memOk := .onQiCommand h fun _ _ hs => hs

theorem State.memOk.doAlarmClear {s : State} (h : s.memOk) : s.doAlarmClear.memOk := by
  unfold State.doAlarmClear
  dsimp only
  split
  · exact h
  · exact .mbDone (.reclock (.foldl (fun _ _ hs => .vdRecord hs) h))

theorem State.memOk.doEpSet {s : State} (h : s.memOk) : s.doEpSet.memOk := by
  unfold State.doEpSet
  dsimp only
  split
  · exact h
  · split <;> exact h

/-! ### Dies -/

theorem State.memOk.beginReset {d reason} {s : State} (h : s.memOk) : (s.beginReset d reason).memOk := by
  unfold State.beginReset
  dsimp only
  split
  · exact h
  · exact .saveUnits (.postDie h)

theorem State.memOk.doDieReset {s : State} (h : s.memOk) : s.doDieReset.memOk := by
  unfold State.doDieReset
  dsimp only
  split
  · exact h
  · split
    · exact h
    · exact .mbDone (.beginReset h)

theorem NextOk.execDieUnitsSaved {die} {s : State} (h : s.memOk) : NextOk (execDieUnitsSaved die s) := .next (.ite h h)

theorem State.memOk.stopDie {d c} {s : State} (h : s.memOk) : (s.stopDie d c).memOk := .stop h

theorem State.memOk.refusePeers {d} {s : State} (h : s.memOk) : (s.refusePeers d).memOk :=
  .foldl (fun _ _ hs => .refusePeer hs) h

theorem NextOk.execDieQuiesced {die} {s : State} (h : s.memOk) : NextOk (execDieQuiesced die s) :=
  .next (.ite h (.ite (.ite h h) (.onDie (.foldl (fun _ _ hs => .stopDie hs) (.of_mem (.refusePeers h) rfl)))))

theorem NextOk.execDieWritebackDone {die} {s : State} (h : s.memOk) : NextOk (execDieWritebackDone die s) :=
  .next (.ite h (.ite (.performFree h) (.onDie (.dirForget (.publishAll (.performFree h))))))

theorem State.memOk.stayOut {d} {s : State} (h : s.memOk) : (s.stayOut d).memOk := .postDie h

theorem NextOk.execDieSelftestDone {die ok} {s : State} (h : s.memOk) : NextOk (execDieSelftestDone die ok s) :=
  .next (.ite h (.ite h (.stayOut h)))

theorem NextOk.execDieLinkRetrained {die ok} {s : State} (h : s.memOk) : NextOk (execDieLinkRetrained die ok s) :=
  .next (.ite h (.ite (.postDie h) (.stayOut h)))

theorem NextOk.execDieSaveDeadlineExpiry {die u} {s : State} (h : s.memOk) :
    NextOk (execDieSaveDeadlineExpiry die u s) := by
  unfold Machine.execDieSaveDeadlineExpiry
  split
  · exact .next (.ite (.stopDie h) h)
  · exact .next h

theorem State.memOk.clearLost {s : State} (h : s.memOk) : s.clearLost.memOk := by
  unfold State.clearLost
  split <;> exact h

theorem NextOk.execDieIsolation {die} {s : State} (h : s.memOk) : NextOk (execDieIsolation die s) := by
  unfold Machine.execDieIsolation
  dsimp only
  split
  · exact .next h
  · refine .next
      (.beginReset (.postDie (.clearLost (.foldl (fun _ _ hs => .stopLost hs) (.dirForget (.tidyLeases ?_))))))
    exact .of_wf (Memory.wf_foldl (fun m e hm => Memory.wf_writeN hm (e.1 * 64) e.2) h (s.heldLines die)) rfl

/-! ### The drain of a kill -/

theorem State.memOk.killEnd {c k} {s : State} (h : s.memOk) : (s.killEnd c k).memOk := by
  unfold State.killEnd
  split
  · exact .finishKills (.clearLost h)
  · exact h

theorem State.memOk.engineDone {c engine} {s : State} (h : s.memOk) : (s.engineDone c engine).memOk := by
  unfold State.engineDone
  dsimp only
  split
  · exact .onKill (.scrub h)
  · split
    · exact .killEnd (.killRecords (.onKill (.scrub h)))
    · exact .onKill (.scrub h)

theorem NextOk.execEngineDrainDone {ctx engine} {s : State} (h : s.memOk) :
    NextOk (execEngineDrainDone ctx engine s) := by
  unfold Machine.execEngineDrainDone
  split
  · exact .next h
  · exact .next (.ite (.killEnd h) (.ite (.engineDone h) h))

theorem State.memOk.resetCore {c core} {s : State} (h : s.memOk) : (s.resetCore c core).memOk := by
  unfold State.resetCore
  dsimp only
  refine .foldl ?_ (.tidyLeases h)
  intro s' a hs
  split
  · exact hs
  · split
    · exact .trySave hs
    · exact .stop (.trySave hs)

theorem State.memOk.resetEndpoints {c} {s : State} (h : s.memOk) : (s.resetEndpoints c).memOk :=
  .foldl (fun _ _ hs => .stop hs) h

theorem State.memOk.escalate {c engine} {s : State} (h : s.memOk) : (s.escalate c engine).memOk := by
  unfold State.escalate
  split
  · exact h
  · exact .foldl (fun _ _ hs => .resetCore hs) h
  · exact .foldl (fun _ _ hs => .resetCore hs) h
  · exact h
  · split
    · exact h
    · exact .beginReset h
  · exact .foldl (fun _ _ hs => .resetCopies hs) h
  · exact .foldl (fun _ _ hs => .resetMatrix hs) h
  · exact h
  · exact .resetEndpoints h
  · exact h

theorem NextOk.execKillDrainTimeout {ctx engine} {s : State} (h : s.memOk) :
    NextOk (execKillDrainTimeout ctx engine s) := by
  unfold Machine.execKillDrainTimeout
  dsimp only
  split
  · exact .next h
  · exact .next (.ite (.engineDone (.onKill (.escalate (.ite h h)))) h)

/-! ### The command engine -/

theorem State.memOk.perform {op img} {s : State} (h : s.memOk) : (s.perform op img).memOk := by
  unfold State.perform
  split
  · exact .doMgmtRing h
  · exact .doInfoRead h
  · exact .doPkgReset h
  · exact .doVdCreate h
  · exact .doVdAdmit h
  · exact .doVdResize h
  · exact .doVdEvict h
  · exact .doVdReset h
  · exact .doVdDestroy h
  · exact .doCtxCreate h
  · exact .doCtxKill h
  · exact .doCtxDestroy h
  · exact .doCtxSetroot h
  · exact .doQiBind h
  · exact .doQiUnbind h
  · exact .doQiRestart h
  · exact .doAlarmClear h
  · exact .doFwImage h
  · exact .doFwRecover h
  · exact .doEpSet h
  · exact .doDieReset h
  · exact .doRcptKey h
  · exact h

theorem State.memOk.mailbox {op tag img} {s : State} (h : s.memOk) : (s.mailbox op tag img).memOk := by
  unfold State.mailbox
  dsimp only
  split
  · exact h
  · split
    · split <;> exact h
    · split
      · exact h
      · exact .perform h

theorem State.memOk.runHeld {s : State} (h : s.memOk) : s.runHeld.memOk := by
  unfold State.runHeld
  split
  · exact h
  · exact .mailbox h

/-! ### Firmware -/

theorem State.memOk.endUpdate {standby result} {s : State} (h : s.memOk) : (s.endUpdate standby result).memOk :=
  .runHeld (.heldReset h)

theorem NextOk.execStandbyImportComplete {ok} {s : State} (h : s.memOk) : NextOk (execStandbyImportComplete ok s) := by
  unfold Machine.execStandbyImportComplete
  split
  · exact .next h
  · exact .next (.ite h (.ite (.ite h h) (.endUpdate h)))

theorem NextOk.execLiveUpdateTakeover {s : State} (h : s.memOk) : NextOk (execLiveUpdateTakeover s) := by
  unfold Machine.execLiveUpdateTakeover
  split
  · exact .next h
  · exact .next (.ite (.endUpdate h) h)

theorem NextOk.execLiveUpdateRollback {s : State} (h : s.memOk) : NextOk (execLiveUpdateRollback s) := by
  unfold Machine.execLiveUpdateRollback
  split
  · exact .next h
  · exact .next (.ite (.endUpdate h) h)

theorem NextOk.execActiveComplexFailure {s : State} (h : s.memOk) : NextOk (execActiveComplexFailure s) :=
  .next (.ite (.foldl (fun _ _ hs => .stopQueue hs) (.onPkg (.switchHub (.finishSignings h)))) h)

/-! ### The function pipe -/

theorem NextOk.funcOp {op f g} {s : State} (h : s.memOk) : NextOk (funcOp op f s g) :=
  .laneInstr h fun _ _ hs => .countFp hs

theorem NextOk.approxOp {op f} {s : State} (h : s.memOk) : NextOk (approxOp op f s) := .funcOp h

theorem NextOk.divOp {op f g} {s : State} (h : s.memOk) : NextOk (divOp op f s g) := .laneInstr h fun _ _ hs => hs

/-! ### Launches and graphs -/

theorem State.memOk.extendAll {c l} {s : State} (h : s.memOk) : (s.extendAll c l).memOk := .foldl (fun _ _ hs => hs) h

theorem State.memOk.acceptTask {q x d number args packet launch regions} {s : State} (h : s.memOk) :
    (s.acceptTask q x d number args packet launch regions).2.memOk := h

theorem State.memOk.refuseLaunch {q p cls} {s : State} (h : s.memOk) : (s.refuseLaunch q p cls).memOk :=
  .post (.queueFault (.onQi (.consume h)))

theorem NextOk.execLaunch {qi} {s : State} (h : s.memOk) : NextOk (execLaunch qi s) := by
  unfold Machine.execLaunch
  dsimp only
  refine .next (.takePacket h ?_)
  intro a b s' hs
  split
  · exact hs
  · split
    · exact .refuseLaunch hs
    · exact .queueWaits hs
    · split
      · exact .begin (.onQi (.acceptTask (.extendAll (.consume hs))))
      · exact hs

theorem State.memOk.refuseKick {q word cls} {s : State} (h : s.memOk) : (s.refuseKick q word cls).memOk :=
  .post (.queueFault h)

theorem State.memOk.acceptGraph {q x args launch ix ds} {s : State} (h : s.memOk) :
    (s.acceptGraph q x args launch ix ds).memOk := by
  induction ds generalizing s ix with
  | nil => exact h
  | cons d ds ih =>
    unfold State.acceptGraph
    exact ih (.acceptTask h)

theorem State.memOk.launchGraph {q x word g} {s : State} (h : s.memOk) : (s.launchGraph q x word g).memOk := by
  unfold State.launchGraph
  dsimp only
  split
  · exact .refuseKick h
  · split
    · exact .refuseKick h
    · split
      · exact .refuseKick h
      · split
        · exact .refuseKick h
        · exact .queueWaits h
        · split
          · exact .onQi (.of_mem (.acceptGraph (.extendAll (.fresh h))) rfl)
          · exact h

theorem NextOk.execKickLaunch {qi} {s : State} (h : s.memOk) : NextOk (execKickLaunch qi s) := by
  unfold Machine.execKickLaunch
  split
  · exact .next h
  · split
    · exact .next h
    · refine .next (.ite ?_ h)
      split
      · exact .refuseKick h
      · exact .launchGraph h

theorem NextOk.execGraphReg {qi} {s : State} (h : s.memOk) : NextOk (execGraphReg qi s) := by
  unfold Machine.execGraphReg
  dsimp only
  refine .next (.takePacket h ?_)
  intro a b s' hs
  split
  · split
    · exact hs
    · exact .pktDone (.onCtx (.onVd (.consume hs)))
  · exact .pktDone (.post (.consume hs))
  · exact .queueWaits hs

theorem NextOk.execFreqHint {qi} {s : State} (h : s.memOk) : NextOk (execFreqHint qi s) :=
  .next (.takePacket h (fun _ _ _ hs => .pktDone (.ite (.onQi (.reclock (.onVd (.consume hs)))) (.consume hs))))

theorem NextOk.execTaskDependenceRelease {task} {s : State} (h : s.memOk) :
    NextOk (execTaskDependenceRelease task s) := by
  unfold Machine.execTaskDependenceRelease
  split
  · exact .next h
  · exact .next (.ite h h)

theorem NextOk.execMeasureHashing {task} {s : State} (h : s.memOk) : NextOk (execMeasureHashing task s) := by
  unfold Machine.execMeasureHashing
  dsimp only
  split
  · exact .next h
  · split
    · exact .next h
    · refine .next (.ite ?_ h)
      split
      · exact h
      · exact .onTask (.ite h h)
      · split
        · exact h
        · exact .onTask (.await h ‹_›)

theorem State.memOk.launchStep {id l failed} {s : State} (h : s.memOk) : (s.launchStep id l failed).memOk := by
  unfold State.launchStep
  dsimp only
  split
  · exact h
  · exact .letGo (.post h)

theorem State.memOk.taskRecord {task t} {s : State} (h : s.memOk) : (s.taskRecord task t).memOk := by
  unfold State.taskRecord
  dsimp only
  split
  · split
    · exact h
    · exact .launchStep h
  · exact .letGo (.post h)

theorem State.memOk.stopMeasured {t} {s : State} (h : s.memOk) : (s.stopMeasured t).memOk := by
  unfold State.stopMeasured
  split
  · exact h
  · split
    · exact .stopLost h
    · exact .stop h

theorem NextOk.execTaskCompletionPoint {task} {s : State} (h : s.memOk) : NextOk (execTaskCompletionPoint task s) := by
  unfold Machine.execTaskCompletionPoint
  split
  · exact .next h
  · exact .next (.ite (.stopMeasured (.taskRecord h)) h)

/-! ### Links and peers -/

theorem State.memOk.answerSaved {id loc r} {s : State} (h : s.memOk) : (s.answerSaved id loc r).memOk := by
  unfold State.answerSaved
  dsimp only
  split <;> split <;> exact h

theorem State.memOk.giveExt {a loc r} {s : State} (h : s.memOk) : (s.giveExt a loc r).memOk := by
  unfold State.giveExt
  dsimp only
  split
  · exact h
  · exact h
  · exact h
  · exact h
  · exact h
  · exact h
  · exact .answerAtom h
  · exact .answerSaved h
  · exact h
  · exact h

theorem State.memOk.answerExt {id e r} {s : State} (h : s.memOk) : (s.answerExt id e r).memOk := by
  unfold State.answerExt
  dsimp only
  split
  · split
    · exact .giveExt h
    · exact .flushAll (.onWaiters (.giveExt h))
  · split
    · split
      · exact h
      · exact .flushAll h
    · split
      · exact h
      · exact .flushAll h

theorem State.memOk.answered {id peer r} {s : State} (h : s.memOk) : (s.answered id peer r).memOk := by
  unfold State.answered
  split
  · exact h
  · extract_lets here fits
    split
    · exact .answerExt h
    · exact h

theorem State.memOk.peerHitch {id ep c x} {s : State} (h : s.memOk) : (s.peerHitch id ep c x).memOk := by
  unfold State.peerHitch
  split
  · split <;> exact h
  · split
    · exact h
    · have ht := State.memOk.await h ‹_›
      exact ht

theorem State.memOk.peerAtomic {id c ep hd op mo fn ws off loc} {s : State} (h : s.memOk) :
    (s.peerAtomic id c ep hd op mo fn ws off loc).memOk := .accept h

theorem State.memOk.peerGuard {id c ep op shared pa} {s : State} (h : s.memOk) :
    (s.peerGuard id c ep op shared pa).memOk := by
  unfold State.peerGuard
  dsimp only
  split
  · exact h
  · split
    · exact h
    · split
      · split
        · exact .peerAnswer (.dropGuard h)
        · exact h
      · exact .serveGuard h

theorem State.memOk.peerTry {id x} {s : State} (h : s.memOk) : (s.peerTry id x).memOk := by
  unfold State.peerTry
  dsimp only
  split
  · exact h
  · split
    · split
      · exact .peerHitch h
      · exact h
    · split
      · exact .peerHitch h
      · exact .peerAnswer (.linkWrite h ‹_›)
    · split
      · exact h
      · split
        · exact .peerHitch h
        · split
          · exact .peerAtomic h
          · exact h
    · split
      · exact h
      · split
        · exact .peerHitch h
        · split
          · exact .peerGuard h
          · exact h

theorem NextOk.execCihamInboundRequest {r} {s : State} (h : s.memOk) : NextOk (execCihamInboundRequest r s) := by
  unfold Machine.execCihamInboundRequest
  dsimp only
  split <;> exact .next (.peerTry h)

theorem NextOk.execLinkRetrainComplete {link} {s : State} (h : s.memOk) : NextOk (execLinkRetrainComplete link s) := by
  unfold Machine.execLinkRetrainComplete
  dsimp only
  split
  · exact .next h
  · exact .next (.postMgmt (.foldl (fun _ _ hs => .postVd hs) h))

/-! ### The system around the part -/

theorem State.memOk.callerQuota {c : Caller} {s : State} (h : s.memOk) : (c.quota s).memOk := by
  unfold Caller.quota
  split
  · exact .issRaise h
  · exact .leadRaise h

theorem State.memOk.callerMeasure {c : Caller} {s : State} (h : s.memOk) : (c.measure s).memOk := by
  unfold Caller.measure
  dsimp only
  split
  · exact .callerFault h
  · split
    · exact .callerQuota h
    · exact .callerDone h

theorem NextOk.execMeasure {f} {s : State} (h : s.memOk) : NextOk (execMeasure f s) :=
  .issue h (fun _ _ hs => .issElected hs (fun _ => .callerMeasure hs)) fun _ _ hs => .callerMeasure hs

end Sys2Proof.Machine
end

section
/-! Memory stays canonical: one step. -/

namespace Sys2Proof.Machine

/-! ### One step around the meaning of an instruction -/

theorem NextOk.dueGo {d : Due} {ex} (h : d.memOk) (hex : ∀ i s, s.memOk → NextOk (ex i s)) : NextOk (d.go ex) := by
  cases d with
  | idle s => exact .next h
  | run i s => exact hex i s h

theorem State.memOk.groupFault {core slot g pc eng op ilen cls addr data} {s : State} (h : s.memOk) :
    (s.groupFault core slot g pc eng op ilen cls addr data).memOk := .trap h

theorem Due.memOk.fetchGroup {core slot g} {s : State} (h : s.memOk) : (s.fetchGroup core slot g).memOk := by
  unfold State.fetchGroup
  dsimp only
  split
  · exact .idle h
  · split
    · split
      · exact .run h
      · exact .idle (.groupFault h)
    · exact .idle (.groupFault h)
    · exact .idle (.parkLanes h)
    · exact .idle (.parkLanes h)
    · exact .idle (.waitWalks h)
    · exact .idle h

theorem Due.memOk.fetchLead {core slot} {s : State} (h : s.memOk) : (s.fetchLead core slot).memOk := by
  unfold State.fetchLead
  dsimp only
  split
  · exact .idle h
  · split
    · split
      · exact .run h
      · exact .idle (.trapLead h)
    · exact .idle (.trapLead h)
    · exact .idle (.onLead (.postFault h))
    · exact .idle (.onLead (.countFault (.requestService h)))
    · exact .idle (.onLead (.requestWalk h))
    · exact .idle h

theorem NextOk.issueGroup {ex core slot g after} {s : State} (hex : ∀ i s, s.memOk → NextOk (ex i s)) (h : s.memOk) :
    NextOk (issueGroup ex core slot g after s).2 := by
  unfold Machine.issueGroup
  have hgo {t : State} (ht : t.memOk) : NextOk ((t.fetchGroup core slot g).go ex) := .dueGo (.fetchGroup ht) hex
  dsimp only
  split
  · next t e =>
    have ht : t.memOk := by
      refine .of_next (hgo ?_) e
      exact h
    split <;> exact .next ht
  · exact hgo h

theorem NextOk.issueFirst {ex w core slot gs} {s : State} (hex : ∀ i s, s.memOk → NextOk (ex i s)) (h : s.memOk) :
    NextOk (issueFirst ex w core slot gs s).2 := by
  induction gs generalizing s with
  | nil => exact .next h
  | cons g gs ih =>
    unfold Machine.issueFirst
    dsimp only
    split
    · split
      · split
        · have ht := State.memOk.of_next_snd (.issueGroup hex h) ‹_›
          split
          · exact ih (.of_next_snd (.issueGroup hex ht) ‹_›)
          · exact .issueGroup hex ht
        · exact .issueGroup hex h
      · split
        · exact ih (.of_next_snd (.issueGroup hex h) ‹_›)
        · exact .issueGroup hex h
    · split
      · exact ih (.of_next_snd (.issueGroup hex h) ‹_›)
      · exact .issueGroup hex h

theorem NextOk.issueWarps {ex core slots} {s : State} (hex : ∀ i s, s.memOk → NextOk (ex i s)) (h : s.memOk) :
    NextOk (issueWarps ex core slots s) := by
  induction slots generalizing s with
  | nil => exact .next h
  | cons slot slots ih =>
    unfold Machine.issueWarps
    split
    · exact ih h
    · next w _ =>
      have hfirst : NextOk (Machine.issueFirst ex w core slot w.groups (s.ageGroups core slot)).2 := .issueFirst hex h
      split
      · exact ih (.unage (.of_next_snd hfirst ‹_›))
      · exact .next (.ageWarps (.of_next_snd hfirst ‹_›))
      · next e => rwa [e] at hfirst

theorem NextOk.issueSecond {ex core slot gs} {s : State} (hex : ∀ i s, s.memOk → NextOk (ex i s)) (h : s.memOk) :
    NextOk (issueSecond ex core slot gs s) := by
  induction gs generalizing s with
  | nil => exact .next h
  | cons g gs ih =>
    have hgo : NextOk ((s.fetchGroup core slot g).go ex) := .dueGo (.fetchGroup h) hex
    unfold Machine.issueSecond
    split
    · exact .next h
    · split
      · split
        · have ht := State.memOk.of_next hgo ‹_›
          split
          · exact ih ht
          · exact .next ht
        · exact hgo
      · exact ih h

theorem NextOk.issueLeads {ex core slots} {s : State} (hex : ∀ i s, s.memOk → NextOk (ex i s)) (h : s.memOk) :
    NextOk (issueLeads ex core slots s) := by
  induction slots generalizing s with
  | nil => exact .next h
  | cons slot slots ih =>
    have hgo : NextOk ((s.fetchLead core slot).go ex) := .dueGo (.fetchLead h) hex
    unfold Machine.issueLeads
    split
    · split
      · have ht := State.memOk.of_next hgo ‹_›
        split
        · exact ih ht
        · exact .next ht
      · exact hgo
    · exact ih h

theorem NextOk.badgerIssue {ex k id} {s : State} (hex : ∀ i s, s.memOk → NextOk (ex i s)) (h : s.memOk) :
    NextOk (badgerIssue ex k id s) := by
  unfold Machine.badgerIssue
  dsimp only
  split
  · refine .next (.ageWarps (.of_next (hex _ _ ?_) ‹_›))
    exact h
  · exact hex _ _ h

theorem NextOk.issueCore {ex core} {s : State} (hex : ∀ i s, s.memOk → NextOk (ex i s)) (h : s.memOk) :
    NextOk (issueCore ex core s) := by
  unfold Machine.issueCore
  dsimp only
  split
  · exact .badgerIssue hex h
  · exact .issueWarps hex h

theorem NextOk.takeTurn {ex t} {s : State} (hex : ∀ i s, s.memOk → NextOk (ex i s)) (h : s.memOk) :
    NextOk (takeTurn ex t s) := by
  unfold Machine.takeTurn
  dsimp only
  split
  · exact .issueCore hex h
  · exact .issueLeads hex h
  · split
    · split
      · exact .next h
      · exact .badgerIssue hex h
    · exact hex _ _ h
  · split
    · exact .next h
    · exact hex _ _ h

theorem NextOk.stepTripped {ex} {s : State} (hex : ∀ i s, s.memOk → NextOk (ex i s)) (h : s.memOk) :
    NextOk (stepTripped ex s) := by
  unfold Machine.stepTripped
  split
  · exact hex _ _ h
  · exact .next h

theorem NextOk.stepWith {ex due timers} {s : State} (hex : ∀ i s, s.memOk → NextOk (ex i s))
    (htimers : ∀ u, ∀ t ∈ timers u, ∀ s, s.memOk → NextOk (t s)) (h : s.memOk) : NextOk (stepWith ex due timers s) := by
  unfold Machine.stepWith
  dsimp only
  split
  · exact .stepTripped hex h
  · split
    · exact .issueSecond hex h
    · split
      · exact .takeTurn hex h
      · split
        · split
          · exact .next h
          · exact htimers _ _ (List.mem_of_getElem? ‹_›) _ h
        · split
          · exact .next h
          · exact .takeTurn hex h

theorem NextOk.exec {i} {s : State} (h : s.memOk) : NextOk (exec i s) := by
  unfold Machine.exec
  cases i with
  | coldReset => exact .execColdReset
  | bootStageComplete => exact .execBootStageComplete h
  | throttleThresholdCrossed => exact .next (.ite (.ite (.throttle h) (.reclock h)) h)
  | throttleRecovery => exact .next (.ite (.ite h (.reclock h)) h)
  | tripThresholdCrossed | qrestart | atsInvalidationRequest | hbmChannelLeaveOrRejoin => exact .next (.ite h h)
  | flr => exact .next (.ite h (.ite h (.onMb (.packageReset h))))
  | clockClassChangeDone => exact .execClockClassChangeDone h
  | sadd | ssub | smul | smulh | sdiv | srem | sand | sor | sxor | sshl | sshr | ssra | smin | smax | scmp | ssel
  | sli | sbits => exact .leadOp h
  | sld => exact .execSld h
  | sst => exact .execSst h
  | sbr | sbc | srdx | swrx | mxstat => exact .leadInstr h fun _ _ hs => hs
  | scall => exact .leadInstr h fun _ _ hs => .leadCall hs
  | sret => exact .execSret h
  | sjmp => exact .leadInstr h fun _ _ hs => .ite (.leadRaise hs) (.ite (.leadCall hs) hs)
  | dqpush => exact .execDqpush h
  | swaitq => exact .leadInstr h fun _ _ hs => .ite (.leadDone (.observe hs)) hs
  | lbr | lbrc | lcall | lret | ljmp => exact .tiledInstr h fun _ _ hs => hs
  | ubr => exact .execUbr h
  | dqpop => exact .execDqpop h
  | join | leave | jset | jget | elect | lpcrd | imad | imadw | iabs | isel | ipop | iclz | ibrev | iperm | ibfe
  | ibfi | imov | vote | redi | scani | mlog | fclass => exact .laneInstr h fun _ _ hs => hs
  | waitj => exact .execWaitj h
  | bar => exact .execBar h
  | gbar => exact .execGbar h
  | exit => exact .execExit h
  | partset => exact .issue h (fun _ _ hs => .ite (.issRaise hs) hs) fun _ _ hs => hs
  | trap => exact .tiledInstr h fun _ _ hs => .issSoft hs
  | rte => exact .execRte h
  | iadd | isub | imul | imulh | imin | imax | iadds | isubs => exact .intOp h
  | iand | ior | ixor => exact .bitOp h
  | ishl | ishr | isra => exact .shiftOp h
  | icmp | fcmp => exact .laneInstr h fun _ _ hs => .issWriteCond hs
  | idp4 | idp2 => exact .dotOp h
  | shfl => exact .laneInstr h fun _ _ hs => .ite (.issRaiseBad hs) hs
  | mmov => exact .execMmov h
  | fadd | fsub | fmul => exact .floatOp h
  | ffma | fsgn | fcvt | fscale | redf | fdot2 => exact .laneInstr h fun _ _ hs => .issWriteFp hs
  | fmin | fmax => exact .minMaxOp h
  | hadd2 | hmul2 | hfma2 | badd2 | bmul2 | bfma2 => exact .pairOp h
  | rcp | rsq | exp2 | log2 | sinpi | cospi | tanh | sigm => exact .approxOp h
  | sqrt | fdiv => exact .funcOp h
  | idiv | irem => exact .divOp h
  | ld => exact .execLd h
  | st => exact .execSt h
  | ldt => exact .execLdt h
  | stt => exact .execStt h
  | talloc => exact .execTalloc h
  | tfree => exact .execTfree h
  | tquery => exact .laneInstr h fun _ _ hs => .ite (.issTileFault hs) hs
  | hquery => exact .laneInstr h fun _ _ hs => .ite (.issRaise hs) hs
  | waita => exact .execWaita h
  | pref => exact .execPref h
  | fence => exact .execFence h
  | aadd | aand | aor | axor | amin | amax | axchg | acas | ainc | adec | afadd | red | binit | arrive | bwait =>
    exact .atomic h
  | atomicRequestPerform => exact .execAtomicRequestPerform h
  | bwaitRetry => exact .execBwaitRetry h
  | badgerCreditRelease => exact .execBadgerCreditRelease h
  | replyArrival => exact .execReplyArrival h
  | producerWriteback => exact .execProducerWriteback h
  | move => exact .execMove h
  | ownq => exact .execOwnq h
  | gacq => exact .execGacq h
  | gtry => exact .execGtry h
  | grel => exact .execGrel h
  | lease => exact .execLease h
  | unlease => exact .execUnlease h
  | publish => exact .execPublish h
  | discard => exact .execDiscard h
  | guardRequestRetry => exact .execGuardRequestRetry h
  | releaseWritebackComplete => exact .execReleaseWritebackComplete h
  | forcedPublish => exact .next (.ite (.publishHeld h) h)
  | leaseGrant => exact .execLeaseGrant h
  | leaseExpiry => exact .execLeaseExpiry h
  | dieIsolation => exact .execDieIsolation h
  | lbind => exact .issue h (fun _ _ hs => .ite (.issRaise hs) (.ite hs hs)) fun _ _ hs => hs
  | lunbind => exact .issue h (fun _ _ hs => .ite hs (.ite hs hs)) fun _ _ hs => hs
  | ladd | lsub | lneg | lshl | lshr | lsra | lmulw | lmont => exact .chainOp h
  | lcmp | nop | ctrrd => exact .issue h (fun _ _ hs => hs) fun _ _ hs => hs
  | lcarry | lstat | getid | fpevrd => exact .issue h (fun _ _ hs => .ite hs hs) fun _ _ hs => hs
  | wload => exact .execWload h
  | wdrop | wcheck => exact .leadInstr h fun _ _ hs => .ite hs hs
  | mxfence => exact .execMxfence h
  | mxissue => exact .execMxissue h
  | mxwait => exact .execMxwait h
  | acczero => exact .execAcczero h
  | accrd => exact .execAccrd h
  | accwr => exact .execAccwr h
  | accdrain => exact .execAccdrain h
  | matrixCommandStart => exact .execMatrixCommandStart h
  | matrixCommandComplete => exact .execMatrixCommandComplete h
  | matrixEngineHang => exact .execMatrixEngineHang h
  | macroCrcScrub => exact .next (.foldl (fun _ _ hs => .ite hs hs) h)
  | cpy | cpyg | cpys | cpyf | ckpt | ckload => exact .copyForm h fun _ _ hs => .callerCopy hs
  | cpyq => exact .execCpyq h
  | cpycan => exact .execCpycan h
  | copyStart => exact .execCopyStart h
  | copyComplete => exact .execCopyComplete h
  | cont => exact .execCont h
  | cwait => exact .execCwait h
  | yield => exact .execYield h
  | brk => exact .issue h (fun _ _ hs => .ite hs (.issRaise hs)) fun _ _ hs => .leadRaise hs
  | measure => exact .execMeasure h
  | gangPlacement => exact .execGangPlacement h
  | gangReservation => exact .execGangReservation h
  | continuationGatherTimeout => exact .execContinuationGatherTimeout h
  | continuationPlacement => exact .execContinuationPlacement h
  | continuationRemotePlacement => exact .execContinuationRemotePlacement h
  | overflowRecordReturn => exact .execOverflowRecordReturn h
  | parkedUnitSave => exact .execParkedUnitSave h
  | parkedUnitRestore => exact .execParkedUnitRestore h
  | preemptionDecision => exact .execPreemptionDecision h
  | fullSaveTimeout => exact .execFullSaveTimeout h
  | drainDeadlineExpiry => exact .execDrainDeadlineExpiry h
  | gangSaveComplete => exact .execGangSaveComplete h
  | gangRestore => exact .execGangRestore h
  | owlScan => exact .execOwlScan h
  | maxrunOverrun => exact .execMaxrunOverrun h
  | kick | pwptrWrite | qstatClear => exact .next (.kickPage h)
  | kickLaunch => exact .execKickLaunch h
  | evrptrWrite => exact .next (.flush (.kickPage h))
  | nopPacket => exact .next (.takePacket h (fun _ _ _ hs => .pktDone (.consume hs)))
  | launch => exact .execLaunch h
  | ibCall => exact .next (.takePacket h (fun _ _ _ hs => .pktDone (.ite hs hs)))
  | setHandle => exact .execSetHandle h
  | writeData => exact .execWriteData h
  | waitValue => exact .execWaitValue h
  | waitValueSatisfied => exact .execWaitValueSatisfied h
  | signal => exact .execSignal h
  | graphReg => exact .execGraphReg h
  | graphDrop => exact .next (.takePacket h (fun _ _ _ hs => .pktDone (.onVd (.consume hs))))
  | freqHint => exact .execFreqHint h
  | measurePacket => exact .execMeasurePacket h
  | receipt => exact .execReceipt h
  | fencePacket => exact .next (.inTurn h (fun _ _ _ hs => .endBegun hs))
  | invalidPacket => exact .execInvalidPacket h
  | taskDependenceRelease => exact .execTaskDependenceRelease h
  | measureHashing => exact .execMeasureHashing h
  | taskCompletionPoint => exact .execTaskCompletionPoint h
  | eventInterruptTimer => exact .execEventInterruptTimer h
  | liveUpdateTakeover => exact .execLiveUpdateTakeover h
  | liveUpdateRollback => exact .execLiveUpdateRollback h
  | activeComplexFailure => exact .execActiveComplexFailure h
  | mgmtRing | infoRead | pkgReset | vdCreate | vdAdmit | vdResize | vdEvict | vdReset | vdDestroy | ctxCreate
  | ctxKill | ctxDestroy | ctxSetroot | qiBind | qiUnbind | qiRestart | alarmClear | fwImage | fwRecover | epSet
  | dieReset | rcptKey => exact .next (.mailbox h)
  | mailboxBadOpcode => exact .next (.ite h (.mailbox h))
  | mgrptrWrite | mgdropClear | fqrptrWrite | inboundPoisonedRequest | flitCrcError | meteringWindowEnd =>
    exact .next h
  | invsub => exact .execInvsub h
  | invalidationComplete => exact .execInvalidationComplete h
  | fresp => exact .execFresp h
  | plainRegisterWrite => exact .execPlainRegisterWrite h
  | pageWalkComplete => exact .execPageWalkComplete h
  | faultRecordDeferredWrite => exact .execFaultRecordDeferredWrite h
  | hbPageServiceComplete => exact .execHbPageServiceComplete h
  | atsTranslationCompletion => exact .execAtsTranslationCompletion h
  | pageRequestGroupResponse => exact .execPageRequestGroupResponse h
  | atsInvalidationCompletion => exact .execAtsInvalidationCompletion h
  | pcieCompletion | pcieCompletionTimeout | cihamResponse | cihamRequestTimeout => exact .next (.answered h)
  | cihamInboundRequest => exact .execCihamInboundRequest h
  | linkModuleFailure => exact .next (.ite h (.ite h (.ite (.alarmTo h) (.beginReset h))))
  | linkRetrainComplete => exact .execLinkRetrainComplete h
  | clockSupplyGlitch => exact .next (.ite (.alarm h) h)
  | engineDrainDone => exact .execEngineDrainDone h
  | killDrainTimeout => exact .execKillDrainTimeout h
  | dieUnitsSaved => exact .execDieUnitsSaved h
  | dieQuiesced => exact .execDieQuiesced h
  | dieWritebackDone => exact .execDieWritebackDone h
  | dieSelftestDone => exact .execDieSelftestDone h
  | dieLinkRetrained => exact .execDieLinkRetrained h
  | standbyImportComplete => exact .execStandbyImportComplete h
  | receiptSignatureComplete => exact .next (.completeReceipt h)
  | vdScrubComplete => exact .execVdScrubComplete h
  | priReenable => exact .next (.sendHeld h)
  | dieSaveDeadlineExpiry => exact .execDieSaveDeadlineExpiry h
  | homeDirectoryRequest => exact .execHomeDirectoryRequest h

/-! ### Timers, and the step -/

theorem NextOk.unitTimers {s u : State} {t} (ht : t ∈ u.unitTimers) (h : s.memOk) : NextOk (t s) := by
  simp only [State.unitTimers, List.mem_append, List.mem_flatMap, List.mem_cons, List.not_mem_nil, or_false] at ht
  obtain ⟨x, -, rfl | rfl⟩ | ⟨x, -, rfl | rfl | rfl | rfl⟩ := ht
  · exact .execFullSaveTimeout h
  · exact .execDrainDeadlineExpiry h
  · exact .execOwlScan h
  · exact .execMaxrunOverrun h
  · exact .execParkedUnitSave h
  · exact .execPreemptionDecision h

theorem NextOk.workTimers {s u : State} {t} (ht : t ∈ u.workTimers) (h : s.memOk) : NextOk (t s) := by
  simp only [State.workTimers, List.mem_append, List.mem_flatMap, List.mem_map, List.mem_ite_nil_right,
    List.mem_singleton] at ht
  obtain ((⟨_, -, _, -, rfl⟩ | ⟨_, -, _, -, rfl⟩) | ⟨_, -, -, rfl⟩) | ⟨_, -, -, _, -, rfl⟩ := ht
  · exact .execGangReservation h
  · exact .execLeaseExpiry h
  · exact .execEventInterruptTimer h
  · exact .execKillDrainTimeout h

theorem NextOk.dieTimers {s u : State} {t} (ht : t ∈ u.dieTimers) (h : s.memOk) : NextOk (t s) := by
  simp only [State.dieTimers, List.mem_append, List.mem_flatMap, List.mem_cons, List.not_mem_nil,
    or_false, List.mem_map] at ht
  obtain ⟨_, -, (rfl | rfl | rfl | rfl | rfl) | ⟨_, -, rfl⟩⟩ := ht
  · exact .execDieUnitsSaved h
  · exact .execDieQuiesced h
  · exact .execDieWritebackDone h
  · exact .execDieSelftestDone h
  · exact .execDieLinkRetrained h
  · exact .execDieSaveDeadlineExpiry h

theorem NextOk.firmwareTimers {s u : State} {t} (ht : t ∈ u.firmwareTimers) (h : s.memOk) : NextOk (t s) := by
  simp only [State.firmwareTimers, List.mem_append, List.mem_ite_nil_right, List.mem_cons, List.not_mem_nil,
    or_false] at ht
  obtain (hwait | ⟨-, rfl⟩) | ⟨-, rfl | rfl | rfl⟩ := ht
  · split at hwait
    · obtain rfl := List.mem_singleton.1 hwait
      exact .execVdScrubComplete h
    · obtain rfl := List.mem_singleton.1 hwait
      exact .next (.finishSaves h)
    · cases hwait
  · exact .execClockClassChangeDone h
  · exact .execStandbyImportComplete h
  · exact .execLiveUpdateTakeover h
  · exact .execLiveUpdateRollback h

theorem NextOk.timers {s u : State} {t} (ht : t ∈ u.timers) (h : s.memOk) : NextOk (t s) := by
  simp only [State.timers, List.mem_append] at ht
  obtain ((ht | ht) | ht) | ht := ht
  · exact .unitTimers ht h
  · exact .workTimers ht h
  · exact .dieTimers ht h
  · exact .firmwareTimers ht h

theorem NextOk.step {s : State} (h : s.memOk) : NextOk (step s) :=
  .stepWith (fun _ _ h => .exec h) (fun _ _ ht _ h => .timers ht h) h

/-- Settles O29: a step is made of operations that write bytes, zero them or leave memory alone, and each keeps the
canonical form. -/
theorem memoryStaysCanonical : Obligations.MemoryStaysCanonical := by
  unfold Obligations.MemoryStaysCanonical
  intro s t h e
  exact NextOk.step h t e

end Sys2Proof.Machine
end

section
/-! The claim of a grain by a store to an OWNED region. -/

namespace Sys2Proof.Machine

/-- The reset state with a context 0 whose handle 1 is valid, of space 2, OWNED, and readable and writable (Table 9.1). -/
def owningState : State :=
  { State.reset with ctxs := [(0, Ctx.bare 0 0 0 [(1, BitVec.ofNat 256 (2 ^ 255 + 2 * 2 ^ 252 + 2 ^ 250 + 3 * 2 ^ 247 +
    4096 * 2 ^ 64))])] }

/-- A store by a warp of crew 0 of that context, on core 32768: more than the 12 bits of CORE hold (Table 11.5). -/
def farStore : Iss where
  core := 2 ^ 15
  slot := 0
  w := Warp.placed 0 0 (some 0) 1 0 128 32 0 0 1 0
  grp := 1
  act := 1
  pc := 0
  eng := 5
  op := 0x01
  f := { form := .w96, live := none, t := false, tb := false, tc := false, d := 0, a := 0, b := 0, c := 0, mod := 0, fn := 0,
         pn := false, pm := 0, imm := 0, lit := 0 }

theorem owningState_memOk : owningState.memOk := rfl

theorem farStore_owned : Entry.kind (owningState.entry ((Caller.warp farStore 1).who owningState 0) 1) = 1 := by
  decide +kernel

/-- The core number carries CLAIMED out of the 64 bits of the entry: `2 ^ 63 + 2 ^ 15 * 2 ^ 48 = 2 ^ 64`. -/
theorem farStore_unclaimed :
    Owner.claimed (((Caller.warp farStore 1).put1 owningState 0 1 0 (.dev 0) [0]).ownerOf 0) = false := by
  decide +kernel

/-- Refutes O34: the statement takes any core number, and `Owner.make` adds that number to the entry at bit 48 without
keeping it to the 12 bits of CORE, so that a store on core 32768 to an OWNED region leaves its grain unclaimed. -/
theorem not_storesByKind : ¬ Obligations.StoresByKind := by
  unfold Obligations.StoresByKind
  rintro ⟨h, -⟩
  obtain ⟨-, -, howned, -⟩ := h owningState farStore 1 0 1 0 0 [0]
  obtain ⟨-, -, hclaimed, -⟩ := howned farStore_owned owningState_memOk
  rw [Nat.zero_div, farStore_unclaimed] at hclaimed
  cases hclaimed

end Sys2Proof.Machine
end

section
/-! The lead engine: each instruction is the issue of its effect, and the effect is a register written, a jump, a counter
replaced, an entry appended, or a wait (R142 to R156). -/

namespace Sys2Proof.Machine

theorem State.leadIss_crew {s : State} {eng op : Nat} {f : Fields} {i : LIss} (h : s.leadIss eng op f = some i) :
    s.crew? i.core i.slot = some i.c := by
  obtain ⟨-, hcrew, -⟩ := State.leadIss_spec h
  exact hcrew

section
variable {c : Fields → Instr} {eng op : Nat} {k : State → LIss → State} {pre : State → LIss → Prop}

/-- An instruction does what its effect does in the states in which it issues. -/
theorem LeadDoesWhen.of_effect {post : State → State → LIss → Prop}
    (hexec : ∀ f s, exec (c f) s = leadInstr eng op f s k)
    (heffect : ∀ s i, s.leadIss eng op i.f = some i → pre s i → post s (k s i) i) :
    LeadDoesWhen c eng op pre post := by
  intro s f i h hgoes hpre
  refine ⟨k s i, by rw [hexec, leadInstr_goes h hgoes], heffect s i ?_ hpre⟩
  obtain ⟨-, -, -, -, rfl, -⟩ := State.leadIss_spec h
  exact h

/-- An instruction whose effect is a write of its destination. -/
theorem LeadDoesWhen.of_write {v : State → LIss → DWord} (hexec : ∀ f s, exec (c f) s = leadInstr eng op f s k)
    (hwrite : ∀ s i, pre s i → k s i = i.write s (v s i)) :
    LeadDoesWhen c eng op pre fun s t i => LeadWrote s t i (v s i) :=
  .of_effect hexec fun s i h hpre => by
    rw [hwrite s i hpre]
    exact LIss.write_wrote (State.leadIss_crew h) _

/-- An instruction that writes one value computed from its operands. -/
theorem LeadDoesWhen.of_leadOp {g : LIss → DWord} {pre : LIss → Prop} {v : LIss → DWord}
    (hexec : ∀ f s, exec (c f) s = leadOp op f s g) (hvalue : ∀ i, pre i → g i = v i) :
    LeadDoesWhen c 0 op (fun _ i => pre i) fun s t i => LeadWrote s t i (v i) :=
  .of_write hexec fun s i hpre => congrArg (i.write s) (hvalue i hpre)

theorem LeadDoes.of_leadOp {g v : LIss → DWord} (hexec : ∀ f s, exec (c f) s = leadOp op f s g)
    (hvalue : ∀ i, g i = v i) :
    LeadDoes c 0 op fun s t i => LeadWrote s t i (v i) :=
  LeadDoesWhen.of_leadOp (pre := fun _ => True) hexec fun i _ => hvalue i

end

/-- A form whose MOD or FN names no operation is ILLEGAL (R65, R82). -/
theorem LeadIllegalWhen.of_shape {c : Fields → Instr} {op : Nat} {bad : Fields → Prop}
    (hisa : ∀ f, isaOf (c f) = some (0, op, f)) (hshape : ∀ f, bad f → (shapeLead op f).ok = false) :
    LeadIllegalWhen c 0 op bad := by
  intro s f i h hbad
  obtain ⟨div, k, kl, hexec⟩ := exec_eq_issue (hisa f) s
  have hwhy : (illegal? .lead false 0 op f).isNone = false := by
    cases hlead : (shapeLead op f).lead <;> simp [illegal?, shapeOf, hlead, hshape f hbad]
  rw [hexec, issue_lead_illegal h (by rw [hwhy, Bool.and_false])]

end Sys2Proof.Machine
end

section
/-! Integer operations of the lead thread (R146 to R149). -/

namespace Sys2Proof.Machine

/-! ### Operands as s64 and n64 (R146) -/

section
variable {i : LIss}

theorem LIss.ia_signed (h : i.mo = 0) : i.ia = i.a.toInt := by simp [LIss.ia, leadRead, h]
theorem LIss.ib_signed (h : i.mo = 0) : i.ib = i.b.toInt := by simp [LIss.ib, leadRead, h]
theorem LIss.ia_unsigned (h : i.mo = 1) : i.ia = i.a.toNat := by simp [LIss.ia, leadRead, h]
theorem LIss.ib_unsigned (h : i.mo = 1) : i.ib = i.b.toNat := by simp [LIss.ib, leadRead, h]

end

theorem i64_natCast (n : Nat) : i64 n = w64 n := BitVec.ofInt_natCast 64 n

theorem i64_toInt (x : DWord) : i64 x.toInt = x := BitVec.ofInt_toInt

theorem i64_toNat (x : DWord) : i64 x.toNat = x := by rw [i64_natCast, w64, BitVec.ofNat_toNat, BitVec.setWidth_eq]

/-! ### Quotients and remainders (R99) -/

/-- The only quotient that a signed 64-bit word cannot hold is above its range: the most negative value by −1. -/
theorem satInt_tdiv_signed (a b : DWord) :
    satInt 64 true (a.toInt.tdiv b.toInt) = min (2 ^ 63 - 1) (a.toInt.tdiv b.toInt) := by
  have hq : (a.toInt.tdiv b.toInt).natAbs ≤ a.toInt.natAbs := by
    rw [Int.natAbs_tdiv]; exact Nat.div_le_self _ _
  have hlo := BitVec.le_toInt a
  have hhi := BitVec.toInt_lt (x := a)
  refine max_eq_right (le_min (by decide) ?_)
  simp only [minInt, if_true]
  omega

theorem satInt_div_unsigned (a b : DWord) :
    satInt 64 false ((a.toNat / b.toNat : Nat) : Int) = (a.toNat / b.toNat : Nat) := by
  have hq : a.toNat / b.toNat ≤ a.toNat := Nat.div_le_self _ _
  have hmax : ((a.toNat / b.toNat : Nat) : Int) ≤ maxInt 64 false := by
    simp only [maxInt, Bool.false_eq_true, if_false]
    omega
  rw [satInt, min_eq_right hmax]
  exact max_eq_right (Int.natCast_nonneg _)

theorem quotInt_signed (a b : DWord) :
    i64 (quotInt 64 true a.toInt b.toInt) = if b = 0 then 0 else i64 (min (2 ^ 63 - 1) (a.toInt.tdiv b.toInt)) := by
  by_cases hb : b = 0
  · subst hb; rfl
  · have hb' : b.toInt ≠ 0 := fun h => hb (BitVec.eq_of_toInt_eq h)
    rw [quotInt, if_neg hb', if_neg hb, satInt_tdiv_signed]

theorem quotInt_unsigned (a b : DWord) : i64 (quotInt 64 false a.toNat b.toNat) = a / b := by
  by_cases hb : b = 0
  · subst hb; exact BitVec.udiv_zero.symm
  · have hb' : (b.toNat : Int) ≠ 0 := fun h => hb (BitVec.eq_of_toNat_eq (Int.ofNat.inj h))
    rw [quotInt, if_neg hb', ← Int.ofNat_tdiv, satInt_div_unsigned, ← BitVec.toNat_udiv, i64_toNat]

theorem remInt_signed (a b : DWord) : i64 (remInt a.toInt b.toInt) = if b = 0 then a else i64 (a.toInt.tmod b.toInt) := by
  by_cases hb : b = 0
  · subst hb; exact i64_toInt a
  · have hb' : b.toInt ≠ 0 := fun h => hb (BitVec.eq_of_toInt_eq h)
    rw [remInt, if_neg hb', if_neg hb]

theorem remInt_unsigned (a b : DWord) : i64 (remInt a.toNat b.toNat) = a % b := by
  have hrem : remInt a.toNat b.toNat = ((a.toNat % b.toNat : Nat) : Int) := by
    by_cases hb : b.toNat = 0
    · rw [remInt, if_pos (Int.ofNat_eq_zero.2 hb), hb, Nat.mod_zero]
    · rw [remInt, if_neg (fun h => hb (Int.ofNat_eq_zero.1 h)), Int.ofNat_tmod]
  rw [hrem, ← BitVec.toNat_umod, i64_toNat]

/-! ### Shifts (R99) -/

theorem shl64_eq (a : DWord) (c : Nat) : shl64 a c = a <<< c := by
  unfold shl64
  split
  · rename_i h; exact (BitVec.shiftLeft_eq_zero h).symm
  · rfl

theorem shr64_eq (a : DWord) (c : Nat) : shr64 a c = a >>> c := by
  unfold shr64
  split
  · rename_i h; exact (BitVec.ushiftRight_eq_zero h).symm
  · rfl

/-- From 63 on, every bit of an arithmetic shift is the sign. -/
theorem sra64_eq (a : DWord) (c : Nat) : sra64 a c = a.sshiftRight c := by
  ext j hj
  simp only [sra64, BitVec.getElem_sshiftRight]
  by_cases hc : c ≤ 63
  · simp only [Nat.min_eq_left hc]
  · have hout : ¬ c + j < 64 := by omega
    rw [Nat.min_eq_right (by omega), dif_neg hout, BitVec.msb_eq_getLsbD_last]
    split
    · obtain rfl : j = 0 := by omega
      rfl
    · rfl

/-! ### Minimum and maximum -/

theorem i64_min_signed (a b : DWord) : i64 (min a.toInt b.toInt) = if a.toInt ≤ b.toInt then a else b := by
  rw [min_def]
  split <;> exact i64_toInt _

theorem i64_min_unsigned (a b : DWord) : i64 (min (a.toNat : Int) b.toNat) = if a.toNat ≤ b.toNat then a else b := by
  simp only [min_def, Nat.cast_le]
  split <;> exact i64_toNat _

theorem i64_max_signed (a b : DWord) : i64 (max a.toInt b.toInt) = if a.toInt ≤ b.toInt then b else a := by
  rw [max_def]
  split <;> exact i64_toInt _

theorem i64_max_unsigned (a b : DWord) : i64 (max (a.toNat : Int) b.toNat) = if a.toNat ≤ b.toNat then b else a := by
  simp only [max_def, Nat.cast_le]
  split <;> exact i64_toNat _

/-! ### The conditions of SCMP -/

/-- The conditions of Table 6.4. -/
def scmpConditions : List (Nat × (DWord → DWord → Prop)) :=
  [(0, fun a b => a = b), (1, fun a b => a ≠ b), (2, fun a b => a.toInt < b.toInt), (3, fun a b => a.toInt ≥ b.toInt),
    (4, fun a b => a.toNat < b.toNat), (5, fun a b => a.toNat ≥ b.toNat), (6, fun a b => a.toInt ≤ b.toInt),
    (7, fun a b => a.toInt > b.toInt), (8, fun a b => a.toNat ≤ b.toNat), (9, fun a b => a.toNat > b.toNat)]

theorem scmpHolds_iff : ∀ e ∈ scmpConditions, ∀ a b, scmpHolds e.1 a b = true ↔ e.2 a b := by
  simp [scmpConditions, scmpHolds]

theorem scmp_does {mo : Nat} {p : DWord → DWord → Prop} (h : (mo, p) ∈ scmpConditions) :
    LeadDoesWhen .scmp 0 0x0E (fun _ i => i.mo = mo ∧ p i.a i.b) (fun s t i => LeadWrote s t i 1) ∧
      LeadDoesWhen .scmp 0 0x0E (fun _ i => i.mo = mo ∧ ¬ p i.a i.b) (fun s t i => LeadWrote s t i 0) := by
  constructor
  · refine .of_leadOp (fun _ _ => rfl) ?_
    rintro i ⟨rfl, hp⟩
    exact if_pos ((scmpHolds_iff _ h _ _).2 hp)
  · refine .of_leadOp (fun _ _ => rfl) ?_
    rintro i ⟨rfl, hp⟩
    exact if_neg fun hholds => hp ((scmpHolds_iff _ h _ _).1 hholds)

/-! ### The values of MOD (R146, R147) -/

/-- The operations of R146 and R147 with the last value of MOD that each takes. -/
def lastMod : List ((Fields → Instr) × Nat × Nat) :=
  [(.sadd, 0x00, 0), (.ssub, 0x01, 0), (.smul, 0x02, 0), (.smulh, 0x03, 1), (.sdiv, 0x04, 1), (.srem, 0x05, 1),
    (.sand, 0x06, 0), (.sor, 0x07, 0), (.sxor, 0x08, 0), (.sshl, 0x09, 0), (.sshr, 0x0A, 0), (.ssra, 0x0B, 0),
    (.smin, 0x0C, 1), (.smax, 0x0D, 1), (.scmp, 0x0E, 9)]

theorem isaOf_lastMod : ∀ e ∈ lastMod, ∀ f, isaOf (e.1 f) = some (0, e.2.1, f) := by
  intro e he f
  fin_cases he <;> rfl

theorem shapeLead_lastMod : ∀ e ∈ lastMod, ∀ f : Fields, e.2.2 < f.mod.toNat → (shapeLead e.2.1 f).ok = false := by
  intro e he f hmod
  fin_cases he <;> simp [shapeLead] at hmod ⊢ <;> omega

theorem sbits_does (mo : Nat) :
    LeadDoesWhen .sbits 0 0x11 (fun _ i => i.mo = mo) fun s t i => LeadWrote s t i (sbitsOf mo i.a i.b i.kc) :=
  .of_leadOp (fun _ _ => rfl) fun i h => by rw [h]

/-- Settles O14: each operation writes the value of its effect, whose exact result modulo 2^64 is the operation on
patterns. -/
theorem leadArithmetic : Obligations.LeadArithmetic := by
  unfold Obligations.LeadArithmetic
  refine ⟨.of_leadOp (fun _ _ => rfl) fun _ => rfl, .of_leadOp (fun _ _ => rfl) fun _ => rfl,
    .of_leadOp (fun _ _ => rfl) fun _ => rfl,
    .of_leadOp (fun _ _ => rfl) fun i h => ?smulh, .of_leadOp (fun _ _ => rfl) fun i h => ?smulhn,
    .of_leadOp (fun _ _ => rfl) fun i h => ?sdiv, .of_leadOp (fun _ _ => rfl) fun i h => ?sdivn,
    .of_leadOp (fun _ _ => rfl) fun i h => ?srem, .of_leadOp (fun _ _ => rfl) fun i h => ?sremn,
    .of_leadOp (fun _ _ => rfl) fun _ => rfl, .of_leadOp (fun _ _ => rfl) fun _ => rfl,
    .of_leadOp (fun _ _ => rfl) fun _ => rfl,
    .of_leadOp (fun _ _ => rfl) fun _ => shl64_eq _ _, .of_leadOp (fun _ _ => rfl) fun _ => shr64_eq _ _,
    .of_leadOp (fun _ _ => rfl) fun _ => sra64_eq _ _,
    .of_leadOp (fun _ _ => rfl) fun i h => ?smin, .of_leadOp (fun _ _ => rfl) fun i h => ?sminn,
    .of_leadOp (fun _ _ => rfl) fun i h => ?smax, .of_leadOp (fun _ _ => rfl) fun i h => ?smaxn,
    fun mo p h => scmp_does h,
    fun c op n h => .of_shape (isaOf_lastMod _ h) (shapeLead_lastMod _ h),
    .of_leadOp (fun _ _ => rfl) fun _ => rfl, .of_leadOp (fun _ _ => rfl) fun _ => rfl,
    sbits_does 0, sbits_does 1, sbits_does 2, sbits_does 3, sbits_does 4, sbits_does 5, sbits_does 6⟩
  case smulh => rw [LIss.ia_signed h, LIss.ib_signed h]
  case smulhn => rw [LIss.ia_unsigned h, LIss.ib_unsigned h]; exact i64_natCast (i.a.toNat * i.b.toNat / 2 ^ 64)
  case sdiv => rw [LIss.ia_signed h, LIss.ib_signed h, h]; exact quotInt_signed _ _
  case sdivn => rw [LIss.ia_unsigned h, LIss.ib_unsigned h, h]; exact quotInt_unsigned _ _
  case srem => rw [LIss.ia_signed h, LIss.ib_signed h]; exact remInt_signed _ _
  case sremn => rw [LIss.ia_unsigned h, LIss.ib_unsigned h]; exact remInt_unsigned _ _
  case smin => rw [LIss.ia_signed h, LIss.ib_signed h]; exact i64_min_signed _ _
  case sminn => rw [LIss.ia_unsigned h, LIss.ib_unsigned h]; exact i64_min_unsigned _ _
  case smax => rw [LIss.ia_signed h, LIss.ib_signed h]; exact i64_max_signed _ _
  case smaxn => rw [LIss.ia_unsigned h, LIss.ib_unsigned h]; exact i64_max_unsigned _ _

end Sys2Proof.Machine
end

section
/-! Control flow of the lead thread (R153, R159). -/

namespace Sys2Proof.Machine

section
variable {s : State} {i : LIss}

theorem LIss.jump_became (h : s.crew? i.core i.slot = some i.c) (target : Word) (g : Lead → Lead) :
    LeadBecame s (i.jump s target g) i { (g i.c.lead).past i.f with pc := target } := i.onLead_became h _

theorem LIss.call_became (h : s.crew? i.core i.slot = some i.c) (hdepth : i.c.lead.stack.length < 16) (target : Word) :
    LeadBecame s (i.call s target) i { i.c.lead.past i.f with pc := target, stack := i.link :: i.c.lead.stack } := by
  rw [LIss.call, if_neg (Nat.not_le.2 hdepth)]
  exact i.jump_became h target _

theorem LIss.call_faults (hdepth : 16 ≤ i.c.lead.stack.length) (target : Word) :
    i.call s target = s.trapLead i.core i.slot Cls.bounds (target.setWidth 64) := if_pos hdepth

end

/-- The conditions of SBC (R153). -/
def sbcConditions : List (Nat × (Int → Prop)) :=
  [(0, fun x => x ≠ 0), (1, fun x => x = 0), (2, fun x => x < 0), (3, fun x => 0 ≤ x)]

theorem signHolds_iff : ∀ e ∈ sbcConditions, ∀ x, signHolds e.1 x = true ↔ e.2 x := by
  simp [sbcConditions, signHolds]

theorem sbc_does {mo : Nat} {p : Int → Prop} (h : (mo, p) ∈ sbcConditions) :
    LeadDoesWhen .sbc 0 0x15 (fun _ i => i.mo = mo ∧ p i.a.toInt)
        (fun s t i => LeadBecame s t i { i.c.lead.past i.f with pc := targetOf i.f i.pc }) ∧
      LeadDoesWhen .sbc 0 0x15 (fun _ i => i.mo = mo ∧ ¬ p i.a.toInt)
        (fun s t i => LeadBecame s t i { i.c.lead.past i.f with pc := i.link }) := by
  constructor
  · refine .of_effect (fun _ _ => rfl) ?_
    rintro s i hi ⟨rfl, hp⟩
    rw [if_pos ((signHolds_iff _ h _).2 hp)]
    exact i.jump_became (State.leadIss_crew hi) _ id
  · refine .of_effect (fun _ _ => rfl) ?_
    rintro s i hi ⟨rfl, hp⟩
    rw [if_neg fun hholds => hp ((signHolds_iff _ h _).1 hholds)]
    exact i.jump_became (State.leadIss_crew hi) _ id

/-- Settles O15: each effect of R153 is a jump, a call below depth 16, the fault BOUNDS, or the end of the thread. -/
theorem leadControl : Obligations.LeadControl := by
  unfold Obligations.LeadControl
  refine ⟨.of_effect (fun _ _ => rfl) fun s i h _ => i.jump_became (State.leadIss_crew h) _ id, fun mo p h => sbc_does h,
    .of_effect (fun _ _ => rfl) fun s i h hdepth => i.call_became (State.leadIss_crew h) hdepth _,
    .of_effect (fun _ _ => rfl) fun s i _ hdepth => i.call_faults hdepth _,
    .of_effect (fun _ _ => rfl) fun s i h hpre => ?sjmp, .of_effect (fun _ _ => rfl) fun s i h hpre => ?sjmpCall,
    .of_effect (fun _ _ => rfl) fun s i _ hfar => if_pos hfar,
    fun pc r => .of_effect (fun _ _ => rfl) fun s i h hstack => ?sret,
    .of_effect (fun _ _ => rfl) fun s i h hpre => ?sretEnd⟩
  case sjmp =>
    obtain ⟨hnear, hmo⟩ := hpre
    have hmo' : i.mo ≠ 1 := by omega
    rw [if_neg (Nat.not_le.2 hnear), if_neg hmo']
    exact i.jump_became (State.leadIss_crew h) _ id
  case sjmpCall =>
    obtain ⟨hnear, hmo, hdepth⟩ := hpre
    rw [if_neg (Nat.not_le.2 hnear), if_pos hmo]
    exact i.call_became (State.leadIss_crew h) hdepth _
  case sret =>
    simp only [hstack]
    exact i.jump_became (State.leadIss_crew h) pc fun x => { x with stack := r }
  case sretEnd =>
    obtain ⟨hstack, hprods, hreleased⟩ := hpre
    refine ⟨_, i.commit_became (State.leadIss_crew h) fun x => { x with ended := true }, ?_⟩
    simp only [hstack, hprods, hreleased, ne_eq, not_true_eq_false, if_false]

end Sys2Proof.Machine
end

section
/-! Special registers, completion counters and the decision queue of the lead thread (R144, R154 to R156). -/

namespace Sys2Proof.Machine

/-! ### Reading a register -/

theorem LIss.special_counter (i : LIss) (s : State) {n : Nat} (h : n < 8) : i.special s (0x20 + n) = i.c.q.getD n 0 := by
  interval_cases n <;> rfl

theorem srdx_does {v : State → LIss → DWord} (sel : Nat) (h : ∀ s i, i.special s sel = v s i) :
    LeadDoesWhen .srdx 0 0x1A (fun _ i => i.f.a.toNat = sel) fun s t i => LeadWrote s t i (v s i) :=
  .of_write (fun _ _ => rfl) fun s i hsel => by rw [hsel, h]

/-! ### Effects on the crew -/

theorem OnlyCrew.trans {s t u : State} {core slot : Nat} (hst : OnlyCrew s t core slot) (htu : OnlyCrew t u core slot) :
    OnlyCrew s u core slot where
  rest := by
    have h : { u with crews := s.crews } = ({ ({ u with crews := t.crews } : State) with crews := s.crews } : State) := rfl
    rw [h, htu.rest, hst.rest]
  others k hk := (htu.others k hk).trans (hst.others k hk)
  memory a := (htu.memory a).trans (hst.memory a)

/-- The crew changes, and its lead thread goes past the instruction. -/
theorem LIss.done_onCrew {s : State} {i : LIss} (h : s.crew? i.core i.slot = some i.c) (g : Crew → Crew) :
    OnlyCrew s (i.done (s.onCrew i.core i.slot g)) i.core i.slot ∧
      (i.done (s.onCrew i.core i.slot g)).crew? i.core i.slot = some { g i.c with lead := (g i.c).lead.past i.f } := by
  refine ⟨(State.onCrew_only _ _ _ _).trans (State.onCrew_only _ _ _ _), ?_⟩
  show (State.onCrew _ i.core i.slot _).crew? i.core i.slot = _
  rw [State.crew?_onCrew, State.crew?_onCrew, h]
  rfl

theorem LIss.retry_became {s : State} {eng op : Nat} {i : LIss} (h : s.leadIss eng op i.f = some i) :
    LeadBecame s (i.retry s) i { i.c.lead with wait := .retry, sp := i.f.live, swaits := eng == 0 && op == 0x1C } := by
  obtain ⟨-, hcrew, rfl, rfl, -⟩ := State.leadIss_spec h
  exact i.onLead_became hcrew _

/-- Settles O16: each register is read from the state, and each effect on the crew is one change of it with the thread past
the instruction, or a wait. -/
theorem leadRegisters : Obligations.LeadRegisters := by
  unfold Obligations.LeadRegisters
  refine ⟨fun n hn => srdx_does _ fun s i => i.special_counter s hn, srdx_does _ fun _ _ => rfl,
    srdx_does _ fun _ _ => rfl, srdx_does _ fun _ _ => rfl, srdx_does _ fun s i => ?time, srdx_does _ fun _ _ => rfl,
    fun n hn => .of_effect (fun _ _ => rfl) fun s i h hsel => ?swrx,
    .of_effect (fun _ _ => rfl) fun s i _ hreached => if_pos hreached,
    .of_effect (fun _ _ => rfl) fun s i h hshort => ?swaitq,
    .of_effect (fun _ _ => rfl) fun s i h hpre => ?dqpush, .of_effect (fun _ _ => rfl) fun s i h hfull => ?dqpushFull⟩
  case time => exact (BitVec.ofNat_toNat 64 s.time).trans (BitVec.setWidth_eq _)
  case swrx =>
    simp only [hsel, Nat.add_sub_cancel_left]
    exact i.done_onCrew (State.leadIss_crew h) _
  case swaitq =>
    rw [if_neg (Nat.not_le.2 hshort)]
    exact i.retry_became h
  case dqpush =>
    obtain ⟨hroom, hperformed⟩ := hpre
    obtain ⟨honly, hcrew⟩ := i.done_onCrew (State.leadIss_crew h) fun c =>
      { c with dq := c.dq ++ [{ data := i.mo == 1, value := i.b }] }
    simp only [if_neg (Nat.not_le.2 hroom), hperformed]
    exact ⟨_, honly, rfl, hcrew⟩
  case dqpushFull =>
    rw [if_pos hfull]
    exact i.retry_became h

end Sys2Proof.Machine
end

section
/-! The lane stream: an instruction that goes on has its effect, or raises DIVERGE where the convergence asked of it fails
(R83); an effect leaves the group past the instruction, or in a wait (R163). -/

namespace Sys2Proof.Machine

section
variable {s : State} {eng op : Nat} {f : Fields} {i : Iss}

theorem State.laneIss_warp (h : s.laneIss eng op f = some i) : s.warp? i.core i.slot = some i.w := by
  obtain ⟨-, hwarp, -⟩ := State.laneIss_spec h
  exact hwarp

theorem State.laneIss_fields (h : s.laneIss eng op f = some i) : i.f = f := by
  obtain ⟨-, -, -, -, hf, -⟩ := State.laneIss_spec h
  exact hf

/-- An instruction whose convergence fails raises DIVERGE in its active lanes, with the lanes that break it (R83, R169, R180).
-/
theorem issue_diverges (h : s.laneIss eng op f = some i) (hgoes : i.goes s = true) (hact : i.act ≠ 0)
    {div : State → Iss → Option Word} {m : Word} (hdiv : div s i = some m) (k : State → Iss → State)
    (kl : State → LIss → State) :
    issue eng op f s div k kl = .next (i.raise s Cls.diverge i.act (fun _ => 0) fun _ => m.setWidth 64) := by
  rw [issue_lane h]
  obtain ⟨-, -, rfl, rfl, rfl, ha, hp⟩ := State.laneIss_spec h
  have hi : Iss.mk i.core i.slot i.w i.grp (activeOf i.w i.grp i.f) (i.w.lane (lowest i.grp)).pc i.eng i.op i.f = i := by
    rw [← ha, ← hp]
  simp only [Iss.goes, Iss.wellPlaced, Iss.unstopped, Bool.and_eq_true, Option.isNone_iff_eq_none] at hgoes
  obtain ⟨⟨⟨⟨hform, hlegal⟩, hreg⟩, hstop⟩, -⟩ := hgoes
  rw [Bool.not_eq_true'] at hstop
  rw [ha] at hact
  simp only [issueLanes, hi, hform, hlegal, hreg, hstop, hdiv, if_neg hact, Option.isNone_none, Bool.and_self,
    Bool.not_true, Bool.false_eq_true, if_false, ha]

/-- The warp that a change of it leaves. -/
theorem State.warp?_onWarp_of_eq {core slot : Nat} {w : Warp} (h : s.warp? core slot = some w) (g : Warp → Warp) :
    (s.onWarp core slot g).warp? core slot = some (g w) := by
  rw [State.warp?_onWarp, h, Option.map_some]

/-- The group stands at its instruction, to attempt it again (R40). -/
theorem Iss.block_waits (h : s.warp? i.core i.slot = some i.w) : Waits s (i.block s) i :=
  ⟨State.onWarp_only s _ _ _, _, State.warp?_onWarp_of_eq h _, rfl, Warp.length_onMask _ _ _,
    fun l hl => Warp.lane_onMask _ _ _ l hl⟩

end

section
variable {c : Fields → Instr} {eng op : Nat} {div : State → Iss → Option Word} {k : State → Iss → State}
  {kl : State → LIss → State} {pre : State → Iss → Prop} {post : State → State → Iss → Prop}

/-- An instruction does what its effect does in the states in which it issues converged. -/
theorem LaneDoesWhen.of_effect (hexec : ∀ f s, exec (c f) s = issue eng op f s div k kl)
    (hdiv : ∀ s i, pre s i → div s i = none)
    (heffect : ∀ s i, s.laneIss eng op i.f = some i → pre s i → post s (k s i) i) :
    LaneDoesWhen c eng op pre post := by
  intro s f i h hgoes hpre
  refine ⟨k s i, by rw [hexec, issue_goes h hgoes (hdiv s i hpre)], heffect s i ?_ hpre⟩
  rw [State.laneIss_fields h]
  exact h

/-- The same where no convergence is asked. -/
theorem LaneDoesWhen.of_lane (hexec : ∀ f s, exec (c f) s = laneInstr eng op f s k)
    (heffect : ∀ s i, s.laneIss eng op i.f = some i → pre s i → post s (k s i) i) :
    LaneDoesWhen c eng op pre post :=
  .of_effect hexec (fun _ _ _ => rfl) heffect

/-- Off convergence an instruction raises DIVERGE. -/
theorem LaneDoesWhen.of_divergence (hexec : ∀ f s, exec (c f) s = issue eng op f s div k kl) (m : Word) :
    LaneDoesWhen c eng op (fun s i => i.act ≠ 0 ∧ div s i = some m) fun s t i =>
      t = i.raise s Cls.diverge i.act (fun _ => 0) fun _ => m.setWidth 64 := by
  rintro s f i h hgoes ⟨hact, hdiv⟩
  exact ⟨_, by rw [hexec, issue_diverges h hgoes hact hdiv], rfl⟩

end

end Sys2Proof.Machine
end

section
/-! Branches of the lane stream, and the decisions that a warp takes from the queue of its crew (R168 to R170). -/

namespace Sys2Proof.Machine

/-! ### Lane branches (R168) -/

theorem Iss.branch_branched {s : State} {i : Iss} (h : s.warp? i.core i.slot = some i.w) (target : Nat → Word)
    (g : Lane → Lane) : Branched s (i.branch s target fun _ x => g x) i target g := by
  obtain ⟨honly, w', hw', hpassed⟩ := i.commitWarp_ended h fun w =>
    w.onMask i.act fun l x => { g x with pc := target l - i.f.step }
  refine ⟨honly, w', hw', congrArg (fun w : Warp => { w with lanes := i.w.lanes }) hpassed.same, hpassed.instr,
    hpassed.count.trans (Warp.length_onMask _ _ _), fun l hl hgrp => ?_⟩
  have hback : target l - i.f.step + BitVec.ofNat 32 i.f.len = target l := BitVec.sub_add_cancel _ _
  rw [hpassed.gone l (by rwa [Warp.length_onMask]) hgrp, Warp.lane_onMask _ _ _ l hl]
  split
  · simp only [Lane.past, hback]
  · rfl

theorem lbrc_does {mo : Nat} {p : Int → Bool} (h : ∀ x, signHolds mo x = p x) :
    LaneDoesWhen .lbrc 1 0x01
      (fun s i => i.mo = mo ∧ splitTiles (fun _ i l => (i.lbrcTarget l).toNat) s i = none) fun s t i =>
        Branched s t i (fun l => if p (i.a32 l).toInt then targetOf i.f i.pc else i.pc + BitVec.ofNat 32 i.f.len) id := by
  refine .of_effect (fun _ _ => rfl) (fun s i hpre => hpre.2) ?_
  rintro s i hi ⟨rfl, -⟩
  have htarget : i.lbrcTarget =
      fun l => if p (i.a32 l).toInt then targetOf i.f i.pc else i.pc + BitVec.ofNat 32 i.f.len := by
    funext l
    rw [Iss.lbrcTarget, h]
    rfl
  rw [← htarget]
  exact Iss.branch_branched (State.laneIss_warp hi) _ id

/-- Settles O17: each branch is a change of its active lanes whose PC, with the group past the instruction, is the target. -/
theorem laneBranches : Obligations.LaneBranches := by
  unfold Obligations.LaneBranches
  refine ⟨.of_effect (fun _ _ => rfl) (fun _ _ => id) fun s i h _ => i.branch_branched (State.laneIss_warp h) _ id,
    fun mo p h => lbrc_does ?lbrc,
    .of_effect (fun _ _ => rfl) (fun _ _ => id) fun s i h _ => i.branch_branched (State.laneIss_warp h) _ _,
    .of_effect (fun _ _ => rfl) (fun _ _ => id) fun s i h _ => i.branch_branched (State.laneIss_warp h) _ id,
    .of_effect (fun _ _ => rfl) (fun _ _ => And.right) fun s i h hpre => ?ljmp,
    .of_effect (fun _ _ => rfl) (fun _ _ => And.right) fun s i h hpre => ?ljmpCall⟩
  case lbrc =>
    obtain ⟨rfl, rfl⟩ | ⟨rfl, rfl⟩ | ⟨rfl, rfl⟩ | ⟨rfl, rfl⟩ := h <;> exact fun _ => rfl
  case ljmp =>
    have hmo : i.mo ≠ 1 := by rw [hpre.1]; decide
    simp only [if_neg hmo]
    exact i.branch_branched (State.laneIss_warp h) _ id
  case ljmpCall =>
    simp only [if_pos hpre.1]
    exact i.branch_branched (State.laneIss_warp h) _ _

/-! ### Decisions (R169, R170) -/

section
variable {s : State} {i : Iss} {data : Bool} {k : State → DWord → State}

theorem Iss.decision_consumes {v : DWord} (h : s.dqNext i.w = .entry { data, value := v }) :
    i.decision s data k = i.consume (k s v) := by
  simp only [Iss.decision, h, bne_self_eq_false, Bool.false_eq_true, if_false]

theorem Iss.decision_waits (hwarp : s.warp? i.core i.slot = some i.w) (h : s.dqNext i.w = .wait) :
    Waits s (i.decision s data k) i := by
  simp only [Iss.decision, h]
  exact Iss.block_waits hwarp

theorem Iss.decision_ended (h : s.dqNext i.w = .none) :
    i.decision s data k = i.raise s Cls.dqmismatch i.act (fun _ => 0) fun _ => 0 := by
  simp only [Iss.decision, h]

theorem Iss.decision_mismatch {v : DWord} (h : s.dqNext i.w = .entry { data := !data, value := v }) :
    i.decision s data k = i.raise s Cls.dqmismatch i.act (fun _ => 0) fun _ => 1 := by
  simp only [Iss.decision, h, bne_iff_ne, ne_eq, Bool.not_eq_self, not_false_eq_true, if_true]

end

/-- Settles O18: the head of the queue decides between the consumption of an entry, a wait and DQMISMATCH. -/
theorem uniformDecisions : Obligations.UniformDecisions := by
  unfold Obligations.UniformDecisions
  refine ⟨fun v => .of_effect (fun _ _ => rfl) (fun _ _ => And.left) fun s i h hpre =>
      ⟨_, Iss.decision_consumes hpre.2, Iss.branch_branched (State.laneIss_warp h) _ id⟩,
    fun v => .of_effect (fun _ _ => rfl) (fun _ _ hpre => hpre.2.1) fun s i h hpre => ?dqpop,
    fun v => .of_effect (fun _ _ => rfl) (fun _ _ hpre => hpre.2.1) fun s i h hpre => ?dqpopWide,
    .of_effect (fun _ _ => rfl) (fun _ _ => And.left) fun s i h hpre =>
      Iss.decision_waits (State.laneIss_warp h) hpre.2,
    .of_effect (fun _ _ => rfl) (fun _ _ => And.left) fun s i h hpre =>
      Iss.decision_waits (State.laneIss_warp h) hpre.2,
    .of_effect (fun _ _ => rfl) (fun _ _ => And.left) fun s i _ hpre => Iss.decision_ended hpre.2,
    .of_effect (fun _ _ => rfl) (fun _ _ => And.left) fun s i _ hpre => Iss.decision_ended hpre.2,
    fun v => .of_effect (fun _ _ => rfl) (fun _ _ => And.left) fun s i _ hpre => Iss.decision_mismatch hpre.2,
    fun v => .of_effect (fun _ _ => rfl) (fun _ _ => And.left) fun s i _ hpre => Iss.decision_mismatch hpre.2,
    fun m c op h => ?diverge⟩
  case dqpop =>
    obtain ⟨hmo, -, hentry⟩ := hpre
    have hproduced := Iss.produceWide_produced (State.laneIss_warp h) false fun _ => (lo32 v).setWidth 64
    refine ⟨_, Iss.decision_consumes hentry, ?_⟩
    simpa [hmo] using hproduced
  case dqpopWide =>
    obtain ⟨hmo, -, hentry⟩ := hpre
    have hproduced := Iss.produceWide_produced (State.laneIss_warp h) true fun _ => v
    refine ⟨_, Iss.decision_consumes hentry, ?_⟩
    simpa [hmo] using hproduced
  case diverge =>
    simp only [List.mem_cons, Prod.mk.injEq, List.not_mem_nil, or_false] at h
    obtain ⟨rfl, rfl⟩ | ⟨rfl, rfl⟩ := h
    · exact .of_divergence (fun _ _ => rfl) m
    · exact .of_divergence (fun _ _ => rfl) m

end Sys2Proof.Machine
end

section
/-! Lanes that wait for others: the join masks and the barriers (R171 to R173). -/

namespace Sys2Proof.Machine

/-! ### Masks -/

theorem bitOf_and (a b : Word) (l : Nat) : bitOf (a &&& b) l = (bitOf a l && bitOf b l) := BitVec.getLsbD_and

theorem bitOf_or (a b : Word) (l : Nat) : bitOf (a ||| b) l = (bitOf a l || bitOf b l) := BitVec.getLsbD_or

theorem lt_of_bitOf {m : Word} {l : Nat} (h : bitOf m l = true) : l < 32 := BitVec.lt_of_getLsbD h

theorem bitOf_not {l : Nat} (h : l < 32) (m : Word) : bitOf (~~~m) l = !bitOf m l := by
  simp [bitOf, h]

theorem bitOf_zero (l : Nat) : bitOf 0 l = false := BitVec.getLsbD_zero

theorem bitOf_and_not {a m : Word} {l : Nat} (ha : bitOf a l = true) : bitOf (a &&& ~~~m) l = !bitOf m l := by
  rw [bitOf_and, ha, bitOf_not (lt_of_bitOf ha), Bool.true_and]

/-! ### One warp changed twice -/

theorem OnlyWarp.trans {s t u : State} {core slot : Nat} (hst : OnlyWarp s t core slot) (htu : OnlyWarp t u core slot) :
    OnlyWarp s u core slot where
  rest := by
    have h : { u with warps := s.warps } = ({ ({ u with warps := t.warps } : State) with warps := s.warps } : State) := rfl
    rw [h, htu.rest, hst.rest]
  others k hk := (htu.others k hk).trans (hst.others k hk)
  memory a := (htu.memory a).trans (hst.memory a)

/-! ### Waiting at an instruction -/

section
variable {s : State} {i : Iss}

/-- Lanes of a mask begin a wait, and the other lanes of the group go past (R163). -/
theorem Iss.await_stands (h : s.warp? i.core i.slot = some i.w) (m : Word) (wait : Wait) :
    OnlyWarp s (i.await s m fun _ => wait) i.core i.slot ∧
      ∃ w', (i.await s m fun _ => wait).warp? i.core i.slot = some w' ∧ i.Stands i.w w' m wait := by
  refine ⟨State.onWarp_only s _ _ _, _, State.warp?_onWarp_of_eq h _, rfl, rfl, ?count, fun l hl hm => ?stand,
    fun l hl hm => ?gone, fun l hl hm => ?stay⟩
  case count => simp [Warp.counted, Warp.advance]
  all_goals
    have hpassed : l < (i.w.advance (i.grp &&& ~~~m) i.f).lanes.length := by rwa [Warp.advance, Warp.length_onMask]
    refine (Warp.lane_onMask _ _ _ l hpassed).trans ?_
    rw [Warp.advance, Warp.lane_onMask _ _ _ l hl]
  case stand =>
    have hkept : bitOf (i.grp &&& ~~~m) l = false := by rw [bitOf_and, bitOf_not (lt_of_bitOf hm), hm]; simp
    rw [hm, hkept]
    rfl
  case gone =>
    have hout : bitOf m l = false := by
      rw [bitOf_and, Bool.and_eq_true] at hm
      rw [bitOf_not (lt_of_bitOf hm.1)] at hm
      simpa using hm.2
    rw [hout, hm]
    rfl
  case stay =>
    rw [bitOf_or, Bool.or_eq_false_iff] at hm
    rw [bitOf_and, hm.1, hm.2]
    rfl

/-- Where no lane waits the group has gone past. -/
theorem Iss.Stands.passed {w w' : Warp} {wait : Wait} (h : i.Stands w w' 0 wait) : i.Passed w w' where
  same := h.same
  instr := h.instr
  count := h.count
  gone l hl hgrp := h.gone l hl (by rw [bitOf_and_not hgrp, bitOf_zero]; rfl)
  stay l hl hgrp := h.stay l hl (by rw [bitOf_or, hgrp, bitOf_zero]; rfl)

/-! ### Join masks (R171, R172) -/

theorem Iss.setJoin_ended (h : s.warp? i.core i.slot = some i.w) (j : Nat) (v : Word) :
    Ended s (i.setJoin s j v) i ({ i.w with j := setNth i.w.j j v } : Warp).checkJoins :=
  i.commitWarp_ended h fun w => ({ w with j := setNth w.j j v } : Warp).checkJoins

/-- Members arrive at WAITJ, the timer of the mask becomes what it may, and the masks are examined. -/
theorem Iss.await_checkJoins (h : s.warp? i.core i.slot = some i.w) (m : Word) (wait : Wait)
    (timer : Warp → SMap (Nat × Word)) :
    let t := (i.await s m fun _ => wait).onWarp i.core i.slot fun w =>
      ({ w with jtimer := timer w } : Warp).checkJoins
    OnlyWarp s t i.core i.slot ∧ ∃ w', i.Stands i.w w' m wait ∧
      t.warp? i.core i.slot = some ({ w' with jtimer := timer w' } : Warp).checkJoins := by
  obtain ⟨honly, w', hw', hstands⟩ := i.await_stands h m wait
  exact ⟨honly.trans (State.onWarp_only _ _ _ _), w', hstands, State.warp?_onWarp_of_eq hw' _⟩

end

/-- The waiters of a mask that is due go on. -/
theorem Warp.lane_checkJoin_due {w : Warp} {j : Nat} (h : w.joinDue j = true) {l : Nat} (hl : l < w.lanes.length) :
    (w.checkJoin j).lane l = if (w.lane l).atJoin j then (w.lane l).pass else w.lane l := by
  rw [Warp.checkJoin, if_pos h]
  exact Warp.lane_onLanes w _ l hl

theorem Warp.checkJoin_not_due {w : Warp} {j : Nat} (h : w.joinDue j = false) : w.checkJoin j = w := by
  rw [Warp.checkJoin, h]
  rfl

/-- Settles O19: a mask written is a change of the warp, WAITJ leaves its members standing, and the release of a mask is due
when some lane waits at it and every member does. -/
theorem joinMasks : Obligations.JoinMasks := by
  unfold Obligations.JoinMasks
  refine ⟨.of_lane (fun _ _ => rfl) fun s i h _ => Iss.setJoin_ended (State.laneIss_warp h) _ _,
    .of_lane (fun _ _ => rfl) fun s i h _ => Iss.setJoin_ended (State.laneIss_warp h) _ _,
    .of_lane (fun _ _ => rfl) fun s i h _ => Iss.setJoin_ended (State.laneIss_warp h) _ _,
    .of_effect (fun _ _ => rfl) (fun _ _ => And.left) fun s i h hpre => ?passes,
    .of_effect (fun _ _ => rfl) (fun _ _ => And.left) fun s i h hpre => ?waits,
    fun w j hsome hall l hl => Warp.lane_checkJoin_due (by rw [Warp.joinDue, hsome, hall]; rfl) hl,
    fun w j hall => Warp.checkJoin_not_due (by rw [Warp.joinDue, hall, Bool.and_false])⟩
  case passes =>
    obtain ⟨-, hnone, hreleased⟩ := hpre
    simp only [hnone, hreleased, true_or, if_true]
    obtain ⟨honly, w', hstands, hw'⟩ :=
      i.await_checkJoins (State.laneIss_warp h) 0 (.join i.f.a.toNat) Warp.jtimer
    exact ⟨w', honly, hw', hstands.passed⟩
  case waits =>
    obtain ⟨-, hsome, hreleased⟩ := hpre
    simp only [hreleased]
    obtain ⟨honly, w', hstands, hw'⟩ := i.await_checkJoins (State.laneIss_warp h) (i.act &&& i.joinA)
      (.join i.f.a.toNat) fun w => if i.act &&& i.joinA = 0 ∨ (look w.jtimer i.f.a.toNat).isSome then w.jtimer
        else put w.jtimer i.f.a.toNat (s.resident i.core i.w, i.pc)
    have hj : w'.j = i.w.j := (congrArg Warp.j hstands.same :)
    refine ⟨_, honly, hw', hj, fun l hl hgrp => ?_⟩
    by_cases hm : bitOf (i.act &&& i.joinA) l = true
    · have hlane := hstands.stand l hl hm
      rw [bitOf_and, Bool.and_eq_true] at hm
      rw [if_pos hm]
      have hpc : (w'.lane l).pc = (i.w.lane l).pc := by rw [hlane]
      have hwait : (w'.lane l).wait = .join i.f.a.toNat := by rw [hlane]
      have hadv : (w'.lane l).adv = i.f.len := by rw [hlane]
      exact ⟨hpc, hwait, hadv⟩
    · have hlane := hstands.gone l hl (by rw [bitOf_and_not hgrp]; simpa using hm)
      rw [bitOf_and, Bool.and_eq_true] at hm
      rw [if_neg hm]
      exact hlane

/-! ### Barriers (R173) -/

theorem barBad_iff (b : Option Barrier) (counted : Bool) (n limit : Nat) : barBad b counted n limit = true ↔
    (counted = true ∧ (n = 0 ∨ limit < n)) ∨ ∃ x, b = some x ∧ (x.counted ≠ counted ∨ (counted = true ∧ x.count ≠ n)) := by
  cases b <;> simp [barBad]

theorem Barrier.full_iff (b : Barrier) (live : Nat) : b.full live = true ↔
    if b.counted then b.count ≤ b.total else b.total = live := by
  unfold Barrier.full
  split <;> exact decide_eq_true_iff

/-- Settles O20: each arm of BAR and GBAR is the branch that its condition takes. -/
theorem barriers : Obligations.Barriers := by
  unfold Obligations.Barriers
  refine ⟨.of_effect (fun _ _ => rfl) (fun _ _ => And.left) fun s i _ hpre => ?arrives,
    .of_effect (fun _ _ => rfl) (fun _ _ => And.left) fun s i _ hpre => ?faults,
    fun g => .of_effect (fun _ _ => rfl) (fun _ _ => And.left) fun s i _ hpre => ?gang, barBad_iff, Barrier.full_iff⟩
  case arrives =>
    obtain ⟨-, hact, hreleased, hgood⟩ := hpre
    simp only [if_neg hact, hgood, hreleased, Bool.false_eq_true, if_false]
  case faults =>
    obtain ⟨-, hact, hbad⟩ := hpre
    simp only [if_neg hact, hbad, if_true]
  case gang =>
    obtain ⟨-, hact, hreleased, rfl, hgood⟩ := hpre
    simp only [if_neg hact, hgood, hreleased, Bool.false_eq_true, if_false]

end Sys2Proof.Machine
end

section
/-! The end of lanes, and of the warp with its last lanes (R171, R173, R175). -/

namespace Sys2Proof.Machine

/-! ### Waits that end while the warps stand -/

theorem Warp.woken_onMask (w : Warp) (m : Word) {g : Nat → Lane → Lane} (hv : ∀ l x, (g l x).v = x.v)
    (hw : ∀ l x, x.wait = Wait.none → g l x = x) : w.Woken (w.onMask m g) :=
  w.woken_onLanes (fun l x => by rw [apply_ite Lane.v, hv, ite_self]) fun l x hx => by rw [hw l x hx, ite_self]

/-- Every warp stands in its slot with no more than waits of its lanes ended, and memory is the same. -/
def State.Wakes (s t : State) : Prop :=
  t.mem = s.mem ∧ ∀ k w, look s.warps k = some w → ∃ w', look t.warps k = some w' ∧ w.Woken w'

theorem State.Wakes.refl (s : State) : s.Wakes s := ⟨rfl, fun _ w h => ⟨w, h, .refl w⟩⟩

theorem State.Wakes.trans {s t u : State} (h : s.Wakes t) (h' : t.Wakes u) : s.Wakes u := by
  refine ⟨h'.1.trans h.1, fun k w hw => ?_⟩
  obtain ⟨w', hw', hwoken⟩ := h.2 k w hw
  obtain ⟨w'', hw'', hwoken'⟩ := h'.2 k w' hw'
  exact ⟨w'', hw'', hwoken.trans hwoken'⟩

theorem State.Wakes.foldl {α : Type} {f : State → α → State} (h : ∀ (s : State) a, s.Wakes (f s a)) (xs : List α)
    (s : State) : s.Wakes (xs.foldl f s) := by
  induction xs generalizing s with
  | nil => exact .refl s
  | cons x xs ih => exact (h s x).trans (ih _)

theorem State.onWarpKey_wakes (s : State) (key : Nat) {g : Warp → Warp} (hg : ∀ w : Warp, w.Woken (g w)) :
    s.Wakes (s.onWarpKey key g) := by
  refine ⟨rfl, fun k w hw => ?_⟩
  by_cases hk : k = key
  · subst hk
    exact ⟨g w, by rw [State.onWarpKey_warps, look_adjust_self, hw, Option.map_some], hg w⟩
  · exact ⟨w, by rw [State.onWarpKey_warps, look_adjust_ne _ _ hk, hw], .refl w⟩

/-- The lanes that arrived at a barrier go on (R173). -/
theorem State.passArrived_wakes (s : State) (b : Barrier) {wait : Wait} (hwait : wait ≠ .none) :
    s.Wakes (s.passArrived b wait) :=
  .foldl (fun s (e : Nat × Word) => s.onWarpKey_wakes e.1 fun w =>
    w.woken_onMask e.2 (fun _ x => by split <;> rfl) fun _ x hx => if_neg (hx ▸ hwait.symm)) b.arrived s

theorem State.checkBars_wakes (s : State) (k : Nat) : s.Wakes (s.checkBars k) := by
  unfold State.checkBars
  split
  · exact .refl s
  · exact .foldl (fun s (e : Nat × Barrier) => s.passArrived_wakes e.2 Wait.noConfusion) _ s

theorem State.checkGbars_wakes (s : State) (g : Nat) : s.Wakes (s.checkGbars g) := by
  unfold State.checkGbars
  split
  · exact .refl s
  · exact .foldl (fun s (e : Nat × Barrier) => s.passArrived_wakes e.2 Wait.noConfusion) _ s

/-! ### Lanes end (R175) -/

/-- A warp in which lanes have ended, before its join masks and its handler are examined. -/
def Warp.exited (w : Warp) (m : Word) : Warp :=
  { w.onMask m fun _ x => { x with pc := 0xFFFFFFFF#32, wait := .none, hold := false, answers := [], extData := [],
                                   extErr := [], age := 0 } with
    live := w.live &&& ~~~m, j := w.j.map (· &&& ~~~m) }

theorem Warp.exitLanes_eq (w : Warp) (m : Word) : w.exitLanes m = (w.exited m).checkJoins.endHandler := rfl

theorem Warp.exited_lane_regs (w : Warp) (m : Word) {l : Nat} (hl : l < w.lanes.length) :
    ((w.exited m).lane l).v = (w.lane l).v := by
  refine (congrArg Lane.v (Warp.lane_onMask w m _ l hl)).trans ?_
  rw [apply_ite Lane.v, ite_self]

/-- The PC of an exited lane reads as all ones (R175). -/
theorem Warp.exited_lane_gone (w : Warp) {m : Word} {l : Nat} (hl : l < w.lanes.length) (hm : bitOf m l = true) :
    ((w.exited m).lane l).pc = 0xFFFFFFFF#32 ∧ ((w.exited m).lane l).wait = .none := by
  have hlane := Warp.lane_onMask w m (fun _ x => { x with
    pc := 0xFFFFFFFF#32, wait := .none, hold := false, answers := [], extData := [], extErr := [], age := 0 }) l hl
  rw [if_pos hm] at hlane
  exact ⟨congrArg Lane.pc hlane, congrArg Lane.wait hlane⟩

theorem Warp.advance_lane_regs (w : Warp) (m : Word) (f : Fields) {l : Nat} (hl : l < w.lanes.length) :
    ((w.advance m f).counted.lane l).v = (w.lane l).v := by
  refine (congrArg Lane.v (Warp.lane_onMask w m _ l hl)).trans ?_
  rw [apply_ite Lane.v, ite_self]

/-- Lanes that returned take their resume PCs at the end of the handler (R182). -/
theorem Warp.endHandler_woken (w : Warp) : w.Woken w.endHandler := by
  have hreturn : w.Woken (w.onMask (w.handler &&& w.live) fun _ x =>
      match x.wait with
      | .rte resume => { x with pc := resume, wait := .none, age := 0 }
      | _ => x) :=
    w.woken_onMask _ (fun _ x => by split <;> rfl) fun _ x hx => by simp only [hx]
  unfold Warp.endHandler
  split
  · exact .refl w
  · split
    · exact ⟨hreturn.m, hreturn.j, hreturn.live, hreturn.elapsed, hreturn.count, hreturn.regs, hreturn.stay⟩
    · exact .refl w

theorem Warp.exitLanes_woken (w : Warp) (m : Word) : (w.exited m).Woken (w.exitLanes m) :=
  (Warp.checkJoins_woken _).trans (Warp.endHandler_woken _)

section
variable {s : State} {i : Iss}

/-- The exit is an examination of the slot, where the active lanes of the warp have ended. -/
theorem Iss.exit_eq (h : s.warp? i.core i.slot = some i.w) :
    ∃ (u : State) (w' : Warp), i.exit s = u.checkWarp i.core i.slot ∧ u.mem = s.mem ∧ u.warp? i.core i.slot = some w' ∧
      ((i.w.advance i.grp i.f).counted.exited i.act).Woken w' := by
  have hended : ∀ t : State, ((i.commitWarp s fun w => w).onWarp i.core i.slot fun w => w.exitLanes i.act).Wakes t →
      t.mem = s.mem ∧ ∃ w', t.warp? i.core i.slot = some w' ∧
        ((i.w.advance i.grp i.f).counted.exited i.act).Woken w' := by
    intro t hwakes
    obtain ⟨w', hw', hwoken⟩ := hwakes.2 _ _ (State.warp?_onWarp_of_eq (State.warp?_onWarp_of_eq h _) _)
    exact ⟨hwakes.1, w', hw', (Warp.exitLanes_woken _ _).trans hwoken⟩
  unfold Iss.exit
  dsimp only
  cases i.w.crew with
  | none =>
    obtain ⟨hmem, w', hw', hwoken⟩ := hended _ (.refl _)
    exact ⟨_, w', rfl, hmem, hw', hwoken⟩
  | some k =>
    obtain ⟨hmem, w', hw', hwoken⟩ := hended _ ((State.checkBars_wakes _ _).trans (State.checkGbars_wakes _ _))
    exact ⟨_, w', rfl, hmem, hw', hwoken⟩

/-- With no join counter to lower, the lanes exit at once (R366). -/
theorem Iss.exitJoined_none (h : i.joining = 0) : i.exitJoined s = i.exit s := by
  have hlanes : lanesOf 0#32 = [] := by decide
  unfold Iss.exitJoined
  dsimp only
  rw [h, groupOut_ok (by simp [hlanes])]
  simp [hlanes, State.countersLeased]

/-- Lanes exit while others of the warp live on. -/
theorem Iss.exit_some (h : s.warp? i.core i.slot = some i.w) (hlive : i.w.live &&& ~~~i.act ≠ 0) :
    (∀ a, (i.exit s).mem.read a = s.mem.read a) ∧ ∃ w', (i.exit s).warp? i.core i.slot = some w' ∧
      w'.live = i.w.live &&& ~~~i.act ∧ w'.j = i.w.j.map (· &&& ~~~i.act) ∧ w'.m = i.w.m ∧
      w'.lanes.length = i.w.lanes.length ∧ ∀ l, l < i.w.lanes.length → look (w'.lane l).v = look (i.w.lane l).v ∧
        (bitOf i.act l = true → (w'.lane l).pc = 0xFFFFFFFF#32 ∧ (w'.lane l).wait = .none) := by
  obtain ⟨u, w', hexit, hmem, hw', hwoken⟩ := i.exit_eq h
  have hstands : u.checkWarp i.core i.slot = u := by
    rw [State.checkWarp, hw']
    exact if_pos (hwoken.live ▸ hlive)
  have hadvanced : (i.w.advance i.grp i.f).counted.lanes.length = i.w.lanes.length := Warp.length_onMask _ _ _
  have hcount : ((i.w.advance i.grp i.f).counted.exited i.act).lanes.length = i.w.lanes.length :=
    (Warp.length_onMask _ _ _).trans hadvanced
  rw [hexit, hstands]
  refine ⟨fun a => by rw [hmem], w', hw', hwoken.live, hwoken.j, hwoken.m, hwoken.count.trans hcount, fun l hl =>
    ⟨?regs, fun hact => ?gone⟩⟩
  case regs =>
    rw [hwoken.regs l (hcount ▸ hl), Warp.exited_lane_regs _ _ (hadvanced ▸ hl), Warp.advance_lane_regs _ _ _ hl]
  case gone =>
    have hgone := Warp.exited_lane_gone (i.w.advance i.grp i.f).counted (hadvanced ▸ hl) hact
    rw [hwoken.stay l (hcount ▸ hl) hgone.2]
    exact hgone

end

/-! ### The last lanes: the warp leaves its slot (R175) -/

section
variable {s : State} {n : Nat}

theorem State.post_sameSlots (s : State) (q : Nat) (r : Rec) : s.SameSlots (s.post q r) := by
  unfold State.post
  split
  · exact .refl s
  · split
    · exact (s.onQi_sameSlots q _).trans (State.flush_sameSlots _ q)
    · exact .refl s

theorem State.postVd_sameSlots (s : State) (vd : Nat) (r : Rec) : s.SameSlots (s.postVd vd r) := by
  unfold State.postVd
  split
  · exact .refl s
  · exact s.post_sameSlots _ r

theorem State.endPreempt_sameSlots (s : State) (u : UnitId) : s.SameSlots (s.endPreempt u) := by
  have hended : s.SameSlots { s with preempts := s.preempts.filter fun p => p.unit != u } := .refl s
  unfold State.endPreempt
  dsimp only
  split
  · exact hended
  · split
    · exact hended.trans (State.postVd_sameSlots _ _ _)
    · exact hended

/-- A gang that completes places no warp. -/
theorem State.checkGang_no_warp (h : look s.warps n = none) (g : Nat) : look (s.checkGang g).warps n = none := by
  have hended := (s.endPreempt_sameSlots (.gang g)).no_warp h
  unfold State.checkGang
  split
  · exact h
  · dsimp only
    split
    · rw [State.onTask_warps]
      exact hended
    · exact h

/-- A crew that completes places no warp. -/
theorem State.checkCrew_no_warp (h : look s.warps n = none) (k : Nat) : look (s.checkCrew k).warps n = none := by
  unfold State.checkCrew
  split
  · exact h
  · split
    · exact State.checkGang_no_warp (s := (s.disown k _).onCrewKey k _) h _
    · exact h

/-- A warp without live lanes leaves its slot. -/
theorem State.checkWarp_leaves {core slot : Nat} {w : Warp} (h : s.warp? core slot = some w) (hlive : w.live = 0) :
    (s.checkWarp core slot).warp? core slot = none := by
  have hdropped : ∀ t : State,
      look ({ t with warps := drop t.warps (warpKey core slot) } : State).tidyLeases.warps (warpKey core slot) = none :=
    fun t => (State.tidyLeases_sameSlots _).no_warp (look_drop_self _ _)
  have hleft := hdropped (if w.crew.isNone then s.endPreempt (.loose core slot) else s)
  unfold State.checkWarp
  rw [h]
  dsimp only at hleft ⊢
  rw [if_neg (not_not.2 hlive)]
  generalize State.tidyLeases _ = t at hleft ⊢
  split
  · exact (State.disownLoose_sameSlots (t.onTask _ _) _ _).no_warp hleft
  · exact State.checkCrew_no_warp (s := (t.onCrewKey _ _).trimDq _) hleft _

end

theorem Iss.exit_all {s : State} {i : Iss} (h : s.warp? i.core i.slot = some i.w) (hall : i.act = i.w.live) :
    (i.exit s).warp? i.core i.slot = none := by
  obtain ⟨u, w', hexit, -, hw', hwoken⟩ := i.exit_eq h
  have hlive : w'.live = i.w.live &&& ~~~i.act := hwoken.live
  rw [hexit]
  exact State.checkWarp_leaves hw' (by rw [hlive, hall, BitVec.and_not_self])

/-- Settles O21: lanes that exit leave the rest of their warp with waits ended at most, and the last of them leave its slot
empty; PARTSET and LPCRD are a change of the warp and a write. -/
theorem exitTilesAndPcs : Obligations.ExitTilesAndPcs := by
  unfold Obligations.ExitTilesAndPcs
  refine ⟨fun u => .of_effect (fun _ _ => rfl) (fun _ _ => And.left) fun s i h hpre => ?some,
    fun u => .of_effect (fun _ _ => rfl) (fun _ _ => And.left) fun s i h hpre => ?all,
    .of_effect (fun _ _ => rfl) (fun _ _ => And.left) fun s i h hpre => ?partset,
    .of_effect (fun _ _ => rfl) (fun _ _ => And.left) fun s i h hpre => ?bound, fun _ => rfl,
    .of_lane (fun _ _ => rfl) fun s i h _ => Iss.write_wrote (State.laneIss_warp h) false _⟩
  case some =>
    obtain ⟨-, hact, hjoining, hlive, hexiting⟩ := hpre
    have hnone : i.exiting = 0 := by
      have hnot : i.act ≠ i.w.live := fun hall => hlive (by rw [hall, BitVec.and_not_self])
      rw [Iss.exiting, if_neg hnot]
      exact hjoining
    obtain ⟨-, rfl⟩ | ⟨hsome, -⟩ := hexiting
    · simp only [if_neg hact, if_pos hnone]
      exact i.exit_some (State.laneIss_warp h) hlive
    · exact absurd hnone hsome
  case all =>
    obtain ⟨-, hact, hall, hjoining, hprods, hreleased, hwarp⟩ := hpre
    have hexiting : i.exiting ≠ 0 := by rw [Iss.exiting, if_pos hall]; decide
    have hidle : ¬ (i.act = i.w.live ∧ i.w.prods ≠ []) := fun hbusy => hbusy.2 hprods
    simp only [if_neg hact, if_neg hexiting, if_neg hidle, hreleased]
    rw [Iss.exitJoined_none hjoining]
    exact i.exit_all hwarp hall
  case partset =>
    rw [hpre.2]
    exact i.commitWarp_ended (State.laneIss_warp h) _
  case bound =>
    rw [if_pos (Option.isSome_iff_ne_none.2 hpre.2)]

end Sys2Proof.Machine
end

section
/-! Faults and traps: the entry of a handler and the stop of a context, software traps, and the return (R43, R181 to R185). -/

namespace Sys2Proof.Machine

/-! ### A fault with a handler (R181, R183) -/

/-- An unbound warp has no lanes to widen a fault to. -/
theorem Warp.widenBound_unbound {w : Warp} (h : w.chain.bound = none) (m : Word) : w.widenBound m = m := by
  rw [Warp.widenBound, h]
  rfl

/-- The class stands in the low byte of TCAUSE (Table 7.3). -/
theorem tcause_class (cls ilen eng op : Nat) (wide pair : Bool) :
    bits (w32 (cls + ilen * 2 ^ 9 + (if wide then 2 ^ 12 else 0) + (if pair then 2 ^ 13 else 0) + eng * 2 ^ 16 +
      op * 2 ^ 20)).toNat 7 0 = cls % 256 := by
  simp only [bits, w32, BitVec.toNat_ofNat]
  split <;> split <;> omega

/-- A lane as it enters the handler (R181, R183). -/
def Lane.entering (x : Lane) (entry : Word) (f : LaneFlt) (l : Nat) : Lane :=
  { x with pc := entry, wait := .none, hold := false, answers := [], extData := [], extErr := [], age := 0,
           taddr := if bitOf f.lanes l then f.addr l else 0,
           tdata := if bitOf f.lanes l then f.data l else 0 }

/-- Lanes of a mask change, and the other live lanes lose their age (R165). -/
theorem Warp.lane_entering (w : Warp) {hand m : Word} (hhand : hand = m) (g : Nat → Lane → Lane) {l : Nat}
    (hl : l < w.lanes.length) :
    ((w.onMask (w.live &&& ~~~hand) fun _ x => { x with age := 0 }).onMask hand g).lane l =
      if bitOf m l then g l (w.lane l) else if bitOf w.live l then { w.lane l with age := 0 } else w.lane l := by
  subst hhand
  rw [Warp.lane_onMask _ _ _ l (by rwa [Warp.length_onMask]), Warp.lane_onMask _ _ _ l hl]
  by_cases hlive : bitOf w.live l = true
  · rw [bitOf_and_not hlive]
    cases hm : bitOf hand l <;> simp [hlive]
  · simp [bitOf_and, hlive]

/-- The lanes of a fault enter the handler, with nothing of the instruction done. -/
theorem State.enterHandler_enters {s : State} {core slot : Nat} {w : Warp} (h : s.warp? core slot = some w)
    (hbound : w.chain.bound = none) (i : Src) (f : LaneFlt) (entry : Word) :
    ∃ (u : State) (w' : Warp), s.enterHandler core slot i f entry = u.tidyLeases ∧ u.warp? core slot = some w' ∧
      u.mem = s.mem ∧ w'.handler = f.active ∧ w'.tpc = i.pc ∧ w'.tlanes = f.lanes ∧
      bits w'.tcause.toNat 7 0 = f.cls % 256 ∧ w'.live = w.live ∧ w'.m = w.m ∧ w'.j = w.j ∧ w'.instr = w.instr ∧
      ∀ l, l < w.lanes.length → look (w'.lane l).v = look (w.lane l).v ∧
        if bitOf f.active l then
          (w'.lane l).pc = entry ∧ (w'.lane l).wait = .none ∧
            (w'.lane l).taddr = (if bitOf f.lanes l then f.addr l else 0) ∧
            (w'.lane l).tdata = (if bitOf f.lanes l then f.data l else 0)
        else w'.lane l = if bitOf w.live l then { w.lane l with age := 0 } else w.lane l := by
  have hhand := Warp.widenBound_unbound hbound f.active
  refine ⟨_, _, rfl, State.warp?_onWarp_of_eq h _, rfl, hhand, rfl, rfl, tcause_class _ _ _ _ _ _, rfl, rfl, rfl, rfl,
    fun l hl => ?_⟩
  have hlane (y : Lane) (hy : y = if bitOf f.active l then (w.lane l).entering entry f l
      else if bitOf w.live l then { w.lane l with age := 0 } else w.lane l) :
      look y.v = look (w.lane l).v ∧
        if bitOf f.active l then
          y.pc = entry ∧ y.wait = .none ∧ y.taddr = (if bitOf f.lanes l then f.addr l else 0) ∧
            y.tdata = (if bitOf f.lanes l then f.data l else 0)
        else y = if bitOf w.live l then { w.lane l with age := 0 } else w.lane l := by
    subst hy
    by_cases hact : bitOf f.active l = true
    · simp only [if_pos hact]
      exact ⟨rfl, rfl, rfl, rfl, rfl⟩
    · simp only [if_neg hact, and_true]
      rw [apply_ite Lane.v, ite_self]
  exact hlane _ (w.lane_entering hhand (fun l x => x.entering entry f l) hl)

section
variable {s : State} {core slot : Nat} {w : Warp} {x : Ctx} (hw : s.warp? core slot = some w) (hx : s.ctx? w.ctx = some x)
include hw hx

/-- A fault whose class has a handler, in lanes outside one, enters it (R43, R181). -/
theorem State.trap_enters {f : LaneFlt} (hout : w.handler = 0) (hcls : hasHandler f.cls = true) (hoff : x.trapOff ≠ 0)
    {b : Nat × Nat} (hbounds : x.trapBounds = some b) (i : Src) :
    s.trap core slot i f = (s.countFault w.ctx f.cls).enterHandler core slot i f x.trapOff := by
  have hgo : (!hasHandler f.cls || x.trapOff == 0) = false := by simpa [hcls] using hoff
  simp only [State.trap, hw, hx, hout, ne_eq, not_true_eq_false, if_false, hgo, Bool.false_eq_true, hbounds]

/-- A fault in a handler stops the context with DOUBLE (R184). -/
theorem State.trap_double {f : LaneFlt} (hin : w.handler ≠ 0) (i : Src) :
    s.trap core slot i f = s.stop w.ctx Cls.double (s.taskNo w.task) (w.qual (lowest f.lanes)) i.pc
      (f.addr (lowest f.lanes)) (dieOf core) := by
  simp only [State.trap, hw, hx, if_pos hin]

/-- A fault without a handler stops the context with its class (R43). -/
theorem State.trap_stops {f : LaneFlt} (hout : w.handler = 0) (hnone : hasHandler f.cls = false ∨ x.trapOff = 0) (i : Src) :
    s.trap core slot i f = s.stop w.ctx f.cls (s.taskNo w.task) (w.qual (lowest f.lanes)) i.pc
      (f.addr (lowest f.lanes)) (dieOf core) := by
  have hstop : (!hasHandler f.cls || x.trapOff == 0) = true := by simpa using hnone
  simp only [State.trap, hw, hx, hout, ne_eq, not_true_eq_false, if_false, hstop, if_true]

end

/-! ### The stop of a context (R43, R440) -/

/-- The kill that a fault begins. -/
def faultKill (s : State) (cls source qual : Nat) (fpc : Word) (faddr : DWord) : Kill :=
  { status := if cls = Cls.killed then 2 else 1, cls, source, qual, fpc, faddr, done := 0, reset := 0, start := s.time,
    emptyTable := false }

/-- A running context has no kill in progress. -/
theorem State.runs_kill {s : State} {c : Nat} {x : Ctx} (hx : s.ctx? c = some x) (hruns : s.runs c = true) :
    x.kill = none := by
  simp only [State.runs, hx, Bool.and_eq_true, Option.isNone_iff_eq_none] at hruns
  exact hruns.1

/-- The context that a change of it leaves. -/
theorem State.ctx?_onCtx_of_eq {s : State} {c : Nat} {x : Ctx} (h : s.ctx? c = some x) (g : Ctx → Ctx) :
    (s.onCtx c g).ctx? c = some (g x) := by
  rw [State.ctx?, State.onCtx_ctxs, look_adjust_self]
  exact congrArg (Option.map g) h

/-- The fault of a running context is counted, its kill begins, and a WORLD fault raises the alarm. -/
theorem State.stop_kills {s : State} {c : Nat} {x : Ctx} (hx : s.ctx? c = some x) (hruns : s.runs c = true)
    (cls source qual : Nat) (fpc : Word) (faddr : DWord) (unit : Nat) :
    ∃ u : State, u.ctx? c = some { x with faults := put x.faults cls (satAdd 0xFFFF (count x.faults cls) 1),
                                          kill := some (faultKill s cls source qual fpc faddr) } ∧
      { u with ctxs := s.ctxs } = s ∧
      s.stop c cls source qual fpc faddr unit = if cls = Cls.world then (u.killStep c).alarm unit 1 else u.killStep c := by
  have hcounted : (s.countFault c cls).ctx? c =
      some { x with faults := put x.faults cls (satAdd 0xFFFF (count x.faults cls) 1) } := State.ctx?_onCtx_of_eq hx _
  have hkill : (s.countFault c cls).kill c (faultKill s cls source qual fpc faddr) =
      ((s.countFault c cls).onCtx c fun y => { y with kill := some (faultKill s cls source qual fpc faddr) }).killStep c := by
    simp only [State.kill, hcounted, State.runs_kill hx hruns]
  refine ⟨(s.countFault c cls).onCtx c fun y => { y with kill := some (faultKill s cls source qual fpc faddr) },
    State.ctx?_onCtx_of_eq hcounted _, rfl, ?_⟩
  rw [← hkill, State.stop, hruns]
  rfl

/-- Settles O22: a fault enters the handler of its lanes or stops the context, and a stop is the beginning of a kill. -/
theorem faultsTaken : Obligations.FaultsTaken := by
  unfold Obligations.FaultsTaken
  refine ⟨fun s core slot i f w x b hw hx hout hcls hoff hbounds hunbound => ?_,
    fun s core slot i f w x hw hx => ⟨fun hin => State.trap_double hw hx hin i, fun hout hnone =>
      State.trap_stops hw hx hout hnone i⟩,
    fun s core slot cls c d hc => ?_, fun s c cls source qual unit fpc faddr x hx hruns =>
      State.stop_kills hx hruns cls source qual fpc faddr unit,
    fun s c cls source qual unit fpc faddr hidle => ?_⟩
  · rw [State.trap_enters hw hx hout hcls hoff hbounds]
    exact State.enterHandler_enters (s := s.countFault w.ctx f.cls) hw hunbound i f x.trapOff
  · simp only [State.trapLead, hc]
  · rw [State.stop, hidle]
    rfl

end Sys2Proof.Machine
end

section
/-! Software traps and the return from a handler (R182, R185). -/

namespace Sys2Proof.Machine

/-! ### The end of a handler (R182) -/

/-- The handler is over once every live lane of it has returned; each takes its resume PC. -/
theorem Warp.endHandler_ends {w : Warp} (hin : w.handler ≠ 0)
    (hall : ∀ l, bitOf w.handler l = true → bitOf w.live l = true → ∃ r, (w.lane l).wait = .rte r) :
    w.endHandler.handler = 0 ∧ ∀ l r, l < w.lanes.length → bitOf (w.handler &&& w.live) l = true →
      (w.lane l).wait = .rte r → (w.endHandler.lane l).pc = r ∧ (w.endHandler.lane l).wait = .none := by
  have hover : w.endHandler = { (w.onMask (w.handler &&& w.live) fun _ x =>
      match x.wait with
      | .rte resume => { x with pc := resume, wait := .none, age := 0 }
      | _ => x) with handler := 0 } := by
    refine (if_neg hin).trans (if_pos (List.all_eq_true.2 fun l hl => ?_))
    rw [Bool.or_eq_true, Bool.not_eq_true']
    cases hlive : bitOf w.live l with
    | false => exact .inl rfl
    | true =>
      obtain ⟨r, hr⟩ := hall l (List.mem_filter.1 hl).2 hlive
      exact .inr (by rw [hr])
  rw [hover]
  refine ⟨rfl, fun l r hl hmask hr => ?_⟩
  have hlane (y : Lane) (hy : y = { w.lane l with pc := r, wait := .none, age := 0 }) : y.pc = r ∧ y.wait = .none := by
    subst hy
    exact ⟨rfl, rfl⟩
  exact hlane _ ((Warp.lane_onMask _ _ _ l hl).trans (by rw [hmask, hr]; rfl))

/-- The handler goes on while a live lane of it has not returned. -/
theorem Warp.endHandler_goes_on {w : Warp} {k : Nat} (hk : bitOf w.handler k = true) (hlive : bitOf w.live k = true)
    (hwait : ∀ r, (w.lane k).wait ≠ .rte r) : w.endHandler = w := by
  unfold Warp.endHandler
  split
  · rfl
  · refine if_neg fun hall => ?_
    have hreturned := List.all_eq_true.1 hall k (List.mem_filter.2 ⟨List.mem_range.2 (lt_of_bitOf hk), hk⟩)
    rw [hlive, Bool.not_true, Bool.false_or] at hreturned
    split at hreturned
    case h_1 r hr => exact hwait r hr
    case h_2 => cases hreturned

/-! ### Lanes return (R182) -/

/-- The active lanes wait with their resume PCs. -/
def Warp.returning (w : Warp) (act : Word) (resume : Nat → Word) (sp : Option Word) : Warp :=
  w.onMask act fun l x => { x with wait := .rte (resume l), sp }

theorem Warp.rte_eq (w : Warp) (act : Word) (resume : Nat → Word) (sp : Option Word) :
    w.rte act resume sp = (w.returning act resume sp).endHandler := rfl

section
variable {w : Warp} {act : Word} {l : Nat} (resume : Nat → Word) (sp : Option Word) (hl : l < w.lanes.length)
include hl

theorem Warp.returning_active (hact : bitOf act l = true) :
    (w.returning act resume sp).lane l = { w.lane l with wait := .rte (resume l), sp } := by
  rw [Warp.returning, Warp.lane_onMask _ _ _ l hl, if_pos hact]

theorem Warp.returning_inactive (hact : bitOf act l = false) : (w.returning act resume sp).lane l = w.lane l := by
  rw [Warp.returning, Warp.lane_onMask _ _ _ l hl, hact]
  rfl

end

section
variable {w : Warp} {act : Word} (resume : Nat → Word) (sp : Option Word)

/-- The last live lanes of a handler return. -/
theorem Warp.rte_last (hin : w.handler ≠ 0) (hlast : w.handler &&& w.live &&& ~~~act = 0) (hcount : w.lanes.length = 32) :
    (w.rte act resume sp).handler = 0 ∧ ∀ l, l < 32 → bitOf (act &&& w.handler &&& w.live) l = true →
      ((w.rte act resume sp).lane l).pc = resume l ∧ ((w.rte act resume sp).lane l).wait = .none := by
  have hcount' : (w.returning act resume sp).lanes.length = 32 := (Warp.length_onMask _ _ _).trans hcount
  have hwaits : ∀ l, bitOf act l = true → ((w.returning act resume sp).lane l).wait = .rte (resume l) := fun l hact => by
    rw [Warp.returning_active resume sp (hcount ▸ lt_of_bitOf hact) hact]
  have hall : ∀ l, bitOf w.handler l = true → bitOf w.live l = true →
      ∃ r, ((w.returning act resume sp).lane l).wait = .rte r := fun l hhand hlive => by
    have hact : bitOf act l = true := by
      have hnone : bitOf (w.handler &&& w.live &&& ~~~act) l = false := by rw [hlast, bitOf_zero]
      simpa [bitOf_and, bitOf_not (lt_of_bitOf hhand), hhand, hlive] using hnone
    exact ⟨_, hwaits l hact⟩
  obtain ⟨hover, hresumed⟩ := Warp.endHandler_ends (w := w.returning act resume sp) hin hall
  refine ⟨hover, fun l hl hmask => ?_⟩
  rw [BitVec.and_assoc, bitOf_and, Bool.and_eq_true] at hmask
  exact hresumed l _ (hcount' ▸ hl) hmask.2 (hwaits l hmask.1)

/-- Lanes that return before the last wait with their resume PCs. -/
theorem Warp.rte_waits {k : Nat} (hleft : bitOf (w.handler &&& w.live &&& ~~~act) k = true)
    (hwait : ∀ r, (w.lane k).wait ≠ .rte r) (hcount : w.lanes.length = 32) :
    (w.rte act resume sp).handler = w.handler ∧ ∀ l, l < 32 → bitOf act l = true →
      ((w.rte act resume sp).lane l).pc = (w.lane l).pc ∧ ((w.rte act resume sp).lane l).wait = .rte (resume l) := by
  have hk : k < 32 := lt_of_bitOf hleft
  simp only [bitOf_and, bitOf_not hk, Bool.and_eq_true, Bool.not_eq_true'] at hleft
  obtain ⟨⟨hhand, hlive⟩, hact⟩ := hleft
  have hstays : (w.returning act resume sp).lane k = w.lane k := Warp.returning_inactive resume sp (hcount ▸ hk) hact
  rw [Warp.rte_eq, Warp.endHandler_goes_on (w := w.returning act resume sp) hhand hlive (by rwa [hstays])]
  refine ⟨rfl, fun l hl hl' => ?_⟩
  rw [Warp.returning_active resume sp (hcount ▸ hl) hl']
  exact ⟨rfl, rfl⟩

end

/-! ### RTE, TRAP, BRK and NOP -/

theorem rte_does {mo : Nat} {resume : Iss → Nat → Word} (hresume : ∀ i : Iss, i.mo = mo → i.resume = resume i) :
    LaneDoesWhen .rte 1 0x12 (fun _ i => i.mo = mo ∧ i.w.handler ≠ 0 ∧ i.rteSplit = false) fun s t i =>
      ∃ u w', Ended s u i i.w ∧ u.warp? i.core i.slot = some w' ∧ OnlyWarp s t i.core i.slot ∧
        t.warp? i.core i.slot = some (w'.rte i.act (resume i) i.f.live) := by
  refine .of_lane (fun _ _ => rfl) fun s i h hpre => ?_
  obtain ⟨hmo, hin, hwhole⟩ := hpre
  simp only [if_neg hin, hwhole, Bool.false_eq_true, if_false, hresume i hmo]
  obtain ⟨honly, w', hw', hpassed⟩ := i.commitWarp_ended (State.laneIss_warp h) id
  exact ⟨i.done s, w', ⟨honly, w', hw', hpassed⟩, hw', honly.trans (State.onWarp_only _ _ _ _),
    State.warp?_onWarp_of_eq hw' _⟩

/-- Settles O23: TRAP and BRK are a fault, NOP the end of the instruction, and RTE a wait that the last live lane of the
handler ends. -/
theorem trapInstructions : Obligations.TrapInstructions := by
  unfold Obligations.TrapInstructions
  refine ⟨.of_effect (fun _ _ => rfl) (fun _ _ => And.left) fun s i _ hpre => if_neg hpre.2,
    .of_effect (fun _ _ => rfl) (fun _ _ _ => rfl) fun s i _ hact => if_neg hact,
    fun s f i h hgoes _ => ?brkLead,
    .of_effect (fun _ _ => rfl) (fun _ _ _ => rfl) fun s i h _ => i.commitWarp_ended (State.laneIss_warp h) id,
    fun s f i h hgoes _ => ?nopLead, fun mo resume h => rte_does fun i hmo => ?resume,
    .of_lane (fun _ _ => rfl) fun s i _ hpre => ?split, .of_lane (fun _ _ => rfl) fun s i _ hpre => ?outside,
    fun w act resume sp hin hlast hcount => Warp.rte_last resume sp hin hlast hcount,
    fun w act resume sp k _ hcount hleft hwait => Warp.rte_waits resume sp hleft hwait hcount⟩
  case brkLead =>
    obtain ⟨-, -, -, -, rfl, -⟩ := State.leadIss_spec h
    exact ⟨_, issue_goes_lead h hgoes _ _ _, rfl⟩
  case nopLead =>
    obtain ⟨-, -, -, -, rfl, -⟩ := State.leadIss_spec h
    exact ⟨_, issue_goes_lead h hgoes _ _ _, i.commit_became (State.leadIss_crew h) id⟩
  case resume =>
    funext l
    obtain ⟨rfl, rfl⟩ | ⟨rfl, rfl⟩ | ⟨rfl, rfl⟩ := h <;> simp only [Iss.resume, hmo]
    rfl
  case split =>
    obtain ⟨hin, hsplit⟩ := hpre
    simp only [if_neg hin, hsplit, if_true]
  case outside =>
    obtain ⟨hout, hact⟩ := hpre
    simp only [if_pos hout, if_neg hact]

end Sys2Proof.Machine
end

section
/-! Words written out in the spec. -/

namespace Sys2Proof.Machine

/-- Settles O1: the decoder evaluated on each string of words. -/
theorem specWordsDecode : Obligations.SpecWordsDecode := by
  unfold Obligations.SpecWordsDecode
  exact ⟨rfl, rfl, rfl, rfl, rfl, rfl, rfl, rfl, rfl⟩

end Sys2Proof.Machine
end

section
/-! Instructions of the lanes whose effect is one write of a register or of a mask, and what the issue has made sure of by
then (R63, R65, R83). -/

namespace Sys2Proof.Machine

/-- An instruction that goes on has MOD, FN and a form that it defines (R65, R82). -/
theorem Iss.goes_shape_ok {s : State} {i : Iss} (h : i.goes s = true) : (shapeOf .lane i.eng i.op i.f).ok = true := by
  simp only [Iss.goes, Iss.wellPlaced, Bool.and_eq_true, Option.isNone_iff_eq_none] at h
  obtain ⟨⟨⟨⟨-, hlegal⟩, -⟩, -⟩, -⟩ := h
  by_contra hbad
  rw [Bool.not_eq_true] at hbad
  simp only [illegal?, hbad, Bool.not_false, if_true] at hlegal
  split_ifs at hlegal

section
variable {c : Fields → Instr} {eng op : Nat} {k : State → Iss → State} {kl : State → LIss → State}
  {pre : State → Iss → Prop}

/-- What an instruction does may rest on its fields being ones that its shape allows. -/
theorem LaneDoesWhen.of_shape {post : State → State → Iss → Prop}
    (h : LaneDoesWhen c eng op (fun s i => pre s i ∧ (shapeOf .lane eng op i.f).ok = true) post) :
    LaneDoesWhen c eng op pre post := by
  intro s f i hi hgoes hpre
  refine h s f i hi hgoes ⟨hpre, ?_⟩
  obtain ⟨-, -, rfl, rfl, -⟩ := State.laneIss_spec hi
  exact Iss.goes_shape_ok hgoes

/-- An instruction whose effect is a write of its destination in the active lanes. -/
theorem LaneDoesWhen.of_write {wide : Iss → Bool} {v : State → Iss → Nat → DWord}
    (hexec : ∀ f s, exec (c f) s = issue eng op f s anyway k kl)
    (hwrite : ∀ s i, pre s i → k s i = i.write s (wide i) (v s i)) :
    LaneDoesWhen c eng op pre fun s t i => Wrote s t i (wide i) (v s i) :=
  .of_effect hexec (fun _ _ _ => rfl) fun s i h hpre => by
    rw [hwrite s i hpre]
    exact Iss.write_wrote (State.laneIss_warp h) _ _

/-- An instruction whose effect is a write of a mask register. -/
theorem LaneDoesWhen.of_mask {v : Iss → Word} (hexec : ∀ f s, exec (c f) s = issue eng op f s anyway k kl)
    (hwrite : ∀ s i, pre s i → k s i = i.commitWarp s fun w => w.setM i.f.d.toNat (v i)) :
    LaneDoesWhen c eng op pre fun s t i => WroteMask s t i (v i) :=
  .of_effect hexec (fun _ _ _ => rfl) fun s i h hpre => by
    rw [hwrite s i hpre]
    exact i.commitWarp_ended (State.laneIss_warp h) _

/-- An instruction whose effect is a write of the active lanes' bits of a mask register. -/
theorem LaneDoesWhen.of_writeMask {p : Iss → Nat → Bool} (hexec : ∀ f s, exec (c f) s = issue eng op f s anyway k kl)
    (hwrite : ∀ s i, pre s i → k s i = i.writeMask s (p i)) :
    LaneDoesWhen c eng op pre fun s t i => WroteMask s t i (i.maskBits (p i)) :=
  .of_effect hexec (fun _ _ _ => rfl) fun s i h hpre => by
    rw [hwrite s i hpre]
    exact Iss.writeMask_wrote (State.laneIss_warp h) _

end

end Sys2Proof.Machine
end

section
/-! Integer arithmetic of the lanes: each exact result modulo the width of its type (R190, R191). -/

namespace Sys2Proof.Machine

/-! ### Patterns of the width of a type -/

/-- trunc depends on the exact result modulo 2^w alone (R97). -/
theorem tyTrunc_congr {mo : Nat} {x y : Int} (h : BitVec.ofInt (tyWidth mo) x = BitVec.ofInt (tyWidth mo) y) :
    tyTrunc mo x = tyTrunc mo y := by
  have htrunc : truncN (tyWidth mo) x = truncN (tyWidth mo) y := by
    simpa only [truncN, BitVec.toNat_ofInt] using congrArg BitVec.toNat h
  rw [tyTrunc, tyTrunc, htrunc]

theorem truncN_natCast (w n : Nat) : truncN w n = n % 2 ^ w := by
  rw [truncN, ← Int.natCast_mod, Int.toNat_natCast]

theorem signedOf_mod (w n : Nat) : signedOf w (n % 2 ^ w) = signedOf w n := by
  rw [signedOf, Nat.mod_mod, signedOf]

/-- A pattern extended by its type is trunc of its value (R189). -/
theorem tyExtend_eq_tyTrunc (mo p : Nat) : tyExtend mo p = tyTrunc mo p := by
  rw [tyTrunc, truncN_natCast, tyExtend, tyExtend, signedOf_mod, Nat.mod_mod]
  split_ifs with hwide
  · rw [hwide]
    exact BitVec.eq_of_toNat_eq (by simp [w64])
  · rfl
  · rfl

/-! ### Shifts (R99, R190) -/

theorem tyExtend_shlN (mo : Nat) (a : DWord) (c : Nat) :
    tyExtend mo (shlN (tyWidth mo) (a.toNat % 2 ^ tyWidth mo) c) =
      tyTrunc mo (if tyWidth mo ≤ c then 0 else tyRead mo a * ((2 ^ c : Nat) : Int)) := by
  rw [tyExtend_eq_tyTrunc, shlN]
  split_ifs
  · rfl
  · refine tyTrunc_congr ?_
    rw [BitVec.ofInt_mul, ofInt_tyRead, BitVec.ofInt_natCast, BitVec.ofInt_natCast]
    refine BitVec.eq_of_toNat_eq ?_
    simp only [BitVec.toNat_ofNat, BitVec.toNat_mul, BitVec.toNat_setWidth, Nat.mod_mod, Nat.mul_mod_mod]

theorem tyExtend_shrN (mo : Nat) (a : DWord) (c : Nat) :
    tyExtend mo (shrN (tyWidth mo) (a.toNat % 2 ^ tyWidth mo) c) =
      tyTrunc mo (if tyWidth mo ≤ c then 0 else ((a.toNat % 2 ^ tyWidth mo / 2 ^ c : Nat) : Int)) := by
  rw [tyExtend_eq_tyTrunc, shrN]
  split_ifs <;> rfl

theorem tyExtend_sraN (mo : Nat) (a : DWord) (c : Nat) :
    tyExtend mo (sraN (tyWidth mo) (a.toNat % 2 ^ tyWidth mo) c) =
      tyTrunc mo (signedOf (tyWidth mo) a.toNat / ((2 ^ min c (tyWidth mo - 1) : Nat) : Int)) := by
  rw [sraN, signedOf_mod, tyTrunc]

/-! ### Instructions of one exact result -/

section
variable {c : Fields → Instr} {op : Nat} {g : Nat → Int → Int → Int}

/-- An instruction of two typed operands, by trunc. -/
theorem LaneDoes.of_intOp {x : Iss → Nat → Int} (hexec : ∀ f s, exec (c f) s = intOp op f s noSat g)
    (hexact : ∀ i l, g (tyWidth i.mo) (i.ai l) (i.bi l) = x i l) : LaneDoes c 2 op (WroteTrunc x) :=
  .of_write hexec fun s i _ => congrArg (i.write s i.wide) (funext fun l => congrArg (tyTrunc i.mo) (hexact i l))

/-- An instruction of two typed operands, by sat. -/
theorem LaneDoes.of_intOp_sat {x : Iss → Nat → Int} (hexec : ∀ f s, exec (c f) s = intOp op f s (fun _ => true) g)
    (hexact : ∀ i l, g (tyWidth i.mo) (i.ai l) (i.bi l) = x i l) : LaneDoes c 2 op (WroteSat x) :=
  .of_write hexec fun s i _ => congrArg (i.write s i.wide) (funext fun l => congrArg (tySat i.mo) (hexact i l))

/-- A shift of the pattern of A, which is trunc of an exact result. -/
theorem LaneDoes.of_shiftOp {g : Nat → Nat → Nat → Nat} {x : Iss → Nat → Int}
    (hexec : ∀ f s, exec (c f) s = shiftOp op f s g)
    (hexact : ∀ (i : Iss) l, tyExtend i.mo (g (tyWidth i.mo) ((i.a i.wide l).toNat % 2 ^ tyWidth i.mo) (i.b32 l).toNat) =
      tyTrunc i.mo (x i l)) : LaneDoes c 2 op (WroteTrunc x) :=
  .of_write hexec fun s i _ => congrArg (i.write s i.wide) (funext (hexact i))

end

/-- IABS in a form of FN, whose exact result is the absolute value of A. -/
theorem iabs_does {fn : Nat} {ty : Nat → Int → DWord}
    (hty : ∀ mo x, (if fn = 1 then tySat mo x else tyTrunc mo x) = ty mo x) :
    LaneDoesWhen .iabs 2 0x0E (fun _ i => i.fn = fn) fun s t i => Wrote s t i i.wide fun l => ty i.mo |i.ai l| :=
  .of_write (fun _ _ => rfl) fun s i hfn => congrArg (i.write s i.wide) (funext fun l => by
    simp only [hfn, hty, Int.abs_eq_natAbs, Iss.ai])

/-- Settles O5: each instruction is a write of the exact result of its typed operands, and each shift of a pattern is one
too. -/
theorem integerArithmetic : Obligations.IntegerArithmetic := by
  unfold Obligations.IntegerArithmetic
  exact ⟨.of_intOp (g := fun _ a b => a + b) (fun _ _ => rfl) fun _ _ => rfl,
    .of_intOp (g := fun _ a b => a - b) (fun _ _ => rfl) fun _ _ => rfl,
    .of_intOp (g := fun _ a b => a * b) (fun _ _ => rfl) fun _ _ => rfl,
    .of_intOp (g := fun w a b => a * b / ((2 ^ w : Nat) : Int)) (fun _ _ => rfl) fun _ _ => rfl,
    .of_write (fun _ _ => rfl) fun _ _ _ => rfl, .of_write (fun _ _ => rfl) fun _ _ _ => rfl,
    .of_write (fun _ _ => rfl) fun _ _ _ => rfl,
    .of_shiftOp (g := shlN) (fun _ _ => rfl) fun i _ => tyExtend_shlN i.mo _ _,
    .of_shiftOp (g := shrN) (fun _ _ => rfl) fun i _ => tyExtend_shrN i.mo _ _,
    .of_shiftOp (g := sraN) (fun _ _ => rfl) fun i _ => tyExtend_sraN i.mo _ _,
    .of_intOp (g := fun _ a b => min a b) (fun _ _ => rfl) fun _ _ => rfl,
    .of_intOp (g := fun _ a b => max a b) (fun _ _ => rfl) fun _ _ => rfl,
    .of_intOp_sat (g := fun _ a b => a + b) (fun _ _ => rfl) fun _ _ => rfl,
    .of_intOp_sat (g := fun _ a b => a - b) (fun _ _ => rfl) fun _ _ => rfl,
    iabs_does fun _ _ => rfl, iabs_does fun _ _ => rfl⟩

/-! ### Products and dot products added to C (R191) -/

theorem tyRead_zero (p : DWord) : tyRead 0 p = (lo32 p).toInt := tyRead_signed rfl p

theorem tyRead_one (p : DWord) : tyRead 1 p = ((lo32 p).toNat : Int) := tyRead_unsigned rfl p

theorem dotWords_four (sa sb : Bool) (a b : Word) :
    dotWords 8 4 sa sb a b = readInt 8 sa a.toNat * readInt 8 sb b.toNat +
      readInt 8 sa (a.toNat / 2 ^ 8) * readInt 8 sb (b.toNat / 2 ^ 8) +
      readInt 8 sa (a.toNat / 2 ^ 16) * readInt 8 sb (b.toNat / 2 ^ 16) +
      readInt 8 sa (a.toNat / 2 ^ 24) * readInt 8 sb (b.toNat / 2 ^ 24) := by
  simp [dotWords, List.range_succ]

theorem dotWords_two (sa sb : Bool) (a b : Word) :
    dotWords 16 2 sa sb a b = readInt 16 sa a.toNat * readInt 16 sb b.toNat +
      readInt 16 sa (a.toNat / 2 ^ 16) * readInt 16 sb (b.toNat / 2 ^ 16) := by
  simp [dotWords, List.range_succ]

/-- IDP4 and IDP2 in one form of FN: the type of the result and the signs of the operands follow from MOD. -/
theorem LaneDoesWhen.of_dotOp {c : Fields → Instr} {op w n unsignedMo mo fn : Nat} {x : Iss → Nat → Int} {ty : Nat}
    (hexec : ∀ f s, exec (c f) s = dotOp op w n unsignedMo f s)
    (hty : (if mo == unsignedMo then 1 else 0) = ty)
    (hx : ∀ i l, readInt 32 (!(mo == unsignedMo)) (i.c false l).toNat + dotWords w n (!(mo == unsignedMo))
      (!(mo == unsignedMo) && mo != 8) (i.w.getV l i.f.a.toNat) (i.b32 l) = x i l) :
    LaneDoesWhen c 2 op (fun _ i => i.mo = mo ∧ i.fn = fn) fun s t i => Wrote s t i false fun l =>
      if fn = 1 then tySat ty (x i l) else tyTrunc ty (x i l) :=
  .of_write hexec fun s i ⟨hmo, hfn⟩ => congrArg (i.write s false) (funext fun l => by
    simp only [hmo, hfn, hty, hx])

/-- Settles O6: each instruction is a write of one exact result, the dot products summed element by element. -/
theorem integerAccumulate : Obligations.IntegerAccumulate := by
  unfold Obligations.IntegerAccumulate
  refine ⟨.of_write (fun _ _ => rfl) fun _ _ _ => rfl, .of_write (fun _ _ => rfl) fun s i hmo => ?signed,
    .of_write (fun _ _ => rfl) fun s i hmo => ?unsigned, fun mo hmo sat _ => ?idp4, fun mo hmo sat _ => ?idp2⟩
  case signed => simp only [hmo, tyRead_zero, leadRead, Iss.b32]; rfl
  case unsigned => simp only [hmo, tyRead_one, leadRead, Iss.b32]; rfl
  case idp4 =>
    refine .of_dotOp (w := 8) (n := 4) (unsignedMo := 5) (fun _ _ => rfl) ?_ fun i l => ?_
    · obtain rfl | rfl | rfl := hmo <;> rfl
    · rw [dotWords_four]
      obtain rfl | rfl | rfl := hmo <;> rfl
  case idp2 =>
    refine .of_dotOp (w := 16) (n := 2) (unsignedMo := 3) (fun _ _ => rfl) ?_ fun i l => ?_
    · obtain rfl | rfl | rfl := hmo <;> rfl
    · rw [dotWords_two]
      obtain rfl | rfl | rfl := hmo <;> rfl

end Sys2Proof.Machine
end

section
/-! The bit functions, bit by bit (R149, R192, R193). -/

namespace Sys2Proof.Machine

theorem add_eq_or_of_and_eq_zero {a b : Nat} (h : a &&& b = 0) : a + b = a ||| b := by
  have hwide : a + b < 2 ^ (a + b) := Nat.lt_two_pow_self
  have hvec : BitVec.ofNat (a + b) a &&& BitVec.ofNat (a + b) b = 0#(a + b) := by rw [← BitVec.ofNat_and, h]
  have hsum := congrArg BitVec.toNat (BitVec.add_eq_or_of_and_eq_zero _ _ hvec)
  have ha : a < 2 ^ (a + b) := by omega
  have hb : b < 2 ^ (a + b) := by omega
  simpa [Nat.mod_eq_of_lt, ha, hb, hwide] using hsum

theorem popN_eq (w n : Nat) : popN w n = ((List.range w).filter fun k => n.testBit k).length := by
  simp only [popN, Nat.testBit_eq_decide_div_mod_eq]

theorem clzN_zero (w : Nat) : clzN w 0 = w := rfl

/-- The highest one bit of a pattern stands at `w - 1 - clzN w n`. -/
theorem clzN_log2 {w n : Nat} (hw : n < 2 ^ w) (h0 : n ≠ 0) : clzN w n < w ∧ w - 1 - clzN w n = Nat.log2 n := by
  have hlog := (Nat.log2_lt h0).2 hw
  rw [clzN, if_neg h0]
  omega

theorem testBit_above_log2 {n k : Nat} (h0 : n ≠ 0) (hk : Nat.log2 n < k) : n.testBit k = false :=
  Nat.testBit_lt_two_pow ((Nat.log2_lt h0).1 hk)

/-- Each step of the reversal moves the bits up by one and puts the next bit of the pattern below them. -/
theorem brevN_succ (w n : Nat) : brevN (w + 1) n = 2 * brevN w n + n / 2 ^ w % 2 := by
  simp only [brevN, List.range_succ, List.foldl_append, List.foldl_cons, List.foldl_nil]

theorem testBit_brevN (w n : Nat) : ∀ k, k < w → (brevN w n).testBit k = n.testBit (w - 1 - k) := by
  induction w with
  | zero => exact fun k hk => absurd hk (Nat.not_lt_zero k)
  | succ w ih =>
    intro k hk
    rw [brevN_succ]
    cases k with
    | zero =>
      have hlow : (2 * brevN w n + n / 2 ^ w % 2) % 2 = n / 2 ^ w % 2 := by omega
      rw [Nat.testBit_zero, hlow, Nat.testBit_eq_decide_div_mod_eq, Nat.add_sub_cancel, Nat.sub_zero]
    | succ k =>
      have hhalf : (2 * brevN w n + n / 2 ^ w % 2) / 2 = brevN w n := by omega
      have hplace : w + 1 - 1 - (k + 1) = w - 1 - k := by omega
      rw [Nat.testBit_succ, hhalf, ih k (by omega), hplace]

theorem testBit_extractField {w n : Nat} (hn : n < 2 ^ w) (pos len k : Nat) :
    (extractField w false n pos len).toNat.testBit k = (decide (k < len) && n.testBit (pos + k)) := by
  have hfield : (extractField w false n pos len).toNat = n / 2 ^ pos % 2 ^ len := by
    by_cases hlen : len = 0
    · subst hlen
      simp [extractField, Nat.mod_one]
    · simp only [extractField, if_neg hlen, Nat.mod_eq_of_lt hn, Bool.false_eq_true, if_false]
      exact Int.toNat_natCast _
  rw [hfield, Nat.testBit_mod_two_pow, Nat.testBit_div_two_pow, Nat.add_comm]

/-- The bits of a field of a pattern. -/
theorem testBit_fieldMask (w pos len k : Nat) :
    ((2 ^ len - 1) * 2 ^ pos % 2 ^ w).testBit k = (decide (k < w) && decide (pos ≤ k ∧ k < pos + len)) := by
  rw [Nat.testBit_mod_two_pow, Nat.testBit_mul_two_pow, Nat.testBit_two_pow_sub_one]
  by_cases hpos : pos ≤ k
  · have : k - pos < len ↔ k < pos + len := by omega
    simp [hpos, this]
  · simp [hpos]

theorem testBit_not_fieldMask {w k : Nat} (hk : k < w) (pos len : Nat) :
    (2 ^ w - 1 - (2 ^ len - 1) * 2 ^ pos % 2 ^ w).testBit k = !decide (pos ≤ k ∧ k < pos + len) := by
  have hlt : (2 ^ len - 1) * 2 ^ pos % 2 ^ w < 2 ^ w := Nat.mod_lt _ (Nat.two_pow_pos w)
  rw [Nat.sub_sub, Nat.add_comm 1, Nat.testBit_two_pow_sub_succ hlt, testBit_fieldMask, decide_eq_true hk, Bool.true_and,
    Bool.true_and]

/-- A pattern and a mask that has none of its bits: their sum is their union. -/
theorem insertField_eq_or (w c a pos len : Nat) :
    insertField w c a pos len = (c &&& (2 ^ w - 1 - (2 ^ len - 1) * 2 ^ pos % 2 ^ w)) |||
      (a % 2 ^ len * 2 ^ pos &&& ((2 ^ len - 1) * 2 ^ pos % 2 ^ w)) := by
  refine add_eq_or_of_and_eq_zero (Nat.eq_of_testBit_eq fun k => ?_)
  simp only [Nat.testBit_and, Nat.zero_testBit]
  by_cases hk : k < w
  · rw [testBit_not_fieldMask hk, testBit_fieldMask]
    cases decide (pos ≤ k ∧ k < pos + len) <;> simp
  · rw [testBit_fieldMask, decide_eq_false hk]
    simp

theorem testBit_insertField {w k : Nat} (c a pos len : Nat) (hk : k < w) :
    (insertField w c a pos len).testBit k = if pos ≤ k ∧ k < pos + len then a.testBit (k - pos) else c.testBit k := by
  rw [insertField_eq_or, Nat.testBit_or, Nat.testBit_and, Nat.testBit_and, testBit_not_fieldMask hk, testBit_fieldMask,
    Nat.testBit_mul_two_pow, Nat.testBit_mod_two_pow, decide_eq_true hk]
  split_ifs with hin
  · obtain ⟨hpos, hlen⟩ := hin
    have hoff : k - pos < len := by omega
    simp [hpos, hlen, hoff]
  · simp [hin]

/-- Settles O7: each instruction is a write of its bit function, whose bits follow from the digits of the pattern. -/
theorem bitInstructions : Obligations.BitInstructions := by
  unfold Obligations.BitInstructions
  refine ⟨.of_write (fun _ _ => rfl) fun _ _ _ => rfl, .of_write (fun _ _ => rfl) fun _ _ _ => rfl,
    .of_write (fun _ _ => rfl) fun _ _ _ => rfl, .of_write (fun _ _ => rfl) fun _ _ _ => rfl,
    .of_write (fun _ _ => rfl) fun _ _ _ => rfl, .of_write (fun _ _ => rfl) fun _ _ _ => rfl,
    .of_write (fun _ _ => rfl) fun _ _ _ => rfl, .of_write (fun _ _ => rfl) fun _ _ _ => rfl,
    fun w n _ hn => ⟨popN_eq w n, fun h0 => ?clz, clzN_zero w, testBit_brevN w n, testBit_extractField hn,
      fun c a pos len k _ hk => testBit_insertField c a pos len hk⟩⟩
  case clz =>
    obtain ⟨hlt, htop⟩ := clzN_log2 hn h0
    rw [htop]
    exact ⟨hlt, Nat.testBit_log2 h0, fun k hk => testBit_above_log2 h0 hk⟩

end Sys2Proof.Machine
end

section
/-! The source of SHFL with a register that holds an uncorrectable error, in a live lane that is not active (R188, R195). -/

namespace Sys2Proof.Machine

/-- An instruction that wrote its destination is one more that its warp has issued (R210). -/
theorem Wrote.instr {s t : State} {i : Iss} {wide : Bool} {v : Nat → DWord} (h : Wrote s t i wide v) :
    (t.warp? i.core i.slot).map (·.instr) = some (i.w.instr + 1) := by
  obtain ⟨w, hholds, -, w', hw', hpassed⟩ := h
  have hsame : w.instr = i.w.instr := by simpa using congrArg Warp.instr hholds.same
  rw [hw', Option.map_some, hpassed.instr, hsame]

/-- A warp of 32 live lanes in which `m1` names lane 0 and register 1 of lane 1 holds an uncorrectable error. -/
def wornWarp : Warp :=
  let w := Warp.placed 0 0 (some 0) 1 0 128 32 0 0 0xFFFFFFFF 0
  { w with m := setNth w.m 1 1, lanes := modNth w.lanes 1 fun x => { x with bad := [1] } }

/-- The reset state with that warp, all of whose lanes issue, and its context. -/
def wornState : State :=
  { State.reset with
    ctxs := [(0, Ctx.bare 0 0 0 [])], warps := put State.reset.warps (warpKey 0 0) wornWarp,
    cur := .lanes 0 0 0xFFFFFFFF }

/-- SHFL.idx of register 1 of lane 1 into register 2, predicated by `m1`. -/
def wornShfl : Fields :=
  { form := .w96, live := none, t := false, tb := false, tc := false, d := 2, a := 1, b := 2047, c := 0, mod := 0, fn := 0,
    pn := false, pm := 1, imm := 1, lit := 0 }

/-- SHFL as the group of that warp meets it. -/
def wornIss : Iss :=
  { core := 0, slot := 0, w := wornWarp, grp := 0xFFFFFFFF, act := activeOf wornWarp 0xFFFFFFFF wornShfl,
    pc := (wornWarp.lane (lowest 0xFFFFFFFF)).pc, eng := 2, op := 0x1C, f := wornShfl }

theorem wornState_iss : wornState.laneIss 2 0x1C wornShfl = some wornIss := by
  have hwarp : wornState.warp? 0 0 = some wornWarp := look_put_self _ _ _
  simp only [State.laneIss, hwarp, show wornState.cur = .lanes 0 0 0xFFFFFFFF from rfl, wornIss]

/-- Nothing holds it back: lane 0, the one active lane, reads no register that holds an error. -/
theorem wornIss_goes : wornIss.goes wornState = true := by decide +kernel

/-- Lane 0 raises DATA_CHECK for the register of lane 1, and its warp has issued nothing more. -/
theorem wornShfl_faults :
    ∃ t, exec (.shfl wornShfl) wornState = .next t ∧ (t.warp? 0 0).map (·.instr) = some 0 := by
  refine ⟨_, (laneInstr_goes wornState_iss wornIss_goes _), ?_⟩
  decide +kernel

/-- Refutes O8: the statement says that SHFL writes wherever no active lane reads a register with an uncorrectable error, but
SHFL also reads the register of its source lane, which may be live and not active. There it raises DATA_CHECK (R188). -/
theorem not_acrossLanes : ¬ Obligations.AcrossLanes := by
  unfold Obligations.AcrossLanes
  rintro ⟨hshfl, -⟩
  obtain ⟨t, hexec, hwrote⟩ := hshfl 0 _ (.inl ⟨rfl, rfl⟩) wornState wornShfl wornIss wornState_iss wornIss_goes rfl
  obtain ⟨t', hexec', hfault⟩ := wornShfl_faults
  obtain rfl : t' = t := Host.Outcome.next.inj (hexec'.symm.trans hexec)
  have hinstr : (t'.warp? 0 0).map (·.instr) = some (wornWarp.instr + 1) := hwrote.instr
  rw [hfault] at hinstr
  exact absurd hinstr (by decide)

end Sys2Proof.Machine
end

section
/-! Comparisons and masks (R171, R179, R192, R198, R202). -/

namespace Sys2Proof.Machine

/-- A comparison writes the active lanes' bits of a mask, or 1 or 0 to a register under .v. -/
theorem LaneDoesWhen.of_cond {c : Fields → Instr} {eng op : Nat} {p : Iss → Nat → Bool}
    (hexec : ∀ f s, exec (c f) s = laneInstr eng op f s fun s i => i.writeCond s (p i)) :
    LaneDoesWhen c eng op (fun _ i => bits i.fn 3 3 = 0) (fun s t i => WroteMask s t i (i.maskBits (p i))) ∧
      LaneDoesWhen c eng op (fun _ i => bits i.fn 3 3 = 1) fun s t i => Wrote s t i false fun l => if p i l then 1 else 0 := by
  refine ⟨.of_writeMask hexec fun s i hmask => if_neg ?_, .of_write hexec fun s i hv => if_pos hv⟩
  rw [hmask]
  decide

/-- The bit of FN that MLOG picks for a lane. -/
theorem mlogBit_eq (fn : Nat) (a b : Bool) :
    (fn / 2 ^ ((if a then 2 else 0) + if b then 1 else 0) % 2 == 1) =
      fn.testBit (2 * (if a then 1 else 0) + if b then 1 else 0) := by
  rw [Nat.testBit_eq_decide_div_mod_eq]
  cases a <;> cases b <;> rfl

/-- Settles O9: a comparison is a write of a mask or of 1 and 0, and every other instruction a write of its mask or of the
register of each active lane. -/
theorem maskInstructions : Obligations.MaskInstructions := by
  unfold Obligations.MaskInstructions
  obtain ⟨hicmp, hicmpV⟩ := LaneDoesWhen.of_cond (c := .icmp) (op := 0x0F) fun _ _ => rfl
  obtain ⟨hfcmp, hfcmpV⟩ := LaneDoesWhen.of_cond (c := .fcmp) (op := 0x06) fun _ _ => rfl
  refine ⟨hicmp, hicmpV, hfcmp, hfcmpV, .of_mask (fun _ _ => rfl) fun s i _ => ?mlog,
    .of_mask (fun _ _ => rfl) fun s i hmo => ?copy, .of_writeMask (fun _ _ => rfl) fun s i hmo => ?test,
    .of_write (fun _ _ => rfl) fun s i hmo => ?register, .of_mask (fun _ _ => rfl) fun s i hmo => ?immediate,
    .of_effect (fun _ _ => rfl) (fun _ _ _ => rfl) fun s i h _ => i.commitWarp_ended (State.laneIss_warp h) _,
    .of_mask (fun _ _ => rfl) fun _ _ _ => rfl⟩
  case mlog => simp only [mlogBit_eq]
  all_goals simp only [hmo]

end Sys2Proof.Machine
end

section
/-! Instructions that count floating-point events: a write, or a producer, and then the events of the active lanes (R115). -/

namespace Sys2Proof.Machine

theorem Iss.writeFp_wroteCounting {s : State} {i : Iss} (h : s.warp? i.core i.slot = some i.w) (wide : Bool)
    (r : Nat → DWord × List Nat) : WroteCounting s (i.writeFp s wide r) i wide r :=
  ⟨_, Iss.write_wrote h _ _, rfl⟩

section
variable {c : Fields → Instr} {eng op : Nat} {k : State → Iss → State} {kl : State → LIss → State}
  {pre : State → Iss → Prop}

/-- An instruction whose effect is a write of its destination with the events counted. -/
theorem LaneDoesWhen.of_writeFp {wide : Iss → Bool} {r : Iss → Nat → DWord × List Nat}
    (hexec : ∀ f s, exec (c f) s = issue eng op f s anyway k kl)
    (hwrite : ∀ s i, pre s i → k s i = i.writeFp s (wide i) (r i)) :
    LaneDoesWhen c eng op pre fun s t i => WroteCounting s t i (wide i) (r i) :=
  .of_effect hexec (fun _ _ _ => rfl) fun s i h hpre => by
    rw [hwrite s i hpre]
    exact Iss.writeFp_wroteCounting (State.laneIss_warp h) _ _

end

/-- Settles O10: each instruction is a write of one rounding, or of one for each element, with the events counted. -/
theorem floatArithmetic : Obligations.FloatArithmetic := by
  unfold Obligations.FloatArithmetic
  exact ⟨.of_writeFp (fun _ _ => rfl) fun _ _ _ => rfl, .of_writeFp (fun _ _ => rfl) fun _ _ _ => rfl,
    .of_writeFp (fun _ _ => rfl) fun _ _ _ => rfl, .of_writeFp (fun _ _ => rfl) fun _ _ _ => rfl,
    .of_writeFp (fun _ _ => rfl) fun _ _ _ => rfl, .of_writeFp (fun _ _ => rfl) fun _ _ _ => rfl,
    .of_writeFp (fun _ _ => rfl) fun _ _ _ => rfl, .of_writeFp (fun _ _ => rfl) fun _ _ _ => rfl,
    .of_writeFp (fun _ _ => rfl) fun _ _ _ => rfl, .of_writeFp (fun _ _ => rfl) fun _ _ _ => rfl,
    .of_writeFp (fun _ _ => rfl) fun _ _ _ => rfl, .of_writeFp (fun _ _ => rfl) fun _ _ _ => rfl⟩

end Sys2Proof.Machine
end

section
/-! Selection, classification and conversion of floats, and the pairwise tree of a tile (R201, R203, R204, R206). -/

namespace Sys2Proof.Machine

/-! ### The scalar formats f32, f16 and bf16 (R199) -/

/-- The canonical NaN of a scalar format (Table 4.3). -/
def canonicalNan (mo : Nat) : Nat := if mo = 0 then 0x7FC00000 else if mo = 1 then 0x7E00 else 0x7FC0

section
variable {mo : Nat}

theorem scalarPat_eq (h : mo ≤ 2) (x : Word) : scalarPat mo x = x.toNat % 2 ^ (fltOf mo).width := by
  interval_cases mo
  · exact (Nat.mod_eq_of_lt x.isLt).symm
  · rfl
  · rfl

/-- FMIN, FMAX, FSGN and REDF take the scalar formats only (Table 8.2). -/
theorem mod_le_two_of_scalar {op : Nat} {f : Fields} (hop : op = 0x04 ∨ op = 0x05 ∨ op = 0x07 ∨ op = 0x11)
    (hok : (shapeOf .lane 3 op f).ok = true) : f.mod.toNat ≤ 2 := by
  obtain rfl | rfl | rfl | rfl := hop <;> simp only [shapeOf, shapeFloat, Bool.and_eq_true, decide_eq_true_eq] at hok <;>
    tauto

theorem fltNan_eq (h : mo ≤ 2) : (fltOf mo).nan.getD 0 = canonicalNan mo := by
  interval_cases mo <;> rfl

theorem decode_fltNan (h : mo ≤ 2) : (fltOf mo).decode ((fltOf mo).nan.getD 0) = .nan := by
  interval_cases mo <;> rfl

theorem nanEvent_of_nan {p : Nat} (h : mo ≤ 2) (hp : (fltOf mo).decode p = .nan) : nanEvent mo p = [4 * mo] := by
  rw [nanEvent, hp, groupOf, if_pos h]
  rfl

theorem nanEvent_of_ne {p : Nat} (hp : (fltOf mo).decode p ≠ .nan) : nanEvent mo p = [] := by
  unfold nanEvent
  cases h : (fltOf mo).decode p <;> simp_all [Val.isNan]

end

theorem Val.isNan_iff (x : Val) : x.isNan = true ↔ x = .nan := by
  cases x <;> simp [Val.isNan]

/-! ### FMIN and FMAX (R201) -/

section
variable {fl : Flt} {p q : Nat}

theorem minMax_nan_nan (hp : fl.decode p = .nan) (hq : fl.decode q = .nan) (larger : Bool) :
    minMax fl larger p q = fl.nan.getD 0 := by
  simp [minMax, hp, hq, Val.isNan]

theorem minMax_nan_left (hp : fl.decode p = .nan) (hq : fl.decode q ≠ .nan) (larger : Bool) : minMax fl larger p q = q := by
  simp [minMax, hp, Val.isNan_iff, hq]

theorem minMax_nan_right (hp : fl.decode p ≠ .nan) (hq : fl.decode q = .nan) (larger : Bool) : minMax fl larger p q = p := by
  simp [minMax, hq, Val.isNan_iff, hp]

/-- Of two numbers the second is picked when the first is the lesser and the larger is asked, or neither. -/
theorem minMax_numbers (hp : fl.decode p ≠ .nan) (hq : fl.decode q ≠ .nan) (larger : Bool) :
    minMax fl larger p q =
      if Val.cmp (fl.decode p) (fl.decode q) = -1 ∨
          Val.cmp (fl.decode p) (fl.decode q) = 0 ∧ (fl.decode p).neg = true ∧ (fl.decode q).neg = false then
        if larger then q else p
      else if larger then p else q := by
  simp [minMax, Val.isNan_iff, hp, hq, and_assoc]

end

/-- What R201 asks of the result of FMIN, or of FMAX when the larger is wanted, of two operands and their patterns. -/
def Selected (mo : Nat) (larger : Prop) (a b : Val) (p q : Nat) (x : DWord × List Nat) : Prop :=
  (a = .nan → b = .nan → x = (w64 (canonicalNan mo), [4 * mo])) ∧
  (a = .nan → b ≠ .nan → x = (w64 q, [])) ∧ (a ≠ .nan → b = .nan → x = (w64 p, [])) ∧
  (a ≠ .nan → b ≠ .nan →
    ((Val.cmp a b = -1 ∨ Val.cmp a b = 0 ∧ a.neg = true ∧ b.neg = false) →
      (larger → x = (w64 q, [])) ∧ (¬ larger → x = (w64 p, []))) ∧
    (¬ (Val.cmp a b = -1 ∨ Val.cmp a b = 0 ∧ a.neg = true ∧ b.neg = false) →
      (larger → x = (w64 p, [])) ∧ (¬ larger → x = (w64 q, []))))

/-- A number is delivered without an event, and R201 leaves no other result. -/
theorem Selected.eq_minMax {mo : Nat} {larger : Bool} {p q : Nat} {x : DWord × List Nat} (hmo : mo ≤ 2)
    (h : Selected mo (larger = true) ((fltOf mo).decode p) ((fltOf mo).decode q) p q x) :
    x = (w64 (minMax (fltOf mo) larger p q), nanEvent mo (minMax (fltOf mo) larger p q)) := by
  obtain ⟨hboth, hleft, hright, hnumbers⟩ := h
  by_cases ha : (fltOf mo).decode p = .nan <;> by_cases hb : (fltOf mo).decode q = .nan
  · rw [hboth ha hb, minMax_nan_nan ha hb, nanEvent_of_nan hmo (decode_fltNan hmo), fltNan_eq hmo]
  · rw [hleft ha hb, minMax_nan_left ha hb, nanEvent_of_ne hb]
  · rw [hright ha hb, minMax_nan_right ha hb, nanEvent_of_ne ha]
  · obtain ⟨hbelow, habove⟩ := hnumbers ha hb
    rw [minMax_numbers ha hb]
    split_ifs with hlt hlarger hlarger
    · rw [(hbelow hlt).1 hlarger, nanEvent_of_ne hb]
    · rw [(hbelow hlt).2 hlarger, nanEvent_of_ne ha]
    · rw [(habove hlt).1 hlarger, nanEvent_of_ne ha]
    · rw [(habove hlt).2 hlarger, nanEvent_of_ne hb]

/-- FMIN and FMAX write the result that R201 leaves. -/
theorem minMaxOp_does {c : Fields → Instr} {op : Nat} {larger : Bool} {wanted : Prop} (hwanted : (larger = true) = wanted)
    (hexec : ∀ f s, exec (c f) s = minMaxOp op larger f s)
    (hop : op = 0x04 ∨ op = 0x05 ∨ op = 0x07 ∨ op = 0x11) :
    LaneDoes c 3 op fun s t i => ∀ r : Nat → DWord × List Nat,
      (∀ l, Selected i.mo wanted (i.fa l) (i.fb l) ((i.w.getV l i.f.a.toNat).toNat % 2 ^ (fltOf i.mo).width)
        ((i.bFloat l).toNat % 2 ^ (fltOf i.mo).width) (r l)) → WroteCounting s t i false r := by
  refine .of_shape <| .of_effect hexec (fun _ _ _ => rfl) fun s i h ⟨_, hok⟩ r hr => ?_
  have hmo : i.mo ≤ 2 := mod_le_two_of_scalar hop hok
  subst hwanted
  have hresult : r = fun l =>
      let p := minMax (fltOf i.mo) larger (scalarPat i.mo (i.w.getV l i.f.a.toNat)) (scalarPat i.mo (i.bFloat l))
      (w64 p, nanEvent i.mo p) := funext fun l => by
    have hl := hr l
    rw [← scalarPat_eq hmo, ← scalarPat_eq hmo] at hl
    exact Selected.eq_minMax hmo hl
  rw [hresult]
  exact Iss.writeFp_wroteCounting (State.laneIss_warp h) _ _

/-! ### FSGN (R203) -/

/-- A pattern is a NaN by its exponent and significand. -/
theorem Flt.decode_eq_nan_iff (f : Flt) (p : Nat) :
    f.decode p = .nan ↔ f.ieee = true ∧ p / 2 ^ f.mb % 2 ^ f.eb = 2 ^ f.eb - 1 ∧ p % 2 ^ f.mb ≠ 0 ∨
      f.ieee = false ∧ f.nan.isSome = true ∧ p / 2 ^ f.mb % 2 ^ f.eb = 2 ^ f.eb - 1 ∧ p % 2 ^ f.mb = 2 ^ f.mb - 1 := by
  cases hieee : f.ieee <;> simp only [Flt.decode, hieee] <;> split_ifs <;> simp_all

/-- The sign bit does not make a NaN. -/
theorem Flt.decode_nan_congr (f : Flt) {p q : Nat} (h : p % 2 ^ (f.eb + f.mb) = q % 2 ^ (f.eb + f.mb)) :
    f.decode p = .nan ↔ f.decode q = .nan := by
  have hfields : ∀ n : Nat, n / 2 ^ f.mb % 2 ^ f.eb = n % 2 ^ (f.eb + f.mb) / 2 ^ f.mb ∧
      n % 2 ^ f.mb = n % 2 ^ (f.eb + f.mb) % 2 ^ f.mb := fun n => by
    rw [Nat.pow_add, Nat.mod_mul_left_div_self, Nat.mod_mul_left_mod]
    exact ⟨rfl, rfl⟩
  rw [f.decode_eq_nan_iff, f.decode_eq_nan_iff, (hfields p).1, (hfields p).2, (hfields q).1, (hfields q).2, h]

/-- The sign that FN of FSGN gives, from the signs of both operands. -/
def signBit (fn sa sb : Nat) : Nat := if fn = 0 then sb else if fn = 1 then 1 - sb else (sa + sb) % 2

theorem signFrom_nan {fl : Flt} {fn p : Nat} (q : Nat) (h : fl.decode p = .nan) : signFrom fl fn p q = fl.nan.getD 0 := by
  simp only [signFrom, h, Val.isNan, if_true]

theorem signFrom_number {fl : Flt} {fn p : Nat} (q : Nat) (hfn : fn ≤ 2) (h : fl.decode p ≠ .nan) :
    signFrom fl fn p q = p % 2 ^ (fl.eb + fl.mb) +
      2 ^ (fl.eb + fl.mb) * signBit fn (p / 2 ^ (fl.eb + fl.mb) % 2) (q / 2 ^ (fl.eb + fl.mb) % 2) := by
  simp only [signFrom, Val.isNan_iff, h, if_false, Nat.mul_comm (2 ^ (fl.eb + fl.mb))]
  interval_cases fn <;> rfl

/-- The sign of a number does not make it a NaN. -/
theorem signFrom_ne_nan {fl : Flt} {fn p : Nat} (q : Nat) (hfn : fn ≤ 2) (h : fl.decode p ≠ .nan) :
    fl.decode (signFrom fl fn p q) ≠ .nan := by
  refine fun hnan => h ((fl.decode_nan_congr ?_).1 hnan)
  rw [signFrom_number q hfn h, Nat.add_mul_mod_self_left, Nat.mod_mod]

/-- FSGN of a number is its magnitude with the sign that FN gives, and of a NaN the canonical NaN with its event. -/
theorem signFrom_delivered {mo fn p q : Nat} (hmo : mo ≤ 2) (hfn : fn ≤ 2) :
    (w64 (signFrom (fltOf mo) fn p q), nanEvent mo (signFrom (fltOf mo) fn p q)) =
      if (fltOf mo).decode p = .nan then (w64 (canonicalNan mo), [4 * mo])
      else (w64 (p % 2 ^ ((fltOf mo).width - 1) + 2 ^ ((fltOf mo).width - 1) *
        signBit fn (p / 2 ^ ((fltOf mo).width - 1) % 2) (q / 2 ^ ((fltOf mo).width - 1) % 2)), []) := by
  have hhalf : (fltOf mo).width - 1 = (fltOf mo).eb + (fltOf mo).mb := by rw [Flt.width]; omega
  by_cases hnan : (fltOf mo).decode p = .nan
  · rw [if_pos hnan, signFrom_nan q hnan, nanEvent_of_nan hmo (decode_fltNan hmo), fltNan_eq hmo]
  · rw [if_neg hnan, nanEvent_of_ne (signFrom_ne_nan q hfn hnan), signFrom_number q hfn hnan, hhalf]

/-- The sign bit of a pattern is in its format. -/
theorem signBit_mod {fl : Flt} (x : Nat) : x % 2 ^ fl.width / 2 ^ (fl.width - 1) % 2 = x / 2 ^ (fl.width - 1) % 2 := by
  have hwidth : 2 ^ fl.width = 2 ^ (fl.width - 1) * 2 := by
    rw [← Nat.pow_succ]
    congr 1
    rw [Flt.width]
    omega
  rw [hwidth, Nat.mod_mul_right_div_self, Nat.mod_mod]

theorem fsgn_does {fn : Nat} (hfn : fn ≤ 2) : LaneDoesWhen .fsgn 3 0x07 (fun _ i => i.fn = fn) fun s t i =>
    WroteCounting s t i false fun l =>
      let half := 2 ^ ((fltOf i.mo).width - 1)
      let p := (i.w.getV l i.f.a.toNat).toNat % 2 ^ (fltOf i.mo).width
      if i.fa l = .nan then (w64 (canonicalNan i.mo), [4 * i.mo])
      else (w64 (p % half + half * signBit fn (p / half % 2) ((i.bFloat l).toNat / half % 2)), []) := by
  refine .of_shape <| .of_writeFp (wide := fun _ => false) (fun _ _ => rfl) fun s i ⟨hform, hok⟩ =>
    congrArg (i.writeFp s false) (funext fun l => ?_)
  have hmo : i.mo ≤ 2 := mod_le_two_of_scalar (by decide) hok
  have hresult := signFrom_delivered (p := scalarPat i.mo (i.w.getV l i.f.a.toNat)) (q := scalarPat i.mo (i.bFloat l)) hmo hfn
  rw [scalarPat_eq hmo (i.bFloat l), signBit_mod] at hresult
  rw [← scalarPat_eq hmo, ← hform]
  rw [← hform, ← scalarPat_eq hmo] at hresult
  exact hresult

/-! ### FCLASS (R203) -/

/-- The significand and exponent of a number: a subnormal's are below those of every normal number. -/
theorem Flt.decode_fin {f : Flt} {p : Nat} {neg : Bool} {m : Nat} {e : Int} (h : f.decode p = .fin neg m e) :
    m < 2 ^ f.mb ∧ e = f.emin - f.mb ∨ 2 ^ f.mb ≤ m ∧ f.emin - f.mb ≤ e := by
  simp only [Flt.decode] at h
  have hm : p % 2 ^ f.mb < 2 ^ f.mb := Nat.mod_lt _ (Nat.two_pow_pos _)
  split_ifs at h with _ _ _ hzero <;> injection h with _ hmant hexp
  · subst hmant hexp
    exact .inl ⟨hm, rfl⟩
  · subst hmant hexp
    refine .inr ⟨Nat.le_add_right _ _, ?_⟩
    rw [Flt.emin]
    omega

/-- A number other than zero is subnormal when its significand has no leading one. -/
theorem Flt.topOf_lt_emin_iff {f : Flt} {p : Nat} {neg : Bool} {m : Nat} {e : Int} (h : f.decode p = .fin neg m e)
    (hm : m ≠ 0) : topOf m e < f.emin ↔ m < 2 ^ f.mb := by
  rw [topOf]
  obtain ⟨hsub, rfl⟩ | ⟨hnormal, he⟩ := f.decode_fin h
  · have hlog := (Nat.log2_lt hm).2 hsub
    omega
  · have hlog : ¬ Nat.log2 m < f.mb := fun hlt => absurd ((Nat.log2_lt hm).1 hlt) (Nat.not_lt.2 hnormal)
    omega

theorem classOf_decode (f : Flt) (p : Nat) :
    classOf f (f.decode p) = match f.decode p with
      | .nan => 8
      | .inf neg => if neg then 0 else 7
      | .fin neg m _ => if m = 0 then (if neg then 3 else 4) else if m < 2 ^ f.mb then (if neg then 2 else 5)
          else if neg then 1 else 6 := by
  cases h : f.decode p with
  | nan => rfl
  | inf neg => rfl
  | fin neg m e =>
    by_cases hm : m = 0
    · simp only [classOf, hm, if_true]
    · simp only [classOf, hm, if_false, f.topOf_lt_emin_iff h hm]

/-! ### FCVT (R204) -/

theorem readInt_pair (signed : Bool) (x : DWord) : readInt 64 signed x.toNat = if signed then x.toInt else (x.toNat : Int) := by
  cases signed
  · simp only [readInt, Bool.false_eq_true, if_false, Nat.mod_eq_of_lt x.isLt]
  · simp only [readInt, if_true, signedOf_eq_toInt, BitVec.ofNat_toNat, BitVec.setWidth_eq]

/-- The source that FCVT converts: an element of a slot, or a 64-bit integer. -/
theorem Iss.cvtSource_eq (i : Iss) (l : Nat) :
    i.cvtSource l =
      if bits i.f.imm.toNat 14 14 = 1 then
        Val.ofInt (if bits i.f.imm.toNat 4 0 = 0x0E then (i.w.getV2 l i.f.a.toNat).toInt else (i.w.getV2 l i.f.a.toNat).toNat)
      else decodeElem (bits i.f.imm.toNat 4 0) ((i.w.getV l i.f.a.toNat).toNat /
        2 ^ (32 / fcvtSlots (bits i.f.imm.toNat 4 0) * bits i.f.imm.toNat 10 8) % 2 ^ fmtBits (bits i.f.imm.toNat 4 0)) := by
  simp only [Iss.cvtSource, readInt_pair, beq_iff_eq]

/-- A 64-bit destination is a whole pair. -/
theorem fcvtSlots_of_pair {i : Iss} (hok : (shapeOf .lane 3 0x08 i.f).ok = true)
    (hpair : bits i.f.imm.toNat 15 15 = 1) : fcvtSlots (bits i.fn 7 3) = 1 := by
  have hfmt : bits i.fn 7 3 = 0x0E ∨ bits i.fn 7 3 = 0x0F := by
    simp only [shapeOf, shapeFloat, fcvtOk, Bool.and_eq_true, decide_eq_true_eq] at hok
    tauto
  obtain h | h := hfmt <;> rw [h] <;> rfl

/-- A 64-bit destination takes the integer, with the events of a float source. -/
theorem Iss.cvt_pair {i : Iss} (hpair : bits i.f.imm.toNat 15 15 = 1) (l : Nat) :
    i.cvt l = ((encodeInt 64 (bits i.fn 7 3 == 0x0E) i.mode (i.cvtSource l)).1,
      if bits i.f.imm.toNat 4 0 < 8 then
        counters (groupOf (bits i.f.imm.toNat 4 0)) (encodeInt 64 (bits i.fn 7 3 == 0x0E) i.mode (i.cvtSource l)).2
      else []) := by
  simp only [Iss.cvt, if_pos hpair]

theorem Iss.cvt_element {i : Iss} (helem : bits i.f.imm.toNat 15 15 ≠ 1) (l : Nat) :
    i.cvt l = convert (bits i.f.imm.toNat 4 0) (bits i.fn 7 3) i.mode (bits i.f.imm.toNat 7 7 = 1) (i.cvtSource l) := by
  simp only [Iss.cvt, if_neg helem]

/-! ### REDF (R206) -/

section
variable {node : Nat → Nat → Nat × List Nat} {leaf : Nat → Option Nat}

/-- A node of the tree joins the results of its halves, an absent one passed over. -/
theorem redTree_succ (k b : Nat) :
    redTree node leaf (k + 1) b = match redTree node leaf k b, redTree node leaf k (b + 2 ^ k) with
      | (none, e), (q, f) => (q, e ++ f)
      | (some p, e), (none, f) => (some p, e ++ f)
      | (some p, e), (some q, f) => (some (node p q).1, e ++ f ++ (node p q).2) := by
  rw [redTree]
  obtain ⟨_ | p, e⟩ := redTree node leaf k b <;> obtain ⟨_ | q, f⟩ := redTree node leaf k (b + 2 ^ k) <;> rfl

/-- A tree with a leaf has a result. -/
theorem redTree_isSome {k b j : Nat} (hj : (leaf j).isSome = true) (hlo : b ≤ j) (hhi : j < b + 2 ^ k) :
    (redTree node leaf k b).1.isSome = true := by
  induction k generalizing b with
  | zero =>
    obtain rfl : j = b := by omega
    exact hj
  | succ k ih =>
    have hhalf : (redTree node leaf k b).1.isSome = true ∨ (redTree node leaf k (b + 2 ^ k)).1.isSome = true := by
      by_cases hlow : j < b + 2 ^ k
      · exact .inl (ih hlo hlow)
      · exact .inr (ih (Nat.not_lt.1 hlow) (by rw [Nat.pow_succ] at hhi; omega))
    rw [redTree_succ]
    generalize redTree node leaf k b = x at hhalf ⊢
    generalize redTree node leaf k (b + 2 ^ k) = y at hhalf ⊢
    obtain ⟨_ | p, e⟩ := x <;> obtain ⟨_ | q, f⟩ := y <;> simp_all

end

/-- The pattern of an active lane, as a leaf of the tree of its tile. -/
def Iss.redLeaf (i : Iss) (k : Nat) : Option Nat :=
  if bitOf i.act k then some ((i.w.getV k i.f.a.toNat).toNat % 2 ^ (fltOf i.mo).width) else none

/-- The operation of REDF at a node. -/
def Iss.redNode (i : Iss) (p q : Nat) : Nat × List Nat :=
  if bits i.fn 4 3 = 0 then
    deliverIn i.mo i.mode (((fltOf i.mo).decode p).isInf || ((fltOf i.mo).decode q).isInf)
      (Val.add i.mode.down ((fltOf i.mo).decode p) ((fltOf i.mo).decode q))
  else (minMax (fltOf i.mo) (bits i.fn 4 3 == 2) p q, [])

/-- The top of the tree of a lane's tile. -/
def Iss.redTop (i : Iss) (l : Nat) : Option Nat × List Nat :=
  redTree i.redNode i.redLeaf i.w.partLog (l / i.w.tileSize * i.w.tileSize)

theorem Iss.redTop_isSome {i : Iss} {l : Nat} (h : bitOf i.act l = true) : (i.redTop l).1.isSome = true := by
  refine redTree_isSome (j := l) ?_ (Nat.div_mul_le_self _ _) (Nat.lt_div_mul_add (Nat.two_pow_pos _))
  simp only [Iss.redLeaf, h, if_true, Option.isSome_some]

/-- REDF delivers the top of the tree, a NaN as the canonical one. -/
theorem Iss.redf_of_redTop {i : Iss} {l p : Nat} (hmo : i.mo ≤ 2) (h : (i.redTop l).1 = some p) :
    i.redf l = (if (fltOf i.mo).decode p = .nan then (fltOf i.mo).nan.getD 0 else p,
      if bits i.fn 4 3 = 0 ∧ 1 < popCount (i.act &&& i.w.tileOf l) then (i.redTop l).2
      else if (fltOf i.mo).decode p = .nan then [4 * i.mo] else []) := by
  have htop : i.redf l = (let p := (i.redTop l).1.getD 0
      let p := if ((fltOf i.mo).decode p).isNan then (fltOf i.mo).nan.getD 0 else p
      (p, if bits i.fn 4 3 = 0 ∧ 1 < popCount (i.act &&& i.w.tileOf l) then (i.redTop l).2 else nanEvent i.mo p)) := by
    simp only [Iss.redf, scalarPat_eq hmo]
    rfl
  simp only [htop, h, Option.getD_some, Val.isNan_iff]
  by_cases hnan : (fltOf i.mo).decode p = .nan
  · simp only [if_pos hnan, nanEvent_of_nan hmo (decode_fltNan hmo)]
  · simp only [if_neg hnan, nanEvent_of_ne hnan]

/-- What R206 asks of the result of REDF in a lane. -/
def Iss.Reduced (i : Iss) (l : Nat) (x : DWord × List Nat) : Prop :=
  ∀ p, (i.redTop l).1 = some p →
    ((fltOf i.mo).decode p = .nan → x.1 = w64 (canonicalNan i.mo)) ∧
    ((fltOf i.mo).decode p ≠ .nan → x.1 = w64 p) ∧
    x.2 = if bits i.fn 4 3 = 0 ∧ 1 < popCount (i.act &&& i.w.tileOf l) then (i.redTop l).2
      else if (fltOf i.mo).decode p = .nan then [4 * i.mo] else []

/-- R206 leaves one result in each active lane. -/
theorem Iss.Reduced.eq_redf {i : Iss} {l : Nat} {x : DWord × List Nat} (hmo : i.mo ≤ 2) (hact : bitOf i.act l = true)
    (h : i.Reduced l x) : (w64 (i.redf l).1, (i.redf l).2) = x := by
  obtain ⟨p, hp⟩ := Option.isSome_iff_exists.1 (Iss.redTop_isSome hact)
  obtain ⟨hnan, hnumber, hevents⟩ := h p hp
  rw [Iss.redf_of_redTop hmo hp, ← hevents]
  by_cases hdec : (fltOf i.mo).decode p = .nan
  · rw [if_pos hdec, fltNan_eq hmo, ← hnan hdec]
  · rw [if_neg hdec, ← hnumber hdec]

/-- Only the results of the active lanes are written and counted. -/
theorem WroteCounting.congr {s t : State} {i : Iss} {wide : Bool} {r r' : Nat → DWord × List Nat}
    (h : WroteCounting s t i wide r) (hr : ∀ l, bitOf i.act l = true → r l = r' l) : WroteCounting s t i wide r' := by
  obtain ⟨u, ⟨w, hholds, hended⟩, rfl⟩ := h
  have hevents : (lanesOf i.act).flatMap (fun l => (r l).2) = (lanesOf i.act).flatMap fun l => (r' l).2 :=
    List.flatMap_congr fun l hl => by rw [hr l (List.mem_filter.1 hl).2]
  refine ⟨u, ⟨w, { hholds with low := fun l hl hact => ?_, high := fun hw l hl hact => ?_ }, hended⟩, by rw [hevents]⟩
  · rw [← hr l hact, hholds.low l hl hact]
  · rw [← hr l hact, hholds.high hw l hl hact]

theorem redf_does : LaneDoes .redf 3 0x11 fun s t i => ∀ r : Nat → DWord × List Nat,
    (∀ l, i.Reduced l (r l)) → WroteCounting s t i false r := by
  refine .of_shape <| .of_effect (fun _ _ => rfl) (fun _ _ _ => rfl) fun s i h ⟨_, hok⟩ r hr => ?_
  have hmo : i.mo ≤ 2 := mod_le_two_of_scalar (by decide) hok
  exact (Iss.writeFp_wroteCounting (State.laneIss_warp h) false _).congr fun l hact => Iss.Reduced.eq_redf hmo hact (hr l)

/-- Settles O11: each instruction is a write of the one result that its rule leaves, with the events counted. -/
theorem floatSelection : Obligations.FloatSelection := by
  unfold Obligations.FloatSelection
  refine ⟨?minMax, fun fn hfn => fsgn_does hfn,
    .of_write (fun _ _ => rfl) fun s i _ => congrArg (i.write s false) (funext fun l =>
      congrArg (fun n => w64 (2 ^ n)) (classOf_decode _ _)),
    .of_shape <| .of_writeFp (fun _ _ => rfl) fun s i ⟨_, hok⟩ => congrArg (i.writeFp s _) (funext fun l => ?fcvt),
    redf_does, fun node leaf b k => ⟨rfl, redTree_succ k b⟩⟩
  case minMax =>
    rintro c op larger (⟨rfl, rfl, hmin⟩ | ⟨rfl, rfl, hmax⟩)
    · exact minMaxOp_does (larger := false) (by simp only [hmin, Bool.false_eq_true]) (fun _ _ => rfl) (by decide)
    · exact minMaxOp_does (larger := true) (by simp only [hmax]) (fun _ _ => rfl) (by decide)
  case fcvt =>
    simp only [← Iss.cvtSource_eq]
    by_cases hpair : bits i.f.imm.toNat 15 15 = 1
    · simp only [if_pos hpair, fcvtSlots_of_pair hok hpair, if_true, Iss.cvt_pair hpair]
    · simp only [if_neg hpair, Iss.cvt_element hpair]

end Sys2Proof.Machine
end

section
/-! The function pipe: producers of quotients, roots and functions, and the exact table of its functions (R207, R208). -/

namespace Sys2Proof.Machine

/-- A float instruction of the pipe is a producer of its results with the events counted. -/
theorem LaneDoes.of_funcOp {c : Fields → Instr} {op : Nat} {g : Iss → Nat → Nat × List Nat}
    (hexec : ∀ f s, exec (c f) s = funcOp op f s g) :
    LaneDoes c 4 op fun s t i => ProducedCounting s t i fun l => (g i l).map w64 id :=
  .of_effect hexec (fun _ _ _ => rfl) fun _ _ h _ => ⟨_, Iss.produceWide_produced (State.laneIss_warp h) _ _, rfl⟩

/-- An integer division of the pipe is a producer of its result. -/
theorem LaneDoes.of_divOp {c : Fields → Instr} {op : Nat} {g : Nat → Int → Int → Int}
    (hexec : ∀ f s, exec (c f) s = divOp op f s g) :
    LaneDoes c 4 op fun s t i => Produced s t i (i.laneVals i.wide fun l => tyTrunc i.mo (g i.mo (i.ai l) (i.bi l))) [] :=
  .of_effect hexec (fun _ _ _ => rfl) fun _ _ h _ => Iss.produceWide_produced (State.laneIss_warp h) _ _

/-! ### Table 8.5 -/

theorem functionOf_nan {op : Nat} {a : Word} (h : (fltOf 0).decode a.toNat = .nan) : (functionOf op a).1 = 0x7FC00000 := by
  simp only [functionOf, h]
  rfl

theorem rsq_negative {a : Word} {m : Nat} {e : Int} (hm : m ≠ 0) (h : (fltOf 0).decode a.toNat = .fin true m e) :
    (functionOf 1 a).1 = 0x7FC00000 := by
  simp only [functionOf, h, if_neg hm]
  rfl

theorem log2_negative {a : Word} {m : Nat} {e : Int} (hm : m ≠ 0) (h : (fltOf 0).decode a.toNat = .fin true m e) :
    (functionOf 4 a).1 = 0x7FC00000 := by
  simp only [functionOf, h, if_neg hm]
  rfl

/-- Settles O12: each instruction is a producer of its function, and the special values are read off the function. -/
theorem functionPipe : Obligations.FunctionPipe := by
  unfold Obligations.FunctionPipe
  exact ⟨.of_funcOp fun _ _ => rfl, .of_funcOp fun _ _ => rfl, .of_funcOp fun _ _ => rfl, .of_funcOp fun _ _ => rfl,
    .of_funcOp fun _ _ => rfl, .of_funcOp fun _ _ => rfl, .of_funcOp fun _ _ => rfl, .of_funcOp fun _ _ => rfl,
    .of_funcOp fun _ _ => rfl, .of_funcOp fun _ _ => rfl,
    .of_divOp (g := fun mo a b => quotInt (tyWidth mo) (tySigned mo) a b) fun _ _ => rfl,
    .of_divOp (g := fun _ a b => remInt a b) fun _ _ => rfl,
    fun _ _ => functionOf_nan, rfl, rfl, rfl, rfl,
    fun _ _ hm _ h => ⟨rsq_negative hm h, log2_negative hm h⟩⟩

end Sys2Proof.Machine
end

section
/-! Counters and identification (R210, R212, R363). -/

namespace Sys2Proof.Machine

/-- A lead instruction whose effect is a write of its destination, where both streams have the instruction. -/
theorem LeadDoesWhen.of_issue_write {c : Fields → Instr} {eng op : Nat} {k : State → Iss → State}
    {kl : State → LIss → State} {pre : State → LIss → Prop} {v : State → LIss → DWord}
    (hexec : ∀ f s, exec (c f) s = issue eng op f s anyway k kl) (hwrite : ∀ s i, pre s i → kl s i = i.write s (v s i)) :
    LeadDoesWhen c eng op pre fun s t i => LeadWrote s t i (v s i) := by
  intro s f i h hgoes hpre
  refine ⟨kl s i, by rw [hexec, issue_goes_lead h hgoes], ?_⟩
  rw [hwrite s i hpre]
  exact LIss.write_wrote (State.leadIss_crew h) _

/-- CTRRD in the lanes, where the selector names a register or a pair. -/
theorem ctrrd_does {wide : Bool} {v : State → Iss → Nat → DWord} (sel : Nat) (hwide : counterWide sel = wide)
    (hvalue : ∀ s i l, i.f.a.toNat = sel → i.counter s l = v s i l) :
    LaneDoesWhen .ctrrd 12 0x01 (fun _ i => i.f.a.toNat = sel) fun s t i => Wrote s t i wide (v s i) :=
  .of_write (wide := fun _ => wide) (fun _ _ => rfl) fun s i hsel => by
    rw [hsel, hwide]
    exact congrArg (i.write s wide) (funext fun l => hvalue s i l hsel)

theorem ctrrd_lead_does {v : State → LIss → DWord} (sel : Nat)
    (hvalue : ∀ s i, i.f.a.toNat = sel → i.counter s = v s i) :
    LeadDoesWhen .ctrrd 12 0x01 (fun _ i => i.f.a.toNat = sel) fun s t i => LeadWrote s t i (v s i) :=
  .of_issue_write (fun _ _ => rfl) fun s i hsel => congrArg (i.write s) (hvalue s i hsel)

/-- GETID in the lanes, but for LIMB, whose read may wait (R295). -/
theorem getid_does {v : State → Iss → Nat → Nat} (sel : Nat) (hsel : sel ≠ 0x0F)
    (hvalue : ∀ s i l, i.f.a.toNat = sel → i.ident s l = v s i l) :
    LaneDoesWhen .getid 11 0x03 (fun _ i => i.f.a.toNat = sel) fun s t i => Wrote s t i false fun l => w64 (v s i l) :=
  .of_write (wide := fun _ => false) (fun _ _ => rfl) fun s i ha => by
    have hlimb : i.f.a ≠ 0x0F := fun h => hsel (by rw [← ha, h]; rfl)
    simp only [hlimb, false_and, if_false, hvalue s i _ ha]

/-- Settles O24: each selector reads its register, and each read is a write of the destination alone. -/
theorem systemReads : Obligations.SystemReads := by
  unfold Obligations.SystemReads
  refine ⟨ctrrd_does 0x10 rfl ?_, ctrrd_does 0x11 rfl ?_, ctrrd_does 0x12 rfl ?_, ctrrd_does 0x18 rfl ?_,
    ctrrd_does 0x19 rfl ?_, ctrrd_does 0x1A rfl ?_, ctrrd_does 0x1B rfl ?_, ctrrd_does 0x1C rfl ?_,
    ctrrd_lead_does 0x10 ?_, ctrrd_lead_does 0x11 ?_, ctrrd_lead_does 0x12 ?_,
    .of_write (fun _ _ => rfl) fun s i hdue => ?fpevrd, .of_issue_write (fun _ _ => rfl) fun _ _ _ => rfl,
    getid_does 0x00 (by decide) ?_, getid_does 0x01 (by decide) ?_, getid_does 0x09 (by decide) ?core,
    getid_does 0x0A (by decide) ?cluster, getid_does 0x0B (by decide) ?die, getid_does 0x0E (by decide) ?part,
    .of_issue_write (fun _ _ => rfl) fun s i ha => ?rank⟩
  case fpevrd => simp only [hdue, Bool.false_eq_true, if_false]
  case rank => rw [ha]; rfl
  case core | cluster | die | part =>
    intro s i l h
    simp only [Iss.ident, h]
    rfl
  all_goals
    intros
    simp only [Iss.counter, LIss.counter, Iss.ident, *]

end Sys2Proof.Machine
end

section
/-! The checks of a handle access, one at a time: the first step of Table 9.7 that fails decides (R226). -/

namespace Sys2Proof.Machine

section
variable {s : State} {who : Who} {h : Nat} {o : Int} {q : Ask}

theorem State.access_of_precheck {n cls : Nat} (hpre : s.precheck who h o q = some (n, cls)) :
    s.access who h o q = .fail n cls false := by
  rw [State.access, hpre]

/-! ### Steps 1 to 4: the entry -/

theorem State.access_index (hindex : 4096 ≤ h) : s.access who h o q = .fail 1 Cls.bounds false :=
  State.access_of_precheck (if_pos hindex)

theorem State.access_invalid (hindex : h < 4096) (hvalid : Entry.valid (s.entry who h) = false) :
    s.access who h o q = .fail 2 Cls.perm false :=
  State.access_of_precheck <| by simp [State.precheck, hindex.not_ge, hvalid]

theorem State.access_world (hindex : h < 4096) (hvalid : Entry.valid (s.entry who h) = true)
    (hworld : Entry.secure (s.entry who h) ≠ who.secure) : s.access who h o q = .fail 3 Cls.world false :=
  State.access_of_precheck <| by simp [State.precheck, hindex.not_ge, hvalid, hworld]

/-- The entry passes steps 2 to 4 for an access. -/
structure State.EntryOk (s : State) (who : Who) (h : Nat) (q : Ask) : Prop where
  index : h < 4096
  valid : Entry.valid (s.entry who h) = true
  world : Entry.secure (s.entry who h) = who.secure
  combined : Entry.combined (s.entry who h) = true
  permits : q.ok4 (s.entry who h) = true

theorem State.access_refused (hindex : h < 4096) (hvalid : Entry.valid (s.entry who h) = true)
    (hworld : Entry.secure (s.entry who h) = who.secure)
    (hperm : Entry.combined (s.entry who h) = false ∨ q.ok4 (s.entry who h) = false) :
    s.access who h o q = .fail 4 Cls.perm false :=
  State.access_of_precheck <| by
    have hneed : (!Entry.combined (s.entry who h) || !q.ok4 (s.entry who h)) = true := by
      obtain h | h := hperm <;> simp [h]
    simp [State.precheck, hindex.not_ge, hvalid, hworld, hneed]

/-! ### Steps 5 and 6: the offset -/

/-- What is left of steps 1 to 6 once the entry passes. -/
theorem State.EntryOk.precheck_eq (hentry : s.EntryOk who h q) : s.precheck who h o q =
    if o % (q.align : Int) ≠ 0 then some (5, Cls.misalign)
    else if o < 0 ∨ o + (q.w : Int) > (Entry.length (s.entry who h) : Int) then some (6, Cls.bounds) else none := by
  obtain ⟨hindex, hvalid, hworld, hcombined, hpermits⟩ := hentry
  simp [State.precheck, hindex.not_ge, hvalid, hworld, hcombined, hpermits]

theorem State.EntryOk.access_misaligned (hentry : s.EntryOk who h q) (halign : o % (q.align : Int) ≠ 0) :
    s.access who h o q = .fail 5 Cls.misalign false :=
  State.access_of_precheck (hentry.precheck_eq.trans (if_pos halign))

theorem State.EntryOk.access_outside (hentry : s.EntryOk who h q) (halign : o % (q.align : Int) = 0)
    (hout : o < 0 ∨ (Entry.length (s.entry who h) : Int) < o + q.w) : s.access who h o q = .fail 6 Cls.bounds false :=
  State.access_of_precheck (hentry.precheck_eq.trans ((if_neg (not_not.2 halign)).trans (if_pos hout)))

theorem State.EntryOk.access_inside (hentry : s.EntryOk who h q) (halign : o % (q.align : Int) = 0) (hlow : 0 ≤ o)
    (hhigh : o + q.w ≤ (Entry.length (s.entry who h) : Int)) :
    s.access who h o q = s.place who (s.entry who h) o.toNat q := by
  have hin : ¬(o < 0 ∨ o + (q.w : Int) > (Entry.length (s.entry who h) : Int)) := by omega
  rw [State.access, hentry.precheck_eq, if_neg (not_not.2 halign), if_neg hin]

end

/-! ### Steps 7 to 11: the device address -/

section
variable {s : State} {who : Who} {e : BitVec 256} {o pa : Nat} {sec : Bool} {q : Ask}

theorem State.notOwner_iff : s.notOwner who e pa q = true ↔
    q.own = true ∧ Entry.kind e = 1 ∧ s.mayTouch who (pa / 512) = false := by
  simp [State.notOwner, and_assoc]

theorem State.notOwner_eq_false (howns : q.own = false ∨ Entry.kind e ≠ 1 ∨ s.mayTouch who (pa / 512) = true) :
    s.notOwner who e pa q = false := by
  rw [Bool.eq_false_iff, ne_eq, State.notOwner_iff]
  rintro ⟨hown, hkind, htouch⟩
  simp [hown, hkind, htouch] at howns

theorem State.ownedOrWorld_none (howner : s.notOwner who e pa q = false)
    (hworld : 3 < Entry.space e ∨ sec = Entry.secure e) : s.ownedOrWorld who e pa sec q = none := by
  have hsame : ¬(Entry.space e ≤ 3 ∧ sec ≠ Entry.secure e) := fun ⟨hspace, hsec⟩ => hworld.elim (by omega) hsec
  rw [State.ownedOrWorld, howner, if_neg Bool.false_ne_true, if_neg hsame]

variable (hlocate : s.locate who e o q.acc = .ok (.dev pa) sec)
include hlocate

theorem State.place_notOwner (howner : s.notOwner who e pa q = true) : s.place who e o q = .fail 7 Cls.owner false := by
  simp [State.place, hlocate, State.ownedOrWorld, howner]

theorem State.place_world (howner : s.notOwner who e pa q = false) (hspace : Entry.space e ≤ 3)
    (hsec : sec ≠ Entry.secure e) : s.place who e o q = .fail 8 Cls.world false := by
  simp [State.place, hlocate, State.ownedOrWorld, howner, hspace, hsec]

/-- The lost line and the line check come last (R292, R453; the place of R292's check is the model's choice, log 40). -/
theorem State.place_eq (hnone : s.ownedOrWorld who e pa sec q = none) : s.place who e o q =
    if pa / 64 ∈ s.lost then .fail 11 Cls.coherenceLost false
    else if q.check && s.lineBad pa sec then .fail 10 Cls.dataCheck false else .ok (.dev pa) sec := by
  simp [State.place, hlocate, hnone]

end

/-- Settles O31: each step of Table 9.7 is reached when those before it pass, and the first that fails decides. -/
theorem handleChecks : Obligations.HandleChecks := by
  unfold Obligations.HandleChecks
  intro s who h o q
  refine ⟨State.access_index, State.access_invalid, State.access_world, State.access_refused,
    fun hindex hvalid hworld hcombined hpermits => ?_⟩
  have hentry : s.EntryOk who h q := ⟨hindex, hvalid, hworld, hcombined, hpermits⟩
  refine ⟨hentry.access_misaligned, hentry.access_outside, fun halign hlow hhigh pa sec hlocate => ?_⟩
  rw [hentry.access_inside halign hlow hhigh]
  refine ⟨fun hown hkind htouch => State.place_notOwner hlocate (State.notOwner_iff.2 ⟨hown, hkind, htouch⟩),
    fun howns => ?_⟩
  have howner := State.notOwner_eq_false howns
  refine ⟨State.place_world hlocate howner, fun hsame => ?_⟩
  rw [State.place_eq hlocate (State.ownedOrWorld_none howner hsame)]
  refine ⟨fun hlost => if_pos hlost, fun hkept hcheck hbad => ?mismatch, fun hkept hgood => ?passes⟩
  case mismatch => rw [if_neg hkept, hcheck, hbad]; rfl
  case passes =>
    have hmatch : ¬(q.check && s.lineBad pa sec) = true := by obtain h | h := hgood <;> simp [h]
    rw [if_neg hkept, if_neg hmatch]

end Sys2Proof.Machine
end

section
/-! An access of the lanes of an instruction that passes its checks: where its effect takes place, and what the claims, fills and
corrections that go with it leave alone (R226, R230, R238). -/

namespace Sys2Proof.Machine

/-! ### Lanes of a mask -/

theorem mem_lanesOf {m : Word} {l : Nat} : l ∈ lanesOf m ↔ bitOf m l = true := by
  simp only [lanesOf, List.mem_filter, List.mem_range, and_iff_right_iff_imp]
  exact lt_of_bitOf

/-- Lanes added to a mask one by one where a test holds. -/
theorem bitOf_foldl_set (p : Nat → Bool) (l : Nat) (ks : List Nat) (hks : ∀ k ∈ ks, k < 32) (m : Word) :
    bitOf (ks.foldl (fun acc k => if p k then acc ||| ((1 : Word) <<< k) else acc) m) l =
      (bitOf m l || (decide (l ∈ ks) && p l)) := by
  induction ks generalizing m with
  | nil => simp
  | cons k ks ih =>
    obtain ⟨hk, hks⟩ := List.forall_mem_cons.1 hks
    have hone : bitOf ((1 : Word) <<< k) l = decide (l = k) := by
      by_cases hl : l = k
      · simp [bitOf, hl, hk]
      · simp only [bitOf, BitVec.getLsbD_shiftLeft]
        simp [hl]
        omega
    have hstep : bitOf (if p k then m ||| ((1 : Word) <<< k) else m) l = (bitOf m l || (decide (l = k) && p l)) := by
      by_cases hl : l = k
      · subst hl
        split
        · rw [bitOf_or, hone, ‹p l = true›, Bool.and_true]
        · simp [‹¬p l = true›]
      · split
        · rw [bitOf_or, hone, decide_eq_false hl, Bool.false_and]
        · simp [hl]
    rw [List.foldl_cons, ih hks, hstep, Bool.or_assoc, ← Bool.and_or_distrib_right]
    simp only [List.mem_cons, Bool.decide_or]

theorem bitOf_maskOf (p : Nat → Bool) (l : Nat) : bitOf (maskOf p) l = (decide (l < 32) && p l) := by
  rw [maskOf, bitOf_foldl_set p l _ fun k hk => List.mem_range.1 hk, bitOf_zero, Bool.false_or]
  simp only [List.mem_range]

theorem bitOf_and_maskOf (m : Word) (p : Nat → Bool) (l : Nat) : bitOf (m &&& maskOf p) l = (bitOf m l && p l) := by
  rw [bitOf_and, bitOf_maskOf]
  by_cases hm : bitOf m l = true
  · simp [hm, lt_of_bitOf hm]
  · simp [hm]

/-- No lane of a mask meets a test. -/
theorem and_maskOf_eq_zero {m : Word} {p : Nat → Bool} (h : ∀ l ∈ lanesOf m, p l = false) : m &&& maskOf p = 0 := by
  refine BitVec.eq_of_getLsbD_eq fun l _ => (?_ : bitOf (m &&& maskOf p) l = bitOf 0 l)
  rw [bitOf_and_maskOf, bitOf_zero, Bool.and_eq_false_iff, ← Bool.not_eq_true, or_iff_not_imp_left, not_not]
  exact fun hm => h l (mem_lanesOf.2 hm)

/-! ### Where the effect takes place -/

theorem Iss.acting_of_ne {i : Iss} (h : i.act ≠ 0) (s : State) (k : Caller → State) : i.acting s k = k (.warp i i.act) :=
  if_neg h

section
variable {c : Caller} {s u : State} {ref : Nat → Ref} {pa : Nat → Nat}

/-- A handle access that passes its checks and its gate, and that no lease and no atomic holds back, has its effect, at the
addresses that the checks gave (R226). -/
theorem Caller.settle_clear (h : c.reaches s ref pa) (hm : lanesOf c.mask = c.lanes) (acc : Nat) (kind : Nat → ExtKind)
    {gate : State → Except State State} (hg : gate s = .ok u) {n : Nat} (hclear : c.clear u pa n)
    (stop go : (Nat → Loc) → State → State) : ∃ loc, (∀ l ∈ c.lanes, loc l = .dev (pa l)) ∧
      (c.settle s acc ref kind gate fun loc s => if c.blocked s loc n then stop loc s else go loc s) = go loc u := by
  refine ⟨_, fun l hl => Caller.reaches_loc h hl, (Caller.settle_ok h hm acc kind hg _).trans ?_⟩
  have hblocked := (Caller.blocked_congr (s := u) (fun l hl => Caller.reaches_loc h hl) n).trans hclear
  simp only [hblocked, Bool.false_eq_true, if_false]

end

section
variable {i : Iss} {s u : State} {ask : Nat → TileAsk} {at_ : Nat → Nat × Nat × Nat}

theorem State.tileRef_congr (hcrews : u.crews = s.crews) (hgangs : u.gangs = s.gangs) (crew : Option Nat) (tw : Word) :
    u.tileRef crew tw = s.tileRef crew tw := by
  simp only [State.tileRef, State.tile?, hcrews, hgangs]

/-- A tile access that passes its checks, and whose gate leaves crews and gangs as they are, has its effect at the crews, tiles
and offsets that the checks gave (R230). -/
theorem Iss.tiles_at (h : i.reachesTile s ask at_) {gate : State → Except State State} (hg : gate s = .ok u)
    (hcrews : u.crews = s.crews) (hgangs : u.gangs = s.gangs) (k : (Nat → Nat × Nat × Nat) → State → State) :
    ∃ at', (∀ l ∈ lanesOf i.act, at' l = at_ l) ∧ i.tiles s ask gate k = k at' u := by
  refine ⟨fun l => match u.tileRef i.w.crew (ask l).tw with
      | .at c t _ => (c, t, match (s.tileAccess i.w.crew (ask l).tw (ask l).row (ask l).col (ask l).w (ask l).plane
          (ask l).ecc).loc with | .dev off => off | _ => 0)
      | _ => (0, 0, 0), fun l hl => ?_, ?_⟩
  · obtain ⟨⟨t, ht⟩, sec, haccess⟩ := h l hl
    simp only [State.tileRef_congr hcrews hgangs, ht, haccess, AccOut.loc]
  · unfold Iss.tiles Iss.tilesBy
    rw [groupOut_ok fun l hl => by
      obtain ⟨-, sec, haccess⟩ := h l hl
      exact ⟨_, sec, haccess⟩]
    simp only [hg] <;> rfl

/-- The same, where no lane has an atomic on its bytes to wait for (R122). -/
theorem Iss.tiles_clear (h : i.reachesTile s ask at_) {gate : State → Except State State} (hg : gate s = .ok u)
    (hcrews : u.crews = s.crews) (hgangs : u.gangs = s.gangs) {n : Nat}
    (hatoms : ∀ l ∈ lanesOf i.act, u.atomOnTile (.lane i.core i.slot l) (at_ l).1 (at_ l).2.1 (at_ l).2.2 n = false)
    (stop go : (Nat → Nat × Nat × Nat) → State → State) : ∃ at', (∀ l ∈ lanesOf i.act, at' l = at_ l) ∧
      (i.tiles s ask gate fun at_ s => if (Caller.warp i i.act).lanes.any fun l =>
          s.atomOnTile ((Caller.warp i i.act).agent l) (at_ l).1 (at_ l).2.1 (at_ l).2.2 n then stop at_ s else go at_ s) =
        go at' u := by
  obtain ⟨at', hat, heq⟩ := Iss.tiles_at h hg hcrews hgangs _
  refine ⟨at', hat, heq.trans (if_neg ?_)⟩
  rw [List.any_eq_true]
  rintro ⟨l, hl, hatom⟩
  rw [hat l hl] at hatom
  rw [show Caller.agent (.warp i i.act) l = .lane i.core i.slot l from rfl, hatoms l hl] at hatom
  cases hatom

end

/-! ### What goes with an access -/

theorem Touched.warp? {s t : State} (h : Touched s t) (core slot : Nat) : t.warp? core slot = s.warp? core slot := by
  unfold Touched at h
  rw [← h]
  rfl

theorem Touched.crew? {s t : State} (h : Touched s t) (core slot : Nat) : t.crew? core slot = s.crew? core slot := by
  unfold Touched at h
  rw [← h]
  rfl

@[simp] theorem State.correct_warps (s : State) (die crew tile off n : Nat) :
    (s.correct die crew tile off n).warps = s.warps := by
  unfold State.correct
  dsimp only
  split <;> rfl

section
variable {i : Iss} {s : State} {f g : Nat → Nat × Nat × Nat}

theorem Iss.corrected_warps (n : Nat) : (i.corrected s f n).warps = s.warps := by
  unfold Iss.corrected
  generalize lanesOf i.act = ls
  induction ls generalizing s with
  | nil => rfl
  | cons l ls ih => exact ih.trans (State.correct_warps _ _ _ _ _ _)

theorem Iss.corrected_warp? (n : Nat) (core slot : Nat) : (i.corrected s f n).warp? core slot = s.warp? core slot := by
  rw [State.warp?, Iss.corrected_warps, State.warp?]

theorem Iss.corrected_congr (h : ∀ l ∈ lanesOf i.act, f l = g l) (n : Nat) : i.corrected s f n = i.corrected s g n :=
  foldl_congr_mem _ _ _ (fun _ l hl => by rw [h l hl]) _

end

theorem Iss.loaded_congr {i : Iss} {f g : Nat → List Byte} (h : ∀ l ∈ lanesOf i.act, f l = g l) : i.loaded f = i.loaded g :=
  List.flatMap_congr fun l hl => by rw [h l hl]

/-- Only the values of the active lanes are written. -/
theorem Wrote.congr {s t : State} {i : Iss} {wide : Bool} {v v' : Nat → DWord} (h : Wrote s t i wide v)
    (hv : ∀ l ∈ lanesOf i.act, v l = v' l) : Wrote s t i wide v' := by
  obtain ⟨w, hholds, hended⟩ := h
  refine ⟨w, { hholds with low := fun l hl hact => ?_, high := fun hw l hl hact => ?_ }, hended⟩
  · rw [← hv l (mem_lanesOf.2 hact), hholds.low l hl hact]
  · rw [← hv l (mem_lanesOf.2 hact), hholds.high hw l hl hact]

end Sys2Proof.Machine
end

section
/-! Loads, and the queries of tiles and handles (R150, R225, R230, R233, R234). -/

namespace Sys2Proof.Machine

/-! ### Widths of a load (Table 9.5) -/

theorem loadWords_of_le {mo : Nat} (h : mo ≤ 5) (bs : List Byte) : loadWords mo bs = [lo32 (tyTrunc mo (natOf bs))] := by
  rw [loadWords, if_pos h, tyExtend_eq_tyTrunc]

theorem loadWords_word {mo : Nat} (h : mo = 0 ∨ mo = 1) (bs : List Byte) :
    loadWords mo bs = [lo32 (w64 (natOf bs % 2 ^ 32))] := by
  rw [loadWords_of_le (by omega), lo32_tyTrunc_word h, lo32_w64, BitVec.ofInt_natCast]
  exact congrArg (fun x => [x]) (BitVec.eq_of_toNat_eq (by simp))

theorem loadWords_signed {mo : Nat} (h : mo ≤ 5) (hs : tySigned mo = true) (bs : List Byte) :
    loadWords mo bs = [(BitVec.ofNat (tyWidth mo) (natOf bs)).signExtend 32] := by
  have hw : tyWidth mo ≠ 64 := by interval_cases mo <;> decide
  rw [loadWords_of_le h, lo32_tyTrunc_signed hw hs, BitVec.ofInt_natCast]

theorem loadWords_unsigned {mo : Nat} (h : mo ≤ 5) (hs : tySigned mo = false) (bs : List Byte) :
    loadWords mo bs = [(BitVec.ofNat (tyWidth mo) (natOf bs)).setWidth 32] := by
  have hw : tyWidth mo ≠ 64 := by interval_cases mo <;> decide
  rw [loadWords_of_le h, lo32_tyTrunc_unsigned hw hs, BitVec.ofInt_natCast]

/-! ### Loads -/

/-- All that a load of the lanes does, once the bytes are known. -/
theorem Iss.loadTo_produced {i : Iss} {s : State} (h : s.warp? i.core i.slot = some i.w) {f g : Nat → List Byte}
    (hbytes : ∀ l ∈ lanesOf i.act, f l = g l) : Produced s (i.loadTo s f) i (i.loaded g) [] := by
  rw [← Iss.loaded_congr hbytes]
  exact Iss.produce_produced h _ _

/-- All that a lead instruction which ends as a producer does. -/
theorem LIss.produce_produced {i : LIss} {s : State} (h : s.crew? i.core i.slot = some i.c) (v : DWord) :
    LeadProduced s (i.produce s v) i v :=
  LIss.commit_became (s := { s with nextId := s.nextId + 1 }) h _

/-- The gate of a load: an ordered form has nothing earlier to wait for (R132). -/
theorem Caller.loadGate_open {c : Caller} {s : State} {fn : Nat} (h : ordered fn = true → c.acquired s = .ok s) :
    (if ordered fn then c.acquired else open_) s = .ok s := by
  split
  · exact h ‹_›
  · rfl

/-- LD takes its values when it issues (R225; a choice of the model, log 54). -/
theorem ld_does (pa : Nat → Nat) : LaneDoesWhen .ld 5 0x00 (fun s i =>
      i.act ≠ 0 ∧ (Caller.warp i i.act).reaches s
        (fun l => { h := (Caller.warp i i.act).handle l, o := i.offset l, q := readAsk (accessWidth i.mo) }) pa ∧
      (ordered i.fn = true → (Caller.warp i i.act).acquired s = .ok s) ∧
      (Caller.warp i i.act).clear s pa (accessWidth i.mo))
    (fun s t i => ∃ u, Touched s u ∧
      Produced u t i (i.loaded fun l => s.seeN i.core (.lane i.core i.slot l) (pa l) (accessWidth i.mo)) []) := by
  refine .of_lane (fun _ _ => rfl) fun s i h ⟨hact, hreach, hgate, hclear⟩ => ?_
  rw [Iss.acting_of_ne hact]
  obtain ⟨loc, hloc, heq⟩ := Caller.settle_clear hreach rfl 1 (fun _ => .read (accessWidth i.mo))
    (Caller.loadGate_open hgate) hclear _ _
  rw [heq]
  have htouched := touched_foldl (fun s l => (s.touch ((Caller.warp i i.act).who s l) ((Caller.warp i i.act).handle l)
    (loc l)).filled i.core (loc l)) (fun _ _ => (State.touch_touched _ _ _ _).trans (State.filled_touched _ _ _))
    (lanesOf i.act) s
  refine ⟨_, htouched, Iss.loadTo_produced ((htouched.warp? _ _).trans (State.laneIss_warp h)) fun l hl => ?_⟩
  rw [hloc l hl]
  rfl

theorem sld_does (pa : Nat) : LeadDoesWhen .sld 0 0x12 (fun s i => (Caller.lead i).reaches s
        (fun l => { h := (Caller.lead i).handle l, o := i.offset, q := readAsk (accessWidth i.mo) }) (fun _ => pa) ∧
      (Caller.lead i).clear s (fun _ => pa) (accessWidth i.mo))
    (fun s t i => ∃ u, Touched s u ∧
      LeadProduced u t i (leadExtend i.mo (natOf (s.seeN i.core (.lead i.core i.slot) pa (accessWidth i.mo))))) := by
  refine .of_effect (fun _ _ => rfl) fun s i h ⟨hreach, hclear⟩ => ?_
  obtain ⟨loc, hloc, heq⟩ := Caller.settle_clear hreach lanesOf_one 1 (fun _ => .read (accessWidth i.mo))
    (gate := open_) rfl hclear _ _
  rw [heq, hloc 0 (List.mem_singleton.2 rfl)]
  have htouched := (State.touch_touched s ((Caller.lead i).who s 0) ((Caller.lead i).handle 0) (.dev pa)).trans
    (State.filled_touched _ i.core (.dev pa))
  exact ⟨_, htouched, LIss.produce_produced ((htouched.crew? _ _).trans (State.leadIss_crew h)) _⟩

theorem ldt_does (at_ : Nat → Nat × Nat × Nat) : LaneDoesWhen .ldt 5 0x02 (fun s i =>
      i.act ≠ 0 ∧ i.reachesTile s (i.tileAsk (accessWidth i.mo) (decide (bits i.fn 6 6 = 1)) true false) at_ ∧
      (ordered i.fn = true → (Caller.warp i i.act).acquired s = .ok s) ∧
      ∀ l ∈ lanesOf i.act, s.atomOnTile (.lane i.core i.slot l) (at_ l).1 (at_ l).2.1 (at_ l).2.2 (accessWidth i.mo) = false)
    (fun s t i => Produced (i.corrected s at_ (accessWidth i.mo)) t i
      (i.loaded fun l => s.tileBytes i.w l (at_ l).1 (at_ l).2.1 (at_ l).2.2 (accessWidth i.mo)) []) := by
  refine .of_lane (fun _ _ => rfl) fun s i h ⟨hact, hreach, hgate, hatoms⟩ => ?_
  rw [Iss.acting_of_ne hact]
  obtain ⟨at', hat, heq⟩ := Iss.tiles_clear hreach (Caller.loadGate_open hgate) rfl rfl hatoms _ _
  rw [heq, Iss.corrected_congr hat]
  exact Iss.loadTo_produced ((Iss.corrected_warp? _ _ _).trans (State.laneIss_warp h)) fun l hl => by rw [hat l hl]

/-! ### Queries -/

theorem tquery_does (tile : Nat → Tile) : LaneDoesWhen .tquery 5 0x06 (fun s i => ∀ l ∈ lanesOf i.act, ∃ k n,
      s.tileRef i.w.crew (i.w.getV l i.f.a.toNat) = .at k n (tile l))
    (fun s t i => Wrote s t i true fun l => (tile l).query) := by
  refine .of_lane (fun _ _ => rfl) fun s i h htile => ?_
  dsimp only
  rw [if_neg (not_not.2 (and_maskOf_eq_zero fun l hl => ?formed))]
  refine (Iss.write_wrote (State.laneIss_warp h) true _).congr fun l hl => ?value
  all_goals
    obtain ⟨k, n, href⟩ := htile l hl
    rw [href]

theorem hquery_does : LaneDoesWhen .hquery 5 0x07
    (fun _ i => ∀ l ∈ lanesOf i.act, (i.w.getV l i.f.a.toNat).toNat < 4096)
    (fun s t i => Wrote s t i true fun l => w64 (field256
      (s.entry (s.laneWho i.core i.slot i.w l) (i.w.getV l i.f.a.toNat).toNat) (64 * i.mo) 64)) :=
  .of_write (wide := fun _ => true) (fun _ _ => rfl) fun _ _ hindex =>
    if_neg (not_not.2 (and_maskOf_eq_zero fun l hl => decide_eq_false (hindex l hl).not_ge))

/-- Settles O32: each load is a producer of the bytes that its lanes see, and each query a write of what it finds. -/
theorem loads : Obligations.Loads := by
  unfold Obligations.Loads
  refine ⟨ld_does, sld_does, ldt_does, tquery_does, hquery_does,
    fun mo bs => ⟨fun h => loadWords_word h bs, ?_, ?_, ?_, ?_⟩⟩
  all_goals rintro rfl
  · exact loadWords_signed (by decide) rfl bs
  · exact loadWords_unsigned (by decide) rfl bs
  · exact loadWords_signed (by decide) rfl bs
  · exact loadWords_unsigned (by decide) rfl bs

end Sys2Proof.Machine
end

section
/-! Stores (R150, R225, R229, R230). -/

namespace Sys2Proof.Machine

theorem Caller.put1_congr {c : Caller} {f g : Nat → Loc} {ls : List Nat} (h : ∀ l ∈ ls, f l = g l) (s : State)
    (at_ off : Nat → Nat) (bs : Nat → List Byte) :
    ls.foldl (fun s l => c.put1 s l (at_ l) (off l) (f l) (bs l)) s =
      ls.foldl (fun s l => c.put1 s l (at_ l) (off l) (g l) (bs l)) s :=
  foldl_congr_mem _ _ _ (fun _ l hl => by rw [h l hl]) _

theorem st_does (pa : Nat → Nat) (u : State) : LaneDoesWhen .st 5 0x01 (fun s i =>
      i.act ≠ 0 ∧ (Caller.warp i i.act).reaches s
        (fun l => { h := (Caller.warp i i.act).handle l, o := i.offset l, q := writeAsk (accessWidth i.mo) }) pa ∧
      (if ordered i.fn then (Caller.warp i i.act).released s
       else (Caller.warp i i.act).storeGate (Caller.warp i i.act).handle s) = .ok u ∧
      (Caller.warp i i.act).clear u pa (accessWidth i.mo))
    (fun _ t i => t = i.done ((lanesOf i.act).foldl (fun s l => (Caller.warp i i.act).put1 s l
      ((Caller.warp i i.act).handle l) (i.offset l).toNat (.dev (pa l)) (i.dataBytes l (accessWidth i.mo))) u)) := by
  refine .of_lane (fun _ _ => rfl) fun s i _ ⟨hact, hreach, hgate, hclear⟩ => ?_
  rw [Iss.acting_of_ne hact]
  obtain ⟨loc, hloc, heq⟩ := Caller.settle_clear hreach rfl 2 (fun l => .write (i.dataBytes l (accessWidth i.mo)))
    ((ite_apply _ _ _ _).trans hgate) hclear _ _
  rw [heq]
  exact congrArg i.done (Caller.put1_congr hloc u _ _ _)

theorem sst_does (pa : Nat) (u : State) : LeadDoesWhen .sst 0 0x13 (fun s i => (Caller.lead i).reaches s
        (fun l => { h := (Caller.lead i).handle l, o := i.offset, q := writeAsk (accessWidth i.mo) }) (fun _ => pa) ∧
      (if ordered i.fn then (Caller.lead i).released s else (Caller.lead i).storeGate (Caller.lead i).handle s) = .ok u ∧
      (Caller.lead i).clear u (fun _ => pa) (accessWidth i.mo))
    (fun _ t i => t = i.done ((Caller.lead i).put1 u 0 ((Caller.lead i).handle 0) i.offset.toNat (.dev pa)
      (bytesOf (accessWidth i.mo) i.kc.toNat))) := by
  refine .of_effect (fun _ _ => rfl) fun s i _ ⟨hreach, hgate, hclear⟩ => ?_
  obtain ⟨loc, hloc, heq⟩ := Caller.settle_clear hreach lanesOf_one 2
    (fun _ => .write (bytesOf (accessWidth i.mo) i.kc.toNat)) ((ite_apply _ _ _ _).trans hgate) hclear _ _
  rw [heq, hloc 0 (List.mem_singleton.2 rfl)]

theorem Iss.storeTiles_congr {i : Iss} {f g : Nat → Nat × Nat × Nat} (h : ∀ l ∈ lanesOf i.act, f l = g l) (s : State)
    (n : Nat) : i.storeTiles s f n = i.storeTiles s g n :=
  foldl_congr_mem _ _ _ (fun _ l hl => by rw [h l hl]) _

/-- The gate of STT: an ordered form releases first, and any other waits while a fence of its lanes publishes (R132). -/
def Caller.tileGate (c : Caller) (fn : Nat) (s : State) : Except State State :=
  if ordered fn then c.released s else if c.unfenced s then .ok s else .error (c.behindFence s)

theorem Caller.tileGate_open {c : Caller} {s u : State} {fn : Nat}
    (h : if ordered fn then c.released s = .ok u else u = s ∧ c.unfenced s = true) : c.tileGate fn s = .ok u := by
  unfold Caller.tileGate
  split_ifs at h ⊢ with _ hfree
  · exact h
  · rw [h.1]
  · exact absurd h.2 hfree

theorem stt_does (at_ : Nat → Nat × Nat × Nat) (u : State) : LaneDoesWhen .stt 5 0x03 (fun s i =>
      i.act ≠ 0 ∧ i.reachesTile s (i.tileAsk (accessWidth i.mo) (decide (bits i.fn 6 6 = 1))
        (decide (accessWidth i.mo < 4)) true) at_ ∧ u.crews = s.crews ∧ u.gangs = s.gangs ∧
      (if ordered i.fn then (Caller.warp i i.act).released s = .ok u
       else u = s ∧ (Caller.warp i i.act).unfenced s = true) ∧
      ∀ l ∈ lanesOf i.act, u.atomOnTile (.lane i.core i.slot l) (at_ l).1 (at_ l).2.1 (at_ l).2.2 (accessWidth i.mo) = false)
    (fun _ t i => t = i.done ((lanesOf i.act).foldl (fun s l =>
        s.laneTile i.core i.slot l (at_ l).1 (at_ l).2.1 (at_ l).2.2 (i.dataBytes l (accessWidth i.mo)))
      (if accessWidth i.mo < 4 then i.corrected u at_ (accessWidth i.mo) else u))) := by
  refine .of_lane (fun _ _ => rfl) fun s i _ ⟨hact, hreach, hcrews, hgangs, hgate, hatoms⟩ => ?_
  rw [Iss.acting_of_ne hact]
  obtain ⟨at', hat, heq⟩ := Iss.tiles_clear (gate := (Caller.warp i i.act).tileGate i.fn) hreach (Caller.tileGate_open hgate)
    hcrews hgangs hatoms _ _
  refine heq.trans ?_
  rw [Iss.storeTiles_congr hat, Iss.corrected_congr hat]
  rfl

/-- Settles O33: each store, past its checks and its gate, puts the bytes of its lanes one after the other. -/
theorem stores : Obligations.Stores := by
  unfold Obligations.Stores
  exact ⟨st_does, sst_does, stt_does⟩

end Sys2Proof.Machine
end

section
/-! Tiles allocated and freed, waits on a word of a tile, prefetches and fences (R231, R232, R235 to R237). -/

namespace Sys2Proof.Machine

/-! ### Allocation (R231) -/

/-- An allocation that succeeds gives a shape within its limits the lowest free number, and keeps the crew within its grant. -/
theorem Crew.alloc_ok {c c' : Crew} {level fmt rows cols n : Nat} (h : c.alloc level fmt rows cols = .ok (n, c')) :
    1 ≤ rows ∧ rows ≤ 4096 ∧ 1 ≤ cols ∧ cols ≤ 4096 ∧ n < 256 ∧ look c.tiles n = none ∧
      (∀ m, m < n → (look c.tiles m).isSome) ∧
      c' = { c with tiles := put c.tiles n { level, fmt, rows, cols, bytes := [], bad := [], single := [] } } ∧
      c.charged (level == 1) + tileSize level fmt rows cols ≤ (if level = 1 then c.acc else c.scr) := by
  unfold Crew.alloc at h
  split at h
  · cases h
  rename_i hshape
  push Not at hshape
  obtain ⟨hrows, hrows', hcols, hcols', -⟩ := hshape
  split at h
  · cases h
  rename_i m hfree
  obtain ⟨hnone, hrange, hlower⟩ := List.find?_range_eq_some.1 hfree
  dsimp only at h
  by_cases hgrant : c.charged (level == 1) + tileSize level fmt rows cols > (if level == 1 then c.acc else c.scr)
  · rw [if_pos hgrant] at h
    cases h
  rw [if_neg hgrant] at h
  cases h
  refine ⟨hrows, hrows', hcols, hcols', List.mem_range.1 hrange, Option.isNone_iff_eq_none.1 hnone, fun k hk => ?lower,
    rfl, ?grant⟩
  case lower =>
    rw [← Option.not_isNone]
    exact hlower k hk
  case grant => simpa only [beq_iff_eq, not_lt] using hgrant

/-- TALLOC gives each lane its number once the lanes, in rising order, have been served. -/
theorem talloc_does (k : Nat) (c c' : Crew) (ns : List (Nat × Nat)) : LaneDoesWhen .talloc 5 0x04 (fun s i =>
      i.act ≠ 0 ∧ i.w.crew = some k ∧ look s.crews k = some c ∧
      c.allocAll i.mo (i.fn % 32) (fun l => (i.b32 l).toNat) (lanesOf i.act) = .ok (c', ns))
    (fun s t i => Wrote { s with crews := put s.crews k c' } t i false fun l =>
      w64 ((if i.mo = 2 then 2 ^ 12 + c.rank * 2 ^ 8 else 0) + count ns l)) := by
  refine .of_lane (fun _ _ => rfl) fun s i h ⟨hact, hcrew, hc, halloc⟩ => ?_
  rw [Iss.acting_of_ne hact]
  simp only [hcrew, hc, Option.bind_some, Option.map_some, halloc]
  have hwarp : ({ s with crews := put s.crews k c' } : State).warp? i.core i.slot = some i.w := State.laneIss_warp h
  have hwrote := Iss.write_wrote hwarp false fun l => w64 ((if i.mo = 2 then 2 ^ 12 + c.rank * 2 ^ 8 else 0) + count ns l)
  simp only [Iss.write, Lane.setW, lo32_w64, Bool.false_eq_true, if_false] at hwrote
  exact hwrote

/-- The first lane of TALLOC that fails faults alone (log 32). -/
theorem talloc_faults (k : Nat) (c : Crew) (cls l : Nat) : LaneDoesWhen .talloc 5 0x04 (fun s i =>
      i.act ≠ 0 ∧ i.w.crew = some k ∧ look s.crews k = some c ∧
      c.allocAll i.mo (i.fn % 32) (fun l => (i.b32 l).toNat) (lanesOf i.act) = .error (l, cls))
    (fun s t i => t = i.raise s cls ((1 : Word) <<< l) (fun _ => 0) fun _ => 0) := by
  refine .of_lane (fun _ _ => rfl) fun s i _ ⟨hact, hcrew, hc, halloc⟩ => ?_
  rw [Iss.acting_of_ne hact]
  simp only [hcrew, hc, Option.bind_some, Option.map_some, halloc]

/-! ### Freeing (R232) -/

theorem tfree_does (k : Nat) (c : Crew) (tile : Nat → Nat) : LaneDoesWhen .tfree 5 0x05 (fun s i =>
      i.act ≠ 0 ∧ i.w.crew = some k ∧ look s.crews k = some c ∧
      (∀ l ∈ lanesOf i.act, ∃ t, s.tileRef (some k) (i.w.getV l i.f.a.toNat) = .at k (tile l) t ∧
        (bits (i.w.getV l i.f.a.toNat).toNat 12 12 = 1 → bits (i.w.getV l i.f.a.toNat).toNat 11 8 = c.rank) ∧
        c.names (k, tile l) = false ∧ s.atomsOn k (tile l) = false))
    (fun s t i => t = i.done (((lanesOf i.act).map tile).foldl (fun s n => s.freeTile k n) s)) := by
  refine .of_lane (fun _ _ => rfl) fun s i _ ⟨hact, hcrew, hc, hlanes⟩ => ?_
  rw [Iss.acting_of_ne hact]
  have hself : (Caller.warp i i.act).crew? s = some (k, c) := by simp [Caller.crew?, Caller.crew, hcrew, hc]
  have htiles : ((lanesOf i.act).filterMap fun l => (s.tileRef (some k) (i.w.getV l i.f.a.toNat)).tile?).map (fun r => r.2.1) =
      (lanesOf i.act).map tile := by
    rw [List.map_filterMap, List.filterMap_eq_map_iff_forall_eq_some]
    intro l hl
    obtain ⟨t, href, -⟩ := hlanes l hl
    rw [href]
    rfl
  have hunused : ((lanesOf i.act).map tile).any (fun n => c.names (k, n) || s.atomsOn k n) = false := by
    rw [List.any_eq_false]
    intro n hn
    obtain ⟨l, hl, rfl⟩ := List.mem_map.1 hn
    obtain ⟨t, -, -, hnames, hatoms⟩ := hlanes l hl
    simp [hnames, hatoms]
  rw [hself]
  refine (if_neg (not_not.2 (and_maskOf_eq_zero fun l hl => ?formed))).trans <|
    (if_neg (not_not.2 (and_maskOf_eq_zero fun l hl => ?mine))).trans <|
    (if_neg (not_not.2 (and_maskOf_eq_zero fun l hl => ?there))).trans ?free
  case free =>
    dsimp only
    rw [htiles, hunused]
    rfl
  case mine =>
    obtain ⟨t, -, hrank, -⟩ := hlanes l hl
    simpa using hrank
  all_goals
    obtain ⟨t, href, -⟩ := hlanes l hl
    dsimp only
    rw [href]

/-! ### Waits on a word (R235) -/

/-- Lanes of a mask begin waits of their own, and the other lanes of the group go past (R163). -/
theorem Iss.await_pc {s : State} {i : Iss} (h : s.warp? i.core i.slot = some i.w) (m : Word) (wait : Nat → Wait) :
    OnlyWarp s (i.await s m wait) i.core i.slot ∧ ∃ w', (i.await s m wait).warp? i.core i.slot = some w' ∧
      ∀ l, l < i.w.lanes.length → bitOf i.grp l = true → (w'.lane l).pc =
        if bitOf m l then (i.w.lane l).pc else (i.w.lane l).pc + BitVec.ofNat 32 i.f.len := by
  refine ⟨State.onWarp_only s _ _ _, _, State.warp?_onWarp_of_eq h _, fun l hl hgrp => ?_⟩
  have hpassed : l < (i.w.advance (i.grp &&& ~~~m) i.f).lanes.length := by rwa [Warp.advance, Warp.length_onMask]
  rw [Warp.counted, show ∀ (w : Warp) (n : DWord), ({ w with instr := n } : Warp).lane l = w.lane l from fun _ _ => rfl,
    Warp.lane_onMask _ _ _ l hpassed, Warp.advance, Warp.lane_onMask _ _ _ l hl, bitOf_and_not hgrp]
  cases bitOf m l <;> rfl

theorem waita_does (at_ : Nat → Nat × Nat × Nat) : LaneDoesWhen .waita 5 0x08 (fun s i =>
      i.act ≠ 0 ∧ i.reachesTile s (i.tileAsk 4 false true false) at_ ∧
      ∀ l ∈ lanesOf i.act, s.atomOnTile (.lane i.core i.slot l) (at_ l).1 (at_ l).2.1 (at_ l).2.2 4 = false)
    (fun s t i => OnlyWarp (i.corrected s at_ 4) t i.core i.slot ∧ ∃ w', t.warp? i.core i.slot = some w' ∧
      ∀ l, l < i.w.lanes.length → bitOf i.grp l = true → (w'.lane l).pc = if bitOf i.act l ∧
          waitaHolds i.mo (w32 (natOf (s.tileBytes i.w l (at_ l).1 (at_ l).2.1 (at_ l).2.2 4))) (i.w.getV l i.f.c.toNat) = false
        then (i.w.lane l).pc else (i.w.lane l).pc + BitVec.ofNat 32 i.f.len) := by
  refine .of_lane (fun _ _ => rfl) fun s i h ⟨hact, hreach, hatoms⟩ => ?_
  rw [Iss.acting_of_ne hact]
  obtain ⟨at', hat, heq⟩ := Iss.tiles_clear (gate := open_) hreach rfl rfl rfl hatoms _ _
  rw [heq, Iss.corrected_congr hat]
  obtain ⟨honly, w', hw', hpc⟩ := Iss.await_pc ((Iss.corrected_warp? _ _ _).trans (State.laneIss_warp h)) _ _
  refine ⟨honly, w', hw', fun l hl hgrp => (hpc l hl hgrp).trans ?_⟩
  rw [bitOf_and_maskOf]
  by_cases hbit : bitOf i.act l = true
  · simp [hbit, hat l (mem_lanesOf.2 hbit)]
  · simp [hbit]

/-! ### Prefetches (R236) -/

theorem State.filled_owners (s : State) (core : Nat) (loc : Loc) : (s.filled core loc).owners = s.owners := by
  unfold State.filled
  split <;> rfl

/-- A prefetch changes at most who holds a line. -/
theorem Iss.prefetch_fills (i : Iss) (s : State) (l : Nat) :
    Touched s (i.prefetch s l) ∧ (i.prefetch s l).owners = s.owners := by
  unfold Iss.prefetch
  dsimp only
  split
  · split
    · exact ⟨State.filled_touched _ _ _, State.filled_owners _ _ _⟩
    · exact ⟨.refl s, rfl⟩
  · exact ⟨.refl s, rfl⟩

theorem Iss.prefetches_owners (i : Iss) (ls : List Nat) (s : State) : (ls.foldl i.prefetch s).owners = s.owners := by
  induction ls generalizing s with
  | nil => rfl
  | cons l ls ih => exact (ih _).trans (i.prefetch_fills s l).2

theorem pref_does : LaneDoes .pref 5 0x09 fun s t i => ∃ u : State, Touched s u ∧ u.owners = s.owners ∧ Ended u t i i.w := by
  refine .of_lane (fun _ _ => rfl) fun s i h _ => ?_
  have htouched := touched_foldl i.prefetch (fun s l => (i.prefetch_fills s l).1) (lanesOf i.act) s
  exact ⟨_, htouched, i.prefetches_owners _ s, Iss.commitWarp_ended ((htouched.warp? _ _).trans (State.laneIss_warp h)) id⟩

/-! ### Fences (R237) -/

/-- What a fence finds once its lanes' releases are complete and their atomics, or their stores too, are performed. -/
theorem fence_gate {c : Caller} {s v u : State} {mo : Nat} (hcomplete : c.completion s = .ok v)
    (hdone : (if mo = 0 then c.acquired v else c.performed v) = .ok u) :
    (do let s ← c.completion s; if mo = 0 then c.acquired s else c.performed s : Except State State) = .ok u := by
  rw [hcomplete]
  exact hdone

theorem fence_ends (u v : State) : LaneDoesWhen .fence 5 0x0A (fun s i => i.act ≠ 0 ∧
      (Caller.warp i i.act).completion s = .ok v ∧
      (if i.mo = 0 then (Caller.warp i i.act).acquired v else (Caller.warp i i.act).performed v) = .ok u ∧
      (i.mo = 0 ∨ (Caller.warp i i.act).unpublished u (fun _ => true) = []))
    (fun _ t i => t = i.done u) := by
  refine .of_lane (fun _ _ => rfl) fun s i _ ⟨hact, hcomplete, hdone, hnone⟩ => ?_
  rw [Iss.acting_of_ne hact]
  have hnothing : (if i.mo = 0 then [] else (Caller.warp i i.act).unpublished u fun _ => true) = [] := by
    split_ifs with hacq
    · rfl
    · exact hnone.resolve_left hacq
  rw [fence_gate hcomplete hdone]
  simp only [hnothing]

/-- A fence with writes unpublished begins their release (log 28). -/
theorem fence_releases (u v : State) (e : Nat) (es : List Nat) : LaneDoesWhen .fence 5 0x0A (fun s i => i.act ≠ 0 ∧
      i.mo ≠ 0 ∧ (Caller.warp i i.act).completion s = .ok v ∧
      (Caller.warp i i.act).performed v = .ok u ∧ (Caller.warp i i.act).unpublished u (fun _ => true) = e :: es)
    (fun _ t i => t = i.done ((Caller.warp i i.act).release u .fence (max 4 (bits i.fn 5 3)) (e :: es) 0 0).2) := by
  refine .of_lane (fun _ _ => rfl) fun s i _ ⟨hact, hrel, hcomplete, hdone, hsome⟩ => ?_
  rw [Iss.acting_of_ne hact]
  rw [fence_gate hcomplete ((if_neg hrel).trans hdone)]
  simp only [if_neg hrel, hsome]

/-- Settles O35: tiles by what an allocation leaves of the crew, WAITA by the lanes that begin their wait, fences by what their
gate leaves unpublished. -/
theorem tilesAndWaits : Obligations.TilesAndWaits := by
  unfold Obligations.TilesAndWaits
  exact ⟨talloc_does, talloc_faults, fun _ _ _ _ _ _ _ => Crew.alloc_ok, tfree_does, waita_does, pref_does, fence_ends,
    fence_releases⟩

end Sys2Proof.Machine
end

section
/-! The requests of an atomic instruction: made lane by lane, and the end of the instruction that made them (R244, R245,
R249, R258). -/

namespace Sys2Proof.Machine

/-! ### The request of a lane -/

/-- The place is one of the part: a device address or a word of a tile (Table 10.1). -/
def AtomAt.inside : AtomAt → Prop
  | .mem (.dev _) => True
  | .mem _ => False
  | .tile _ _ _ => True

/-- A request at a place of the part stands in its lane or has been accepted, and nothing else changes but identifiers. -/
theorem State.accept_eq (s : State) (id : Nat) {a : AtomReq} (h : a.place.inside) :
    ∃ next acc order badger, s.nextId ≤ next ∧ s.accept id a = { s with
      nextId := next, atoms := put s.atoms id { a with accepted := acc, order := order, badger := badger } } := by
  have hstands : ∃ next acc order badger, s.nextId ≤ next ∧ ({ s with atoms := put s.atoms id a } : State) = { s with
      nextId := next, atoms := put s.atoms id { a with accepted := acc, order := order, badger := badger } } :=
    ⟨s.nextId, a.accepted, a.order, a.badger, le_rfl, rfl⟩
  unfold State.accept
  dsimp only
  split
  · exact hstands
  · split
    case h_1 hplace => rw [hplace] at h; exact h.elim
    case h_2 hplace => rw [hplace] at h; exact h.elim
    case h_3 => exact ⟨s.nextId + 1, true, s.nextId, _, Nat.le_succ _, rfl⟩
    case h_4 =>
      split
      · exact ⟨s.nextId + 1, true, s.nextId, _, Nat.le_succ _, rfl⟩
      · exact hstands

/-- The request of one lane, made. -/
def Iss.askLane (i : Iss) (at_ : Nat → AtomLane) (rel : Option Nat) (prod : Nat) (s : State) (l : Nat) : State :=
  ({ s with nextId := s.nextId + 1 } : State).accept s.nextId
    (i.atomReq rel s.beat prod (at_ l).place (at_ l).off (at_ l).name (at_ l).owned l)

theorem Iss.askLane_eq (i : Iss) {at_ : Nat → AtomLane} (rel : Option Nat) (prod : Nat) (s : State) {l : Nat}
    (h : (at_ l).place.inside) : ∃ next acc order badger, s.nextId < next ∧ i.askLane at_ rel prod s l = { s with
      nextId := next, atoms := put s.atoms s.nextId { i.atomReq rel s.beat prod (at_ l).place (at_ l).off (at_ l).name
        (at_ l).owned l with accepted := acc, order := order, badger := badger } } :=
  State.accept_eq { s with nextId := s.nextId + 1 } s.nextId
    (a := i.atomReq rel s.beat prod (at_ l).place (at_ l).off (at_ l).name (at_ l).owned l) h

/-! ### The requests of lanes, in turn -/

/-- Lanes have made their requests at their places, each under a later identifier than the lane before it; no other request
and nothing else changed. -/
structure Iss.Asked (i : Iss) (rel : Option Nat) (prod : Nat) (place : Nat → AtomAt) (ls : List Nat)
    (s t : State) : Prop where
  frame : { t with nextId := s.nextId, atoms := s.atoms } = s
  rest : ∀ k, k < s.nextId → look t.atoms k = look s.atoms k
  made : ∃ ids : Nat → Nat, s.nextId ≤ ids 0 ∧ (∀ n, ids n < ids (n + 1)) ∧ ∀ n l, ls[n]? = some l →
    ∃ off name owned acc order badger, look t.atoms (ids n) =
      some { i.atomReq rel s.beat prod (place l) off name owned l with accepted := acc, order := order, badger := badger }

theorem Iss.askLanes_asked (i : Iss) {at_ : Nat → AtomLane} {place : Nat → AtomAt} (rel : Option Nat) (prod : Nat)
    {ls : List Nat} (h : ∀ l ∈ ls, (at_ l).place = place l ∧ (place l).inside) (s : State) :
    i.Asked rel prod place ls s (ls.foldl (i.askLane at_ rel prod) s) := by
  induction ls generalizing s with
  | nil => exact ⟨rfl, fun _ _ => rfl, (s.nextId + ·), le_rfl, fun n => Nat.lt_succ_self _, fun _ _ hl => by simp at hl⟩
  | cons l ls ih =>
    obtain ⟨⟨hplace, hinside⟩, hls⟩ := List.forall_mem_cons.1 h
    obtain ⟨next, acc, order, badger, hnext, hstep⟩ := i.askLane_eq rel prod s (l := l) (hplace ▸ hinside)
    obtain ⟨hframe, hrest, ids, hfirst, hrise, hmade⟩ := ih hls (i.askLane at_ rel prod s l)
    rw [List.foldl_cons]
    generalize ls.foldl (i.askLane at_ rel prod) (i.askLane at_ rel prod s l) = t at *
    rw [hstep] at hframe hrest hfirst hmade
    refine ⟨?frame, fun k hk => ?rest, fun n => n.casesOn s.nextId ids, le_rfl, fun n => ?rise, fun n m hm => ?made⟩
    case frame => exact congrArg (fun u : State => { u with nextId := s.nextId, atoms := s.atoms }) hframe
    case rest => exact (hrest k (hk.trans hnext)).trans (look_put_ne _ _ hk.ne)
    case rise =>
      cases n with
      | zero => exact hnext.trans_le hfirst
      | succ n => exact hrise n
    case made =>
      cases n with
      | zero =>
        obtain rfl : l = m := by simpa using hm
        rw [← hplace]
        exact ⟨_, _, _, acc, order, badger, (hrest _ hnext).trans (look_put_self _ _ _)⟩
      | succ n => exact hmade n m hm

/-! ### The end of the instruction -/

/-- A warp that awaits the replies of the active lanes: the destinations are empty until they have come (R258). -/
def Iss.awaitReplies (i : Iss) (prod : Nat) (w : Warp) : Warp :=
  let dests := destRegs .lane i.eng i.op i.f
  let w := w.markAll i.act dests
  { w with empty := (w.empty ++ dests).dedup,
           prods := w.prods ++ [{ id := prod, regs := dests, vals := [], replies := (lanesOf i.act).length, flags := [] }] }

/-- The end of an instruction that has made its requests: RED and BINIT are over, the lanes of BWAIT wait, and those of every
other go past their producer (R248, R252, R253, R258). -/
def Iss.endAsking (i : Iss) (s : State) (prod : Nat) : State :=
  if i.returning then
    (if i.op = 0x0E then i.await s i.act fun _ => .reply prod else i.done s).onWarp i.core i.slot (i.awaitReplies prod)
  else i.done s

theorem and_maskOf_eq_self {m : Word} {p : Nat → Bool} (h : ∀ l ∈ lanesOf m, p l = true) : m &&& maskOf p = m := by
  refine BitVec.eq_of_getLsbD_eq fun l _ => (?_ : bitOf (m &&& maskOf p) l = bitOf m l)
  rw [bitOf_and_maskOf, Bool.and_eq_left_iff_imp]
  exact fun hm => h l (mem_lanesOf.2 hm)

/-- An instruction whose answers have all still to come makes the requests of its lanes, and ends. -/
theorem Iss.request_eq {i : Iss} {at_ : Nat → AtomLane} (h : ∀ l ∈ lanesOf i.act, (at_ l).back = none) (s : State)
    (rel : Option Nat) : i.request s at_ rel = i.endAsking
      ((lanesOf i.act).foldl (i.askLane at_ rel s.nextId) { s with nextId := s.nextId + 1 }) s.nextId := by
  have haway : ∀ l ∈ lanesOf i.act, (at_ l).back.isNone = true := fun l hl => by rw [h l hl]; rfl
  have hall : (lanesOf i.act).filter (fun l => (at_ l).back.isNone) = lanesOf i.act := List.filter_eq_self.2 haway
  have hnone : (lanesOf i.act).filter (fun l => !(at_ l).back.isNone) = [] :=
    List.filter_eq_nil_iff.2 fun l hl => by simp [haway l hl]
  have hevents : (lanesOf i.act).flatMap (i.backEvents at_) = [] :=
    List.flatMap_eq_nil_iff.2 fun l hl => by simp only [Iss.backEvents, h l hl]
  unfold Iss.request
  dsimp only [State.fresh]
  rw [hall, hnone, hevents, and_maskOf_eq_self haway]
  simp only [State.fpEvents, if_true, List.flatMap_nil]
  unfold Iss.endAsking
  by_cases hreturning : i.returning = true
  · exact (if_neg (by simp [hreturning])).trans (if_pos hreturning).symm
  · exact (if_pos (by simp [hreturning])).trans (if_neg hreturning).symm

theorem Iss.ne_bwait_of_not_returning {i : Iss} (hret : ¬ i.returning = true) : i.op ≠ 0x0E := by
  intro hop
  simp [Iss.returning, hop] at hret

theorem Lane.pc_mark (rs : List Nat) (x : Lane) : (rs.foldl (fun (x : Lane) r => x.mark r) x).pc = x.pc :=
  (congrArg Lane.pc (Lane.marks_rest rs x) :)

theorem Iss.pc_awaitReplies (i : Iss) (prod : Nat) (w : Warp) {l : Nat} (hl : l < w.lanes.length) :
    ((i.awaitReplies prod w).lane l).pc = (w.lane l).pc := by
  refine (congrArg Lane.pc (Warp.lane_onMask w i.act _ l hl)).trans ?_
  split
  · exact Lane.pc_mark _ _
  · rfl

section
variable {i : Iss} {s : State} (h : s.warp? i.core i.slot = some i.w) (prod : Nat)
include h

/-- Before the producer: the active lanes of BWAIT stand, and every other lane of the group has gone past. -/
theorem Iss.lanes_asked : ∃ w', (if i.op = 0x0E then i.await s i.act fun _ => .reply prod else i.done s).warp? i.core i.slot =
      some w' ∧ w'.prods = i.w.prods ∧ w'.lanes.length = i.w.lanes.length ∧
    ∀ l, l < i.w.lanes.length → bitOf i.grp l = true → (w'.lane l).pc =
      if i.op = 0x0E ∧ bitOf i.act l then (i.w.lane l).pc else (i.w.lane l).pc + BitVec.ofNat 32 i.f.len := by
  by_cases hop : i.op = 0x0E
  · obtain ⟨-, w', hw', hstands⟩ := Iss.await_stands h i.act (.reply prod)
    refine ⟨w', by rw [if_pos hop]; exact hw', (congrArg Warp.prods hstands.same :), hstands.count, fun l hl hgrp => ?_⟩
    by_cases hact : bitOf i.act l = true
    · rw [if_pos ⟨hop, hact⟩, hstands.stand l hl hact]
    · rw [if_neg fun hboth => hact hboth.2, hstands.gone l hl (by rw [bitOf_and_not hgrp]; simpa using hact)]
      rfl
  · obtain ⟨-, w', hw', hpassed⟩ := Iss.commitWarp_ended h id
    refine ⟨w', by rw [if_neg hop]; exact hw', (congrArg Warp.prods hpassed.same :), hpassed.count, fun l hl hgrp => ?_⟩
    rw [if_neg fun hboth => hop hboth.1, hpassed.gone l hl hgrp]
    rfl

theorem Iss.endAsking_ends : ∃ w', (i.endAsking s prod).warp? i.core i.slot = some w' ∧
    (i.returning = true → w'.prods = i.w.prods ++
        [{ id := prod, regs := destRegs .lane i.eng i.op i.f, vals := [], replies := (lanesOf i.act).length, flags := [] }] ∧
      ∀ r ∈ destRegs .lane i.eng i.op i.f, r ∈ w'.empty) ∧
    ∀ l, l < i.w.lanes.length → bitOf i.grp l = true → (w'.lane l).pc =
      if i.op = 0x0E ∧ bitOf i.act l then (i.w.lane l).pc else (i.w.lane l).pc + BitVec.ofNat 32 i.f.len := by
  obtain ⟨w', hw', hprods, hcount, hpc⟩ := Iss.lanes_asked h prod
  by_cases hret : i.returning = true
  · refine ⟨i.awaitReplies prod w', ?_, fun _ => ⟨?_, fun r hr => ?_⟩, fun l hl hgrp => ?_⟩
    · rw [Iss.endAsking, if_pos hret]
      exact State.warp?_onWarp_of_eq hw' _
    · rw [← hprods]
      rfl
    · exact List.mem_dedup.2 (List.mem_append_right _ hr)
    · rw [i.pc_awaitReplies prod w' (hcount ▸ hl), hpc l hl hgrp]
  · rw [if_neg (Iss.ne_bwait_of_not_returning hret)] at hw'
    exact ⟨w', by rw [Iss.endAsking, if_neg hret, hw'], fun hreturns => absurd hreturns hret, hpc⟩

end

/-- The end of the instruction changes its warp alone. -/
theorem Iss.endAsking_frame (i : Iss) (s : State) (prod : Nat) : { i.endAsking s prod with warps := s.warps } = s := by
  unfold Iss.endAsking
  split_ifs <;> rfl

/-- Requests made by the active lanes, and the end of their instruction, are all that an atomic asks. -/
theorem Iss.request_asked {i : Iss} {s : State} {at_ : Nat → AtomLane} {place : Nat → AtomAt}
    (h : s.warp? i.core i.slot = some i.w)
    (hplace : ∀ l ∈ lanesOf i.act, (at_ l).place = place l ∧ (place l).inside)
    (hback : ∀ l ∈ lanesOf i.act, (at_ l).back = none)
    (rel : Option Nat) :
    AtomsAsked s (i.request s at_ rel) i rel place ∧ (i.request s at_ rel).releases = s.releases := by
  rw [Iss.request_eq hback]
  obtain ⟨hframe, hrest, ids, hfirst, hrise, hmade⟩ :=
    i.askLanes_asked rel s.nextId hplace { s with nextId := s.nextId + 1 }
  generalize (lanesOf i.act).foldl (i.askLane at_ rel s.nextId) { s with nextId := s.nextId + 1 } = t at *
  have hwarp : t.warp? i.core i.slot = some i.w := (congrArg (fun u : State => u.warp? i.core i.slot) hframe).trans h
  obtain ⟨w', hw', hproducer, hpast⟩ := Iss.endAsking_ends hwarp s.nextId
  have hend := i.endAsking_frame t s.nextId
  generalize i.endAsking t s.nextId = v at *
  have hatoms : v.atoms = t.atoms := (congrArg State.atoms hend :)
  refine ⟨⟨?memory, ⟨ids, hfirst, hrise, fun n l hl => ?asked⟩, fun k hk => ?rest,
    fun hret => ⟨w', hw', hproducer hret⟩, w', hw', hpast⟩, ?releases⟩
  case memory => exact (congrArg State.mem hend :).trans (congrArg State.mem hframe :)
  case releases => exact (congrArg State.releases hend :).trans (congrArg State.releases hframe :)
  case asked =>
    rw [hatoms]
    exact hmade n l hl
  case rest =>
    rw [hatoms]
    exact hrest k (Nat.lt_succ_of_lt hk)

/-! ### Requests on memory and on tiles (R245, R255) -/

/-- What an atomic asks is seen in memory, requests, identifiers and the cycle alone. -/
theorem AtomsAsked.of_same {s s' t : State} {i : Iss} {rel : Option Nat} {place : Nat → AtomAt}
    (h : AtomsAsked s t i rel place) (hmem : s.mem = s'.mem) (hnext : s.nextId = s'.nextId) (hatoms : s.atoms = s'.atoms)
    (hbeat : s.beat = s'.beat) : AtomsAsked s' t i rel place := by
  obtain ⟨hmemory, hasked, hrest, hproducer, hpast⟩ := h
  rw [hnext] at hproducer
  refine ⟨hmemory.trans hmem, ?_, ?_, hproducer, hpast⟩
  · rwa [hnext, hbeat] at hasked
  · rwa [hnext, hatoms] at hrest

theorem Touched.fields {s t : State} (h : Touched s t) : t.mem = s.mem ∧ t.nextId = s.nextId ∧ t.atoms = s.atoms ∧
    t.beat = s.beat := by
  unfold Touched at h
  rw [← h]
  exact ⟨rfl, rfl, rfl, rfl⟩

/-- Who holds lines and grains says nothing of the objects that buffered writes are bound to. -/
theorem Touched.syncs {s t : State} (h : Touched s t) : t.wbuf = s.wbuf ∧ t.sameSync = s.sameSync ∧ t.syncAt = s.syncAt ∧
    ∀ c : Caller, c.who t = c.who s := by
  unfold Touched at h
  rw [← h]
  exact ⟨rfl, rfl, rfl, fun _ => rfl⟩

theorem Iss.atomBound_touched {s t : State} (h : Touched s t) (i : Iss) (c : Caller) :
    i.atomBound t c = i.atomBound s c := by
  obtain ⟨hwbuf, hsame, hat, hwho⟩ := h.syncs
  simp only [Iss.atomBound, Caller.unpublished, hwbuf, hsame, hat, hwho]

/-- The requests leave their lanes, or stand there behind the release that publishes what is bound to their objects (R255). -/
theorem Iss.atomSend_asked {i : Iss} {s : State} {at_ : Nat → AtomLane} {place : Nat → AtomAt} (c : Caller)
    (h : s.warp? i.core i.slot = some i.w)
    (hplace : ∀ l ∈ lanesOf i.act, (at_ l).place = place l ∧ (place l).inside)
    (hback : ∀ l ∈ lanesOf i.act, (at_ l).back = none) :
    (i.atomBound s c = [] → AtomsAsked s (i.atomSend s c at_) i none place) ∧
    (i.atomBound s c ≠ [] →
      AtomsAsked { s with nextId := s.nextId + 1 } (i.atomSend s c at_) i (some s.nextId) place ∧
      ∃ r, look (i.atomSend s c at_).releases s.nextId = some r ∧ r.kind = .arrive ∧ r.entries = i.atomBound s c) := by
  unfold Iss.atomSend
  cases hbound : i.atomBound s c with
  | nil =>
    refine ⟨fun _ => ?_, fun hne => absurd rfl hne⟩
    dsimp only
    split
    · exact (Iss.request_asked (s := s.passWrites i.core) h hplace hback none).1.of_same rfl rfl rfl rfl
    · exact (Iss.request_asked h hplace hback none).1
  | cons e es =>
    refine ⟨fun hnil => (nomatch hnil), fun _ => ?_⟩
    dsimp only
    obtain ⟨hasked, hreleases⟩ := Iss.request_asked (s := (c.release s .arrive
      (max 4 (if bits i.fn 2 2 = 1 then bits i.fn 5 3 else 4)) (e :: es) (c.handle (lowest i.act))
      (i.offset (lowest i.act)).toNat).2) h hplace hback (some s.nextId)
    exact ⟨hasked.of_same rfl rfl rfl rfl, _, (congrArg (look · s.nextId) hreleases).trans (look_put_self _ _ _), rfl, rfl⟩

/-- An access whose outcomes are all successes, and that its gate lets through, has its effect (R226). -/
theorem Caller.follow_ok {c : Caller} {s u : State} {out : Nat → AccOut}
    (h : ∀ l ∈ lanesOf c.mask, ∃ loc sec, out l = .ok loc sec) {gate : State → Except State State}
    (hgate : gate s = .ok u) (acc : Nat) (ref : Nat → Ref) (kind : Nat → ExtKind) (k : State → State) :
    c.follow s acc ref out kind gate k = k u := by
  unfold Caller.follow
  rw [groupOut_ok h]
  simp only [hgate]

/-- What an atomic asks of a lane that passes its checks needs no answer from outside. -/
theorem Iss.atomOut_ok {i : Iss} {s : State} {c : Caller} {l : Nat} {loc : Loc} {sec : Bool}
    (h : s.access (c.who s l) (i.atomRef l).h (i.atomRef l).o (i.atomRef l).q = .ok loc sec) :
    i.atomOut s c l = .ok loc sec := by
  rw [Iss.atomOut, h]

/-- The claims that go with an access of the caller's lanes. -/
def Caller.touchAll (c : Caller) (loc : Nat → Loc) (s : State) : State :=
  c.lanes.foldl (fun s l => s.touch (c.who s l) (c.handle l) (loc l)) s

theorem Caller.touchAll_touched (c : Caller) (loc : Nat → Loc) (s : State) : Touched s (c.touchAll loc s) :=
  touched_foldl _ (fun _ _ => State.touch_touched _ _ _ _) _ s

/-- Past its checks an atomic on memory claims the grains of its lanes and sends its requests. -/
theorem Iss.atomMemory_sends {i : Iss} {s u : State} {pa : Nat → Nat} (hreach : (Caller.warp i i.act).reaches s i.atomRef pa)
    (hbad : i.badCount = 0) (hgate : (Caller.warp i i.act).atomGate i s = .ok u) (hcut : u.cutOff i.core = false)
    (hlease : ∀ l ∈ lanesOf i.act, u.leaseOf i.core i.slot (pa l / 64) = none) :
    ∃ loc : Nat → Loc, (∀ l ∈ lanesOf i.act, loc l = .dev (pa l)) ∧
      i.atomMemory s (.warp i i.act) = i.atomSend ((Caller.warp i i.act).touchAll loc u) (.warp i i.act)
        (i.atomLane ((Caller.warp i i.act).touchAll loc u) (.warp i i.act) loc) := by
  have hout : ∀ l ∈ lanesOf i.act, ∃ sec, i.atomOut s (.warp i i.act) l = .ok (.dev (pa l)) sec := fun l hl => by
    obtain ⟨sec, haccess⟩ := hreach l hl
    exact ⟨sec, Iss.atomOut_ok haccess⟩
  have hloc : ∀ l ∈ lanesOf i.act, (i.atomOut s (.warp i i.act) l).loc = .dev (pa l) := fun l hl => by
    obtain ⟨sec, hok⟩ := hout l hl
    rw [hok]
    rfl
  refine ⟨fun l => (i.atomOut s (.warp i i.act) l).loc, hloc, ?_⟩
  unfold Iss.atomMemory
  refine (Caller.follow_ok (u := u) (fun l hl => ?ok) ?gate 8 i.atomRef _ _).trans ?sends
  case ok =>
    obtain ⟨sec, hok⟩ := hout l hl
    exact ⟨_, sec, hok⟩
  case gate => exact (if_neg (not_not.2 hbad)).trans hgate
  case sends =>
    dsimp only
    rw [if_neg (not_not.2 (and_maskOf_eq_zero fun l hl => ?free)), if_neg (by simp [hcut])]
    · rfl
    case free => simp only [hloc l hl, hlease l hl, Option.isSome_none]

/-- Past its checks an atomic on tiles sends its requests at once. -/
theorem Iss.atomTiles_sends {i : Iss} {s u : State} {at_ : Nat → Nat × Nat × Nat}
    (hreach : i.reachesTile s (i.tileAsk (atomWidth i.atomOp i.mo) false true true) at_) (hbad : i.badCount = 0)
    (hgate : (Caller.warp i i.act).atomGate i s = .ok u) (hcrews : u.crews = s.crews) (hgangs : u.gangs = s.gangs) :
    ∃ lane : Nat → AtomLane,
      (∀ l ∈ lanesOf i.act, (lane l).place = .tile (at_ l).1 (at_ l).2.1 (at_ l).2.2 ∧ (lane l).back = none) ∧
      i.atomTiles s (.warp i i.act) = i.request (if i.publishing then u.passWrites i.core else u) lane none := by
  obtain ⟨at', hat, heq⟩ := Iss.tiles_at hreach (gate := fun s => if i.badCount ≠ 0 then _ else _)
    ((if_neg (not_not.2 hbad)).trans hgate) hcrews hgangs _
  exact ⟨_, fun l hl => ⟨by rw [← hat l hl], rfl⟩, heq⟩

/-- Settles O36: past its checks every atomic is the requests of its lanes, made in turn, and the end of their instruction. -/
theorem atomicRequests : Obligations.AtomicRequests := by
  unfold Obligations.AtomicRequests
  intro c op hatomic
  have hexec : ∀ f s, exec (c f) s = atomic op f s := by
    simp only [List.mem_cons, Prod.mk.injEq, List.not_mem_nil, or_false] at hatomic
    casesm* _ ∨ _
    all_goals
      obtain ⟨rfl, rfl⟩ := hatomic
      exact fun _ _ => rfl
  refine ⟨fun pa u => .of_lane hexec fun s i _ ⟨hact, hform, hbad, hreach, hgate, hcut, hwarp, hlease⟩ => ?memory,
    fun at_ u => .of_lane hexec fun s i _ ⟨hact, hform, hbad, hreach, hgate, hcrews, hgangs, hwarp⟩ => ?tiles⟩
  case memory =>
    rw [Iss.acting_of_ne hact, if_neg (by omega)]
    obtain ⟨loc, hloc, hsends⟩ := Iss.atomMemory_sends hreach hbad hgate hcut hlease
    have htouched := (Caller.warp i i.act).touchAll_touched loc u
    obtain ⟨hmem, hnext, hatoms, hbeat⟩ := htouched.fields
    rw [hsends, ← Iss.atomBound_touched htouched]
    obtain ⟨hfree, hbound⟩ := Iss.atomSend_asked (place := fun l => .mem (.dev (pa l)))
      (at_ := i.atomLane _ (.warp i i.act) loc) (.warp i i.act) ((htouched.warp? _ _).trans hwarp)
      (fun l hl => ⟨congrArg AtomAt.mem (hloc l hl), trivial⟩) (fun l hl => by simp only [Iss.atomLane, hloc l hl])
    rw [hnext] at hbound
    refine ⟨fun hnil => (hfree hnil).of_same hmem hnext hatoms hbeat, fun hne => ?_⟩
    obtain ⟨hasked, hrelease⟩ := hbound hne
    exact ⟨hasked.of_same hmem rfl hatoms hbeat, hrelease⟩
  case tiles =>
    rw [Iss.acting_of_ne hact, if_pos hform]
    obtain ⟨lane, hlane, hsends⟩ := Iss.atomTiles_sends hreach hbad hgate hcrews hgangs
    rw [hsends]
    have hplace : ∀ l ∈ lanesOf i.act, (lane l).place = .tile (at_ l).1 (at_ l).2.1 (at_ l).2.2 ∧
        AtomAt.inside (.tile (at_ l).1 (at_ l).2.1 (at_ l).2.2) := fun l hl => ⟨(hlane l hl).1, trivial⟩
    split
    · exact (Iss.request_asked (s := u.passWrites i.core) hwarp hplace (fun l hl => (hlane l hl).2) none).1.of_same
        rfl rfl rfl rfl
    · exact (Iss.request_asked hwarp hplace (fun l hl => (hlane l hl).2) none).1

end Sys2Proof.Machine
end

section
/-! Value atomics, and barrier objects in memory (R247, R252, R253). -/

namespace Sys2Proof.Machine

/-! ### Integer operands of an atomic (R96, R97) -/

section
variable {w : Nat} (signed : Bool) (a b : BitVec w)

theorem readInt_toNat : readInt w signed a.toNat = if signed then a.toInt else (a.toNat : Int) := by
  cases signed
  · simp only [readInt, Bool.false_eq_true, if_false, Nat.mod_eq_of_lt a.isLt]
  · simp only [readInt, if_true, signedOf_eq_toInt, BitVec.ofNat_toNat, BitVec.setWidth_eq]

theorem ofInt_readInt : BitVec.ofInt w (readInt w signed a.toNat) = a := by
  rw [readInt_toNat]
  cases signed
  · exact (BitVec.ofInt_natCast w _).trans (by simp)
  · exact BitVec.ofInt_toInt

theorem truncN_eq_toNat (x : Int) : truncN w x = (BitVec.ofInt w x).toNat := (BitVec.toNat_ofInt x).symm

theorem truncN_add_readInt : truncN w (readInt w signed a.toNat + readInt w signed b.toNat) = (a + b).toNat := by
  rw [truncN_eq_toNat, BitVec.ofInt_add, ofInt_readInt, ofInt_readInt]

theorem readInt_le_iff : readInt w signed a.toNat ≤ readInt w signed b.toNat ↔
    if signed then a.toInt ≤ b.toInt else a.toNat ≤ b.toNat := by
  rw [readInt_toNat, readInt_toNat]
  cases signed <;> simp

theorem truncN_min_readInt : truncN w (min (readInt w signed a.toNat) (readInt w signed b.toNat)) =
    (if (if signed then a.toInt ≤ b.toInt else a.toNat ≤ b.toNat) then a else b).toNat := by
  rw [truncN_eq_toNat, min_def, apply_ite (BitVec.ofInt w), ofInt_readInt, ofInt_readInt]
  simp only [readInt_le_iff]

theorem truncN_max_readInt : truncN w (max (readInt w signed a.toNat) (readInt w signed b.toNat)) =
    (if (if signed then a.toInt ≤ b.toInt else a.toNat ≤ b.toNat) then b else a).toNat := by
  rw [truncN_eq_toNat, max_def, apply_ite (BitVec.ofInt w), ofInt_readInt, ofInt_readInt]
  simp only [readInt_le_iff]

end

/-! ### New values (R247) -/

/-- The operations that both widths have. -/
theorem atomValue_integer {w mo op : Nat} {signed : Prop} [Decidable signed] (hwidth : (if 6 ≤ mo then 64 else 32) = w)
    (hsigned : mo % 2 = 0 ↔ signed) (a b n : BitVec w) : op ≤ 7 →
    (atomValue op mo 0 a.toNat b.toNat n.toNat).1 = match op with
      | 0 => some (a + b).toNat | 1 => some (a &&& b).toNat | 2 => some (a ||| b).toNat | 3 => some (a ^^^ b).toNat
      | 4 => some (if signed then (if a.toInt ≤ b.toInt then a else b) else (if a.toNat ≤ b.toNat then a else b)).toNat
      | 5 => some (if signed then (if a.toInt ≤ b.toInt then b else a) else (if a.toNat ≤ b.toNat then b else a)).toNat
      | 6 => some b.toNat
      | _ => if a = b ∧ n ≠ a then some n.toNat else none := by
  intro hop
  have hbits : (if op ≠ 0x0A ∧ mo ≥ 6 then 64 else 32) = w := by
    rw [← hwidth]
    exact if_congr (by omega) rfl rfl
  unfold atomValue
  simp only [hbits, hsigned]
  interval_cases op
  · exact congrArg some (truncN_add_readInt _ a b)
  · exact congrArg some (BitVec.toNat_and a b).symm
  · exact congrArg some (BitVec.toNat_or a b).symm
  · exact congrArg some (BitVec.toNat_xor a b).symm
  · by_cases h : signed <;> simp [truncN_min_readInt, h]
  · by_cases h : signed <;> simp [truncN_max_readInt, h]
  · rfl
  · simp [BitVec.toNat_inj]

theorem atomValue_inc {mo : Nat} (a b n : Word) :
    (atomValue 8 mo 0 a.toNat b.toNat n.toNat).1 = some (if b.toNat ≤ a.toNat then (0 : Word) else a + 1).toNat := by
  refine congrArg some ?_
  split_ifs with h
  · rfl
  · have hlt : a.toNat + (1 : Word).toNat < 2 ^ 32 := show a.toNat + 1 < 2 ^ 32 by omega
    exact (BitVec.toNat_add_of_lt hlt).symm

theorem atomValue_dec {mo : Nat} (a b n : Word) :
    (atomValue 9 mo 0 a.toNat b.toNat n.toNat).1 = some (if a = 0 ∨ b.toNat < a.toNat then b else a - 1).toNat := by
  refine congrArg some ?_
  have hzero : a.toNat = 0 ↔ a = 0 := by rw [← BitVec.toNat_inj, BitVec.ofNat_eq_ofNat, BitVec.toNat_ofNat, Nat.zero_mod]
  simp only [hzero]
  split_ifs with h
  · rfl
  · rw [not_or, ← hzero] at h
    have hle : (1 : Word) ≤ a := BitVec.le_def.2 (show 1 ≤ a.toNat by omega)
    exact (BitVec.toNat_sub_of_le hle).symm

/-! ### Barrier objects (Table 10.4, R252, R253) -/

theorem natOf_append (xs ys : List Byte) : natOf (xs ++ ys) = natOf xs + 2 ^ (8 * xs.length) * natOf ys := by
  induction xs with
  | nil => simp [natOf]
  | cons x xs ih =>
    rw [List.cons_append, natOf, natOf, ih, List.length_cons, Nat.mul_add_one, Nat.pow_add]
    ring

@[simp] theorem barrierBytes_length (phase expected pend flags : Nat) :
    (barrierBytes phase expected pend flags).length = 16 := by
  simp [barrierBytes]

/-- The fields of a barrier object are read back from its bytes (Table 10.4). -/
theorem barrierOf_barrierBytes {phase expected pend flags : Nat} (hphase : phase < 2 ^ 32) (hexpected : expected < 2 ^ 32)
    (hpend : pend < 2 ^ 32) (hflags : flags < 2 ^ 32) :
    barrierOf (barrierBytes phase expected pend flags) = (phase, expected, pend, flags) := by
  simp only [barrierOf, barrierBytes, natOf_append, natOf_bytesOf, bytesOf_length, List.length_append, bits, Prod.mk.injEq]
  omega

theorem passed_iff {phase ph : Nat} (hphase : phase < 2 ^ 32) (hph : ph < 2 ^ 32) :
    passed phase ph = true ↔ ∃ d, 1 ≤ d ∧ d ≤ 2 ^ 31 - 1 ∧ (ph + d) % 2 ^ 32 = phase := by
  simp only [passed, decide_eq_true_eq]
  constructor
  · rintro ⟨hlow, hhigh⟩
    exact ⟨_, hlow, hhigh, by omega⟩
  · rintro ⟨d, hlow, hhigh, rfl⟩
    omega

@[simp] theorem State.replyAtom_mem (s : State) (id : Nat) (a : AtomReq) (v : List Word) :
    (s.replyAtom id a v).mem = s.mem := by
  unfold State.replyAtom
  split <;> rfl

@[simp] theorem State.wakeBarrier_mem (s : State) (p : AtomAt) (phase : Nat) : (s.wakeBarrier p phase).mem = s.mem := rfl

@[simp] theorem State.advancePhase_mem (s : State) (p : AtomAt) : (s.advancePhase p).mem = s.mem := by
  unfold State.advancePhase
  split <;> rfl

section
variable {s : State} {id pa : Nat} {a : AtomReq}

theorem State.writePlace_mem (h : a.place = .mem (.dev pa)) (bs : List Byte) :
    (s.writePlace a bs).mem = s.mem.writeN pa bs := by
  simp only [State.writePlace, h, State.store_mem]

theorem State.readPlace_dev (h : a.place = .mem (.dev pa)) (n : Nat) : s.readPlace a.place n = s.mem.readN pa n := by
  rw [h]
  rfl

theorem State.performBinit_mem (h : a.place = .mem (.dev pa)) : (s.performBinit id a).mem =
    s.mem.writeN pa (barrierBytes (a.operand.getD 1 0).toNat (a.operand.headD 0).toNat (a.operand.headD 0).toNat 1) := by
  simp only [State.performBinit, wakeBarrier_mem, State.writePlace_mem h, replyAtom_mem]

/-- What an arrival leaves of memory: an object that is none, or has fewer arrivals missing, as it was; one of which the
arrival is all that is missing in its next phase; any other with fewer missing (R252). -/
theorem State.performArrive_mem {phase expected pend flags : Nat} (h : a.place = .mem (.dev pa))
    (hobject : barrierOf (s.mem.readN pa 16) = (phase, expected, pend, flags)) : (s.performArrive id a).mem =
      if flags ≠ 1 ∨ pend < (a.operand.headD 0).toNat then s.mem
      else if pend = (a.operand.headD 0).toNat then
        s.mem.writeN pa (barrierBytes ((phase + 1) % 2 ^ 32) expected expected flags)
      else s.mem.writeN pa (barrierBytes phase expected (pend - (a.operand.headD 0).toNat) flags) := by
  simp only [State.performArrive, State.readPlace_dev h, hobject]
  generalize (a.operand.headD 0).toNat = n
  by_cases hflags : flags ≠ 1
  · rw [if_pos hflags, if_pos (.inl hflags), wakeBarrier_mem, replyAtom_mem]
  · rw [if_neg hflags]
    by_cases hmore : pend < n
    · rw [if_pos hmore, if_pos (.inr hmore), wakeBarrier_mem, replyAtom_mem]
    · rw [if_neg hmore, if_neg (not_or.2 ⟨hflags, hmore⟩)]
      by_cases hall : pend = n
      · rw [if_pos hall, if_pos hall, wakeBarrier_mem, advancePhase_mem, State.writePlace_mem h, replyAtom_mem]
      · rw [if_neg hall, if_neg hall, wakeBarrier_mem, State.writePlace_mem h, replyAtom_mem]

end

theorem Memory.readN_barrierBytes {m : Memory} (h : m.wf = true) (pa phase expected pend flags : Nat) :
    (m.writeN pa (barrierBytes phase expected pend flags)).readN pa 16 = barrierBytes phase expected pend flags := by
  have hread := Memory.readN_writeN h pa (barrierBytes phase expected pend flags)
  rwa [barrierBytes_length] at hread

/-- Settles O37: a value is the operation on the patterns, and an object what BINIT or the branch of an arrival leaves. -/
theorem atomicValues : Obligations.AtomicValues := by
  unfold Obligations.AtomicValues
  refine ⟨fun a b n mo hmo op hop => ?word, fun a b n mo hmo op hop => ?pair, fun a b rnd n => rfl,
    fun s id pa a hplace hmem => ?binit, fun s id pa n ph ex pe a hplace hmem hn hph hex hpe hobject => ?arrive,
    fun s id pa fl a hplace hfl hne => ?none, fun phase ph => passed_iff⟩
  case word =>
    by_cases hcommon : op ≤ 7
    · have hvalue := atomValue_integer (mo := mo) (signed := mo = 0) (if_neg (by omega)) (by omega) a b n hcommon
      interval_cases op <;> exact hvalue
    · obtain rfl | rfl : op = 8 ∨ op = 9 := by omega
      · exact atomValue_inc a b n
      · exact atomValue_dec a b n
  case pair =>
    have hvalue := atomValue_integer (mo := mo) (signed := mo = 6) (if_pos (by omega)) (by omega) a b n hop
    interval_cases op <;> exact hvalue
  case binit =>
    rw [State.performBinit_mem hplace]
    exact Memory.readN_barrierBytes hmem _ _ _ _ _
  case arrive =>
    have harrive := State.performArrive_mem (id := id) hplace (by rw [hobject, barrierOf_barrierBytes hph hex hpe (by decide)])
    rw [hn] at harrive
    refine ⟨fun hall => ?_, fun hless => ?_, fun hmore => ?_⟩
    · rw [harrive, if_neg (by omega), if_pos hall]
      exact Memory.readN_barrierBytes hmem _ _ _ _ _
    · rw [harrive, if_neg (by omega), if_neg (by omega)]
      exact Memory.readN_barrierBytes hmem _ _ _ _ _
    · rw [harrive, if_pos (.inr hmore)]
  case none =>
    subst hfl
    rw [State.performArrive_mem hplace rfl, if_pos (.inl hne)]

end Sys2Proof.Machine
end

section
/-! A request whose instruction has counted FP events, performed at its access unit (R213, R247). -/

namespace Sys2Proof.Machine

/-- The entry of 4096 bytes at address 4096 that holds an event ring: valid, GLOBAL, COHERENT, readable and writable (Table
9.1). -/
def ringHandle : BitVec 256 := BitVec.ofNat 256 (2 ^ 255 + 3 * 2 ^ 250 + 3 * 2 ^ 247 + 4096 * 2 ^ 64 + 4096)

/-- Task 1, which has counted nothing yet. -/
def countingTask : Task :=
  { ctx := 0, qi := 0, number := 1, desc := [], args := 0, code := 0, packet := 0, launch := none, deps := [], released := true,
    order := 0, nextGang := 0, again := [], gangsDone := 0, conts := 0, buffers := [], failed := none, fp := [],
    fpRecorded := [], waiting := [], wait := .none, answers := [], extData := [], extErr := [] }

/-- An AADD of 1 to the word at address 64, at its access unit, with an event of counter 0 to count for the task. -/
def countingReq : AtomReq :=
  { ctx := 0, task := 1, core := 0, slot := 0, lane := 0, prod := some 5, op := 0x00, mod := 0, fn := 0,
    place := .mem (.dev 64), operand := [1], dest := 0, pc := 0, off := 0, name := 0, owned := false, accepted := true,
    order := 0, badger := none, aside := false, beat := 0, batch := 5, ev := [0], rel := none, waiting := false,
    retry := false, reply := none }

/-- The reset state with that request, its task, and its context, which records the first event of counter 0 in the event ring
of queue 0. -/
def countingState : State :=
  { State.reset with
    ctxs := [(0, { Ctx.bare 0 0 0 [(1, ringHandle)] with fpThr := [(0, 1)] })], tasks := [(1, countingTask)],
    qis := [(0, Qi.fresh 0 0 false 1 0 0 1 0 5 0)],
    tlb := [{ ctx := 0, page := 1, host := false, frame := 1, secure := false, rights := 7 }],
    atoms := [(7, countingReq)] }

/-- Nothing comes before the request, and no lease and no check value holds it up. -/
theorem countingReq_served : countingState.atomBehind 7 countingReq = false ∧
    countingState.underLease countingReq = false ∧ countingState.ownFirst countingReq = countingState ∧
    countingState.poisoned countingReq = false := by
  decide +kernel

theorem countingReq_value : (atomValue countingReq.op countingReq.mod (bits countingReq.fn 2 0)
    (natOf (countingState.mem.readN 64 (atomWidth countingReq.op countingReq.mod))) (countingReq.operand.headD 0).toNat
    (countingReq.operand.getD 1 0).toNat).1 = some 1 := by
  decide +kernel

/-- Its performance counts the event, which the threshold puts in the ring as a record: KIND 5 at byte 12 (Table 2.4). -/
theorem countingReq_records :
    ∃ t, exec (.atomicRequestPerform 7) countingState = .next t ∧ t.mem.read (4096 + 12) = 5 :=
  ⟨_, rfl, by decide +kernel⟩

/-- Refutes O38: the statement takes any request, even an integer one that holds FP events of its instruction to count with
its own, though it says nothing of them (R247). When the count reaches a threshold of the context, a record goes to the event
ring, whose bytes are none of the request's (R213). -/
theorem not_atomicsPerformed : ¬ Obligations.AtomicsPerformed := by
  unfold Obligations.AtomicsPerformed
  rintro ⟨hperform, -⟩
  obtain ⟨hbehind, hlease, hfirst, hpoison⟩ := countingReq_served
  obtain ⟨hvalue, -⟩ := hperform countingState countingState 7 countingReq rfl rfl hbehind hlease
    (fun _ _ => List.not_mem_nil) (.inl ⟨rfl, rfl⟩) hfirst hpoison
  obtain ⟨t, hexec, -, hothers, -⟩ := hvalue 64 1 5 (by decide) rfl rfl rfl countingReq_value
  obtain ⟨t', hexec', hrecord⟩ := countingReq_records
  obtain rfl : t' = t := Host.Outcome.next.inj (hexec'.symm.trans hexec)
  rw [hothers _ (.inr (by decide))] at hrecord
  exact absurd hrecord (by decide)

end Sys2Proof.Machine
end

section
/-! Reading an entry of a table after a change of that table, where the entry is known. -/

namespace Sys2Proof.Machine

theorem look_adjust_of_eq {α : Type} {m : SMap α} {n : Nat} {x : α} (h : look m n = some x) (g : α → α) :
    look (adjust m n g) n = some (g x) := by
  rw [look_adjust_self, h]
  rfl

theorem State.vd?_onVd_of_eq {s : State} {k : Nat} {x : Vd} (h : s.vd? k = some x) (g : Vd → Vd) :
    (s.onVd k g).vd? k = some (g x) := look_adjust_of_eq h g

theorem State.qi?_onQi_of_eq {s : State} {k : Nat} {x : Qi} (h : s.qi? k = some x) (g : Qi → Qi) :
    (s.onQi k g).qi? k = some (g x) := look_adjust_of_eq h g

theorem State.task?_onTask_of_eq {s : State} {k : Nat} {x : Task} (h : s.task? k = some x) (g : Task → Task) :
    (s.onTask k g).task? k = some (g x) := look_adjust_of_eq h g

/-- The write of a register of an interface that is bound, when the part is ready. -/
theorem State.kickPage_bound {s : State} {q : Nat} {x : Qi} (hready : s.ready = true) (hx : s.qi? q = some x)
    (hbound : x.bound = true) (hopen : x.closing = false) (g : Qi → Qi) :
    (s.kickPage q g).qi? q = some (g x) ∧ { s.kickPage q g with qis := s.qis } = s := by
  simp only [State.kickPage, hready, Bool.not_true, Bool.false_eq_true, if_false]
  refine ⟨?_, rfl⟩
  rw [State.qi?_onQi_of_eq hx]
  simp [hbound, hopen]

/-- Before READY a write to a kick page is dropped and counted. -/
theorem State.kickPage_early {s : State} (hready : s.ready = false) (q : Nat) (g : Qi → Qi) :
    s.kickPage q g = s.onPkg fun p => { p with kickDrops := p.kickDrops + 1 } := by
  simp [State.kickPage, hready]

end Sys2Proof.Machine
end

section
/-! Registers that the host writes, an event each (R379, R412, R415, R421, R422, R437). -/

namespace Sys2Proof.Machine

/-! ### Fields of the management ring, the fault ring and the stopped queues -/

theorem exec_mgrptrWrite (v : Word) (s : State) : ∃ t, exec (.mgrptrWrite v) s = .next t ∧ { t with mb := s.mb } = s ∧
    t.mb = { s.mb with mgr := if v.toNat < 2 ^ s.mb.mgLog2 then v.toNat else s.mb.mgr } := by
  refine ⟨_, rfl, rfl, ?_⟩
  simp only [State.onMb]
  split <;> rfl

theorem exec_mgdropClear (v : Word) (s : State) : ∃ t, exec (.mgdropClear v) s = .next t ∧ { t with mb := s.mb } = s ∧
    t.mb = { s.mb with mgDrop := if bits v.toNat 15 0 ≠ 0 then 0 else s.mb.mgDrop } := by
  refine ⟨_, rfl, rfl, ?_⟩
  simp only [State.onMb]
  split <;> rfl

theorem exec_fqrptrWrite {s : State} {vd : Nat} {x : Vd} (hx : s.vd? vd = some x) (v : Word) :
    ∃ t, exec (.fqrptrWrite vd v) s = .next t ∧ { t with vds := s.vds } = s ∧
      t.vd? vd = some { x with fqr := if v.toNat < 2 ^ x.config.fqLog2 then v.toNat else x.fqr } := by
  refine ⟨_, rfl, rfl, ?_⟩
  rw [State.vd?_onVd_of_eq hx]
  split <;> rfl

theorem exec_qrestart_own {s : State} {v : Word} {x : Qi} (hx : s.qi? (bits v.toNat 11 0) = some x) (hbound : x.bound = true) :
    ∃ t, exec (.qrestart x.vd v) s = .next t ∧ { t with qis := s.qis } = s ∧
      t.qi? (bits v.toNat 11 0) = some { x with stopped := false } := by
  refine ⟨s.restartQueue (bits v.toNat 11 0), ?_, rfl, State.qi?_onQi_of_eq hx _⟩
  simp [exec, execQrestart, hx, hbound]

theorem exec_qrestart_other {s : State} {vd : Nat} {v : Word} {x : Qi} (hx : s.qi? (bits v.toNat 11 0) = some x)
    (hvd : x.vd ≠ vd) : exec (.qrestart vd v) s = .next s := by
  simp [exec, execQrestart, hx, hvd]

/-! ### Invalidations submitted and faults answered -/

/-- The invalidation that a word of INVSUB submits (R412). -/
def submitted (vd : Nat) (v : DWord) : Inval :=
  { ctx := ctxKey vd (bits v.toNat 63 58), handle := bits v.toNat 57 46, off := bits v.toNat 45 0, wait := .none, answers := [],
    extData := [], extErr := [] }

theorem exec_invsub {s : State} {vd : Nat} {v : DWord} {x : Ctx} {e : BitVec 256}
    (hx : s.ctx? (ctxKey vd (bits v.toNat 63 58)) = some x) (he : e = (look x.handles (bits v.toNat 57 46)).getD 0)
    (hvalid : Entry.valid e = true) (hspace : Entry.space e = 0 ∨ Entry.space e = 4) (hkind : Entry.kind e = 3)
    (hpr : Entry.pr e = true) (hpw : Entry.pw e = true) (halign : bits v.toNat 45 0 % 32 = 0)
    (hlen : bits v.toNat 45 0 + 32 ≤ Entry.length e) :
    exec (.invsub vd v) s = .next (s.onVd vd fun y => { y with invals := y.invals ++ [submitted vd v] }) := by
  have hsp : (Entry.space e == 0 || Entry.space e == 4) = true := by simpa using hspace
  simp only [exec, execInvsub, hx, ← he]
  simp [hvalid, hsp, hkind, hpr, hpw, halign, hlen, submitted]

theorem exec_fresp_open {s : State} {vd : Nat} {v : Word} {x : Vd} {f : Fid} (hx : s.vd? vd = some x)
    (hf : look x.fids (bits v.toNat 23 0) = some f) (hcode : bits v.toNat 30 24 = 0) :
    exec (.fresp vd v) s = .next ((s.onVd vd fun x => { x with fids := drop x.fids (bits v.toNat 23 0) }).wakePark
      (some (fidKey vd (bits v.toNat 23 0))) none f.ctx f.page false (bitOf v 31)) := by
  simp [exec, execFresp, hx, hf, hcode]

theorem exec_fresp_reserved {s : State} {vd : Nat} {v : Word} (hcode : bits v.toNat 30 24 ≠ 0) :
    exec (.fresp vd v) s = .next s := by
  simp only [exec, execFresp]
  split <;> simp [hcode]

/-! ### Registers of one field each -/

theorem exec_write_evctl {s : State} {q : Nat} {x : Qi} (hx : s.qi? q = some x) (hready : s.ready = true)
    (hbound : x.bound = true) (hopen : x.closing = false) (hsignalled : x.unsignalled = 0) (v : DWord) :
    ∃ t, exec (.plainRegisterWrite (.evctl q) v) s = .next t ∧ { t with qis := s.qis } = s ∧
      t.qi? q = some { x with evctl := lo32 v } := by
  obtain ⟨hqi, hrest⟩ := State.kickPage_bound hready hx hbound hopen fun x => { x with evctl := lo32 v }
  refine ⟨_, ?_, hrest, hqi⟩
  simp [exec, execPlainRegisterWrite, State.setEvctl, hqi, Qi.counted, hsignalled]

theorem exec_write_alarmCfg {s : State} {v : DWord} (h : alarmLevelOf s.mb.alarmCount (lo32 v) ≤ s.mb.alarmLevel) :
    ∃ t, exec (.plainRegisterWrite .alarmCfg v) s = .next t ∧ { t with mb := s.mb } = s ∧
      t.mb = { s.mb with alarmCfg := lo32 v } := by
  refine ⟨s.onMb fun m => { m with alarmCfg := lo32 v }, ?_, rfl, rfl⟩
  simp [exec, execPlainRegisterWrite, State.alarmTo, h]

theorem exec_write_mbarg {s : State} (hfree : s.mb.busy = false) (n : Nat) (v : DWord) :
    ∃ t, exec (.plainRegisterWrite (.mbarg n) v) s = .next t ∧ { t with mb := s.mb } = s ∧
      t.mb = { s.mb with arg := setNth s.mb.arg n (lo32 v) } := by
  refine ⟨s.onMb fun m => { m with arg := setNth m.arg n (lo32 v) }, ?_, rfl, rfl⟩
  simp [exec, execPlainRegisterWrite, hfree]

theorem exec_write_mbarg_busy {s : State} (hbusy : s.mb.busy = true) (hwait : s.mb.wait ≠ some .update) (n : Nat) (v : DWord) :
    exec (.plainRegisterWrite (.mbarg n) v) s = .next s := by
  simp [exec, execPlainRegisterWrite, hbusy, hwait]

theorem exec_write_fpsel {s : State} {vd : Nat} {v : DWord} {x : Vd} (hx : s.vd? vd = some x)
    (hctx : (s.ctx? (ctxKey vd (bits v.toNat 29 24))).isSome) :
    ∃ t, exec (.plainRegisterWrite (.fpsel vd) v) s = .next t ∧ { t with vds := s.vds } = s ∧
      t.vd? vd = some { x with fpsel := lo32 v &&& 0x3F00001F#32 } := by
  refine ⟨s.onVd vd fun x => { x with fpsel := lo32 v &&& 0x3F00001F#32 }, ?_, rfl, State.vd?_onVd_of_eq hx _⟩
  simp [exec, execPlainRegisterWrite, hctx]

theorem exec_write_fpthr {s : State} {vd : Nat} {x : Vd} {c : Ctx} (hx : s.vd? vd = some x)
    (hn : bits x.fpsel.toNat 4 0 ≤ 23) (hc : s.ctx? (ctxKey vd (bits x.fpsel.toNat 29 24)) = some c) (v : DWord) :
    ∃ t, exec (.plainRegisterWrite (.fpthr vd) v) s = .next t ∧ { t with ctxs := s.ctxs } = s ∧
      t.ctx? (ctxKey vd (bits x.fpsel.toNat 29 24)) =
        some { c with fpThr := put c.fpThr (bits x.fpsel.toNat 4 0) (v.toNat % 2 ^ 48) } := by
  have hsel : s.fpSelected vd = some (ctxKey vd (bits x.fpsel.toNat 29 24), bits x.fpsel.toNat 4 0) := by
    simp [State.fpSelected, hx, hc, hn]
  refine ⟨s.onCtx (ctxKey vd (bits x.fpsel.toNat 29 24)) fun c =>
    { c with fpThr := put c.fpThr (bits x.fpsel.toNat 4 0) (v.toNat % 2 ^ 48) }, ?_, rfl, State.ctx?_onCtx_of_eq hc _⟩
  simp only [exec, execPlainRegisterWrite, hsel]

/-- Settles O55: a register each. -/
theorem hostRegisters : Obligations.HostRegisters := by
  unfold Obligations.HostRegisters
  refine ⟨fun s v => exec_mgrptrWrite v s, fun s v => exec_mgdropClear v s, fun s vd v x hx => exec_fqrptrWrite hx v,
    fun s vd v x hx hbound => ⟨?_, exec_qrestart_other hx⟩, ?_,
    fun s vd v x f hx hf => ⟨exec_fresp_open hx hf, exec_fresp_reserved⟩,
    fun s q v x hx hready hbound hopen hsig => exec_write_evctl hx hready hbound hopen hsig v,
    fun s v => exec_write_alarmCfg, fun s n v => ⟨fun hfree => exec_write_mbarg hfree n v, fun hbusy hwait =>
      exec_write_mbarg_busy hbusy hwait n v⟩,
    fun s vd v x => exec_write_fpsel, fun s vd v x c hx hn hc => exec_write_fpthr hx hn hc v⟩
  · rintro rfl
    exact exec_qrestart_own hx hbound
  · intro s vd v x y e hx hy he hvalid hspace hkind hpr hpw halign hlen
    exact ⟨_, submitted vd v, exec_invsub hx he hvalid hspace hkind hpr hpw halign hlen,
      State.vd?_onVd_of_eq hy _, rfl, rfl, rfl, rfl, rfl⟩

end Sys2Proof.Machine
end

section
/-! Queue interfaces: what the registers of a kick page do, and what a packet or a kick word that is taken leaves (R380,
R385, R386, R393 to R397). -/

namespace Sys2Proof.Machine

/-! ### The kick page -/

/-- An interface without waiting records has none to write. -/
theorem State.flush_of_no_records {s : State} {q : Nat} {x : Qi} (hx : s.qi? q = some x) (hr : x.records = []) :
    s.flush q = s := by
  simp [State.flush, hx, hr, State.flushN]

theorem exec_evrptrWrite {s : State} {q : Nat} {x : Qi} (hready : s.ready = true) (hx : s.qi? q = some x)
    (hbound : x.bound = true) (hopen : x.closing = false) (hr : x.records = []) (v : Word) :
    ∃ t, exec (.evrptrWrite q v) s = .next t ∧ { t with qis := s.qis } = s ∧
      t.qi? q = some (if v.toNat < 2 ^ x.e then { x with evr := v.toNat } else x) := by
  obtain ⟨hqi, hrest⟩ := State.kickPage_bound hready hx hbound hopen fun x =>
    if v.toNat < 2 ^ x.e then { x with evr := v.toNat } else x
  refine ⟨_, ?_, hrest, hqi⟩
  rw [exec, execEvrptrWrite, State.flush_of_no_records hqi]
  split <;> exact hr

theorem exec_kick_early {s : State} (hready : s.ready = false) (q : Nat) (v : Word) {i : Instr}
    (hi : i ∈ ([.kick q v, .pwptrWrite q v, .qstatClear q v] : List Instr)) :
    exec i s = .next (s.onPkg fun p => { p with kickDrops := p.kickDrops + 1 }) := by
  simp only [List.mem_cons, List.not_mem_nil, or_false] at hi
  obtain rfl | rfl | rfl := hi
  · exact congrArg _ (State.kickPage_early hready q _)
  · exact congrArg _ (State.kickPage_early hready q _)
  · exact congrArg _ (State.kickPage_early hready q _)

theorem exec_eventInterruptTimer {s : State} {q : Nat} {x : Qi} (hx : s.qi? q = some x) (hbound : x.bound = true)
    (hon : bitOf x.evctl 31 = true) (ht : bits x.evctl.toNat 30 16 ≠ 0) (hun : 0 < x.unsignalled)
    (hold : x.oldest + 1000 * bits x.evctl.toNat 30 16 ≤ s.time.toNat) :
    exec (.eventInterruptTimer q) s = .next (s.interrupt q) := by
  simp [exec, execEventInterruptTimer, hx, hbound, hon, ht, hun, hold]

theorem State.interrupt_signals {s : State} {q : Nat} {x : Qi} (hx : s.qi? q = some x) :
    (s.interrupt q).qi? q = some { x with unsignalled := 0 } ∧
      (bitOf x.remap 31 = true → (s.interrupt q).out = .msix (bits x.remap.toNat 11 0) :: s.out) := by
  simp only [State.interrupt, hx]
  refine ⟨State.qi?_onQi_of_eq ?_ _, fun h => ?_⟩
  · split <;> exact hx
  · rw [if_pos h]
    rfl

/-! ### Packets taken -/

theorem State.consume_ring {s : State} {q : Nat} {x : Qi} {p : Pkt} (hx : s.qi? q = some x) (hm : p.measured = false)
    (hib : x.ib = []) :
    (s.consume q p).qi? q = some { x with pr := (x.pr + (1 + p.count)) % 2 ^ x.k, answers := [], extData := [], extErr := [] } ∧
      { s.consume q p with qis := s.qis } = s := by
  simp only [State.consume, hm, Bool.false_eq_true, if_false]
  refine ⟨?_, rfl⟩
  rw [State.qi?_onQi_of_eq hx]
  simp [Qi.advance, Qi.unwind, Qi.clear, hib]

theorem State.consume_measured {s : State} {q : Nat} {x : Qi} {p : Pkt} {c : Ctx} (hx : s.qi? q = some x)
    (hm : p.measured = true) (hc : s.ctx? x.ctx = some c) :
    (s.consume q p).ctx? x.ctx = some { c with ext := c.ext + 1, chain := BitVec.ofNat 256 (natOf (sha256
      (bytesOf 32 c.chain.toNat ++ [0x50, 0x4B, 0x54, 0x53] ++ bytesOf 8 (bytesOfWords (p.hdr :: p.words)).length ++
        sha256 (bytesOfWords (p.hdr :: p.words))))) } := by
  simp only [State.consume, hm, if_true, hx, Option.elim]
  exact State.ctx?_onCtx_of_eq hc _

theorem State.pktDone_silent (s : State) (q : Nat) {p : Pkt} (h : p.event = false) : s.pktDone q p 0 0 = s := by
  simp [State.pktDone, State.packetDone, State.queueFault, h]

theorem State.pktDone_event (s : State) (q : Nat) {p : Pkt} (h : p.event = true) :
    s.pktDone q p 0 0 = s.post q { source := 0xFFFF0000 + p.type, kind := 1, detail := p.index } := by
  simp [State.pktDone, State.packetDone, State.queueFault, h]

/-! ### Kick words (R385, R386) -/

section
variable {s : State} {q : Nat} {x : Qi} {v : Vd} {w : Word} {ws : List Word}

theorem exec_kickLaunch_missing (hx : s.qi? q = some x) (ht : s.takes x = true) (hk : x.kicks = w :: ws)
    (hh : s.launchHeld x = false) (hv : s.vd? x.vd = some v) (hg : look v.graphs (bits w.toNat 11 0) = none) :
    exec (.kickLaunch q) s = .next (s.refuseKick q w Cls.bounds) := by
  simp [exec, execKickLaunch, hx, ht, hk, hh, hv, hg]

theorem exec_kickLaunch_graph {g : Graph} (hx : s.qi? q = some x) (ht : s.takes x = true) (hk : x.kicks = w :: ws)
    (hh : s.launchHeld x = false) (hv : s.vd? x.vd = some v) (hg : look v.graphs (bits w.toNat 11 0) = some g) :
    exec (.kickLaunch q) s = .next (s.launchGraph q x w g) := by
  simp [exec, execKickLaunch, hx, ht, hk, hh, hv, hg]

end

theorem State.launchGraph_perm {s : State} {q : Nat} {x : Qi} {g : Graph} (w : Word)
    (hfit : argsFit (s.entry (x.who q) g.argHandle) = false) : s.launchGraph q x w g = s.refuseKick q w Cls.perm := by
  simp [State.launchGraph, hfit]

theorem State.launchGraph_bounds {s : State} {q : Nat} {x : Qi} {g : Graph} {w : Word}
    (hfit : argsFit (s.entry (x.who q) g.argHandle) = true)
    (hlen : Entry.length (s.entry (x.who q) g.argHandle) < (bits w.toNat 23 12 + 1) * g.slotSize) :
    s.launchGraph q x w g = s.refuseKick q w Cls.bounds := by
  simp [State.launchGraph, hfit, hlen]

/-- Data measured extends chains of contexts only. -/
theorem State.extendAll_frame (l : List (List Byte × List Byte)) (s : State) (c : Nat) :
    { s.extendAll c l with ctxs := s.ctxs } = s := by
  induction l generalizing s with
  | nil => rfl
  | cons e l ih => exact congrArg (fun u : State => { u with ctxs := s.ctxs }) (ih (s.extend c e.1 e.2))

theorem State.extendAll_qis (l : List (List Byte × List Byte)) (s : State) (c : Nat) : (s.extendAll c l).qis = s.qis := by
  conv_rhs => rw [← State.extendAll_frame l s c]

/-- Tasks accepted are entered, with their ranges; no interface changes. -/
theorem State.acceptGraph_qis (q : Nat) (x : Qi) (args : BitVec 256) (launch : Nat)
    (l : List (List Word × List (Nat × Nat × Nat × Nat))) (s : State) (ix : Nat) :
    (s.acceptGraph q x args launch ix l).qis = s.qis := by
  induction l generalizing s ix with
  | nil => rfl
  | cons e l ih => exact ih _ (ix + 1)

/-- A graph whose checks pass is launched by the word, which leaves the FIFO. -/
theorem State.launchGraph_launches {s : State} {q : Nat} {x : Qi} {g : Graph} {w : Word} {ws : List Word}
    {data : List (List Byte × List Byte)} (hx : s.qi? q = some x) (hk : x.kicks = w :: ws)
    (hfit : argsFit (s.entry (x.who q) g.argHandle) = true)
    (hlen : (bits w.toNat 23 12 + 1) * g.slotSize ≤ Entry.length (s.entry (x.who q) g.argHandle))
    (hbound : g.tasks.any (s.boundless x.vd) = false)
    (hdata : s.measuredGraph (x.who q) (slotEntry (s.entry (x.who q) g.argHandle) (bits w.toNat 23 12) g.slotSize) g.tasks =
      .ok data)
    (hroom : s.matcherRoom x.vd (g.regions.foldl (fun n l => n + l.length) 0) = true) :
    ∃ t y b, s.launchGraph q x w g = t ∧ t.qi? q = some y ∧ y.kicks = ws ∧ y.seq = x.seq + 1 ∧ y.begun = x.begun ++ [b] ∧
      b.type = 256 ∧ b.work = some s.nextId ∧ b.words = [w] ∧ look t.launches s.nextId =
        some { qi := q, graph := bits w.toNat 11 0, word := w, left := g.tasks.length, failed := none } := by
  unfold State.launchGraph
  rw [if_neg (by simp [hfit]), if_neg (by omega), if_neg (by simp [hbound])]
  simp only [hdata, hroom, if_true, State.fresh]
  refine ⟨_, _, _, rfl, State.qi?_onQi_of_eq (x := x) ?_ _, ?_, rfl, rfl, rfl, rfl, rfl, look_put_self _ _ _⟩
  · show look (State.qis _) q = some x
    rw [State.acceptGraph_qis, State.extendAll_qis]
    exact hx
  · simp [hk]

/-- Settles O49: a register of the kick page each, the kick word by the checks of its graph, and the packet by what taking it
and completing it leaves. -/
theorem queueInterfaces : Obligations.QueueInterfaces := by
  unfold Obligations.QueueInterfaces
  refine ⟨fun s q v x hready hx hbound hopen => ⟨?_, ?_, fun hr => exec_evrptrWrite hready hx hbound hopen hr v, ?_⟩,
    fun s q v i hready hi => exec_kick_early hready q v hi,
    fun s q x hx hbound hon ht hun hold => ⟨_, exec_eventInterruptTimer hx hbound hon ht hun hold, State.interrupt_signals hx⟩,
    ?_, fun s q x p hx => State.consume_ring hx, fun s q x p c hx => State.consume_measured hx,
    fun s q p => s.pktDone_silent q, fun s q p => s.pktDone_event q⟩
  · obtain ⟨hqi, hrest⟩ := State.kickPage_bound hready hx hbound hopen fun x =>
      if x.kicks.length < 64 then { x with kicks := x.kicks ++ [v] } else { x with kdrop := satAdd 0xFFF x.kdrop 1 }
    exact ⟨_, rfl, hrest, hqi⟩
  · obtain ⟨hqi, hrest⟩ := State.kickPage_bound hready hx hbound hopen fun x =>
      if v.toNat < 2 ^ x.k then { x with pw := v.toNat } else x
    exact ⟨_, rfl, hrest, hqi⟩
  · obtain ⟨hqi, hrest⟩ := State.kickPage_bound hready hx hbound hopen fun x =>
      { x with kdrop := if bits v.toNat 27 16 ≠ 0 then 0 else x.kdrop, evdrop := if bits v.toNat 15 0 ≠ 0 then 0 else x.evdrop }
    exact ⟨_, _, rfl, hrest, hqi, rfl, rfl, rfl⟩
  · intro s q x v w ws hx ht hk hh hv
    refine ⟨exec_kickLaunch_missing hx ht hk hh hv, ?_⟩
    rintro g _ _ hg rfl rfl
    rw [exec_kickLaunch_graph hx ht hk hh hv hg]
    refine ⟨fun hfit => by rw [State.launchGraph_perm w hfit], fun hfit hlen => by rw [State.launchGraph_bounds hfit hlen],
      fun hfit hlen hbound data hdata hroom => ?_⟩
    obtain ⟨t, y, b, rfl, h⟩ := State.launchGraph_launches hx hk hfit hlen hbound hdata hroom
    exact ⟨_, y, b, rfl, h⟩

end Sys2Proof.Machine
end

section
/-! The packets of Table 16.4: each that is at the head of its queue, or the oldest begun, has its effect (R381 to R384). -/

namespace Sys2Proof.Machine

/-! ### Taking a packet, and acting in turn -/

section
variable {s : State} {q type : Nat} {x : Qi} {p : Pkt} {b : Packet}

/-- A packet that is offered is taken. -/
theorem State.takePacket_offers (h : s.Offers q type x p) (k : Qi → Pkt → State → State) : s.takePacket q type k = k x p s := by
  obtain ⟨hx, htakes, hkick, hhead, htype, hbarrier⟩ := h
  have hgo : p.type = type ∧ (!p.barrier || s.idleCtx x.ctx) = true := by
    refine ⟨htype, ?_⟩
    cases hb : p.barrier
    · rfl
    · simp [hbarrier hb]
  simp [State.takePacket, hx, htakes, hkick, hhead, hgo]

/-- The oldest packet begun acts at its turn. -/
theorem State.inTurn_turn (h : s.Turn q type x b) (act : Qi → Packet → State → State) : s.inTurn q type act = act x b s := by
  obtain ⟨hx, hactive, htype, hfirst⟩ := h
  obtain ⟨r, hr⟩ : ∃ r, x.begun = b :: r := List.head?_eq_some_iff.mp hfirst
  simp [State.inTurn, hx, hr, htype, hactive]

end

/-! ### What taking a packet leaves -/

/-- Taking a packet changes its interface, and the chain of its context when it is measured. -/
theorem State.consume_frame (s : State) (q : Nat) (p : Pkt) : { s.consume q p with qis := s.qis, ctxs := s.ctxs } = s := by
  unfold State.consume
  dsimp only
  split <;> rfl

theorem State.consume_vds (s : State) (q : Nat) (p : Pkt) : (s.consume q p).vds = s.vds := by
  conv_rhs => rw [← s.consume_frame q p]

theorem State.consume_time (s : State) (q : Nat) (p : Pkt) : (s.consume q p).time = s.time := by
  conv_rhs => rw [← s.consume_frame q p]

theorem State.consume_nextId (s : State) (q : Nat) (p : Pkt) : (s.consume q p).nextId = s.nextId := by
  conv_rhs => rw [← s.consume_frame q p]

theorem State.extendAll_nextId (l : List (List Byte × List Byte)) (s : State) (c : Nat) :
    (s.extendAll c l).nextId = s.nextId := by
  conv_rhs => rw [← State.extendAll_frame l s c]

theorem State.consume_qi {s : State} {q : Nat} {x : Qi} (hx : s.qi? q = some x) (p : Pkt) :
    (s.consume q p).qi? q = some ((x.advance (1 + p.count)).unwind).clear := by
  have h : (s.consume q p).qis = (s.onQi q fun x => ((x.advance (1 + p.count)).unwind).clear).qis := by
    unfold State.consume
    dsimp only
    split <;> rfl
  rw [State.qi?, h]
  exact State.qi?_onQi_of_eq hx _

/-- Reading on changes what was read, and neither the packets begun nor the count of launches. -/
theorem Qi.consume_keeps (x : Qi) (n : Nat) :
    ((x.advance n).unwind).clear.begun = x.begun ∧ ((x.advance n).unwind).clear.seq = x.seq := by
  unfold Qi.advance
  split <;> exact ⟨rfl, rfl⟩

/-! ### LAUNCH (R387) -/

section
variable {s : State} {q : Nat} {x : Qi} {p : Pkt}

theorem exec_launch_refused {cls : Nat} (h : s.Offers q 0x01 x p) (hheld : s.launchHeld x = false)
    (hjudge : s.judge (x.who q) p.words (descField p.words 2 2) false = .error (.fail cls)) :
    exec (.launch q) s = .next (s.refuseLaunch q p cls) := by
  simp [exec, execLaunch, State.takePacket_offers h, hheld, hjudge, bind, Except.bind]

/-- The task that is entered when one is accepted (R387, R392). -/
theorem State.acceptTask_task (s : State) (q : Nat) (x : Qi) (d : List Word) (number : Nat) (args : BitVec 256) (packet : Nat)
    (launch : Option Nat) (regions : List (Nat × Nat × Nat × Nat)) :
    ∃ task, (s.acceptTask q x d number args packet launch regions).2.task? s.nextId = some task ∧ task.ctx = x.ctx ∧
      task.qi = q ∧ task.number = number ∧ task.desc = d ∧ task.packet = packet ∧ task.released = false ∧ task.args = args ∧
      task.gangsDone = 0 :=
  ⟨_, look_put_self _ _ _, rfl, rfl, rfl, rfl, rfl, rfl, rfl, rfl⟩

/-- A launch whose checks pass enters its task, and begins its packet. -/
theorem exec_launch_accepted {regions : List (Nat × Nat × Nat × Nat)} {data : List (List Byte × List Byte)}
    (h : s.Offers q 0x01 x p) (hheld : s.launchHeld x = false)
    (hjudge : s.judge (x.who q) p.words (descField p.words 2 2) false = .ok regions)
    (hbound : s.boundless x.vd p.words = false)
    (hdata : s.measuredData (x.who q) p.words (s.entry (x.who q) (descField p.words 2 2)) = .ok data)
    (hroom : s.matcherRoom x.vd regions.length = true) :
    exec (.launch q) s = .next (((((s.consume q p).extendAll x.ctx data).acceptTask q x p.words (x.taskNo 0)
      (s.entry (x.who q) (descField p.words 2 2)) p.index none regions).2.onQi q Qi.count).begin q p (some s.nextId)) := by
  have hid : ((s.consume q p).extendAll x.ctx data).nextId = s.nextId := by
    rw [State.extendAll_nextId, State.consume_nextId]
  simp only [exec, execLaunch, State.takePacket_offers h, hheld, hjudge, hbound, hdata, hroom, bind, Except.bind,
    State.acceptTask, State.fresh, hid, Bool.false_eq_true, if_false, if_true]

end

/-! ### IB_CALL, SET_HANDLE -/

theorem exec_ibCall {s : State} {q : Nat} {x : Qi} {p : Pkt} (h : s.Offers q 0x02 x p) (hm : p.measured = false)
    (hev : p.event = false) (hlen : 0 < p.word 3) (hib : x.ib = []) :
    ∃ t y, exec (.ibCall q) s = .next t ∧ t.qi? q = some y ∧ { t with qis := s.qis } = s ∧
      y.ib = [{ handle := p.word 0, off := p.wide 1, len := p.word 3, pos := 0 }] ∧
      y.pr = (x.pr + (1 + p.count)) % 2 ^ x.k := by
  simp only [exec, execIbCall, State.takePacket_offers h, hm, Bool.false_eq_true, if_false, State.pktDone_silent _ _ hev]
  refine ⟨_, _, rfl, State.qi?_onQi_of_eq h.here _, rfl, ?_, ?_⟩
  · simp [Qi.clear, Qi.unwind, Qi.advance, hib, Nat.ne_of_gt hlen]
  · simp [Qi.clear, Qi.unwind, Qi.advance, hib]

/-- No store of a context through a handle is buffered when none of its accesses is in flight. -/
theorem State.performVia_idle {s : State} {c n : Nat} (h : s.inFlight c n = false) : s.performVia c n = s := by
  simp only [State.inFlight, Bool.or_eq_false_iff] at h
  have hbuf : (s.wbuf.filter fun e => e.ctx == c && e.handle == n) = [] :=
    List.filter_eq_nil_iff.mpr (List.any_eq_false.mp h.1.2)
  rw [State.performVia, hbuf]
  rfl

theorem exec_setHandle {s : State} {q : Nat} {x : Qi} {p : Pkt} {e : BitVec 256} (h : s.Offers q 0x04 x p)
    (hpending : s.pending = []) (hidle : s.inFlight x.ctx (p.word 0) = false)
    (he : e = BitVec.ofNat 256 (natOf (bytesOfWords (p.words.drop 1)))) :
    let ok := s.entryOk x.vd e && s.ownersFit x.vd x.ctx (p.word 0) e
    exec (.setHandle q) s = .next (((s.consume q p).onCtx x.ctx fun c =>
      { c with handles := put c.handles (p.word 0) (if ok then e else 0) }).pktDone q p (if ok then 0 else 1) 0) := by
  simp only [exec, execSetHandle, State.takePacket_offers h, State.performFree_nil hpending, State.performVia_idle hidle, hidle,
    Bool.false_eq_true, if_false, ← he]

/-! ### WRITE_DATA, WAIT_VALUE, SIGNAL -/

section
variable {s : State} {q : Nat} {x : Qi} {p : Pkt} {b : Packet}

theorem exec_writeData {u : State} (h : s.Offers q 0x05 x p)
    (hw : s.hubWrite (x.who q) (p.word 0) (p.wide 1) 4 (bytesOfWords (p.words.drop 3)) = .ok u) :
    exec (.writeData q) s = .next ((u.consume q p).pktDone q p 0 0) := by
  simp [exec, execWriteData, State.takePacket_offers h, hw]

theorem exec_writeData_fails {cls : Nat} (h : s.Offers q 0x05 x p)
    (hw : s.hubWrite (x.who q) (p.word 0) (p.wide 1) 4 (bytesOfWords (p.words.drop 3)) = .error (.fail cls)) :
    exec (.writeData q) s = .next ((s.consume q p).pktDone q p 1 cls) := by
  simp [exec, execWriteData, State.takePacket_offers h, hw]

theorem State.valueOf_ok {bs : List Byte} (hr : s.hubRead (x.who q) (p.word 0) (p.wide 1) 4 4 Entry.pr = .ok bs) :
    s.valueOf q x p = .ok (valueMeets (p.word 5) (w32 (natOf bs)) (w32 (p.word 3)) (w32 (p.word 4))) := by
  simp [State.valueOf, hr, bind, Except.bind]

theorem exec_waitValue {bs : List Byte} (h : s.Offers q 0x06 x p)
    (hr : s.hubRead (x.who q) (p.word 0) (p.wide 1) 4 4 Entry.pr = .ok bs) :
    exec (.waitValue q) s =
      .next (if valueMeets (p.word 5) (w32 (natOf bs)) (w32 (p.word 3)) (w32 (p.word 4)) then (s.consume q p).pktDone q p 0 0
        else (s.consume q p).begin q p none) := by
  simp only [exec, execWaitValue, State.takePacket_offers h, State.valueOf_ok hr, State.effect]

theorem exec_waitValueSatisfied {bs : List Byte} (hx : s.qi? q = some x)
    (hb : x.begun.find? (fun b => b.type == 6) = some b) (hactive : s.active x = true)
    (hr : s.hubRead (x.who q) (b.pkt.word 0) (b.pkt.wide 1) 4 4 Entry.pr = .ok bs) :
    exec (.waitValueSatisfied q) s =
      .next (if valueMeets (b.pkt.word 5) (w32 (natOf bs)) (w32 (b.pkt.word 3)) (w32 (b.pkt.word 4)) then s.endBegun q b 0 0
        else s.onQi q Qi.clear) := by
  simp only [exec, execWaitValueSatisfied, hx, hb, hactive, State.valueOf_ok hr, State.resume, if_true]

theorem valueMeets_iff (w value mask : Word) : (valueMeets 0 w value mask = true ↔ w &&& mask = value) ∧
    (valueMeets 1 w value mask = true ↔ w &&& mask ≠ value) ∧
    (valueMeets 2 w value mask = true ↔ value.toNat ≤ (w &&& mask).toNat) ∧
    (valueMeets 3 w value mask = true ↔ value.toInt ≤ (w &&& mask).toInt) :=
  ⟨beq_iff_eq, bne_iff_ne, decide_eq_true_iff, decide_eq_true_iff⟩

theorem exec_signal {u : State} (h : s.Turn q 0x07 x b)
    (hw : s.hubWrite (x.who q) (b.pkt.word 0) (b.pkt.wide 1) 4 (bytesOf 4 (b.pkt.word 3)) = .ok u) :
    exec (.signal q) s = .next (u.endBegun q b 0 0) := by
  simp only [exec, execSignal, State.inTurn_turn h, hw, State.resume]

/-! ### GRAPH_REG, FREQ_HINT, MEASURE -/

theorem exec_graphReg {g : Graph} (h : s.Offers q 0x08 x p) (hg : s.graphOf (x.who q) x.vd p = .ok g)
    (hbusy : s.graphBusy x.vd (p.word 0) = false) :
    exec (.graphReg q) s = .next ((((s.consume q p).onVd x.vd fun v => { v with graphs := put v.graphs (p.word 0) g }).onCtx
      x.ctx fun c => { c with quota := p.word 5, ovCap := p.word 6 }).pktDone q p 0 0) := by
  simp [exec, execGraphReg, State.takePacket_offers h, hg, hbusy]

theorem State.consume_tenants (s : State) (q : Nat) (p : Pkt) : (s.consume q p).tenants = s.tenants := by
  simp only [State.tenants, State.consume_vds]

theorem exec_freqHint_shared (h : s.Offers q 0x0A x p) (hn : s.tenants.length ≠ 1) :
    exec (.freqHint q) s = .next ((s.consume q p).pktDone q p 0 0) := by
  simp [exec, execFreqHint, State.takePacket_offers h, State.consume_tenants, hn]

/-- The state in which a hint has been taken: the class that its VD asks for, and the launch that waits for it (R391). -/
def State.hinted (s : State) (q : Nat) (x : Qi) (n : Nat) : State :=
  ((s.onVd x.vd fun v => { v with hint := some n }).reclock).onQi q fun x => { x with hold := some s.time.toNat }

theorem exec_freqHint_single (h : s.Offers q 0x0A x p) (hn : s.tenants.length = 1) :
    exec (.freqHint q) s = .next (((s.consume q p).hinted q x (p.word 0)).pktDone q p 0 0) := by
  simp [exec, execFreqHint, State.takePacket_offers h, State.consume_tenants, hn, State.hinted]

theorem State.hinted_vd {v : Vd} (hv : s.vd? x.vd = some v) (n : Nat) :
    (s.hinted q x n).vd? x.vd = some { v with hint := some n } := by
  show look (State.reclock _).vds x.vd = _
  rw [State.reclock_vds]
  exact State.vd?_onVd_of_eq hv _

theorem State.hinted_qi {y : Qi} (hy : s.qi? q = some y) (n : Nat) :
    (s.hinted q x n).qi? q = some { y with hold := some s.time.toNat } := by
  obtain ⟨target, h⟩ := (s.onVd x.vd fun v => { v with hint := some n }).reclock_eq
  rw [State.hinted, h]
  exact State.qi?_onQi_of_eq hy _

theorem exec_measurePacket {bs : List Byte} (h : s.Offers q 0x0B x p)
    (hr : s.hubRead (x.who q) (p.word 0) (p.wide 1) (p.word 3) 1 Entry.pr = .ok bs) :
    exec (.measurePacket q) s = .next (((s.consume q p).extend x.ctx (if p.word 4 = 1 then tagCode
      else if p.word 4 = 2 then tagArgs else tagRslt) bs).pktDone q p 0 0) := by
  simp only [exec, execMeasurePacket, State.takePacket_offers h, hr, State.effect]

/-! ### RECEIPT (R399, R401) -/

/-- A leaf taken changes the package's leaves and, with a new batch, the capability counter; the signer stands as it was. -/
theorem State.takeLeaf_signing {leaf : Nat} {u : State} (h : s.takeLeaf = some (leaf, u)) : u.pkg.signing = s.pkg.signing := by
  unfold State.takeLeaf at h
  split at h
  · cases h
  · extract_lets v at h
    have hv : v.pkg.signing = s.pkg.signing := by
      unfold v
      split
      · obtain ⟨next, last, reserved, hp⟩ := Package.reserveLeaves_eq s.pkg
        simp [State.capChange, hp]
      · rfl
    split at h
    · obtain ⟨-, rfl⟩ := Prod.mk.inj (Option.some.inj h)
      exact hv
    · cases h

theorem exec_receipt_refused {cls : Nat} (h : s.Turn q 0x0C x b) (hfree : s.pkg.signing = [])
    (hcheck : s.receiptCheck (x.who q) (b.pkt.word 0) (b.pkt.wide 1) = some cls) :
    exec (.receipt q) s = .next (s.receiptDone q b 1 cls 0) := by
  simp [exec, execReceipt, State.inTurn_turn h, hfree, hcheck]

/-- A receipt whose destination passes its checks goes to the signer with the next leaf. -/
theorem exec_receipt_begins {leaf : Nat} {u : State} (h : s.Turn q 0x0C x b) (hfree : s.pkg.signing = [])
    (hcheck : s.receiptCheck (x.who q) (b.pkt.word 0) (b.pkt.wide 1) = none) (hleaf : s.takeLeaf = some (leaf, u)) :
    exec (.receipt q) s = .next (u.onPkg fun p => { p with
      signing := p.signing ++ [{ qi := q, leaf, body := u.receiptBody q x (bytesOfWords (b.words.drop 3)),
                                 handle := b.pkt.word 0, off := b.pkt.wide 1, made := false }] }) := by
  simp [exec, execReceipt, State.inTurn_turn h, hfree, hcheck, hleaf]

theorem exec_invalidPacket {cls : Nat} {hdr : Word} (hx : s.qi? q = some x) (htakes : s.takes x = true) (hk : x.kicks = [])
    (hhead : s.head q x = .bad cls hdr) : exec (.invalidPacket q) s = .next (s.stopQueue q cls x.index hdr) := by
  simp [exec, execInvalidPacket, hx, htakes, hk, hhead]

theorem exec_receiptSignatureComplete {g : Signing} {s1 u : State} (hx : s.qi? q = some x)
    (hg : s.pkg.signing.find? (fun g => g.qi == q) = some g) (hwait : x.wait = Wait.none)
    (hs1 : s1 = s.onPkg (fun p => { p with signing := p.signing.map fun g => if g.qi = q then { g with made := true } else g }))
    (hw : s1.hubWrite (x.who q) g.handle g.off 1 (receiptBytes g.leaf g.body) = .ok u) (hu : (u.signed q).qi? q = some x)
    (hb : x.begun.find? (fun b => b.type == 0x0C) = some b) (hactive : (u.signed q).active x = true) :
    exec (.receiptSignatureComplete q) s = .next ((u.signed q).receiptDone q b 0 0 g.leaf) := by
  subst hs1
  simp [exec, execReceiptSignatureComplete, State.completeReceipt, hx, hg, hwait, hw, hu, hb, hactive]

end

/-- Settles O50: a packet each, from what taking it or its turn to act does. -/
theorem packets : Obligations.Packets := by
  unfold Obligations.Packets
  refine ⟨?_, ?_, fun s q x p cls => exec_launch_refused, fun s q x p => exec_ibCall, ?_,
    fun s q x p h => ⟨fun u => exec_writeData h, fun cls => exec_writeData_fails h⟩, ?_, ?_, valueMeets_iff,
    fun s q x b u => exec_signal, fun s q x p g => exec_graphReg, ?_, ?_, fun s q x p bs => exec_measurePacket, ?_,
    fun s q x b cls => exec_receipt_refused, ?_, fun s q x cls hdr => exec_invalidPacket,
    fun s u q x b g s1 => exec_receiptSignatureComplete⟩
  · intro s q x p h
    exact congrArg _ (State.takePacket_offers h _)
  · intro s q x p regions data h hheld hjudge hbound hdata hroom
    obtain ⟨hbegun, hseq⟩ := x.consume_keeps (1 + p.count)
    obtain ⟨task, htask, hfields⟩ := ((s.consume q p).extendAll x.ctx data).acceptTask_task q x p.words (x.taskNo 0)
      (s.entry (x.who q) (descField p.words 2 2)) p.index none regions
    rw [State.extendAll_nextId, State.consume_nextId] at htask
    refine ⟨_, _, task, _, exec_launch_accepted h hheld hjudge hbound hdata hroom,
      State.qi?_onQi_of_eq (State.qi?_onQi_of_eq (x := ((x.advance (1 + p.count)).unwind).clear) ?_ _) _,
      congrArg (· + 1) hseq, congrArg (· ++ _) hbegun, h.type, rfl, rfl, htask, hfields⟩
    show look (State.extendAll _ _ _).qis q = _
    rw [State.extendAll_qis]
    exact State.consume_qi h.here p
  · intro s q x p e h hpending hidle he
    rw [exec_setHandle h hpending hidle he]
    refine ⟨fun hok hfit => by simp [hok, hfit], fun hbad => ?_⟩
    rw [← Bool.and_eq_false_iff] at hbad
    simp [hbad]
  · intro s q x p bs h hr
    rw [exec_waitValue h hr]
    exact ⟨fun hmeets => by rw [if_pos hmeets], fun hfails => by rw [hfails]; rfl⟩
  · intro s q x b bs hx hb hactive hr
    rw [exec_waitValueSatisfied hx hb hactive hr]
    exact ⟨fun hmeets => by rw [if_pos hmeets], fun hfails => by rw [hfails]; rfl⟩
  · intro s q x p h
    exact congrArg _ (State.takePacket_offers h _)
  · intro s q x p h hm
    refine ⟨exec_freqHint_shared h, fun hn => ⟨_, exec_freqHint_single h hn, fun v hv => State.hinted_vd ?_ _, _,
      State.hinted_qi (State.consume_qi h.here p) _, congrArg (fun t : DWord => some t.toNat) (s.consume_time q p)⟩⟩
    rw [State.vd?, State.consume_vds]
    exact hv
  · intro s q x b leaf u h hfree hcheck hleaf
    have hnone : u.pkg.signing = [] := (State.takeLeaf_signing hleaf).trans hfree
    exact ⟨_, _, exec_receipt_begins h hfree hcheck hleaf, rfl, congrArg (· ++ [_]) hnone, rfl, rfl, rfl, rfl, rfl, rfl⟩
  · intro s q x b h
    exact congrArg _ (State.inTurn_turn h _)

end Sys2Proof.Machine
end

section
/-! Entries of a list by number: the dies and hubs after one of them has changed. -/

namespace Sys2Proof.Machine

@[simp] theorem length_modNth {α : Type} (l : List α) (n : Nat) (g : α → α) : (modNth l n g).length = l.length := by
  induction l generalizing n with
  | nil => rfl
  | cons x l ih => cases n <;> simp [modNth, ih]

theorem getElem?_modNth {α : Type} (l : List α) (n k : Nat) (g : α → α) :
    (modNth l n g)[k]? = if k = n then l[k]?.map g else l[k]? := by
  induction l generalizing n k with
  | nil => simp [modNth]
  | cons x l ih => cases n <;> cases k <;> simp [modNth, ih]

theorem State.die_onDie_self {s : State} {d : Nat} (h : d < s.dies.length) (g : Die → Die) :
    (s.onDie d g).die d = g (s.die d) := by
  simp [State.die, List.getD_eq_getElem?_getD, getElem?_modNth, List.getElem?_eq_getElem h]

end Sys2Proof.Machine
end

section
/-! The mailbox: which commands it takes (R422, R424, R439), and what the commands for the package and the firmware do (R403,
R424, R439, R451, R457). -/

namespace Sys2Proof.Machine

/-! ### Acceptance (R422) -/

/-- The commands of Table 18.3 that carry no image, with their opcodes. -/
noncomputable def plainCommands : List ((Byte → Instr) × Nat) :=
  [(.mgmtRing, 0x01), (.infoRead, 0x02), (.pkgReset, 0x03), (.vdCreate, 0x10), (.vdAdmit, 0x11), (.vdResize, 0x12),
   (.vdEvict, 0x13), (.vdReset, 0x14), (.vdDestroy, 0x15), (.ctxCreate, 0x20), (.ctxKill, 0x21), (.ctxDestroy, 0x22),
   (.ctxSetroot, 0x23), (.qiBind, 0x30), (.qiUnbind, 0x31), (.qiRestart, 0x32), (.alarmClear, 0x40), (.epSet, 0x60),
   (.dieReset, 0x61), (.rcptKey, 0x70)]

theorem exec_command {c : Byte → Instr} {op : Nat} (h : (c, op) ∈ plainCommands) (tag : Byte) (s : State) :
    exec (c tag) s = .next (s.mailbox op tag.toNat none) := by
  simp only [plainCommands, List.mem_cons, Prod.mk.injEq, List.not_mem_nil, or_false] at h
  rcases h with ⟨rfl, rfl⟩ | ⟨rfl, rfl⟩ | ⟨rfl, rfl⟩ | ⟨rfl, rfl⟩ | ⟨rfl, rfl⟩ | ⟨rfl, rfl⟩ | ⟨rfl, rfl⟩ | ⟨rfl, rfl⟩ |
    ⟨rfl, rfl⟩ | ⟨rfl, rfl⟩ | ⟨rfl, rfl⟩ | ⟨rfl, rfl⟩ | ⟨rfl, rfl⟩ | ⟨rfl, rfl⟩ | ⟨rfl, rfl⟩ | ⟨rfl, rfl⟩ | ⟨rfl, rfl⟩ |
    ⟨rfl, rfl⟩ | ⟨rfl, rfl⟩ | ⟨rfl, rfl⟩
  all_goals rfl

section
variable {s : State} {op : Nat}

theorem State.mailbox_off (h : s.mailboxOn = false) (tag : Nat) (img : Option FwImage) : s.mailbox op tag img = s := by
  simp [State.mailbox, h]

theorem State.mailbox_busy (h : s.mb.busy = true) (hwait : s.mb.wait ≠ some .update) (tag : Nat) (img : Option FwImage) :
    s.mailbox op tag img = s := by
  simp [State.mailbox, h, hwait]

/-- What bars a command is not changed by its acceptance. -/
theorem State.barred_accepted (s : State) (tag op : Nat) : (s.accepted tag).barred op = s.barred op := rfl

theorem State.mailbox_barred {r : Nat} (hon : s.mailboxOn = true) (hfree : s.mb.busy = false) (hbar : s.barred op = some r)
    (tag : Nat) (img : Option FwImage) : s.mailbox op tag img = (s.accepted tag).mbDone r := by
  rw [← s.barred_accepted tag] at hbar
  simp only [State.mailbox, hon, hfree, Bool.not_true, Bool.false_eq_true, if_false]
  simp only [State.accepted] at hbar ⊢
  rw [hbar]

theorem State.mailbox_takes (h : s.mailboxFree op) (tag : Nat) (img : Option FwImage) :
    s.mailbox op tag img = (s.accepted tag).perform op (img.getD FwImage.empty) := by
  obtain ⟨hon, hfree, hbar⟩ := h
  rw [← s.barred_accepted tag] at hbar
  simp only [State.mailbox, hon, hfree, Bool.not_true, Bool.false_eq_true, if_false]
  simp only [State.accepted] at hbar ⊢
  rw [hbar]

theorem exec_command_takes {c : Byte → Instr} (hc : (c, op) ∈ plainCommands) (h : s.mailboxFree op) (tag : Byte) :
    exec (c tag) s = .next ((s.accepted tag.toNat).perform op FwImage.empty) := by
  rw [exec_command hc, State.mailbox_takes h]
  rfl

/-- A command that the mailbox takes leaves what performing it leaves. -/
theorem exec_command_does {c : Byte → Instr} {tag : Byte} {t : State} (hc : (c, op) ∈ plainCommands) (h : s.mailboxFree op)
    (hdo : (s.accepted tag.toNat).perform op FwImage.empty = t) : exec (c tag) s = .next t :=
  (exec_command_takes hc h tag).trans (congrArg _ hdo)

end

theorem State.barred_recovery {s : State} (h : s.pkg.recovery = true) : s.barred 0x10 = some 3 ∧ s.barred 0x02 = none ∧
    (s.mb.alarmLevel < 2 → s.barred 0x51 = none) := by
  refine ⟨by simp [State.barred, h], by simp [State.barred], fun halarm => ?_⟩
  simp [State.barred, show ¬ 2 ≤ s.mb.alarmLevel by omega]

theorem State.barred_alarm {s : State} {op : Nat} (hrec : s.pkg.recovery = false) (halarm : 2 ≤ s.mb.alarmLevel)
    (hop : op < 0x10000) : (s.barred op = none ↔ op ∈ [0x02, 0x03, 0x15, 0x22, 0x31, 0x40, 0x70]) ∧
      (s.barred op = none ∨ s.barred op = some 4) := by
  have hlow : ¬ 0x10000 ≤ op := by omega
  by_cases h : op ∈ [0x02, 0x03, 0x15, 0x22, 0x31, 0x40, 0x70]
  · have hnone : s.barred op = none := by
      simp only [State.barred, hlow, hrec, List.contains_iff_mem.mpr h]
      simp
    exact ⟨iff_of_true hnone h, .inl hnone⟩
  · have hsome : s.barred op = some 4 := by
      simp only [State.barred, hlow, hrec, halarm, List.contains_eq_mem, h]
      simp
    exact ⟨iff_of_false (by simp [hsome]) h, .inr hsome⟩

/-- A word whose opcode lies above those of Table 18.3 completes with 0x01. -/
theorem exec_mailboxBadOpcode {s : State} {w : Word} (hon : s.mailboxOn = true) (hfree : s.mb.busy = false)
    (hop : 0x71 ≤ bits w.toNat 15 0) :
    exec (.mailboxBadOpcode w) s = .next ((s.accepted (bits w.toNat 23 16)).mbDone 1) := by
  have hunknown : [1, 2, 3, 0x10, 0x11, 0x12, 0x13, 0x14, 0x15, 0x20, 0x21, 0x22, 0x23, 0x30, 0x31, 0x32, 0x40, 0x50, 0x51, 0x60,
      0x61, 0x70].contains (bits w.toNat 15 0) = false := by
    simp only [List.contains_eq_mem, List.mem_cons, List.not_mem_nil, or_false, decide_eq_false_iff_not]
    omega
  have htakes : s.mailboxFree 0x10000 := ⟨hon, hfree, rfl⟩
  simp only [exec, execMailboxBadOpcode, hunknown, Bool.false_and, Bool.false_eq_true, if_false, State.mailbox_takes htakes]
  rfl

/-- Settles O51: from what the mailbox does with a command that it ignores, bars or takes. -/
theorem mailboxAccepts : Obligations.MailboxAccepts := by
  unfold Obligations.MailboxAccepts
  refine ⟨fun c op hc s tag => ⟨?_, ?_, fun h => exec_command_takes hc h tag⟩, fun s => State.barred_recovery,
    fun s op => State.barred_alarm, fun s w hon hfree hop =>
      ⟨_, exec_mailboxBadOpcode hon hfree hop, rfl, rfl, rfl, rfl⟩⟩
  · rintro (hoff | ⟨hbusy, hwait⟩)
    · rw [exec_command hc, State.mailbox_off hoff]
    · rw [exec_command hc, State.mailbox_busy hbusy hwait]
  · intro r hon hfree hbar
    rw [exec_command hc, State.mailbox_barred hon hfree hbar]

/-! ### Commands for the package -/

/-- Of the mailbox a record of the management ring changes the ring's pointer and its count of drops. -/
theorem State.postMgmt_mb (s : State) (r : Rec) : ∃ mgw mgDrop out,
    s.postMgmt r = { (s.onMb fun m => { m with mgw, mgDrop }) with out } := by
  unfold State.postMgmt
  split
  · exact ⟨s.mb.mgw, s.mb.mgDrop, s.out, rfl⟩
  · split
    · exact ⟨s.mb.mgw, satAdd 0xFFFF s.mb.mgDrop 1, s.out, rfl⟩
    · exact ⟨(s.mb.mgw + 1) % 2 ^ s.mb.mgLog2, s.mb.mgDrop, _, rfl⟩

theorem State.doMgmtRing_eq {s : State} (hlo : 6 ≤ s.argN 2) (hhi : s.argN 2 ≤ 16) : s.doMgmtRing =
    (s.onMb fun m => { m with mgBase := some (s.argQ 0), mgLog2 := s.argN 2, mgw := 0, mgr := 0 }).mbDone 0 := by
  simp [State.doMgmtRing, show ¬ s.argN 2 < 6 by omega, show ¬ 16 < s.argN 2 by omega]

theorem State.doInfoRead_eq {s : State} {ws : List Word} (h : s.info (s.argN 0) = some ws) :
    s.doInfoRead = (s.answer ws).mbDone 0 := by
  simp [State.doInfoRead, h]

/-- What INFO_READ gives is not changed by its acceptance. -/
theorem State.info_accepted (s : State) (tag sel : Nat) : (s.accepted tag).info sel = s.info sel := by
  unfold State.info
  split <;> rfl

theorem State.doPkgReset_eq {s : State} (h : s.pkg.signing = []) : s.doPkgReset.mb.busy = s.mb.busy ∧
    s.doPkgReset.mb.wait = some .reset ∧ s.doPkgReset.pkg.ready = false ∧ s.doPkgReset.pkg.stage = 2 ∧ s.doPkgReset.vds = [] ∧
    s.doPkgReset.ctxs = [] ∧ s.doPkgReset.warps = [] ∧ s.doPkgReset.crews = [] ∧ s.doPkgReset.mem = s.mem ∧
    s.doPkgReset.time = s.time ∧ s.doPkgReset.pkg.slots = s.pkg.slots := by
  simp only [State.doPkgReset, State.packageReset, State.finishSignings_nil h]
  exact ⟨rfl, rfl, rfl, rfl, rfl, rfl, rfl, rfl, rfl, rfl, rfl⟩

@[simp] theorem wordsOf_length (bs : List Byte) : (wordsOf bs).length = bs.length / 4 := by
  induction bs using wordsOf.induct with
  | case1 b0 b1 b2 b3 r ih => simp only [wordsOf, List.length_cons, ih]; omega
  | case2 bs h =>
    have hshort : bs.length < 4 := by
      by_contra hlong
      match bs, h with
      | b0 :: b1 :: b2 :: b3 :: r, h => exact h b0 b1 b2 b3 r rfl
      | [], _ | [_], _ | [_, _], _ | [_, _, _], _ => simp at hlong
    rw [wordsOf]
    · simp only [List.length_nil]; omega
    · exact h

theorem State.doRcptKey_eq {s : State} (h : s.pkg.keysErased = false) : s.doRcptKey = (s.answer (wordsOf receiptKey ++
    [w32 s.pkg.reserved, w32 (s.pkg.reserved / 2 ^ 32 % 256)])).mbDone 0 := by
  simp [State.doRcptKey, h]

theorem State.doEpSet_eq {s : State} {e : BitVec 128} (hep : s.argN 0 < 512)
    (he : e = BitVec.ofNat 128 (s.argQ 1 + 2 ^ 64 * s.argQ 3)) (hok : endpointOk (s.argN 0) e = true)
    (hgrant : e.getLsbD 127 = false ∨ s.endpointGranted (s.argN 0) e = true) :
    s.doEpSet = ({ s with endpoints := put s.endpoints (s.argN 0) e } : State).mbDone 0 := by
  have hfree : (e.getLsbD 127 && !s.endpointGranted (s.argN 0) e) = false := by
    obtain h | h := hgrant
    · rw [h]; rfl
    · rw [h]; exact Bool.and_false _
  simp only [State.doEpSet, ← he, hok, hfree]
  simp [show ¬ 512 ≤ s.argN 0 by omega]

/-! ### Firmware -/

theorem State.doFwImage_eq {s : State} {img : FwImage} (hstand : s.pkg.standby = true) (hok : s.pkg.imageOk img = true) :
    s.doFwImage img = (s.onPkg fun p =>
      { p with slots := setNth p.slots (1 - s.pkg.runSlot) (img.version, true), standby := false,
               update := some { image := img, slot := 1 - s.pkg.runSlot, phase := 0, since := s.time.toNat } }).mbWaits .update := by
  simp [State.doFwImage, hstand, hok]

theorem State.doFwRecover_eq {s : State} {img : FwImage} (hrec : s.pkg.recovery = true) (hslot : s.argN 3 ≤ 1)
    (hok : s.pkg.imageOk img = true) : s.doFwRecover img =
      (s.onPkg fun p => { p with slots := setNth p.slots (s.argN 3) (img.version, true) }).mbDone 0 := by
  simp [State.doFwRecover, hrec, hok, show ¬ 1 < s.argN 3 by omega]

/-! ### The alarm -/

theorem State.doAlarmClear_kept {s : State} (h : s.mb.alarmLevel = 3) :
    s.doAlarmClear = (s.onMb fun m => { m with alarmCount := 0 }).mbDone 0 := by
  simp [State.doAlarmClear, State.onMb, h]

/-- Below level 3 the level goes too; with no VD stopped, no VD changes. -/
theorem State.doAlarmClear_cleared {s : State} (h : s.mb.alarmLevel ≠ 3) (hvds : ∀ e ∈ s.vds, e.2.state ≠ 4) :
    s.doAlarmClear = ((s.onMb fun m => { m with alarmCount := 0, alarmLevel := 0 }).reclock).mbDone 0 := by
  have hback : (s.vds.filter fun e => e.2.state == 4) = [] :=
    List.filter_eq_nil_iff.mpr fun e he => by simpa using hvds e he
  simp [State.doAlarmClear, State.onMb, h, hback]

/-! ### A die's reset begins (R457, R458) -/

/-- Units saved for a reset are entered among those pre-empted. -/
theorem State.saveUnits_frame (die : Option Nat) (us : List UnitId) (s : State) :
    { s.saveUnits die us with preempts := s.preempts } = s := by
  unfold State.saveUnits
  induction us generalizing s with
  | nil => rfl
  | cons u us ih =>
    rw [List.foldl_cons]
    refine Eq.trans (congrArg (fun t : State => { t with preempts := s.preempts }) (ih _)) ?_
    dsimp only
    split <;> rfl

theorem State.saveUnits_eq (s : State) (die : Option Nat) (us : List UnitId) :
    ∃ preempts, s.saveUnits die us = { s with preempts } :=
  ⟨(s.saveUnits die us).preempts, congrArg (fun t : State => { t with preempts := (s.saveUnits die us).preempts })
    (State.saveUnits_frame die us s)⟩

/-- With no VD resident, an event of a die is recorded in the management ring only. -/
theorem State.postDie_eq {s : State} (h : s.residents = []) (source status event detail : Nat) :
    ∃ mgw mgDrop out, s.postDie source status event detail = { (s.onMb fun m => { m with mgw, mgDrop }) with out } := by
  rw [State.postDie, h, List.foldl_nil]
  exact s.postMgmt_mb _

/-- Step 1 of a warm reset, with no VD resident: the die is down, and units, clusters, records and the capability counter
apart nothing changes. -/
theorem State.beginReset_eq {s : State} {d : Nat} (hstep : (s.die d).step = 0) (hres : s.residents = []) (reason : Nat) :
    ∃ capGen mgw mgDrop out clusters preempts, s.beginReset d reason =
      { ((s.onDie d fun x => { x with up := false, step := 2, start := s.time }).onMb fun m =>
          { m with capGen, mgw, mgDrop }) with out, clusters, preempts } := by
  rw [State.beginReset, if_neg (not_not.mpr hstep)]
  extract_lets u v
  obtain ⟨mgw, mgDrop, out, hpost⟩ := State.postDie_eq (s := v) hres d 0 2 reason
  obtain ⟨preempts, hsave⟩ := (v.postDie d 0 2 reason).saveUnits_eq (some d) (v.unitsOn d)
  rw [hsave, hpost]
  exact ⟨_, _, _, _, _, _, rfl⟩

theorem State.doDieReset_eq {s : State} (hd : s.argN 0 < 4) (hsteps : ∀ n, n < 4 → (s.die n).step = 0)
    (hother : ∃ n, n < 4 ∧ n ≠ s.argN 0 ∧ (s.die n).up = true) :
    s.doDieReset = (s.beginReset (s.argN 0) 0).mbDone 0 := by
  have hidle : ((List.range 4).any fun n => n != s.argN 0 && (s.die n).step != 0) = false := by
    simp only [List.any_eq_false, List.mem_range]
    intro n hn
    simp [hsteps n hn]
  have hup : ((List.range 4).all fun n => n == s.argN 0 || !(s.die n).up) = false := by
    obtain ⟨n, hn, hne, hon⟩ := hother
    exact List.all_eq_false.mpr ⟨n, List.mem_range.mpr hn, by simp [hne, hon]⟩
  simp [State.doDieReset, show ¬ 4 ≤ s.argN 0 by omega, hidle, hup]

/-- Settles O52: a command each, from its acceptance and what it does then. -/
theorem packageCommands : Obligations.PackageCommands := by
  unfold Obligations.PackageCommands
  refine ⟨fun s tag h hlo hhi => ?_, fun s tag ws h hinfo => ?_, fun s tag h hsig => ?_, fun s tag h hkey => ?_,
    fun s tag img h hstand hok => ?_, fun s tag img h hrec hslot hok => ?_, fun s tag h hlevel => ?_,
    fun s tag h hlevel hvds => ?_, fun s tag e h hep he hok hgrant => ?_, fun s tag h hd hdies hsteps hother hres => ?_⟩
  · exact ⟨_, exec_command_does (by simp [plainCommands]) h (State.doMgmtRing_eq hlo hhi), ⟨rfl, rfl, rfl⟩, rfl, rfl, rfl, rfl, rfl⟩
  · exact ⟨_, exec_command_does (by simp [plainCommands]) h (State.doInfoRead_eq ((State.info_accepted s _ _).trans hinfo)),
      ⟨rfl, rfl, rfl⟩, rfl, rfl⟩
  · exact ⟨_, exec_command_takes (by simp [plainCommands]) h tag, State.doPkgReset_eq (s := s.accepted tag.toNat) hsig⟩
  · refine ⟨_, exec_command_does (by simp [plainCommands]) h (State.doRcptKey_eq hkey), ⟨rfl, rfl, rfl⟩, rfl, ?_⟩
    show ((wordsOf receiptKey ++ _) ++ _).take 15 = _
    rw [List.append_assoc, List.take_left' (by simp [receiptKey_length])]
  · exact ⟨_, _, congrArg Host.Outcome.next ((State.mailbox_takes h tag.toNat (some img)).trans (State.doFwImage_eq hstand hok)),
      rfl, rfl, rfl, rfl, rfl, rfl, rfl, rfl⟩
  · exact ⟨_, congrArg Host.Outcome.next ((State.mailbox_takes h tag.toNat (some img)).trans (State.doFwRecover_eq hrec hslot hok)),
      ⟨rfl, rfl, rfl⟩, rfl⟩
  · exact ⟨_, exec_command_does (by simp [plainCommands]) h (State.doAlarmClear_kept hlevel), ⟨rfl, rfl, rfl⟩, rfl, hlevel⟩
  · obtain ⟨target, hclock⟩ :=
      ((s.accepted tag.toNat).onMb fun m => { m with alarmCount := 0, alarmLevel := 0 }).reclock_eq
    exact ⟨_, exec_command_does (by simp [plainCommands]) h 
      ((State.doAlarmClear_cleared (s := s.accepted tag.toNat) hlevel hvds).trans
      (congrArg (State.mbDone · 0) hclock)), ⟨rfl, rfl, rfl⟩, rfl, rfl⟩
  · exact ⟨_, exec_command_does (by simp [plainCommands]) h (State.doEpSet_eq hep he hok hgrant), ⟨rfl, rfl, rfl⟩,
      look_put_self _ _ _, rfl⟩
  · obtain ⟨capGen, mgw, mgDrop, out, clusters, preempts, hreset⟩ :=
      State.beginReset_eq (s := s.accepted tag.toNat) (d := s.argN 0) (hsteps _ hd) hres 0
    have hself := State.die_onDie_self (s := s) (d := s.argN 0) (by omega) fun x =>
      { x with up := false, step := 2, start := s.time }
    exact ⟨_, exec_command_does (by simp [plainCommands]) h ((State.doDieReset_eq (s := s.accepted tag.toNat) hd hsteps hother).trans
      (congrArg (State.mbDone · 0) hreset)), ⟨rfl, rfl, rfl⟩, congrArg Die.up hself, congrArg Die.step hself, rfl⟩

end Sys2Proof.Machine
end

section
/-! Mailbox commands for contexts and queue interfaces (R37, R396, R413, R423, R435, R436, R440). -/

namespace Sys2Proof.Machine

/-! ### A kill that a command begins -/

/-- The KILL step leaves the mailbox as it was. -/
theorem State.killStep_mb {s : State} (h : s.Recorded) (c : Nat) : (s.killStep c).mb = s.mb := by
  unfold State.killStep
  dsimp only
  obtain ⟨-, -, -, -, hmb, -⟩ := (State.withdrawGuards_frame (State.tidyLeases _) _).rest
  rw [hmb, (State.tidyLeases_frame _).2.2.2.1]
  · rfl
  · intro e he
    simp only [State.onCtx, State.onVd, mapS, List.mem_map] at he
    obtain ⟨a, ha, rfl⟩ := he
    have hnone := h a ha
    dsimp only
    split <;> exact hnone

/-- A context without a kill gets one, and the command that kills it waits. -/
theorem State.killAll_one {s : State} {c : Nat} {x : Ctx} (hx : s.ctx? c = some x) (hkill : x.kill = none) (hrec : s.Recorded)
    (vd op : Nat) : (s.killAll vd [c] op).mb = { s.mb with wait := some (.kills vd [c] op) } ∧
      (s.killAll vd [c] op).runs c = false := by
  obtain ⟨k, hk⟩ : ∃ k, k = killOf s.time (op == 0x21) := ⟨_, rfl⟩
  have hbegun : (s.onCtx c fun x => { x with kill := some k }).Recorded := hrec
  have hmarked := State.ctx?_onCtx_of_eq hx fun x => { x with kill := some k }
  have hstep : s.kill c k = (s.onCtx c fun x => { x with kill := some k }).killStep c := by
    simp only [State.kill, hx, hkill]
  have hctx : (s.kill c k).ctx? c = some { x with kill := some k, overflow := [] } := by
    rw [hstep, State.killStep_ctx hbegun, hmarked]
    rfl
  have hmb : (s.kill c k).mb = s.mb := by
    rw [hstep, State.killStep_mb hbegun]
    rfl
  have hwaits : s.killAll vd [c] op = (s.kill c k).mbWaits (.kills vd [c] op) := by
    have hctx' : ((s.kill c k).mbWaits (.kills vd [c] op)).ctx? c = some { x with kill := some k, overflow := [] } := hctx
    rw [State.killAll, List.foldl_cons, List.foldl_nil, ← hk]
    simp only [State.finishKills, State.mbWaits, State.onMb] at hctx' ⊢
    simp [hctx']
  rw [hwaits]
  refine ⟨?_, ?_⟩
  · show ({ (s.kill c k).mb with wait := _ } : Mailbox) = _
    rw [hmb]
  · show State.runs (s.kill c k) c = false
    simp [State.runs, hctx]

theorem State.onCtxCommand_known {s : State} {x : Ctx} (hvd : s.argN 0 < 1024) (hnum : s.argN 1 < 64)
    (hx : s.ctx? (ctxKey (s.argN 0) (s.argN 1)) = some x) (k : Nat → Nat → State → State) :
    s.onCtxCommand k = k (s.argN 0) (ctxKey (s.argN 0) (s.argN 1)) s := by
  simp [State.onCtxCommand, hx, show ¬ 1024 ≤ s.argN 0 by omega, show ¬ 64 ≤ s.argN 1 by omega]

section
variable {s : State} {x : Ctx} (hvd : s.argN 0 < 1024) (hnum : s.argN 1 < 64)
  (hx : s.ctx? (ctxKey (s.argN 0) (s.argN 1)) = some x)
include hvd hnum hx

theorem State.doCtxKill_eq : s.doCtxKill = s.killAll (s.argN 0) [ctxKey (s.argN 0) (s.argN 1)] 0x21 :=
  State.onCtxCommand_known hvd hnum hx _

theorem State.doCtxDestroy_eq : s.doCtxDestroy = s.killAll (s.argN 0) [ctxKey (s.argN 0) (s.argN 1)] 0x22 :=
  State.onCtxCommand_known hvd hnum hx _

end

/-! ### CTX_CREATE and CTX_SETROOT -/

/-- The context that CTX_CREATE makes of its arguments, with a PASID (R37, R396). -/
def State.ctxAsked (s : State) (root : Option Nat) (pasid : Nat) : Ctx :=
  { Ctx.bare (s.argN 0) (s.argN 1) pasid [] with
    root, trapCode := s.argN 4, trapOff := w32 (s.argN 5),
    chain := BitVec.ofNat 256 (natOf (sha256 (bytesOf 2 (s.argN 0) ++ bytesOf 1 (s.argN 1)))) }

theorem State.doCtxCreate_eq {s : State} {root : Option Nat} {v : Vd} (hroot : rootOf (s.argQ 2) = some root)
    (hvd : s.argN 0 < 1024) (hnum : s.argN 1 < 64) (htrap : s.argN 4 < 4096) (hv : s.vd? (s.argN 0) = some v)
    (hstate : v.state = 2) (hnew : s.ctx? (ctxKey (s.argN 0) (s.argN 1)) = none) :
    ∃ pasid, s.doCtxCreate = (({ s with
      stamp := s.stamp + 1, ctxs := put s.ctxs (ctxKey (s.argN 0) (s.argN 1)) (s.ctxAsked root pasid) } : State).answer
        [w32 pasid]).mbDone 0 := by
  have hargs : ¬ (1024 ≤ s.argN 0 ∨ 64 ≤ s.argN 1 ∨ 4096 ≤ s.argN 4) := by omega
  have hfree : ¬ (((s.vd? (s.argN 0)).all fun v => v.state != 2) ∨ (s.ctx? (ctxKey (s.argN 0) (s.argN 1))).isSome) := by
    simp [hv, hstate, hnew]
  refine ⟨s.draw.2.pickPasid s.draw.1, ?_⟩
  simp only [State.doCtxCreate, hroot, if_neg hargs, if_neg hfree]
  rfl

theorem State.doCtxSetroot_eq {s : State} {root : Option Nat} {x : Ctx} {c : Nat} (hroot : rootOf (s.argQ 2) = some root)
    (hvd : s.argN 0 < 1024) (hnum : s.argN 1 < 64) (hc : c = ctxKey (s.argN 0) (s.argN 1)) (hx : s.ctx? c = some x)
    (hpending : s.pending = []) :
    s.doCtxSetroot = ((s.onCtx c fun x => { x with root }).invalidateCtx c none).mbWaits (.inval c) := by
  subst hc
  have hnone : ((s.onCtx (ctxKey (s.argN 0) (s.argN 1)) fun x => { x with root }).invalidateCtx
    (ctxKey (s.argN 0) (s.argN 1)) none).pending = [] := hpending
  simp only [State.doCtxSetroot, hroot, State.onCtxCommand_known hvd hnum hx, State.performFree_nil hnone]

/-- No stage-1 translation of a context is left when all of them are dropped (R413). -/
theorem State.invalidateCtx_all (s : State) (c : Nat) : ∀ e ∈ (s.invalidateCtx c none).tlb, e.ctx = c → e.host = true := by
  intro e he hc
  simpa [hc] using (List.mem_filter.mp he).2

/-! ### QI_BIND, QI_UNBIND and QI_RESTART -/

theorem State.doQiBind_eq {s : State} {v : Vd} {x : Ctx} {ring ev : BitVec 256} (hq : s.argN 0 < 4096)
    (hvd : s.argN 1 < 1024) (hnum : s.argN 2 < 64) (hring : s.argN 3 < 4096) (hev : s.argN 7 < 4096)
    (hk : 10 ≤ s.argN 6 ∧ s.argN 6 ≤ 22) (he : 6 ≤ s.argN 10 ∧ s.argN 10 ≤ 16)
    (hremap : bits (w32 (s.argN 11)).toNat 30 12 = 0) (hv : s.vd? (s.argN 1) = some v) (hstate : v.state = 2)
    (hx : s.ctx? (ctxKey (s.argN 1) (s.argN 2)) = some x) (hfree : ∀ y, s.qi? (s.argN 0) = some y → y.bound = false)
    (hmay : s.mayBind (s.argN 1) v (hubOfQi (s.argN 0)) (bits (w32 (s.argN 11)).toNat 11 0) = true)
    (hr : ring = (look x.handles (s.argN 3)).getD 0) (hv2 : ev = (look x.handles (s.argN 7)).getD 0)
    (hfits : ringFits ring (s.argQ 4) (4 * 2 ^ s.argN 6) 4 (Entry.pr ring) = true)
    (hfits2 : ringFits ev (s.argQ 8) (32 * 2 ^ s.argN 10) 32 (Entry.pw ev && Entry.kind ev != 0) = true) :
    s.doQiBind = ({ s with qis := put s.qis (s.argN 0) (Qi.fresh (s.argN 1) (ctxKey (s.argN 1) (s.argN 2)) v.config.secure
      (s.argN 3) (s.argQ 4) (s.argN 6) (s.argN 7) (s.argQ 8) (s.argN 10) (w32 (s.argN 11))) } : State).mbDone 0 := by
  have hargs : ¬ (4096 ≤ s.argN 0 ∨ 1024 ≤ s.argN 1 ∨ 64 ≤ s.argN 2 ∨ 4096 ≤ s.argN 3 ∨ 4096 ≤ s.argN 7 ∨ s.argN 6 < 10 ∨
      22 < s.argN 6 ∨ s.argN 10 < 6 ∨ 16 < s.argN 10 ∨ bits (w32 (s.argN 11)).toNat 30 12 ≠ 0) := by
    rw [hremap]; omega
  have hunbound : (s.qi? (s.argN 0)).any (·.bound) = false := by
    cases hy : s.qi? (s.argN 0) with
    | none => rfl
    | some y => exact hfree y hy
  simp only [State.doQiBind, if_neg hargs, hv, hx, hmay, ← hr, ← hv2, hfits, hfits2]
  simp [hstate, hunbound]

theorem State.onQiCommand_bound {s : State} {x : Qi} (hq : s.argN 0 < 4096) (hx : s.qi? (s.argN 0) = some x)
    (hbound : x.bound = true) (hopen : x.closing = false) (k : Nat → State → State) :
    s.onQiCommand k = (k (s.argN 0) s).mbDone 0 := by
  simp [State.onQiCommand, hx, hbound, hopen, show ¬ 4096 ≤ s.argN 0 by omega]

section
variable {s : State} {x : Qi} (hq : s.argN 0 < 4096) (hx : s.qi? (s.argN 0) = some x) (hbound : x.bound = true)
  (hopen : x.closing = false)
include hq hx hbound hopen

theorem State.doQiUnbind_eq : s.doQiUnbind =
    ((s.onQi (s.argN 0) fun x => { x with stopped := true, kicks := [], closing := true }).letGo (s.argN 0)).mbDone 0 :=
  State.onQiCommand_bound hq hx hbound hopen _

theorem State.doQiRestart_eq : s.doQiRestart = (s.restartQueue (s.argN 0)).mbDone 0 :=
  State.onQiCommand_bound hq hx hbound hopen _

end

/-- An interface with nothing begun is unbound at once. -/
theorem State.unbound_qi {s : State} {q : Nat} {x : Qi} (hx : s.qi? q = some x) (hopen : x.closing = false)
    (hbegun : x.begun = []) : ((s.onQi q fun x => { x with stopped := true, kicks := [], closing := true }).letGo q).qi? q =
      some { x with stopped := true, kicks := [], bound := false } := by
  rw [State.letGo, State.qi?_onQi_of_eq (State.qi?_onQi_of_eq hx _)]
  simp [hbegun, ← hopen]

/-- Settles O54: a command each, from its acceptance and what it does then. -/
theorem contextCommands : Obligations.ContextCommands := by
  unfold Obligations.ContextCommands
  refine ⟨?_, ?_, ?_, ?_, ?_⟩
  · intro s tag root v h hroot hvd hnum htrap hv hstate hnew
    obtain ⟨pasid, hdo⟩ := State.doCtxCreate_eq (s := s.accepted tag.toNat) hroot hvd hnum htrap hv hstate hnew
    exact ⟨_, _, exec_command_does (by simp [plainCommands]) h hdo, ⟨rfl, rfl, rfl⟩, look_put_self _ _ _,
      rfl, rfl, rfl, rfl, rfl, rfl, rfl, rfl, rfl⟩
  · intro s tag c x i op hi h hvd hnum hc hx hkill hrec
    subst hc
    obtain ⟨hmb, hruns⟩ := State.killAll_one (s := s.accepted tag.toNat) hx hkill hrec (s.argN 0) op
    have hdoes (hi' : (i, op) ∈ plainCommands) (hdo : (s.accepted tag.toNat).perform op FwImage.empty =
        (s.accepted tag.toNat).killAll (s.argN 0) [ctxKey (s.argN 0) (s.argN 1)] op) :
        ∃ t, exec (i tag) s = .next t ∧ t.mb.busy = true ∧
          t.mb.wait = some (.kills (s.argN 0) [ctxKey (s.argN 0) (s.argN 1)] op) ∧
          t.runs (ctxKey (s.argN 0) (s.argN 1)) = false :=
      ⟨_, exec_command_does hi' h hdo, by rw [hmb]; rfl, by rw [hmb], hruns⟩
    simp only [List.mem_cons, Prod.mk.injEq, List.not_mem_nil, or_false] at hi
    obtain ⟨rfl, rfl⟩ | ⟨rfl, rfl⟩ := hi
    · exact hdoes (by simp [plainCommands]) (State.doCtxKill_eq (s := s.accepted tag.toNat) hvd hnum hx)
    · exact hdoes (by simp [plainCommands]) (State.doCtxDestroy_eq (s := s.accepted tag.toNat) hvd hnum hx)
  · intro s tag c x root h hroot hvd hnum hc hx hpending
    exact ⟨_, exec_command_does (by simp [plainCommands]) h
      (State.doCtxSetroot_eq (s := s.accepted tag.toNat) hroot hvd hnum hc hx hpending), rfl, rfl, State.ctx?_onCtx_of_eq hx _,
      State.invalidateCtx_all _ c⟩
  · intro s tag v x ring ev h hq hvd hnum hring hev hk hk' he he' hremap hv hstate hx hfree hmay hr hv2 hfits hfits2
    exact ⟨_, _, exec_command_does (by simp [plainCommands]) h (State.doQiBind_eq (s := s.accepted tag.toNat) hq hvd hnum hring
      hev ⟨hk, hk'⟩ ⟨he, he'⟩ hremap hv hstate hx hfree hmay hr hv2 hfits hfits2), ⟨rfl, rfl, rfl⟩, look_put_self _ _ _,
      rfl, rfl, rfl, rfl, rfl, rfl, rfl, rfl, rfl, rfl, rfl, rfl, rfl, rfl, rfl⟩
  · intro s tag x hq hx hbound hopen
    refine ⟨fun h hbegun => ?_, fun h => ?_⟩
    · exact ⟨_, exec_command_does (by simp [plainCommands]) h
        (State.doQiUnbind_eq (s := s.accepted tag.toNat) hq hx hbound hopen), ⟨rfl, rfl, rfl⟩,
        State.unbound_qi (s := s.accepted tag.toNat) hx hopen hbegun⟩
    · exact ⟨_, exec_command_does (by simp [plainCommands]) h
        (State.doQiRestart_eq (s := s.accepted tag.toNat) hq hx hbound hopen), ⟨rfl, rfl, rfl⟩,
        State.qi?_onQi_of_eq (s := s.accepted tag.toNat) hx _⟩

end Sys2Proof.Machine
end

section
/-! Mailbox commands that move a virtual device through its states (R425, R426, R431, R434, R444). -/

namespace Sys2Proof.Machine

/-! ### Tables stored in device memory -/

/-- A state that differs only in what stores into device memory change: its bytes, and what waits for them or holds them. -/
def State.OnlyStored (s t : State) : Prop :=
  { t with mem := s.mem, warps := s.warps, images := s.images, wbuf := s.wbuf, syncs := s.syncs, syndrome := s.syndrome } = s

theorem State.OnlyStored.refl (s : State) : s.OnlyStored s := rfl

theorem State.OnlyStored.trans {s t u : State} (h : s.OnlyStored t) (k : t.OnlyStored u) : s.OnlyStored u := by
  unfold State.OnlyStored at *
  rw [← h, ← k]

theorem State.store_onlyStored (s : State) (pa : Nat) (bs : List Byte) : s.OnlyStored (s.store pa bs) := rfl

theorem State.syndrome_onlyStored (s : State) (syndrome : SMap Word) : s.OnlyStored { s with syndrome } := rfl

theorem State.storeFresh_onlyStored (s : State) (pa : Nat) (bs : List Byte) : s.OnlyStored (s.storeFresh pa bs) :=
  (s.store_onlyStored pa bs).trans (State.syndrome_onlyStored _ _)

theorem State.OnlyStored.foldl {α : Type} {f : State → α → State} (h : ∀ (s : State) a, s.OnlyStored (f s a)) (l : List α)
    (s : State) : s.OnlyStored (l.foldl f s) := by
  induction l generalizing s with
  | nil => rfl
  | cons a l ih => exact (h s a).trans (ih _)

theorem State.tenantTables_onlyStored (s : State) (vd : Nat) (c : VdConfig) : s.OnlyStored (s.tenantTables vd c) := by
  unfold State.tenantTables
  refine List.foldlRecOn (motive := fun r : State × Nat => s.OnlyStored r.1) _ _ (.refl s) ?_
  intro r hr l _
  extract_lets size e used
  split
  · exact hr.trans (r.1.store_onlyStored _ _)
  · show s.OnlyStored (if _ then _ else _)
    split
    · exact hr.trans (r.1.store_onlyStored _ _)
    · exact hr

/-- Virtual devices, queue interfaces and the mailbox stand as they were. -/
theorem State.OnlyStored.rest {s t : State} (h : s.OnlyStored t) : t.vds = s.vds ∧ t.qis = s.qis ∧ t.mb = s.mb := by
  unfold State.OnlyStored at h
  rw [← h]
  exact ⟨rfl, rfl, rfl⟩

/-! ### The record of a state of a VD -/

/-- A VD without a bound interface has its record in the management ring only. -/
theorem State.vdRecord_eq {s : State} {vd : Nat} (h : s.firstQi vd = none) (state : Nat) :
    ∃ mgw mgDrop out, s.vdRecord vd state = { (s.onMb fun m => { m with mgw, mgDrop }) with out } := by
  simp only [State.vdRecord, State.postState, State.postVd, h]
  exact s.postMgmt_mb _

theorem State.vdRecord_reclock_eq {s : State} {vd : Nat} (h : s.firstQi vd = none) (state : Nat) : ∃ mgw mgDrop out target,
    (s.vdRecord vd state).reclock =
      ({ (s.onMb fun m => { m with mgw, mgDrop }) with out } : State).onPkg fun p => { p with clsTarget := target } := by
  obtain ⟨mgw, mgDrop, out, hrec⟩ := State.vdRecord_eq h state
  obtain ⟨target, hclock⟩ := (s.vdRecord vd state).reclock_eq
  exact ⟨mgw, mgDrop, out, target, hclock.trans (congrArg (State.onPkg · _) hrec)⟩

theorem State.firstQi_of_qis {s t : State} (h : t.qis = s.qis) (vd : Nat) : t.firstQi vd = s.firstQi vd := by
  simp only [State.firstQi, h]

/-! ### VD_CREATE and VD_RESIZE of a VD not resident -/

theorem State.doVdCreate_eq {s : State} {vd : Nat} {c : VdConfig} (hc : parseConfig (bytesOfWords s.mb.arg) = some (vd, c))
    (hnew : s.vd? vd = none) : ∃ u, s.OnlyStored u ∧
      s.doVdCreate = (({ u with vds := put u.vds vd (Vd.fresh c) } : State).vdRecord vd 1).mbDone 0 := by
  refine ⟨_, (State.OnlyStored.foldl (fun s (e : Nat × List Byte) => s.storeFresh_onlyStored e.1 e.2)
    (Config.stage2Tables vd) s).trans (State.tenantTables_onlyStored _ vd c), ?_⟩
  simp [State.doVdCreate, hc, hnew]

theorem State.doVdResize_eq {s : State} {vd : Nat} {c : VdConfig} {v : Vd}
    (hc : parseConfig (bytesOfWords s.mb.arg) = some (vd, c)) (hv : s.vd? vd = some v) (hstate : v.state = 1) :
    ∃ u, s.OnlyStored u ∧ s.doVdResize = ((u.onVd vd fun v => { v with config := c }).vdRecord vd 1).mbDone 0 := by
  refine ⟨_, s.tenantTables_onlyStored vd c, ?_⟩
  simp only [State.doVdResize, hc, hv, hstate, if_true]

/-! ### VD_ADMIT -/

theorem State.doVdAdmit_refused {s : State} {v : Vd} (hvd : s.argN 0 < 1024) (hv : s.vd? (s.argN 0) = some v)
    (hstate : v.state = 1) (ha : s.admission (s.argN 0) v.config = none) : s.doVdAdmit = s.mbDone 2 := by
  simp [State.doVdAdmit, hv, hstate, ha, show ¬ 1024 ≤ s.argN 0 by omega]

/-- A VD that passes admission is resident with its grants, and may have to wait for the clock (R19, R431). -/
theorem State.doVdAdmit_eq {s : State} {v : Vd} {a : Admitted} (hvd : s.argN 0 < 1024) (hv : s.vd? (s.argN 0) = some v)
    (hstate : v.state = 1) (ha : s.admission (s.argN 0) v.config = some a) :
    ∃ u : State, u.vd? (s.argN 0) = some { v.granted a with state := 2 } ∧ u.qis = s.qis ∧ u.mb = s.mb ∧
      s.doVdAdmit = ((((u.onVd (s.argN 0) fun w => { w with hold := u.mustHold }).answer
        ({ v.granted a with state := 2 } : Vd).results).vdRecord (s.argN 0) 2).reclock).mbDone 0 := by
  refine ⟨{ s.takeClusters v.config.secure a.clusters with vds := put s.vds (s.argN 0) { v.granted a with state := 2 } },
    look_put_self _ _ _, rfl, rfl, ?_⟩
  simp [State.doVdAdmit, hv, hstate, ha, show ¬ 1024 ≤ s.argN 0 by omega]
  rfl

/-! ### VD_EVICT -/

theorem mapS_id {α : Type} (m : SMap α) : (mapS m fun _ x => x) = m := List.map_id' m

/-- Without gangs and warps there are no units of pre-emption. -/
theorem State.unitsWhere_nil {s : State} (hgangs : s.gangs = []) (hwarps : s.warps = []) (p : Nat → Nat → Bool) :
    s.unitsWhere p = [] := by
  simp [State.unitsWhere, hgangs, hwarps]

/-- A VD as its eviction leaves it, next to be DEFINED (R425). -/
def Vd.evicted (v : Vd) : Vd := { v with state := 1, held := [], clusters := [], msixBase := 0, msixLen := 0 }

/-- An eviction with no unit left to save ends: the VD is DEFINED, with nothing granted. -/
theorem State.finishSaves_evicted {s : State} {vd : Nat} {v : Vd} (hwait : s.mb.wait = some (.saves vd v.evicted))
    (hleft : s.leaving vd v.evicted = []) : s.finishSaves =
      ((((s.takeClusters v.config.secure []).onVd vd fun w => { w.evicted with config := v.config, hint := none }).vdRecord
        vd 1).reclock).mbDone s.doneResult := by
  have hstate : v.evicted.state = 1 := rfl
  simp only [State.finishSaves, hwait, hleft, hstate, ne_eq, not_true_eq_false, and_false, if_false, if_true, mapS_id]
  rfl

theorem State.doVdEvict_eq {s : State} {v : Vd} (hvd : s.argN 0 < 1024) (hv : s.vd? (s.argN 0) = some v)
    (hstate : v.state = 2) (hgangs : s.gangs = []) (hwarps : s.warps = []) :
    s.doVdEvict = ((((((s.onVd (s.argN 0) fun v => { v with state := 3 }).mbWaits (.saves (s.argN 0) v.evicted)).takeClusters
      v.config.secure []).onVd (s.argN 0) fun w => { w.evicted with config := v.config, hint := none }).vdRecord
        (s.argN 0) 1).reclock).mbDone s.doneResult := by
  have hsaved : s.doVdEvict =
      ((s.onVd (s.argN 0) fun v => { v with state := 3 }).mbWaits (.saves (s.argN 0) v.evicted)).finishSaves := by
    have hleaving : s.leaving (s.argN 0) v.evicted = [] := State.unitsWhere_nil hgangs hwarps _
    rw [Vd.evicted] at hleaving
    simp only [State.doVdEvict, if_neg (show ¬ 1024 ≤ s.argN 0 by omega), hv, hstate, ne_eq, not_true_eq_false, if_false,
      hleaving]
    rfl
  have hleft : ((s.onVd (s.argN 0) fun v => { v with state := 3 }).mbWaits (.saves (s.argN 0) v.evicted)).leaving (s.argN 0)
      v.evicted = [] :=
    State.unitsWhere_nil (s := (s.onVd (s.argN 0) fun v => { v with state := 3 }).mbWaits (.saves (s.argN 0) v.evicted))
      hgangs hwarps _
  rw [hsaved]
  exact State.finishSaves_evicted rfl hleft

/-! ### VD_RESET and VD_DESTROY -/

/-- A reset with no context left to kill ends: the VD is resident again, its interfaces unbound. -/
theorem State.finishKills_reset {s : State} {vd : Nat} (hwait : s.mb.wait = some (.kills vd [] 0x14))
    (halarm : s.mb.alarmLevel < 2) : s.finishKills =
      (((s.onVd vd fun v => { v with state := 2, invals := [] }).vdRecord vd 2).unbindAll vd).mbDone
        ((s.onVd vd fun v => { v with state := 2, invals := [] }).vdRecord vd 2).doneResult := by
  have hstate : s.residentState = 2 := if_neg (by omega)
  simp only [State.finishKills, hwait, List.any_nil, List.foldl_nil, hstate]
  rfl

theorem State.doVdReset_eq {s : State} {v : Vd} (hvd : s.argN 0 < 1024) (hv : s.vd? (s.argN 0) = some v)
    (hstate : v.state = 2) (hnone : s.ctxsOf (s.argN 0) = []) : s.doVdReset =
      ((s.onVd (s.argN 0) fun v => { v with state := 3 }).mbWaits (.kills (s.argN 0) [] 0x14)).finishKills := by
  have hresident : ((s.vd? (s.argN 0)).all fun v => v.state != 2) = false := by simp [hv, hstate]
  simp only [State.doVdReset, if_neg (show ¬ 1024 ≤ s.argN 0 by omega), hresident, hnone]
  rfl

theorem State.doVdReset_done {s : State} {v : Vd} (hvd : s.argN 0 < 1024) (hv : s.vd? (s.argN 0) = some v) (hstate : v.state = 2)
    (hnone : s.ctxsOf (s.argN 0) = []) (halarm : s.mb.alarmLevel < 2) (hqi : s.firstQi (s.argN 0) = none)
    (hesc : s.mb.escalated = false) :
    ∃ t, s.doVdReset = t ∧ (t.mb.busy = false ∧ t.mb.result = 0 ∧ t.mb.tag = s.mb.tag) ∧
      t.vd? (s.argN 0) = some { v with state := 2, invals := [] } := by
  have hdrained := State.vd?_onVd_of_eq hv fun v => { v with state := 3 }
  have hreset := State.vd?_onVd_of_eq (s := (s.onVd (s.argN 0) fun v => { v with state := 3 }).mbWaits
    (.kills (s.argN 0) [] 0x14)) hdrained fun v => { v with state := 2, invals := [] }
  have hdo := (State.doVdReset_eq hvd hv hstate hnone).trans (State.finishKills_reset rfl halarm)
  generalize hu : (State.onVd ((s.onVd (s.argN 0) fun v => { v with state := 3 }).mbWaits (.kills (s.argN 0) [] 0x14))
    (s.argN 0) fun v => { v with state := 2, invals := [] }) = u at hdo hreset
  have hmb : u.mb = { s.mb with wait := some (.kills (s.argN 0) [] 0x14) } := by rw [← hu]; rfl
  obtain ⟨mgw, mgDrop, out, hrec⟩ :=
    State.vdRecord_eq (s := u) (vd := s.argN 0) ((State.firstQi_of_qis (by rw [← hu]; rfl) _).trans hqi) 2
  rw [hrec] at hdo
  refine ⟨_, hdo, ⟨rfl, ?_, ?_⟩, hreset⟩
  · show (if u.mb.escalated then 5 else 0) = 0
    simp [hmb, hesc]
  · show u.mb.tag = s.mb.tag
    rw [hmb]

theorem State.doVdDestroy_eq {s : State} {v : Vd} (hvd : s.argN 0 < 1024) (hv : s.vd? (s.argN 0) = some v)
    (hstate : v.state = 2) (hnone : s.ctxsOf (s.argN 0) = []) :
    s.doVdDestroy = (((s.onVd (s.argN 0) fun v => { v with state := 3 }).mbWaits (.kills (s.argN 0) [] 0x15)).unbindAll
      (s.argN 0)).mbWaits (.scrub (s.argN 0)) := by
  have hresident : ((s.vd? (s.argN 0)).all fun v => v.state == 0 || v.state == 3) = false := by simp [hv, hstate]
  simp only [State.doVdDestroy, if_neg (show ¬ 1024 ≤ s.argN 0 by omega), hresident, hnone]
  rfl

theorem State.unbindAll_unbound (s : State) (vd : Nat) {q : Nat} {x : Qi} (hx : (s.unbindAll vd).qi? q = some x)
    (hvd : x.vd = vd) : x.bound = false := by
  simp only [State.unbindAll, State.qi?, look_mapS', Option.map_eq_some_iff] at hx
  obtain ⟨y, -, rfl⟩ := hx
  by_cases hy : y.vd = vd
  · rw [if_pos hy]
  · rw [if_neg hy] at hvd
    exact absurd hvd hy

/-! ### The scrub (R444) -/

theorem Memory.read_foldl_zero (gs : List (Nat × Nat)) (m : Memory) (a : Nat) :
    (gs.foldl (fun m (g : Nat × Nat) => Memory.zero m g.1 g.2) m).read a =
      if ∃ g ∈ gs, g.1 ≤ a ∧ a < g.1 + g.2 then unlisted else m.read a := by
  induction gs generalizing m with
  | nil => simp
  | cons g gs ih =>
    rw [List.foldl_cons, ih, Memory.read_zero]
    by_cases h : ∃ g ∈ gs, g.1 ≤ a ∧ a < g.1 + g.2
    · rw [if_pos h, if_pos]
      obtain ⟨g', hg, hin⟩ := h
      exact ⟨g', List.mem_cons_of_mem _ hg, hin⟩
    · rw [if_neg h]
      refine if_congr ?_ rfl rfl
      simp [h]

/-- What the scrub of a VD leaves before its record: its pages are 0, and its grants and records are gone. -/
def State.scrubbed (s : State) (vd : Nat) : State :=
  let own (l : Nat) : Bool := (Config.vdMemory vd).any fun g => decide (g.1 ≤ l * 64 ∧ l * 64 < g.1 + g.2)
  { s with
    mem := (Config.vdMemory vd).foldl (fun m (g : Nat × Nat) => Memory.zero m g.1 g.2) s.mem,
    syndrome := keep s.syndrome fun l _ => !own l, dir := keep s.dir fun l _ => !own l,
    dieDir := keep s.dieDir fun k _ => !own (k / 4), patched := keep s.patched fun l _ => !own l,
    vds := drop s.vds vd, endpoints := keep s.endpoints fun _ e => (e.extractLsb' 107 10).toNat != vd }

theorem State.scrubbed_read (s : State) (vd a : Nat) : (s.scrubbed vd).mem.read a =
    if ∃ g ∈ Config.vdMemory vd, g.1 ≤ a ∧ a < g.1 + g.2 then unlisted else s.mem.read a :=
  Memory.read_foldl_zero _ _ _

theorem State.scrubbed_vd (s : State) (vd : Nat) : (s.scrubbed vd).vd? vd = none := look_drop_self _ _

theorem exec_vdScrubComplete {s : State} {vd : Nat} (hwait : s.mb.wait = some (.scrub vd)) : exec (.vdScrubComplete vd) s =
    .next ((((s.scrubbed vd).vdRecord vd 0).reclock).mbDone (s.scrubbed vd).doneResult) := by
  simp only [exec, execVdScrubComplete, hwait, if_true]
  rfl

/-- Settles O53: what each command leaves, with its record in the management ring alone. -/
theorem virtualDeviceCommands : Obligations.VirtualDeviceCommands := by
  unfold Obligations.VirtualDeviceCommands
  refine ⟨?_, ?_, ?_, ?_, ?_, ?_, ?_, ?_⟩
  · intro s tag vd c h hc hnew hqi
    obtain ⟨u, hu, hdo⟩ := State.doVdCreate_eq (s := s.accepted tag.toNat) hc hnew
    obtain ⟨-, hqis, hmb⟩ := hu.rest
    obtain ⟨mgw, mgDrop, out, hrec⟩ := State.vdRecord_eq (s := { u with vds := put u.vds vd (Vd.fresh c) }) (vd := vd)
      ((State.firstQi_of_qis (s := s) hqis vd).trans hqi) 1
    rw [hrec] at hdo
    exact ⟨_, exec_command_does (by simp [plainCommands]) h hdo, ⟨rfl, rfl, congrArg Mailbox.tag hmb⟩, look_put_self _ _ _⟩
  · intro s tag v a h hvd hv hstate ha hqi
    obtain ⟨u, hgranted, hqis, hmb, hdo⟩ := State.doVdAdmit_eq (s := s.accepted tag.toNat) hvd hv hstate ha
    obtain ⟨mgw, mgDrop, out, target, hrec⟩ := State.vdRecord_reclock_eq (s :=
      (u.onVd (s.argN 0) fun w => { w with hold := u.mustHold }).answer ({ v.granted a with state := 2 } : Vd).results)
      (vd := s.argN 0) ((State.firstQi_of_qis (s := s) hqis _).trans hqi) 2
    exact ⟨_, _, exec_command_does (by simp [plainCommands]) h (hdo.trans (congrArg (State.mbDone · 0) hrec)),
      ⟨rfl, rfl, congrArg Mailbox.tag hmb⟩, State.vd?_onVd_of_eq hgranted _, rfl, rfl, rfl, rfl, rfl, rfl⟩
  · intro s tag v h hvd hv hstate ha
    exact ⟨_, exec_command_does (by simp [plainCommands]) h
      (State.doVdAdmit_refused (s := s.accepted tag.toNat) hvd hv hstate ha), ⟨rfl, rfl, rfl⟩, rfl⟩
  · intro s tag vd c v h hc hv hstate hqi
    obtain ⟨u, hu, hdo⟩ := State.doVdResize_eq (s := s.accepted tag.toNat) hc hv hstate
    obtain ⟨hvds, hqis, hmb⟩ := hu.rest
    obtain ⟨mgw, mgDrop, out, hrec⟩ := State.vdRecord_eq (s := u.onVd vd fun v => { v with config := c }) (vd := vd)
      ((State.firstQi_of_qis (s := s) hqis vd).trans hqi) 1
    have hv' : u.vd? vd = some v := (congrArg (look · vd) hvds).trans hv
    exact ⟨_, exec_command_does (by simp [plainCommands]) h (hdo.trans (congrArg (State.mbDone · 0) hrec)),
      ⟨rfl, rfl, congrArg Mailbox.tag hmb⟩, State.vd?_onVd_of_eq hv' _⟩
  · intro s tag v h hvd hv hstate hqi hgangs hwarps
    obtain ⟨mgw, mgDrop, out, target, hrec⟩ := State.vdRecord_reclock_eq (s :=
      (((((s.accepted tag.toNat).onVd (s.argN 0) fun v => { v with state := 3 }).mbWaits
        (.saves (s.argN 0) v.evicted)).takeClusters v.config.secure []).onVd (s.argN 0)
          fun w => { w.evicted with config := v.config, hint := none })) (vd := s.argN 0) hqi 1
    exact ⟨_, _, exec_command_does (by simp [plainCommands]) h
      ((State.doVdEvict_eq (s := s.accepted tag.toNat) hvd hv hstate hgangs hwarps).trans (congrArg (State.mbDone · 0) hrec)),
      ⟨rfl, rfl, rfl⟩, State.vd?_onVd_of_eq (State.vd?_onVd_of_eq (s := s) hv _) _, rfl, rfl, rfl, rfl⟩
  · intro s tag v h hvd hv hstate hqi hnone halarm
    obtain ⟨t, hdo, hdone, hv'⟩ := State.doVdReset_done (s := s.accepted tag.toNat) hvd hv hstate hnone halarm hqi rfl
    exact ⟨t, _, exec_command_does (by simp [plainCommands]) h hdo, hdone, hv', rfl, rfl, rfl⟩
  · intro s tag v h hvd hv hstate hnone
    exact ⟨_, _, exec_command_does (by simp [plainCommands]) h
      (State.doVdDestroy_eq (s := s.accepted tag.toNat) hvd hv hstate hnone), rfl, rfl,
      State.vd?_onVd_of_eq (s := s.accepted tag.toNat) hv _, rfl, fun q x hx => State.unbindAll_unbound _ _ hx⟩
  · intro s vd hwait hqi
    have hexec := exec_vdScrubComplete hwait
    have hread := State.scrubbed_read s vd
    have hgone := State.scrubbed_vd s vd
    have hqi' : (s.scrubbed vd).firstQi vd = none := hqi
    generalize s.scrubbed vd = u at hexec hread hgone hqi'
    obtain ⟨mgw, mgDrop, out, target, hrec⟩ := State.vdRecord_reclock_eq hqi' 0
    rw [hrec] at hexec
    refine ⟨_, hexec, rfl, hgone, fun g hg a hlo hhi => ?_, fun a hout => ?_⟩
    · exact (hread a).trans (if_pos ⟨g, hg, hlo, hhi⟩)
    · refine (hread a).trans (if_neg ?_)
      rintro ⟨g, hg, hlo, hhi⟩
      have := hout g hg
      omega

end Sys2Proof.Machine
end

section
/-! Answers of the host and of peers, requests of peers and link errors (R226, R446, R449, R450, R452, R454). -/

namespace Sys2Proof.Machine

/-! ### Answers -/

/-- An answer comes from the host or from a peer. -/
def Loc.answeredBy (l : Loc) (peer : Bool) : Bool := match l with | .peer _ _ _ => peer | .host _ _ => !peer | .dev _ => false

section
variable {s : State} {id : Nat} {e : Ext} {peer : Bool} (he : look s.exts id = some e) (hloc : e.loc.answeredBy peer = true)
include he hloc

theorem State.answered_error (cls : Nat) : s.answered id peer (.error cls) = s.answerExt id e (.error cls) := by
  rw [State.answered, he]
  exact if_pos (Bool.and_eq_true_iff.mpr ⟨hloc, rfl⟩)

theorem State.answered_ok {data : List Byte} (hlen : data.length = e.kind.size) :
    s.answered id peer (.ok data) = s.answerExt id e (.ok data) := by
  rw [State.answered, he]
  exact if_pos (Bool.and_eq_true_iff.mpr ⟨hloc, beq_iff_eq.mpr hlen⟩)

end

/-- An answer for a queue, whose wait has other requests still, is kept with the queue. -/
theorem State.answerExt_queue {s : State} {id q : Nat} {x : Qi} {e : Ext} (data : List Byte) (hagent : e.agent = .queue q)
    (hruns : s.runs e.ctx = true) (hx : s.qi? q = some x)
    (hmore : ((drop s.exts id).any fun y => y.2.group == e.group) = true) : ∃ t : State,
      s.answerExt id e (.ok data) = t ∧ t.qi? q = some { x with extData := (e.loc, data) :: x.extData } ∧
      t.exts = drop s.exts id ∧ t.mem = s.mem := by
  have hruns' : State.runs { s with exts := drop s.exts id } e.ctx = true := hruns
  refine ⟨({ s with exts := drop s.exts id } : State).onQi q fun x => { x with extData := (e.loc, data) :: x.extData }, ?_,
    State.qi?_onQi_of_eq (s := { s with exts := drop s.exts id }) hx _, rfl, rfl⟩
  simp only [State.answerExt, hruns', if_true, hagent]
  exact if_pos hmore

/-! ### Requests of peers -/

/-- A first request of a peer, with nothing of it known. -/
def Inbound.new (r : PeerRequest) : Inbound := { req := r, wait := .none, answers := [], extData := [], extErr := [] }

/-- A request of a peer with none before it is tried at once. -/
theorem exec_cihamInboundRequest {s : State} (hnone : s.inbound = []) (r : PeerRequest) : exec (.cihamInboundRequest r) s =
    .next (({ s with nextId := s.nextId + 1, inbound := [(s.nextId, Inbound.new r)] } : State).peerTry s.nextId
      (Inbound.new r)) := by
  simp only [exec, execCihamInboundRequest, hnone, List.find?_nil, State.fresh]
  rfl

theorem State.peerTry_hidden {s : State} {x : Inbound} (h : s.exposed x.req = none) (id : Nat) :
    s.peerTry id x = s.peerAnswer id x.req.endpoint 1 [] := by
  simp only [State.peerTry, h]

theorem State.peerTry_read {s : State} {x : Inbound} {id c h n : Nat} {bs : List Byte} (hop : x.req.op = .read n)
    (hexp : s.exposed x.req = some (c, h))
    (hread : s.hubRead (s.peerWho id c x) h x.req.offset n (peerAlign n) (permits 1) = .ok bs) :
    s.peerTry id x = s.peerAnswer id x.req.endpoint 0 bs := by
  simp only [State.peerTry, hexp, hop, hread]

/-! ### Link errors -/

theorem exec_linkModuleFailure {s : State} {link : Nat} (hlink : link ≤ 4) (hup : link < 4 → s.dieUp link = true)
    (hmodules : 13 ≤ s.modules link) :
    exec (.linkModuleFailure link) s = .next { s with training := link :: s.training } := by
  have hthere : ¬ (4 < link ∨ (link < 4 ∧ (!s.dieUp link) = true)) := by
    rintro (h | ⟨h, hdown⟩)
    · omega
    · simp [hup h] at hdown
  have hkeeps : 12 ≤ State.modules { s with training := link :: s.training } link := by
    simp only [State.modules, List.count_cons_self] at hmodules ⊢
    omega
  simp only [exec, execLinkModuleFailure, if_neg hthere, if_pos hkeeps]

/-- With no VD resident, a link that has trained again is recorded in the management ring only. -/
theorem exec_linkRetrainComplete {s : State} {link : Nat} (htraining : s.training.contains link = true)
    (hmodules : 12 ≤ s.modules link) (hres : s.residents = []) : ∃ vds mb out, exec (.linkRetrainComplete link) s = .next
      { s with links := setNth s.links link (s.modules link), training := s.training.filter (· != link), vds, mb, out } := by
  have hkept : ¬ (!(s.training.contains link) || decide (s.modules link < 12)) = true := by
    rw [htraining, decide_eq_false (by omega)]
    exact Bool.false_ne_true
  rw [show exec (.linkRetrainComplete link) s = execLinkRetrainComplete link s from rfl, execLinkRetrainComplete, if_neg hkept]
  extract_lets n old u r told v
  have htold : told = [] := by
    show u.residents.filter _ = []
    rw [show u.residents = [] from hres, List.filter_nil]
  obtain ⟨mb, out, hpost⟩ := v.postMgmt_eq r
  rw [htold, List.foldl_nil, hpost]
  exact ⟨_, _, _, rfl⟩

/-- Settles O57: an answer goes to the agent that waits, and the rest from the equation of each event. -/
theorem linkEvents : Obligations.LinkEvents := by
  unfold Obligations.LinkEvents
  refine ⟨?_, ?_, ?_, ?_, ?_, fun _ _ => rfl, fun _ _ => rfl, fun s link => exec_linkModuleFailure, ?_⟩
  · intro s id a p e data he hloc
    have hhost : e.loc.answeredBy false = true := by rw [hloc]; rfl
    exact ⟨fun hlen => congrArg Host.Outcome.next (State.answered_ok he hhost hlen),
      congrArg Host.Outcome.next (State.answered_error he hhost _),
      congrArg Host.Outcome.next (State.answered_error he hhost _),
      congrArg Host.Outcome.next (State.answered_error he hhost _)⟩
  · intro s id v n a e data he hloc
    have hpeer : e.loc.answeredBy true = true := by rw [hloc]; rfl
    exact ⟨fun hlen => congrArg Host.Outcome.next (State.answered_ok he hpeer hlen),
      congrArg Host.Outcome.next (State.answered_error he hpeer _),
      congrArg Host.Outcome.next (State.answered_error he hpeer _)⟩
  · intro s id q x e data _ hagent hruns hx hmore
    obtain ⟨t, hanswer, hqi, hexts, hmem⟩ := State.answerExt_queue data hagent hruns hx hmore
    exact ⟨t, hanswer, hqi, hexts ▸ look_drop_self _ _, hmem⟩
  · intro s r hnone hexp
    exact ⟨_, (exec_cihamInboundRequest hnone r).trans (congrArg Host.Outcome.next (State.peerTry_hidden hexp _)), rfl, rfl,
      by simp [State.peerAnswer, State.emit, drop]⟩
  · intro s r c h n bs x hnone hop hx hexp hread
    subst hx
    exact ⟨_, (exec_cihamInboundRequest hnone r).trans (congrArg Host.Outcome.next (State.peerTry_read hop hexp hread)), rfl, rfl⟩
  · intro s link _ htraining hmodules hres
    obtain ⟨vds, mb, out, hexec⟩ := exec_linkRetrainComplete htraining hmodules hres
    exact ⟨_, hexec, rfl, rfl, rfl⟩

end Sys2Proof.Machine
end

section
/-! The steps of a die's warm reset, isolation, and what the monitors report (R428, R439, R457 to R460). -/

namespace Sys2Proof.Machine

/-! ### The directory without a die -/

theorem State.dirForget_unnamed (s : State) (d : Nat) : ∀ e ∈ (s.dirForget d).dir, d ∉ e.2.1 := by
  intro e he
  simp only [State.dirForget, keep, List.mem_filter, mapS, List.mem_map] at he
  obtain ⟨⟨e', -, rfl⟩, -⟩ := he
  by_cases h : e'.2.1.contains d = true
  · simp only [if_pos h, List.mem_filter, bne_self_eq_false, Bool.false_eq_true, and_false, not_false_eq_true]
  · rw [if_neg h]
    simpa using h

/-! ### Steps of a warm reset -/

section
variable {s : State} {d : Nat}

theorem exec_dieUnitsSaved (hstep : (s.die d).step = 2) (hunits : s.unitsOn d = []) :
    exec (.dieUnitsSaved d) s = .next (s.onDie d fun x => { x with step := 4 }) :=
  congrArg Host.Outcome.next (if_pos ⟨hstep, hunits⟩)

theorem State.refusePeers_none (h : ∀ e ∈ s.atoms, e.2.onDie d = false) : s.refusePeers d = s := by
  have hnone : (s.atoms.filter fun e => e.2.onDie d && e.2.isPeer) = [] :=
    List.filter_eq_nil_iff.mpr fun e he => by simp [h e he]
  rw [State.refusePeers, hnone, List.foldl_nil]

section
variable (hstep : (s.die d).step = 4)
include hstep

/-- A die that is not isolated answers what it accepted before step 4 ends. -/
theorem exec_dieQuiesced_whole (hiso : (s.die d).isolated = false) : exec (.dieQuiesced d) s =
    .next (if s.atoms.any fun e => e.2.onDie d then s else s.onDie d fun x => { x with step := 5 }) := by
  rw [show exec (.dieQuiesced d) s = execDieQuiesced d s from rfl, execDieQuiesced, if_neg (not_not.mpr hstep), hiso]
  rfl

/-- An isolated die with nothing unanswered skips step 5. -/
theorem exec_dieQuiesced_isolated (hiso : (s.die d).isolated = true) (hnone : s.unanswered d = [])
    (hatoms : ∀ e ∈ s.atoms, e.2.onDie d = false) : ∃ atoms pending wbuf, exec (.dieQuiesced d) s =
      .next (({ s with atoms, pending, wbuf } : State).onDie d fun x => { x with step := 6 }) := by
  rw [show exec (.dieQuiesced d) s = execDieQuiesced d s from rfl, execDieQuiesced, if_neg (not_not.mpr hstep), hiso]
  refine ⟨keep s.atoms fun _ a => !a.onDie d, s.pending.filter fun p => dieOf p.core != d,
    s.wbuf.filter fun e => dieOf e.core != d, ?_⟩
  simp only [State.refusePeers_none hatoms, hnone]
  rfl

end

/-- Step 5 with nothing of the die to write back. -/
theorem exec_dieWritebackDone (hstep : (s.die d).step = 5) (hpending : s.pending = []) (hwbuf : ∀ e ∈ s.wbuf, dieOf e.core ≠ d) :
    exec (.dieWritebackDone d) s = .next ((s.dirForget d).onDie d fun x => { x with step := 6 }) := by
  have hmine : (s.wbuf.filter fun e => dieOf e.core == d) = [] :=
    List.filter_eq_nil_iff.mpr fun e he => by simp [hwbuf e he]
  rw [show exec (.dieWritebackDone d) s = execDieWritebackDone d s from rfl, execDieWritebackDone, if_neg (not_not.mpr hstep)]
  simp only [State.performFree_nil hpending, hpending, hmine, List.any_nil]
  rfl

theorem exec_dieSelftestDone_ok (hstep : (s.die d).step = 6) :
    exec (.dieSelftestDone d true) s = .next ((s.dirForget d).onDie d fun x => { x with step := 7 }) := by
  rw [show exec (.dieSelftestDone d true) s = execDieSelftestDone d true s from rfl, execDieSelftestDone,
    if_neg (not_not.mpr hstep)]
  rfl

/-- A die that fails its test stays out, and no VD is told. -/
theorem exec_dieSelftestDone_failed (hstep : (s.die d).step = 6) (hres : s.residents = []) : ∃ mgw mgDrop out,
    exec (.dieSelftestDone d false) s = .next
      { (((s.dirForget d).onDie d fun x => { x with step := 0 }).onMb fun m => { m with mgw, mgDrop }) with out } := by
  obtain ⟨mgw, mgDrop, out, hpost⟩ :=
    State.postDie_eq (s := (s.dirForget d).onDie d fun x => { x with step := 0 }) hres d 1 4 0
  rw [show exec (.dieSelftestDone d false) s = execDieSelftestDone d false s from rfl, execDieSelftestDone,
    if_neg (not_not.mpr hstep)]
  exact ⟨mgw, mgDrop, out, congrArg Host.Outcome.next hpost⟩

/-- A die whose links have trained is admitted again, and no VD is told. -/
theorem exec_dieLinkRetrained (hstep : (s.die d).step = 7) (hres : s.residents = []) : ∃ training mb out vds,
    exec (.dieLinkRetrained d true) s = .next { (s.onDie d fun x => { x with up := true, step := 0, isolated := false }) with
      links := setNth s.links d 24, training, mb, out, vds } := by
  rw [show exec (.dieLinkRetrained d true) s = execDieLinkRetrained d true s from rfl, execDieLinkRetrained]
  rw [if_neg (not_not.mpr hstep), if_pos rfl]
  extract_lets admitted trained v
  have hnone : v.residents = [] := by
    simp only [State.residents, List.map_eq_nil_iff, List.filter_eq_nil_iff] at hres ⊢
    intro e he
    obtain ⟨e', he', rfl⟩ := List.mem_map.mp he
    exact hres e' he'
  obtain ⟨mgw, mgDrop, out, hpost⟩ := State.postDie_eq (s := v) hnone d 0 3 ((v.time.toNat - (s.die d).start.toNat) / 1000)
  exact ⟨_, _, _, _, congrArg Host.Outcome.next hpost⟩

theorem exec_dieSaveDeadlineExpiry {u : UnitId} {p : Parts} {x : Preempt} (hp : s.parts u = some p)
    (hx : s.preempts.find? (fun x => x.unit == u) = some x) (hstep : (s.die d).step = 2) (hdie : x.die = some d)
    (hlate : x.start + s.deadline p ≤ s.cycleOf p.core) :
    exec (.dieSaveDeadlineExpiry d u) s = .next (s.stopDie d p.ctx) := by
  simp only [exec, execDieSaveDeadlineExpiry, hp, hx, hstep, hdie, hlate, and_self, if_true]

end

/-! ### Isolation -/

/-- Leases gone, what is kept of them goes too; guard words apart, nothing else changes. -/
theorem State.tidyLeases_guards {s : State} (h : s.Recorded) :
    ∃ leaseBuf probes leaseQ, ({ s with leaseBuf, probes, leaseQ } : State).SameButGuards s.tidyLeases := by
  unfold State.tidyLeases
  extract_lets live freed words
  refine ⟨s.leaseBuf.filter fun e => decide (e.1 ∈ live), s.probes.filter fun p => s.leased p.line,
    s.leaseQ.filter fun l => decide (l.id ∈ live), ?_⟩
  generalize hu : ({ s with
    leaseBuf := s.leaseBuf.filter fun e => decide (e.1 ∈ live), probes := s.probes.filter fun p => s.leased p.line,
    leaseQ := s.leaseQ.filter fun l => decide (l.id ∈ live) } : State) = u
  have hserved := State.serveGuards_frame u words
  have hrec : (u.serveGuards words).Recorded := by
    rw [State.Recorded, hserved.rest.2.1, ← hu]
    exact h
  rw [State.flushAll_recorded hrec]
  exact hserved

/-- A die isolated with no context: what it held is gone from the directory and the write buffers, and its reset begins. -/
theorem exec_dieIsolation {s : State} {d : Nat} (hup : (s.die d).up = true) (hiso : (s.die d).isolated = false)
    (hctxs : s.ctxs = []) (hrec : s.Recorded) : ∃ u : State, u.dies = (s.onDie d fun x => { x with isolated := true }).dies ∧
      u.vds = s.vds ∧ u.wbuf = s.wbuf.filter (fun e => !(dieOf e.core == d && e.held.isSome)) ∧
      exec (.dieIsolation d) s = .next (((u.dirForget d).postDie d 1 1 0).beginReset d 1) := by
  have hgoes : ¬ ((s.die d).isolated || !((s.die d).up || decide (1 ≤ (s.die d).step ∧ (s.die d).step ≤ 5))) = true := by
    simp [hiso, hup]
  rw [show exec (.dieIsolation d) s = execDieIsolation d s from rfl, execDieIsolation]
  rw [if_neg hgoes]
  extract_lets held below objects mine grains lost a b c stopped e
  have hb : b.Recorded := hrec
  obtain ⟨leaseBuf, probes, leaseQ, htidy⟩ := State.tidyLeases_guards hb
  have hframe : c.ctxs = [] := htidy.rest.1.trans hctxs
  have hstopped : stopped = [] := by simp only [stopped, hframe, List.map_nil, List.filter_nil]
  have he : e = { c with lost := [], syncs := mapS c.syncs fun _ o => { o with lost := false } } := by
    simp only [e, hstopped, List.foldl_nil, State.clearLost, hframe, List.any_nil, if_false, Bool.false_eq_true]
  refine ⟨{ b.tidyLeases with lost := [], syncs := mapS b.tidyLeases.syncs fun _ o => { o with lost := false } }, ?_,
    htidy.rest.2.2.1, htidy.rest.2.2.2.2.2.2.2.2.1, ?_⟩
  · show b.tidyLeases.dies = a.dies
    have := congrArg State.dies htidy
    exact this
  · rw [he]
    rfl

/-! ### What the monitors report -/

theorem exec_hbmChannel {s : State} {chan : Nat} {present : Bool} (hchan : chan < 512)
    (h : s.pkg.chanOut.contains chan = present) : exec (.hbmChannelLeaveOrRejoin chan present) s = .next
      (s.onPkg fun p => { p with
        chanOut := if present then p.chanOut.filter (· != chan) else p.chanOut ++ [chan] }).capChange := by
  have hgoes : ¬ (512 ≤ chan ∨ s.pkg.chanOut.contains chan = !present) := by
    rw [h]
    cases present <;> simp <;> omega
  exact congrArg Host.Outcome.next (if_neg hgoes)

/-- An alarm that does not reach a higher level only counts. -/
theorem State.alarm_counts {s : State} {n : Nat}
    (h : alarmLevelOf (satAdd 0xFFFF s.mb.alarmCount n) s.mb.alarmCfg ≤ s.mb.alarmLevel) (src : Nat) :
    (s.alarm src n).mb.alarmCount = satAdd 0xFFFF s.mb.alarmCount n ∧ (s.alarm src n).mb.alarmLevel = s.mb.alarmLevel := by
  obtain ⟨mgw, mgDrop, out, hpost⟩ :=
    (s.onMb fun m => { m with alarmCount := satAdd 0xFFFF m.alarmCount n }).postMgmt_mb
      { source := src, kind := 8, status := 1, fclass := 6, fpc := 0xFFFFFFFF }
  rw [State.alarm, hpost, State.alarmTo, if_pos (by exact h)]
  exact ⟨rfl, rfl⟩

/-- Settles O59: each step from the equation of its event, with the records in the management ring alone. -/
theorem dieEvents : Obligations.DieEvents := by
  unfold Obligations.DieEvents
  refine ⟨fun s d hd => ⟨exec_dieUnitsSaved, ?_, ?_, ?_, ?_, ?_, ?_⟩, fun s d u p x => exec_dieSaveDeadlineExpiry, ?_,
    fun s chan hchan => ⟨fun hout => ?_, fun hin => ?_⟩, fun s hub hhub => congrArg Host.Outcome.next (if_pos hhub),
    fun s src n h => State.alarm_counts h src, fun _ => rfl⟩
  · intro hstep hiso
    have hexec := exec_dieQuiesced_whole hstep hiso
    refine ⟨fun hnone => ?_, fun e he hon => ?_⟩
    · rw [hexec, if_neg (by simpa using hnone)]
    · rw [hexec, if_pos (List.any_eq_true.mpr ⟨e, he, hon⟩)]
  · intro hstep hiso hnone hatoms
    obtain ⟨atoms, pending, wbuf, hexec⟩ := exec_dieQuiesced_isolated hstep hiso hnone hatoms
    exact ⟨_, hexec, congrArg Die.step (State.die_onDie_self (s := { s with atoms, pending, wbuf }) hd _), rfl⟩
  · intro hstep hpending hwbuf
    exact ⟨_, exec_dieWritebackDone hstep hpending hwbuf,
      congrArg Die.step (State.die_onDie_self (s := s.dirForget d) hd _), s.dirForget_unnamed d, rfl⟩
  · intro hstep
    exact ⟨_, exec_dieSelftestDone_ok hstep, congrArg Die.step (State.die_onDie_self (s := s.dirForget d) hd _)⟩
  · intro hstep hres
    obtain ⟨mgw, mgDrop, out, hexec⟩ := exec_dieSelftestDone_failed hstep hres
    have hself := State.die_onDie_self hd fun x => { x with step := 0 }
    exact ⟨_, hexec, congrArg Die.step hself, (congrArg Die.up hself :)⟩
  · intro hstep hres
    obtain ⟨training, mb, out, vds, hexec⟩ := exec_dieLinkRetrained hstep hres
    have hself := State.die_onDie_self hd fun x => { x with up := true, step := 0, isolated := false }
    exact ⟨_, hexec, congrArg Die.up hself, congrArg Die.step hself, congrArg Die.isolated hself, rfl⟩
  · intro s d hd hup hiso hstep hctxs hvds _ hrec
    obtain ⟨u, hdies, huvds, hwbuf, hexec⟩ := exec_dieIsolation hup hiso hctxs hrec
    have hres : (u.dirForget d).residents = [] := by
      show State.residents { u with vds := u.vds } = []
      simp [State.residents, huvds, hvds]
    have hself : (u.dirForget d).die d = { s.die d with isolated := true } :=
      (congrArg (fun l => l.getD d Die.reset) hdies).trans (State.die_onDie_self hd _)
    obtain ⟨mgw, mgDrop, out, hpost⟩ := State.postDie_eq hres d 1 1 0
    rw [hpost] at hexec
    obtain ⟨capGen, mgw', mgDrop', out', clusters, preempts, hreset⟩ := State.beginReset_eq
      (s := { ((u.dirForget d).onMb fun m => { m with mgw, mgDrop }) with out }) (d := d)
      ((congrArg Die.step hself).trans hstep) hres 1
    have hlen : d < (u.dirForget d).dies.length := by
      show d < u.dies.length
      rw [hdies]
      simpa [State.onDie, length_modNth] using hd
    have hdown := State.die_onDie_self hlen fun x => { x with up := false, step := 2, start := u.time }
    refine ⟨_, hexec.trans (congrArg Host.Outcome.next hreset), congrArg Die.up hdown,
      (congrArg Die.isolated hdown).trans (congrArg Die.isolated hself), congrArg Die.step hdown, u.dirForget_unnamed d, ?_⟩
    intro e he
    have he' : e ∈ u.wbuf := he
    rw [hwbuf, List.mem_filter] at he'
    rintro ⟨hcore, hheld⟩
    simp [hcore, hheld] at he'
  · exact ⟨_, exec_hbmChannel hchan (by simpa using hout), rfl, rfl⟩
  · exact ⟨_, exec_hbmChannel hchan (by simpa using hin), rfl, rfl⟩

end Sys2Proof.Machine
end

section
/-! Kill-and-drain of a context, from the frame of what a store performed at its home changes (R43, R440 to R443). -/

namespace Sys2Proof.Machine

/-! ### Stores performed at their homes -/

/-- A state that differs only in what a store performed at its home changes: bytes, check values, directories, what is
buffered of older stores, sync objects, and the lanes that its bytes wake. -/
def State.SameButHome (s t : State) : Prop :=
  { t with mem := s.mem, wbuf := s.wbuf, images := s.images, syncs := s.syncs, dir := s.dir, dieDir := s.dieDir,
           patched := s.patched, syndrome := s.syndrome, warps := s.warps, stamp := s.stamp } = s

theorem State.SameButHome.refl (s : State) : s.SameButHome s := rfl

theorem State.SameButHome.trans {s t u : State} (h : s.SameButHome t) (k : t.SameButHome u) : s.SameButHome u := by
  unfold State.SameButHome at *
  rw [← h, ← k]

theorem State.SameButHome.rest {s t : State} (h : s.SameButHome t) :
    t.ctxs = s.ctxs ∧ t.qis = s.qis ∧ t.vds = s.vds ∧ t.mb = s.mb ∧ t.pkg = s.pkg ∧ t.crews = s.crews ∧ t.pending = s.pending := by
  unfold State.SameButHome at h
  rw [← h]
  exact ⟨rfl, rfl, rfl, rfl, rfl, rfl, rfl⟩

theorem State.SameButHome.foldl {α : Type} {f : State → α → State} (h : ∀ (s : State) a, s.SameButHome (f s a)) (l : List α)
    (s : State) : s.SameButHome (l.foldl f s) := by
  induction l generalizing s with
  | nil => rfl
  | cons a l ih => exact (h s a).trans (ih _)

theorem State.dieTake_sameButHome (s : State) (line die : Nat) (cores : List Nat) :
    s.SameButHome (s.dieTake line die cores) := rfl

theorem State.coreOwn_sameButHome (s : State) (line core : Nat) : s.SameButHome (s.coreOwn line core) := by
  have hdir : s.SameButHome (s.dirWrite line (dieOf core)) := by
    unfold State.dirWrite
    split
    · split <;> rfl
    · rfl
  exact hdir.trans (State.dieTake_sameButHome _ _ _ _)

theorem State.patchLine_sameButHome (s : State) (core pa n : Nat) : s.SameButHome (s.patchLine core pa n) := by
  unfold State.patchLine
  split
  · rfl
  · unfold State.notePatch
    split <;> rfl

theorem State.publishAt_sameButHome (s : State) (e : WEntry) (pa : Nat) : s.SameButHome (s.publishAt e pa) := by
  unfold State.publishAt
  extract_lets u v
  have hv : s.SameButHome v := rfl
  exact ((hv.trans (v.coreOwn_sameButHome _ _)).trans (State.patchLine_sameButHome _ _ _ _)).trans rfl

theorem State.settleHeld_sameButHome (s : State) (e : WEntry) : s.SameButHome (s.settleHeld e) := by
  unfold State.settleHeld
  split
  · rfl
  · split
    · split
      · exact s.publishAt_sameButHome _ _
      · rfl
    · rfl

theorem State.dropWrites_sameButHome (s : State) (c : Nat) : s.SameButHome (s.dropWrites c) :=
  (State.SameButHome.foldl State.settleHeld_sameButHome _ s).trans rfl

/-! ### Engines of a kill -/

theorem State.scrub_ctxs (s : State) (c n : Nat) : (s.scrub c n).ctxs = s.ctxs := by
  unfold State.scrub
  split
  case h_4 => exact (State.dropWrites_sameButHome _ c).rest.1
  all_goals rfl

theorem keep_ne {α : Type} (m : SMap α) (f : α → Nat) (c : Nat) : ∀ e ∈ keep m fun _ x => f x != c, f e.2 ≠ c := by
  intro e he
  have := (List.mem_filter.mp he).2
  simpa using this

/-- A scrub leaves nothing of the context in its engine. -/
theorem State.scrub_clean (s : State) (c n : Nat) :
    (n = 2 → (∀ e ∈ (s.scrub c n).warps, e.2.ctx ≠ c) ∧ (∀ e ∈ (s.scrub c n).crews, e.2.ctx ≠ c) ∧
      ∀ e ∈ (s.scrub c n).gangs, e.2.ctx ≠ c) ∧
    (n = 3 → (∀ e ∈ (s.scrub c n).wbuf, e.ctx ≠ c) ∧ ∀ e ∈ (s.scrub c n).pending, e.ctx ≠ c) ∧
    (n = 4 → ∀ e ∈ (s.scrub c n).atoms, e.2.ctx ≠ c) ∧ (n = 8 → ∀ e ∈ (s.scrub c n).tlb, e.ctx ≠ c) ∧
    (n = 9 → ∀ e ∈ (s.scrub c n).exts, e.2.ctx ≠ c) := by
  refine ⟨?_, ?_, ?_, ?_, ?_⟩
  · rintro rfl
    exact ⟨keep_ne _ _ _, keep_ne _ _ _, keep_ne _ _ _⟩
  · rintro rfl
    refine ⟨fun e he => ?_, fun e he => ?_⟩
    · simpa using (List.mem_filter.mp he).2
    · have hpending := (State.dropWrites_sameButHome { s with pending := s.pending.filter fun e => e.ctx != c } c).rest.2.2.2.2.2.2
      simp only [State.scrub, hpending] at he
      simpa using (List.mem_filter.mp he).2
  · rintro rfl
    exact keep_ne _ _ _
  · rintro rfl e he
    simpa using (List.mem_filter.mp he).2
  · rintro rfl
    exact keep_ne _ _ _

section
variable {s : State} {c n : Nat} {x : Ctx} {k : Kill} (hx : s.ctx? c = some x) (hk : x.kill = some k)
include hx hk

/-- An engine that is not the last is scrubbed and marked. -/
theorem State.engineDone_more (hmore : k.done ||| 2 ^ n ≠ 1023) :
    s.engineDone c n = (s.scrub c n).onKill c (fun k => { k with done := k.done ||| 2 ^ n }) ∧
      (s.engineDone c n).ctx? c = some { x with kill := some { k with done := k.done ||| 2 ^ n } } := by
  have hscrubbed : (s.scrub c n).ctx? c = some x := by rw [State.ctx?, State.scrub_ctxs]; exact hx
  have hmarked : ((s.scrub c n).onKill c (fun k => { k with done := k.done ||| 2 ^ n })).ctx? c =
      some { x with kill := some { k with done := k.done ||| 2 ^ n } } := by
    rw [State.onKill, State.ctx?_onCtx_of_eq hscrubbed, hk]
    rfl
  have heq : s.engineDone c n = (s.scrub c n).onKill c (fun k => { k with done := k.done ||| 2 ^ n }) := by
    simp only [State.engineDone, hmarked, Option.bind_some, hmore, if_false]
  exact ⟨heq, heq ▸ hmarked⟩

theorem exec_engineDrainDone (hn : n < 10) (hdone : k.done.testBit n = false) (hdrained : s.drained c n = true) :
    exec (.engineDrainDone c n) s = .next (s.engineDone c n) := by
  have hten : ¬ (n = 10 ∧ k.done = 1023) := by omega
  simp only [exec, execEngineDrainDone, hx, Option.bind_some, hk, if_neg hten, hn, hdone, hdrained, and_self, if_true]

/-- The end of a kill that no command waits for. -/
theorem exec_engineDrainDone_last (hdone : k.done = 1023) (hdrained : s.drained c 10 = true) (hwait : s.mb.wait = none) :
    ∃ lost syncs, exec (.engineDrainDone c 10) s = .next { s.killDone c k with lost, syncs } := by
  have hend : s.killEnd c k = ((s.killDone c k).clearLost).finishKills := if_pos hdrained
  obtain ⟨lost, syncs, hclear⟩ : ∃ lost syncs, (s.killDone c k).clearLost = { s.killDone c k with lost, syncs } := by
    unfold State.clearLost
    split
    · exact ⟨s.lost, s.syncs, rfl⟩
    · exact ⟨_, _, rfl⟩
  have hfinish : (s.killDone c k).clearLost.finishKills = { s.killDone c k with lost, syncs } := by
    have hwait' : ({ s.killDone c k with lost, syncs } : State).mb.wait = none := hwait
    rw [hclear, State.finishKills, hwait']
  refine ⟨lost, syncs, ?_⟩
  simp only [exec, execEngineDrainDone, hx, Option.bind_some, hk, hdone, and_self, if_true, hend, hfinish]

theorem exec_killDrainTimeout (hn : n < 10) (hdone : k.done.testBit n = false) (hdrained : s.drained c n = false)
    (hlate : k.start.toNat + drainTimeout n ≤ s.time.toNat) (hawaited : s.killAwaited c = false) :
    exec (.killDrainTimeout c n) s = .next (((s.escalate c n).onKill c fun k =>
      { k with reset := k.reset ||| 2 ^ n }).engineDone c n) := by
  simp only [exec, execKillDrainTimeout, hx, Option.bind_some, hk, hn, hdone, hdrained, hlate, hawaited, and_self, if_true,
    Bool.false_eq_true, if_false]

end

/-- Settles O60: the kill of a stop, one engine's scrub and mark, and the end of the kill. -/
theorem killAndDrain : Obligations.KillAndDrain := by
  unfold Obligations.KillAndDrain
  refine ⟨?_, fun s c cls src qual pc fa unit hruns => ?_, ?_, ?_, fun s c n x k hx hk => exec_killDrainTimeout hx hk⟩
  · intro s c cls src qual pc fa unit hruns hworld hkilled hrec
    obtain ⟨x, hx⟩ : ∃ x, s.ctx? c = some x := by
      unfold State.runs at hruns
      split at hruns
      · exact ⟨_, ‹_›⟩
      · contradiction
    obtain ⟨u, hu, hframe, hstop⟩ := State.stop_kills hx hruns cls src qual pc fa unit
    have hu' : u.Recorded := by
      have hqis : u.qis = s.qis := (congrArg State.qis hframe :)
      rw [State.Recorded, hqis]
      exact hrec
    rw [hstop, if_neg hworld, State.killStep_ctx hu', hu]
    exact ⟨_, rfl, if_neg hkilled, rfl, rfl, rfl, rfl, rfl⟩
  · rw [State.stop, hruns]
    rfl
  · intro s c n x k hx hk hn hdone hdrained hmore
    obtain ⟨heq, hctx⟩ := State.engineDone_more hx hk hmore
    refine ⟨_, exec_engineDrainDone hx hk hn hdone hdrained, hctx, ?_⟩
    rw [heq]
    exact State.scrub_clean s c n
  · intro s c x k hx hk hdone hdrained hwait
    obtain ⟨lost, syncs, hexec⟩ := exec_engineDrainDone_last hx hk hdone hdrained hwait
    exact ⟨_, hexec, State.ctx?_onCtx_of_eq hx _⟩

end Sys2Proof.Machine
end

section
/-! Walks, faults, page requests and invalidations (R409, R411 to R414, R418 to R420). -/

namespace Sys2Proof.Machine

/-! ### Waiters and records -/

theorem State.Recorded.onWaiters {s : State} (h : s.Recorded) (g : Wait → List Answer → Wait × List Answer) :
    (s.onWaiters g).Recorded := by
  intro e he
  obtain ⟨e', he', rfl⟩ := List.mem_map.mp he
  exact h e' he'

/-- With no record held back, units replayed touch nothing but the threads and engines that wait. -/
theorem State.wakePark_recorded {s : State} (h : s.Recorded) (fid hb : Option Nat) (c page : Nat) (host fatal : Bool) :
    (s.wakePark fid hb c page host fatal).hubs = s.hubs ∧ (s.wakePark fid hb c page host fatal).walks = s.walks := by
  rw [State.wakePark, State.flushAll_recorded (h.onWaiters _)]
  exact ⟨rfl, rfl⟩

/-! ### Walks (R409, R411) -/

section
variable {s : State} {id : Nat} {w : Walk} (hw : look s.walks id = some w)
include hw

section
variable (hhost : w.host = false) (hphase : w.phase = 0)
include hhost hphase

theorem exec_pageWalkComplete_found {tr : Walked} (h : s.walkTables w.ctx w.page w.acc = .ok tr) :
    exec (.pageWalkComplete id) s = .next ((if w.stale then s.dropWalk id else (s.dropWalk id).tlbFill
      (TlbEntry.mk w.ctx w.page false tr.frame tr.secure (tr.rights1 &&& tr.rights2))).wakeWalk id none) := by
  simp only [exec, execPageWalkComplete, hw, hhost, hphase, h, Bool.false_eq_true, ne_eq, not_true_eq_false, or_self, if_false]

theorem exec_pageWalkComplete_failed {f : TrFail} (h : s.walkTables w.ctx w.page w.acc = .error f) (hf : f ≠ .hostBacked) :
    exec (.pageWalkComplete id) s = .next ((s.dropWalk id).wakeWalk id
      (some { ctx := w.ctx, page := w.page, acc := w.acc, host := false, out := f })) := by
  simp only [exec, execPageWalkComplete, hw, hhost, hphase, h, Bool.false_eq_true, ne_eq, not_true_eq_false, or_self, if_false]

end

section
variable (hhost : w.host = true)
include hhost

theorem exec_atsTranslationCompletion_served (hphase : w.phase = 0) (hfresh : w.stale = false) {rights : Nat}
    (hrights : covers rights (needRights w.acc) = true) (frame : Nat) :
    exec (.atsTranslationCompletion id (some (frame, rights))) s =
      .next ((((s.dropWalk id).tlbFill (TlbEntry.mk w.ctx w.page true frame false rights)).wakeWalk id none).wakePark none
        (some id) w.ctx w.page true false) := by
  simp only [exec, execAtsTranslationCompletion, hw, hhost, hphase, hfresh, hrights, Bool.not_true, Bool.false_eq_true, ne_eq,
    not_true_eq_false, or_self, if_false, if_true]

theorem exec_atsTranslationCompletion_none (hphase : w.phase = 0) : exec (.atsTranslationCompletion id none) s =
    .next ((s.askPage id w).wakeWalk id
      (some { ctx := w.ctx, page := w.page, acc := w.acc, host := true, out := .hostBacked })) := by
  simp only [exec, execAtsTranslationCompletion, hw, hhost, hphase, Bool.not_true, Bool.false_eq_true, ne_eq,
    not_true_eq_false, or_self, if_false]

section
variable (hphase : w.phase = 1)
include hphase

theorem exec_pageRequestGroupResponse_success : exec (.pageRequestGroupResponse id .success) s =
    .next (((s.dropWalk id).wakePark none (some id) w.ctx w.page true false).sendHeld w.hub) := by
  simp only [exec, execPageRequestGroupResponse, hw, hhost, hphase, Bool.not_true, Bool.false_eq_true, ne_eq,
    not_true_eq_false, or_self, if_false]

theorem exec_pageRequestGroupResponse_invalid : exec (.pageRequestGroupResponse id .invalid) s =
    .next (((s.dropWalk id).wakePark none (some id) w.ctx w.page true true).sendHeld w.hub) := by
  simp only [exec, execPageRequestGroupResponse, hw, hhost, hphase, Bool.not_true, Bool.false_eq_true, ne_eq,
    not_true_eq_false, or_self, if_false]

/-- Response Failure ends every page request of the hub; here it is the only walk. -/
theorem exec_pageRequestGroupResponse_failure (hwalks : s.walks = [(id, w)]) : exec (.pageRequestGroupResponse id .failure) s =
    .next ((({ s.onHub w.hub fun h => { h with priOff := true } with walks := [] } : State)).wakePark none (some id) w.ctx w.page
      true true) := by
  have hout : (s.walks.filter fun e => e.2.host && e.2.phase == 1 && e.2.hub == w.hub) = [(id, w)] := by
    simp [hwalks, hhost, hphase]
  have hdrop : State.dropWalk (s.onHub w.hub fun h => { h with priOff := true }) id =
      { s.onHub w.hub fun h => { h with priOff := true } with walks := [] } := by
    simp [State.dropWalk, State.onHub, hwalks, drop]
  simp only [exec, execPageRequestGroupResponse, hw, hout, hhost, hphase, Bool.not_true, Bool.false_eq_true, ne_eq,
    not_true_eq_false, or_self, if_false, List.foldl_cons, List.foldl_nil, hdrop]

end
end

/-! ### Host-backed pages (R418) -/

section
variable {v : Vd} (hhost : w.host = false) (hphase : w.phase = 2) (hv : s.vd? (s.vdOf w.ctx) = some v)
include hhost hphase hv

theorem exec_hbPageServiceComplete_backed (hleaf : s.hbLeaf (s.vdOf w.ctx) v w.ctx w.page = none) (victims : List Nat)
    (data : List Byte) : exec (.hbPageServiceComplete id victims none data) s = .next (s.serviced id w false) := by
  simp only [exec, execHbPageServiceComplete, hw, hv, hhost, hphase, hleaf, Option.bind_none, Bool.false_eq_true, ne_eq,
    not_true_eq_false, or_self, if_false]

section
variable {ipa level at_ e : Nat} (hleaf : s.hbLeaf (s.vdOf w.ctx) v w.ctx w.page = some ipa)
  (hentry : leaf2 s.mem [0, 1, 2, 3] (Config.stage2Root (s.vdOf w.ctx)) ipa = some (level, at_, e))
include hleaf hentry

theorem exec_hbPageServiceComplete_regionless (hnone : s.regionless (s.vdOf w.ctx) (2 ^ (39 - 9 * level)) = true)
    (data : List Byte) : exec (.hbPageServiceComplete id [] none data) s = .next (s.serviced id w true) := by
  simp only [exec, execHbPageServiceComplete, hw, hv, hhost, hphase, hleaf, hentry, hnone, Option.bind_some, Option.map_some,
    Bool.false_eq_true, ne_eq, not_true_eq_false, or_self, if_false, if_true]

theorem exec_hbPageServiceComplete_fetched {r : Nat} {data : List Byte} (hpending : s.pending = [])
    (hfree : s.regionFree (s.vdOf w.ctx) r (2 ^ (39 - 9 * level)) = true) (hlen : data.length = 2 ^ (39 - 9 * level)) :
    exec (.hbPageServiceComplete id [] (some r) data) s =
      .next ((((s.storeFresh r data).store at_ (bytesOf 8 (setEntry e (r / 4096) true))).onVd (s.vdOf w.ctx) fun v =>
        { v with slots := put v.slots (ipa / 2 ^ (39 - 9 * level) * 2 ^ (39 - 9 * level) / 4096) (bits e 51 12) }).serviced id w
          false) := by
  simp only [exec, execHbPageServiceComplete, hw, hv, hhost, hphase, hleaf, hentry, hfree, hlen, Option.bind_some,
    Option.map_some, State.performFree_nil hpending, List.all_nil, List.foldl_nil, Bool.false_eq_true, ne_eq,
    not_true_eq_false, or_self, if_false, if_true, and_self]

end
end
end

/-! ### The fault queue (R414) -/

/-- With a free identifier and room in the ring, a fault opens one. -/
theorem State.openFid_room {s : State} {vd : Nat} {v : Vd} (hv : s.vd? vd = some v) (hids : v.fids.length < 1024)
    (hroom : v.fqFull = false) (f : Fid) : ∃ id t, s.openFid vd f = some (id, t) ∧
      t.vd? vd = some { v with fids := put v.fids id { f with index := v.fqw }, fqw := (v.fqw + 1) % 2 ^ v.config.fqLog2 } := by
  have hopen : ¬ (v.fids.length ≥ 1024 ∨ v.fqFull = true) := by simp [hids, hroom]
  have hstored : (s.draw.2.store (Config.fqPa vd + 32 * v.fqw)
      (faultBytes s.draw.2 (v.pickFid s.draw.1) { f with index := v.fqw })).vd? vd = some v := by
    rw [State.vd?, (State.store_onlyStored _ _ _).rest.1]
    exact hv
  refine ⟨v.pickFid s.draw.1, _, ?_, State.vd?_onVd_of_eq hstored fun v => { v with
    fids := put v.fids _ { f with index := v.fqw }, fqw := (v.fqw + 1) % 2 ^ v.config.fqLog2 }⟩
  simp only [State.openFid, hv, if_neg hopen]

/-- Naming the identifier that parked units wait for changes only the waits of a VD's invalidations. -/
theorem State.namePark_vd {s : State} {vd : Nat} {v : Vd} (hv : s.vd? vd = some v) (a : Agent) (key : Nat) :
    ∃ invals, (s.namePark a key).vd? vd = some { v with invals } := by
  cases a with
  | control vd' =>
    simp only [State.namePark, State.onVd, State.vd?] at hv ⊢
    by_cases h : vd = vd'
    · subst h
      rw [look_adjust_self, hv]
      exact ⟨_, rfl⟩
    · rw [look_adjust_ne _ _ h, hv]
      exact ⟨v.invals, rfl⟩
  | lane core slot l =>
    simp only [State.namePark]
    split <;> exact ⟨v.invals, hv⟩
  | _ => exact ⟨v.invals, hv⟩

/-- A deferred fault that no open one takes in opens its own once there is room. -/
theorem exec_faultRecordDeferredWrite {s : State} {vd : Nat} {v : Vd} {a : Agent} {f : Fid} {r : List (Agent × Fid)}
    (hv : s.vd? vd = some v) (hwaiting : v.waiting = (a, f) :: r) (hids : v.fids.length < 1024) (hroom : v.fqFull = false)
    (hvd : s.vdOf f.ctx = vd) (hnew : v.fids.find? (fun e => e.2.ctx == f.ctx && e.2.page == f.va / 4096) = none) :
    ∃ t v', exec (.faultRecordDeferredWrite vd) s = .next t ∧ t.vd? vd = some v' ∧ v'.waiting = r ∧
      ∃ e ∈ v'.fids, e.2.ctx = f.ctx ∧ e.2.page = f.va / 4096 ∧ e.2.cause = f.cause := by
  have hv' := State.vd?_onVd_of_eq hv fun v => { v with waiting := r }
  have hvd' : (s.onVd vd fun v => { v with waiting := r }).vdOf f.ctx = vd := hvd
  obtain ⟨id, t, hopen, ht⟩ := State.openFid_room hv' hids hroom
    { ctx := f.ctx, page := f.va / 4096, va := f.va, access := f.access, cause := f.cause, eng := f.eng, core := f.core,
      merged := 0, time := s.time, index := 0 }
  have hpost : (s.onVd vd fun v => { v with waiting := r }).postFault a f.ctx f.va f.access f.cause f.eng f.core =
      (some (fidKey vd id), t) := by
    simp only [State.postFault, hvd', hv', hnew]
    rw [show (s.onVd vd fun v => { v with waiting := r }).time = s.time from rfl, hopen]
  obtain ⟨invals, hnamed⟩ := State.namePark_vd ht a (fidKey vd id)
  refine ⟨_, _, ?_, hnamed, rfl, (id, _), look_mem (look_put_self _ _ _), rfl, rfl, rfl⟩
  have hgoes : ¬ (v.fids.length ≥ 1024 ∨ v.fqFull = true) := by simp [hids, hroom]
  simp only [exec, execFaultRecordDeferredWrite, hv, hwaiting, hgoes, not_false_eq_true, or_true, if_true, hpost]

/-! ### Page requests (R419) -/

theorem State.askPage_may {s : State} {w : Walk} (h : s.mayAsk w.hub = true) (id : Nat) :
    s.askPage id w = { s with walks := put s.walks id { w with phase := 1 }, out := .pageRequest id :: s.out } := by
  rw [State.askPage, if_pos h]
  rfl

/-- Page requests sent later change the walks and what goes out. -/
theorem State.sendHeld_eq (s : State) (hub : Nat) : ∃ walks out, s.sendHeld hub = { s with walks, out } := by
  unfold State.sendHeld
  refine List.foldlRecOn (motive := fun t : State => ∃ walks out, t = { s with walks, out }) _ _ ⟨s.walks, s.out, rfl⟩ ?_
  rintro _ ⟨walks, out, rfl⟩ e _
  split
  · exact ⟨_, _, rfl⟩
  · exact ⟨walks, out, rfl⟩

theorem State.hub_onHub {s : State} {hub : Nat} {h : Hub} (hh : s.hubs[hub]? = some h) (g : Hub → Hub) :
    (s.onHub hub g).hubs[hub]? = some (g h) := by
  simp [State.onHub, getElem?_modNth, hh]

/-! ### Invalidations (R412, R413, R420) -/

theorem exec_atsInvalidationRequest {s : State} {hub : Nat} {h : Hub} (hh : s.hubs[hub]? = some h) (hroom : h.invals.length < 32)
    (pasid page pages : Nat) : exec (.atsInvalidationRequest hub pasid page pages) s = .next
      ((s.invalidate (fun e => e.host && decide (page ≤ e.page ∧ e.page < page + pages) && s.hasPasid e.ctx pasid)
        fun w => w.host && decide (page ≤ w.page ∧ w.page < page + pages) && s.hasPasid w.ctx pasid).onHub hub fun h =>
          { h with invals := h.invals ++ [(pasid, page, pages)] }) := by
  have hfew : (s.hubs.map fun h => h.invals.length).getD hub 32 < 32 := by
    simpa [List.getD_eq_getElem?_getD, hh] using hroom
  exact congrArg Host.Outcome.next (if_pos hfew)

/-- The Invalidation Completion goes out once no request to the host for the PASID is outstanding. -/
theorem exec_atsInvalidationCompletion {s : State} {hub pasid page pages : Nat} {h : Hub} {r : List (Nat × Nat × Nat)}
    (hh : s.hubs[hub]? = some h) (hinvals : h.invals = (pasid, page, pages) :: r) : exec (.atsInvalidationCompletion hub) s =
      .next (if s.exts.any (fun e => match e.2.loc with | .host p _ => p == pasid | _ => false) then s
        else (s.onHub hub fun h => { h with invals := h.invals.drop 1 }).emit (.invalidationCompletion hub)) := by
  have hoped : (s.hubs.map fun h => h.invals).getD hub [] = (pasid, page, pages) :: r := by
    simp [List.getD_eq_getElem?_getD, hh, hinvals]
  simp only [exec, execAtsInvalidationCompletion, hoped] <;> rfl

section
variable {s : State} {vd : Nat} {v : Vd} {x : Inval} {xs : List Inval} {b : List Byte} (hv : s.vd? vd = some v)
  (hinvals : v.invals = x :: xs) (hready : x.wait = Wait.none) (hmb : ∀ c, s.mb.wait ≠ some (.inval c))
  (hread : s.hubRead (s.controlWho vd x) x.handle x.off 32 32 (fun e => Entry.pr e && Entry.pw e) = .ok b)
include hv hinvals hready hmb hread

/-- The descriptor of the oldest invalidation has been read. -/
theorem exec_invalidationComplete : exec (.invalidationComplete vd) s = .next (match s.invalOf vd b with
    | none => s.writeDone vd x 2
    | some (c, range) =>
      if ((s.invalidateCtx c range).performFree fun p => p.ctx == c).quiet c then
        ((s.invalidateCtx c range).performFree fun p => p.ctx == c).writeDone vd x 1
      else (s.invalidateCtx c range).performFree fun p => p.ctx == c) := by
  cases hwait : s.mb.wait with
  | none =>
    simp only [exec, execInvalidationComplete, hwait, hv, Option.bind_some, hinvals, List.head?_cons, hready, hread, ne_eq,
      not_true_eq_false, if_false] <;> rfl
  | some w =>
    cases w with
    | inval c => exact absurd hwait (hmb c)
    | _ =>
      simp only [exec, execInvalidationComplete, hwait, hv, Option.bind_some, hinvals, List.head?_cons, hready, hread, ne_eq,
        not_true_eq_false, if_false] <;> rfl

end

theorem State.quiet_invalidateCtx (s : State) (c : Nat) (range : Option (Nat × Nat)) :
    (s.invalidateCtx c range).quiet c = s.quiet c := rfl

/-- Settles O56: the equation of each event, and what it leaves of the table it changes. -/
theorem translationEvents : Obligations.TranslationEvents := by
  unfold Obligations.TranslationEvents
  refine ⟨?_, ?_, fun s vd v a f r => exec_faultRecordDeferredWrite, ?_, ?_, ?_, ?_, ?_, ?_, ?_, ?_, ?_, ?_, ?_⟩
  · intro s id w hw hhost hphase
    refine ⟨fun tr htr hfresh => ?_, fun tr htr hstale => ?_, fun f => exec_pageWalkComplete_failed hw hhost hphase⟩
    · rw [exec_pageWalkComplete_found hw hhost hphase htr, hfresh]
      rfl
    · rw [exec_pageWalkComplete_found hw hhost hphase htr, hstale]
      rfl
  · intro s e
    refine ⟨rfl, rfl, fun x hx => ?_⟩
    rcases List.mem_cons.mp hx with rfl | hx
    · exact .inl rfl
    · exact .inr (List.mem_of_mem_filter hx)
  · intro s id w hw hhost hphase hfresh
    exact ⟨fun frame rights hrights => exec_atsTranslationCompletion_served hw hhost hphase hfresh hrights frame,
      exec_atsTranslationCompletion_none hw hhost hphase⟩
  · intro s id w hmay
    rw [State.askPage_may hmay]
    exact ⟨rfl, look_put_self _ _ _⟩
  · intro s id w hw hhost hphase
    exact ⟨exec_pageRequestGroupResponse_success hw hhost hphase, exec_pageRequestGroupResponse_invalid hw hhost hphase⟩
  · intro s id w h hwalks hhost hphase hh hrec
    have hw : look s.walks id = some w := by simp [hwalks, look]
    obtain ⟨hhubs, hnone⟩ := State.wakePark_recorded
      (s := { s.onHub w.hub fun h => { h with priOff := true } with walks := [] }) hrec none (some id) w.ctx w.page true true
    exact ⟨_, _, exec_pageRequestGroupResponse_failure hw hhost hphase hwalks,
      (congrArg (·[w.hub]?) hhubs).trans (State.hub_onHub hh _), rfl, hnone⟩
  · intro s hub h hh
    obtain ⟨walks, out, hsent⟩ := (s.onHub hub fun h => { h with priOff := false }).sendHeld_eq hub
    exact ⟨_, _, congrArg Host.Outcome.next hsent, State.hub_onHub hh _, rfl, rfl⟩
  · intro s hub pasid page pages h hh hroom
    refine ⟨_, exec_atsInvalidationRequest hh hroom pasid page pages, State.hub_onHub hh _, fun e he => ?_, fun e he hdev => ?_⟩
    · obtain ⟨hmem, hkept⟩ := List.mem_filter.mp he
      refine ⟨hmem, ?_⟩
      rintro ⟨hhost, hlo, hhi, hpasid⟩
      simp [hhost, hlo, hhi, hpasid] at hkept
    · exact List.mem_filter.mpr ⟨he, by simp [hdev]⟩
  · intro s hub pasid page pages h r hh hinvals
    have hexec := exec_atsInvalidationCompletion hh hinvals
    refine ⟨fun hnone => ?_, fun e he a hloc => ?_⟩
    · rw [hexec, hnone]
      refine ⟨_, rfl, (State.hub_onHub hh _).trans ?_, rfl⟩
      simp [hinvals]
    · rw [hexec, if_pos (List.any_eq_true.mpr ⟨e, he, by simp [hloc]⟩)]
  · intro s vd v x xs b hv hinvals hready hmb hread
    have hexec := exec_invalidationComplete hv hinvals hready hmb hread
    refine ⟨fun hnone => ?_, fun c range hof hpending hquiet => ?_⟩
    · rw [hexec, hnone]
    · have hpending' : (s.invalidateCtx c range).pending = [] := hpending
      rw [hexec, hof]
      simp only [State.performFree_nil hpending', State.quiet_invalidateCtx, hquiet, if_true]
  · intro s c lo n e he
    obtain ⟨hmem, hkept⟩ := List.mem_filter.mp he
    refine ⟨hmem, ?_⟩
    rintro ⟨rfl, hdev, hlo, hhi⟩
    simp [hdev, hlo, hhi] at hkept
  · intro s id w v victims data hw hhost hphase hv hleaf
    exact exec_hbPageServiceComplete_backed hw hhost hphase hv hleaf victims data
  · rintro s id ipa level at_ e size w v data hw hhost hphase hv hleaf hentry rfl
    exact ⟨fun hnone => exec_hbPageServiceComplete_regionless hw hhost hphase hv hleaf hentry hnone data,
      fun r hpending hfree hlen => exec_hbPageServiceComplete_fetched hw hhost hphase hv hleaf hentry hpending hfree hlen⟩

end Sys2Proof.Machine
end

section
/-! The chain unit: the arithmetic of bound tiles, the state of the chain, and DIVERGE (R293 to R304). -/

namespace Sys2Proof.Machine

/-! ### Chain producers -/

/-- A producer for the tiles of a chain instruction (R295). -/
theorem Iss.produce_chain {i : Iss} {s : State} (h : s.warp? i.core i.slot = some i.w) (vals : List (Nat × Nat × DWord))
    (flags : List (Nat × Bool × Bool)) (chain : List Nat) :
    Produced s (i.produce s vals flags chain) i vals flags chain := by
  have h' : ({ s with nextId := s.nextId + 1 } : State).warp? i.core i.slot = some i.w := h
  obtain ⟨honly, hpassed⟩ := i.commitWarp_ended h' fun w =>
    { w.markAll i.act (destRegs .lane i.eng i.op i.f) with
      empty := ((w.markAll i.act (destRegs .lane i.eng i.op i.f)).empty ++ destRegs .lane i.eng i.op i.f).dedup,
      prods := (w.markAll i.act (destRegs .lane i.eng i.op i.f)).prods ++
        [{ id := s.nextId, regs := destRegs .lane i.eng i.op i.f, vals, replies := 0, flags, chain }] }
  refine ⟨_, honly, hpassed, rfl, fun r => ?_, rfl, Warp.length_onMask _ _ _, fun l hl => ?_⟩
  · simp [Warp.markAll, Warp.onMask, Warp.onLanes]
  · refine (congrArg (fun x : Lane => { x with marks := (i.w.lane l).marks }) (Warp.lane_onMask i.w i.act _ l hl)).trans ?_
    split
    · exact Lane.marks_rest _ _
    · rfl

/-! ### The chain instructions and their effects -/

section
variable {c : Fields → Instr} {op : Nat} {pre : State → Iss → Prop} {g : Iss → Nat → TileResult}

/-- What an arithmetic instruction writes for a tile of its group: the limbs of its result, and its high word. -/
def Iss.tileVals (i : Iss) (g : Iss → Nat → TileResult) (t : Nat) : List (Nat × Nat × DWord) :=
  ((List.range i.w.tileSize).flatMap fun k => i.writes (i.baseOf t + k) i.f.d.toNat (i.limbOf (g i t).r k)) ++
    (match (g i t).co with | some x => i.writes (i.baseOf t) (bits i.fn 6 0) (w64 x) | none => [])

/-- An arithmetic instruction that need not wait for a carry is a producer of the result of each tile of its group. -/
theorem LaneDoesWhen.of_chainOp (hexec : ∀ f s, exec (c f) s = chainOp op f s g)
    (hpre : ∀ s i, pre s i → chainDiv true s i = none ∧
      ((op = 0x02 ∨ op = 0x03 ∨ op = 0x0A) → i.fn % 2 = 1 → i.w.chainBusy (i.w.tilesIn i.grp) = false)) :
    LaneDoesWhen c 8 op pre fun s t i => Produced s t i ((i.w.tilesIn i.grp).flatMap (i.tileVals g))
      ((i.w.tilesIn i.grp).map fun t => (t, (g i t).c, (g i t).v)) (i.w.tilesIn i.grp) := by
  refine .of_effect hexec (fun s i h => (hpre s i h).1) fun s i h hp => ?_
  have hready : ¬ ((op = 0x02 ∨ op = 0x03 ∨ op = 0x0A) ∧ i.fn % 2 = 1 ∧ i.w.chainBusy (i.w.tilesIn i.grp) = true) := by
    rintro ⟨hop, hcarry, hbusy⟩
    rw [(hpre s i hp).2 hop hcarry] at hbusy
    contradiction
  rw [if_neg hready]
  simp only [List.flatMap_map, List.map_map]
  exact i.produce_chain (State.laneIss_warp h) _ _ _

/-- The same for a result without a high word. -/
theorem LaneDoesWhen.chainProduced (hexec : ∀ f s, exec (c f) s = chainOp op f s g)
    (hpre : ∀ s i, pre s i → chainDiv true s i = none ∧
      ((op = 0x02 ∨ op = 0x03 ∨ op = 0x0A) → i.fn % 2 = 1 → i.w.chainBusy (i.w.tilesIn i.grp) = false))
    (hco : ∀ s i, pre s i → ∀ t, (g i t).co = none) :
    LaneDoesWhen c 8 op pre fun s t i =>
      ChainProduced s t i (fun t => (g i t).r) (fun t => (g i t).c) fun t => (g i t).v := by
  intro s f i h hgoes hp
  obtain ⟨t, hexec', hproduced⟩ := LaneDoesWhen.of_chainOp hexec hpre s f i h hgoes hp
  refine ⟨t, hexec', ?_⟩
  have hvals : (i.w.tilesIn i.grp).flatMap (i.tileVals g) = i.limbVals fun t => (g i t).r :=
    List.flatMap_congr fun t _ => by rw [Iss.tileVals, hco s i hp t, List.append_nil]
  rw [hvals] at hproduced
  exact hproduced

end

theorem LaneDoesWhen.imp {c : Fields → Instr} {eng op : Nat} {pre : State → Iss → Prop} {post post' : State → State → Iss → Prop}
    (h : LaneDoesWhen c eng op pre post) (himp : ∀ s t i, pre s i → post s t i → post' s t i) :
    LaneDoesWhen c eng op pre post' := by
  intro s f i hi hgoes hpre
  obtain ⟨t, hexec, hpost⟩ := h s f i hi hgoes hpre
  exact ⟨t, hexec, himp s t i hpre hpost⟩

/-! ### Results and flags (R301, R302) -/

theorem Iss.intBits_pos (i : Iss) : 0 < i.intBits := by
  have hlimb : 0 < i.limbBits := by
    unfold Iss.limbBits
    split <;> omega
  exact Nat.mul_pos (Nat.two_pow_pos _) hlimb

/-- An arithmetic shift takes a bit out when its count is not 0. -/
theorem Iss.lsraTile_c (i : Iss) (t : Nat) : (i.lsraTile t).c =
    (decide (1 ≤ i.chainCount t) && (i.val i.f.a.toNat t).testBit (min (i.chainCount t) i.intBits - 1)) := by
  have hpos := i.intBits_pos
  have hcount : decide (min (i.chainCount t) i.intBits ≥ 1) = decide (1 ≤ i.chainCount t) :=
    decide_eq_decide.mpr (by omega)
  exact congrArg (· && _) hcount

theorem Iss.lmulwTile_co (i : Iss) (t : Nat) (h : bits i.fn 7 7 = 0) : (i.lmulwTile t).co = none :=
  if_neg (by omega)

theorem Iss.lcmpTile_signed (i : Iss) (t : Nat) (h : bits i.mo 1 1 = 0) : i.lcmpTile t =
    let a := sgn i.intBits (i.val i.f.a.toNat t)
    let b := sgn i.intBits (i.intB t)
    (if a < b then 0xFFFFFFFF#32 else if a = b then 0 else 1) := by
  simp only [Iss.lcmpTile, h, zero_ne_one, if_false]

theorem Iss.lcmpTile_unsigned (i : Iss) (t : Nat) (h : bits i.mo 1 1 = 1) : i.lcmpTile t =
    let a := i.val i.f.a.toNat t
    let b := i.intB t
    (if a < b then 0xFFFFFFFF#32 else if a = b then 0 else 1) := by
  simp only [Iss.lcmpTile, h, if_true, Nat.cast_lt, Nat.cast_inj]

/-- LCMP is a producer of one value in every active lane of its tiles. -/
theorem lcmp_produced (pre : State → Iss → Prop) (hpre : ∀ s i, pre s i → chainDiv true s i = none) :
    LaneDoesWhen .lcmp 8 0x08 pre fun s t i =>
      Produced s t i (i.laneVals false fun l => (i.lcmpTile (l / i.w.tileSize)).setWidth 64) [] (i.w.tilesIn i.grp) := by
  refine .of_effect (fun _ _ => rfl) hpre fun s i h hp => ?_
  have hvals : (i.laneVals false fun l => (i.lcmpTile (l / i.w.tileSize)).setWidth 64) =
      (lanesOf i.act).map fun l => (l, i.f.d.toNat, (i.lcmpTile (l / i.w.tileSize)).setWidth 64) :=
    (List.map_eq_flatMap ..).symm
  rw [hvals]
  exact i.produce_chain (State.laneIss_warp h) _ _ _

/-- Settles O41: each instruction is a producer of the results of its tiles. -/
theorem chainArithmetic : Obligations.ChainArithmetic := by
  unfold Obligations.ChainArithmetic
  refine ⟨?_, ?_, ?_, ?_, ?_, ?_, ?_, ?_, ?_, ?_, ?_⟩
  · exact .chainProduced (g := Iss.laddTile) (fun _ _ => rfl) (fun s i h => ⟨h.1, fun _ => h.2⟩) fun _ _ _ _ => rfl
  · exact .chainProduced (g := Iss.lsubTile) (fun _ _ => rfl) (fun s i h => ⟨h.1, fun _ => h.2⟩) fun _ _ _ _ => rfl
  · exact .chainProduced (g := Iss.lnegTile) (fun _ _ => rfl) (fun s i h => ⟨h, fun hop => absurd hop (by decide)⟩)
      fun _ _ _ _ => rfl
  · exact .chainProduced (g := Iss.lshlTile) (fun _ _ => rfl) (fun s i h => ⟨h, fun hop => absurd hop (by decide)⟩)
      fun _ _ _ _ => rfl
  · exact .chainProduced (g := Iss.lshrTile) (fun _ _ => rfl) (fun s i h => ⟨h, fun hop => absurd hop (by decide)⟩)
      fun _ _ _ _ => rfl
  · refine (LaneDoesWhen.chainProduced (g := Iss.lsraTile) (fun _ _ => rfl)
      (fun s i h => ⟨h, fun hop => absurd hop (by decide)⟩) fun _ _ _ _ => rfl).imp fun s t i _ h => ?_
    simp only [Iss.lsraTile_c] at h
    exact h
  · refine (LaneDoesWhen.chainProduced (g := Iss.lmulwTile) (fun _ _ => rfl)
      (fun s i h => ⟨h.1, fun hop => absurd hop (by decide)⟩) fun _ i hp t => i.lmulwTile_co t hp.2).imp ?_
    intro s t i _ h w hw
    obtain rfl := funext hw
    exact h
  · refine (LaneDoesWhen.of_chainOp (g := Iss.lmulwTile) (fun _ _ => rfl)
      fun s i h => ⟨h.1, fun hop => absurd hop (by decide)⟩).imp ?_
    intro s t i hp h w hw
    obtain rfl := funext hw
    refine ⟨_, h, fun e he => ?_, fun t ht e he => ?_⟩
    · obtain ⟨t, ht, he⟩ := List.mem_flatMap.mp he
      exact List.mem_flatMap.mpr ⟨t, ht, List.mem_append_left _ he⟩
    · have hco : (i.lmulwTile t).co = some _ := if_pos hp.2
      refine List.mem_flatMap.mpr ⟨t, ht, List.mem_append_right _ ?_⟩
      rw [hco]
      exact he
  · refine (LaneDoesWhen.chainProduced (g := Iss.lmontTile) (fun _ _ => rfl)
      (fun s i h => ⟨h.1, fun _ => h.2⟩) fun _ _ _ _ => rfl).imp ?_
    intro s t i _ h y hy
    obtain rfl := funext hy
    exact h
  · refine (lcmp_produced _ fun s i h => h.1).imp fun s t i hp h => ?_
    simp only [Iss.lcmpTile_signed i _ hp.2] at h
    exact h
  · refine (lcmp_produced _ fun s i h => h.1).imp fun s t i hp h => ?_
    simp only [Iss.lcmpTile_unsigned i _ hp.2] at h
    exact h

/-! ### The state of the chain (R295, R298, R299, R303) -/

/-- Where its convergence fails an instruction raises DIVERGE in its active lanes, or in its group when none is active (R83,
R296). -/
theorem issue_diverges_any {s : State} {eng op : Nat} {f : Fields} {i : Iss} (h : s.laneIss eng op f = some i)
    (hplaced : i.wellPlaced = true) (hstop : i.unstopped s = true) {div : State → Iss → Option Word} {m : Word}
    (hdiv : div s i = some m) (k : State → Iss → State) (kl : State → LIss → State) : issue eng op f s div k kl =
      .next (({ i with act := if i.act = 0 then i.grp else i.act } : Iss).raise s Cls.diverge
        (if i.act = 0 then i.grp else i.act) (fun _ => 0) fun _ => m.setWidth 64) := by
  rw [issue_lane h]
  obtain ⟨-, -, rfl, rfl, rfl, ha, hp⟩ := State.laneIss_spec h
  simp only [Iss.wellPlaced, Iss.unstopped, Bool.and_eq_true, Option.isNone_iff_eq_none] at hplaced hstop
  obtain ⟨⟨hform, hlegal⟩, hreg⟩ := hplaced
  rw [Bool.not_eq_true'] at hstop
  simp only [issueLanes, hform, hlegal, hreg, hstop, hdiv, Option.isNone_none, Bool.and_self, Bool.not_true,
    Bool.false_eq_true, if_false, ← ha, ← hp]
  by_cases hact : i.act = 0
  · rw [if_pos hact, if_pos hact]
  · rw [if_neg hact, if_neg hact]

theorem chainDiv_eq_grp {width : Bool} {s : State} {i : Iss} (h : chainDiv width s i ≠ none) : chainDiv width s i = some i.grp := by
  unfold chainDiv at h ⊢
  dsimp only at h ⊢
  split at h
  · exact absurd rfl h
  · exact if_neg ‹_›

/-- Settles O42: the effect of each instruction, and DIVERGE from the rules of R296. -/
theorem chainState : Obligations.ChainState := by
  unfold Obligations.ChainState
  refine ⟨?_, ?_, ?_, ?_, ?_, ?_, ?_, ?_, ?_, ?_, ?_⟩
  · refine .of_effect (fun _ _ => rfl) (fun s i h => h.1) fun s i h hp => ?_
    obtain ⟨-, hlimbs, hfree⟩ := hp
    simp only [hlimbs, hfree, Bool.not_true, Bool.false_eq_true, if_false]
    exact i.commitWarp_ended (State.laneIss_warp h) _
  · refine .of_effect (fun _ _ => rfl) (fun s i h => h.1) fun s i h hp => ?_
    simp only [hp.2, Bool.not_false, if_true]
  · refine .of_effect (fun _ _ => rfl) (fun s i h => h.1) fun s i h hp => ?_
    obtain ⟨-, hbound, hfree⟩ := hp
    simp only [Option.isNone_eq_false_iff.mpr (Option.isSome_iff_ne_none.mpr hbound), hfree, Bool.false_eq_true, if_false]
    exact i.commitWarp_ended (State.laneIss_warp h) _
  · refine .of_effect (fun _ _ => rfl) (fun s i h => ?_) fun s i h hp => ?_
    · simp [lunbindDiv, h]
    · simp only [hp, Option.isNone_none, if_true]
      exact i.commitWarp_ended (State.laneIss_warp h) _
  · refine .of_effect (fun _ _ => rfl) (fun s i h => h.1) fun s i h hp => ?_
    simp only [hp.2, Bool.false_eq_true, if_false]
    exact i.writeMask_wrote (State.laneIss_warp h) _
  · refine .of_effect (fun _ _ => rfl) (fun s i h => h.1) fun s i h hp => ?_
    obtain ⟨-, hbound, hfree⟩ := hp
    simp only [Option.isSome_iff_ne_none.mpr hbound, hfree, and_true, Bool.false_eq_true, if_false]
    exact i.produce_chain (State.laneIss_warp h) _ _ _
  · refine .of_effect (fun _ _ => rfl) (fun s i h => ?_) fun s i h hp => ?_
    · simp [lstatDiv, h.1]
    · have hword : i.w.flagWord = 0 := by simp [Warp.flagWord, hp.1]
      simp only [hp.1, hp.2, hword, Option.isSome_none, Bool.false_eq_true, and_false, if_false]
      exact i.produce_chain (State.laneIss_warp h) _ _ _
  · refine .of_effect (fun _ _ => rfl) (fun s i h => h.1) fun s i h hp => ?_
    simp only [hp.2.1, hp.2.2, Bool.not_true, Bool.false_eq_true, if_false, if_true]
  · refine .of_effect (fun _ _ => rfl) (fun s i h => h.1) fun s i h hp => ?_
    simp only [hp.2, if_true]
  · refine .of_effect (fun _ _ => rfl) (fun s i h => h.1) fun s i h hp => ?_
    simp only [hp.2, if_true]
  · intro c op hc s f i h hplaced hstop hdiv m hm
    have hexec : ∃ k kl, exec (c f) s = issue 8 op f s (chainDiv true) k kl := by
      simp only [List.mem_cons, Prod.mk.injEq, List.not_mem_nil, or_false] at hc
      rcases hc with ⟨rfl, rfl⟩ | ⟨rfl, rfl⟩ | ⟨rfl, rfl⟩ | ⟨rfl, rfl⟩ | ⟨rfl, rfl⟩ | ⟨rfl, rfl⟩ | ⟨rfl, rfl⟩ |
        ⟨rfl, rfl⟩ | ⟨rfl, rfl⟩
      all_goals exact ⟨_, _, rfl⟩
    obtain ⟨k, kl, hexec⟩ := hexec
    rw [hexec, issue_diverges_any h hplaced hstop (chainDiv_eq_grp hdiv), ← hm]

end Sys2Proof.Machine
end

section
/-! CONT, CWAIT, YIELD and MEASURE (R364, R365, R369, R370, R372, R398). -/

namespace Sys2Proof.Machine

/-- An instruction of both streams does in the lead stream what its effect there does. -/
theorem LeadDoesWhen.of_issue {c : Fields → Instr} {eng op : Nat} {div : State → Iss → Option Word} {k : State → Iss → State}
    {kl : State → LIss → State} {pre : State → LIss → Prop} {post : State → State → LIss → Prop}
    (hexec : ∀ f s, exec (c f) s = issue eng op f s div k kl)
    (heffect : ∀ s i, s.leadIss eng op i.f = some i → pre s i → post s (kl s i) i) : LeadDoesWhen c eng op pre post := by
  intro s f i h hgoes hpre
  refine ⟨kl s i, by rw [hexec, issue_goes_lead h hgoes], heffect s i ?_ hpre⟩
  obtain ⟨-, -, -, -, rfl, -⟩ := State.leadIss_spec h
  exact h

/-! ### Records of continuations (R364, R365, R369) -/

/-- The record of a lane. -/
def Iss.contRec (i : Iss) (l id : Nat) : ContRec :=
  { id, key := { ctx := i.w.ctx, task := i.w.task, code := (i.recWord l 0).toNat, entry := i.recWord l 1 },
    cluster := clusterOf i.core, joinH := if i.noJoin l then none else some ((i.recWord l 2).toNat, (i.recWord l 3).toNat),
    payload := (List.range 12).map fun n => i.recWord l (4 + n), since := 0 }

/-- The counter of a lane's record is raised, and its task has one continuation more. -/
def Iss.raised (i : Iss) (at_ : Nat → Loc) (l : Nat) (s : State) : State :=
  (match at_ l with
   | .dev pa => if i.noJoin l then s else s.countJoin pa 1
   | _ => s).onTask i.w.task fun t => { t with conts := t.conts + 1 }

/-- A record without a join counter raises none. -/
theorem Iss.raised_noJoin {i : Iss} {l : Nat} (h : i.noJoin l = true) (at_ : Nat → Loc) (s : State) :
    i.raised at_ l s = s.onTask i.w.task fun t => { t with conts := t.conts + 1 } := by
  unfold Iss.raised
  split
  · rw [if_pos h]
  · rfl

theorem Iss.emit_eq (i : Iss) (at_ : Nat → Loc) (s : State) (l : Nat) : i.emit at_ s l = match s.ctx? i.w.ctx with
    | none => (2, s)
    | some x =>
      if State.gathered { s with nextId := s.nextId + 1 } i.w.ctx (clusterOf i.core) < x.quota then
        (0, (i.raised at_ l { s with nextId := s.nextId + 1 }).enterGather (i.contRec l s.nextId))
      else if x.overflow.length < x.ovCap then
        (1, (i.raised at_ l { s with nextId := s.nextId + 1 }).onCtx i.w.ctx fun x =>
          { x with overflow := x.overflow ++ [i.contRec l s.nextId] })
      else (2, { s with nextId := s.nextId + 1 }) := rfl

/-- Only the counters that the lanes name count. -/
theorem Iss.emit_congr {i : Iss} {f g : Nat → Loc} {l : Nat} (h : i.noJoin l = false → f l = g l) (s : State) :
    i.emit f s l = i.emit g s l := by
  have hraised : i.raised f l = i.raised g l := by
    funext s
    cases hjoin : i.noJoin l with
    | false => rw [Iss.raised, Iss.raised, h hjoin]
    | true => rw [Iss.raised_noJoin hjoin, Iss.raised_noJoin hjoin]
  rw [Iss.emit_eq, Iss.emit_eq, hraised]

theorem Iss.emitAll_congr {i : Iss} {f g : Nat → Loc} {ls : List Nat} (h : ∀ l ∈ ls, i.noJoin l = false → f l = g l) (s : State) :
    i.emitAll f ls s = i.emitAll g ls s := by
  induction ls generalizing s with
  | nil => rfl
  | cons l ls ih =>
    rw [List.forall_mem_cons] at h
    simp only [Iss.emitAll, Iss.emit_congr h.1, ih h.2]

/-- A record that enters the gather store leaves the bytes. -/
theorem State.enterGather_mem (s : State) (r : ContRec) : (s.enterGather r).mem = s.mem := by
  unfold State.enterGather
  dsimp only
  split <;> rfl

section
variable {i : Iss} {s : State} {l : Nat} {x : Ctx} (hx : s.ctx? i.w.ctx = some x)

include hx

theorem Iss.emit_gathered (hroom : s.gathered i.w.ctx (clusterOf i.core) < x.quota) (at_ : Nat → Loc) :
    i.emit at_ s l = (0, (i.raised at_ l { s with nextId := s.nextId + 1 }).enterGather (i.contRec l s.nextId)) := by
  rw [Iss.emit_eq, hx]
  exact if_pos hroom

theorem Iss.emit_overflows (hfull : x.quota ≤ s.gathered i.w.ctx (clusterOf i.core)) (hroom : x.overflow.length < x.ovCap)
    (at_ : Nat → Loc) : i.emit at_ s l = (1, (i.raised at_ l { s with nextId := s.nextId + 1 }).onCtx i.w.ctx fun x =>
      { x with overflow := x.overflow ++ [i.contRec l s.nextId] }) := by
  rw [Iss.emit_eq, hx]
  exact (if_neg (Nat.not_lt.mpr hfull)).trans (if_pos hroom)

theorem Iss.emit_drops (hfull : x.quota ≤ s.gathered i.w.ctx (clusterOf i.core)) (hover : x.ovCap ≤ x.overflow.length)
    (at_ : Nat → Loc) : (i.emit at_ s l).1 = 2 := by
  rw [Iss.emit_eq, hx]
  exact congrArg Prod.fst ((if_neg (Nat.not_lt.mpr hfull)).trans (if_neg (Nat.not_lt.mpr hover)))

/-- A record that is kept leaves the bytes that its counter's increment leaves. -/
theorem Iss.emit_mem (hroom : s.gathered i.w.ctx (clusterOf i.core) < x.quota ∨ x.overflow.length < x.ovCap) (at_ : Nat → Loc) :
    (i.emit at_ s l).2.mem = (i.raised at_ l { s with nextId := s.nextId + 1 }).mem := by
  by_cases hgather : s.gathered i.w.ctx (clusterOf i.core) < x.quota
  · rw [Iss.emit_gathered hx hgather]
    exact State.enterGather_mem _ _
  · rw [Iss.emit_overflows hx (Nat.not_lt.mp hgather) (hroom.resolve_left hgather)]
    rfl

end

/-- A join counter goes up by 1 modulo 2^32 at its place. -/
theorem State.countJoin_mem (s : State) (pa : Nat) :
    (s.countJoin pa 1).mem = s.mem.writeN pa (bytesOf 4 ((natOf (s.mem.readN pa 4) + 1) % 2 ^ 32)) := by
  have hsum : (((natOf (s.mem.readN pa 4) : Int) + 1) % 2 ^ 32).toNat = (natOf (s.mem.readN pa 4) + 1) % 2 ^ 32 := by omega
  rw [State.countJoin, hsum]
  simp only [State.store_mem, State.dieTake_mem, State.dirWrite_mem]

/-- CONT past its checks writes the statuses of the records of its active lanes. -/
theorem cont_does (pa : Nat → Nat) (u v : State) (st : List (Nat × Nat)) : LaneDoesWhen .cont 11 0x00 (fun s i => i.act ≠ 0 ∧
      (∀ l ∈ lanesOf i.act, ∃ sec, i.contOut s l = (0, .ok (.dev (if i.noJoin l then 0 else pa l)) sec)) ∧
      (Caller.warp i i.act).released s = .ok u ∧
      (∀ l ∈ lanesOf i.act, i.noJoin l = false → u.leased (pa l / 64) = false) ∧
      i.emitAll (fun l => .dev (pa l)) (lanesOf i.act) u = (st, v))
    (fun _ t i => t = i.write v false fun l => w64 (count st l)) := by
  refine .of_lane (fun _ _ => rfl) fun s i h ⟨hact, hout, hreleased, hleases, hemitted⟩ => ?_
  have houts : ∀ l ∈ lanesOf i.act, ∃ sec, i.contOuts s l = .ok (.dev (if i.noJoin l then 0 else pa l)) sec := by
    intro l hl
    obtain ⟨sec, hsec⟩ := hout l hl
    exact ⟨sec, by simp [Iss.contOuts, hsec]⟩
  have hloc : ∀ l ∈ lanesOf i.act, i.noJoin l = false → (i.contOuts s l).loc = .dev (pa l) := by
    intro l hl hjoin
    obtain ⟨sec, hsec⟩ := houts l hl
    simp [hsec, AccOut.loc, hjoin]
  have hunleased : u.countersLeased ((lanesOf i.act).filter fun l => !i.noJoin l) (fun l => (i.contOuts s l).loc) = false := by
    simp only [State.countersLeased, List.any_eq_false, List.mem_filter, Bool.not_eq_true']
    rintro l ⟨hl, hjoin⟩
    simp [hloc l hl hjoin, hleases l hl hjoin]
  rw [Iss.acting_of_ne hact]
  refine (Caller.follow_ok (c := .warp i i.act) (fun l hl => ⟨_, houts l hl⟩) hreleased _ _ _ _).trans ?_
  simp only [hunleased, Iss.emitAll_congr hloc, hemitted, Bool.false_eq_true, if_false]

/-! ### CWAIT (R370) -/

/-- Lanes of a mask begin waits of their own, and the other lanes of the group go past (R163). -/
theorem Iss.await_lanes {s : State} {i : Iss} (h : s.warp? i.core i.slot = some i.w) (m : Word) (wait : Nat → Wait) :
    OnlyWarp s (i.await s m wait) i.core i.slot ∧ ∃ w', (i.await s m wait).warp? i.core i.slot = some w' ∧
      ∀ l, l < i.w.lanes.length → bitOf i.grp l = true →
        if bitOf m l then (w'.lane l).pc = (i.w.lane l).pc ∧ (w'.lane l).wait = wait l
        else (w'.lane l).pc = (i.w.lane l).pc + BitVec.ofNat 32 i.f.len := by
  refine ⟨State.onWarp_only s _ _ _, _, State.warp?_onWarp_of_eq h _, fun l hl hgrp => ?_⟩
  have hpassed : l < (i.w.advance (i.grp &&& ~~~m) i.f).lanes.length := by rwa [Warp.advance, Warp.length_onMask]
  rw [Warp.counted, show ∀ (w : Warp) (n : DWord), ({ w with instr := n } : Warp).lane l = w.lane l from fun _ _ => rfl,
    Warp.lane_onMask _ _ _ l hpassed, Warp.advance, Warp.lane_onMask _ _ _ l hl, bitOf_and_not hgrp]
  cases bitOf m l
  · exact rfl
  · exact ⟨rfl, rfl⟩

/-- The lanes whose counters in device memory do not read 0 wait, the others go past. -/
theorem Iss.watch_lanes {s : State} {i : Iss} (h : s.warp? i.core i.slot = some i.w) {pa : Nat → Nat} {loc : Nat → Loc}
    (hloc : ∀ l ∈ lanesOf i.act, loc l = .dev (pa l)) :
    OnlyWarp s (i.watch s (.warp i i.act) loc) i.core i.slot ∧ ∃ w', (i.watch s (.warp i i.act) loc).warp? i.core i.slot = some w' ∧
      ∀ l, l < i.w.lanes.length → bitOf i.grp l = true →
        if bitOf i.act l ∧ natOf (s.mem.readN (pa l) 4) ≠ 0 then
          (w'.lane l).pc = (i.w.lane l).pc ∧ (w'.lane l).wait = .cwait (pa l)
        else (w'.lane l).pc = (i.w.lane l).pc + BitVec.ofNat 32 i.f.len := by
  generalize hm : (i.act &&& maskOf fun l => !(Caller.warp i i.act).counterZero s loc l) = m
  have hbit (l : Nat) : bitOf m l = true ↔ bitOf i.act l = true ∧ natOf (s.mem.readN (pa l) 4) ≠ 0 := by
    rw [← hm, bitOf_and_maskOf, Bool.and_eq_true, Bool.not_eq_true']
    refine and_congr_right fun hl => ?_
    simp [Caller.counterZero, hloc l (mem_lanesOf.2 hl)]
  have hnear : ((lanesOf m).any fun l => match loc l with | .dev _ => false | _ => true) = false := by
    rw [List.any_eq_false]
    intro l hl
    rw [hloc l (mem_lanesOf.2 ((hbit l).1 (mem_lanesOf.1 hl)).1)]
    simp
  by_cases hnone : m = 0
  · have hwatch : i.watch s (.warp i i.act) loc = i.done s := by
      rw [Iss.watch, hm]
      exact if_pos hnone
    obtain ⟨honly, w', hw', hpassed⟩ := i.commitWarp_ended h id
    rw [hwatch]
    refine ⟨honly, w', hw', fun l hl hgrp => ?_⟩
    rw [if_neg (by rw [← hbit, hnone, bitOf_zero]; simp), hpassed.gone l hl hgrp]
    rfl
  · have hwatch : i.watch s (.warp i i.act) loc = i.await s m fun l => .cwait (match loc l with | .dev pa => pa | _ => 0) := by
      rw [Iss.watch, hm]
      exact (if_neg hnone).trans (if_neg (ne_true_of_eq_false hnear))
    obtain ⟨honly, w', hw', hlanes⟩ := Iss.await_lanes h m fun l => .cwait (match loc l with | .dev pa => pa | _ => 0)
    rw [hwatch]
    refine ⟨honly, w', hw', fun l hl hgrp => ?_⟩
    have hl' := hlanes l hl hgrp
    by_cases hwaits : bitOf m l = true
    · rw [if_pos hwaits, hloc l (mem_lanesOf.2 ((hbit l).1 hwaits).1)] at hl'
      rwa [if_pos ((hbit l).1 hwaits)]
    · rw [if_neg hwaits] at hl'
      rwa [if_neg (fun hx => hwaits ((hbit l).2 hx))]

theorem cwait_does (pa : Nat → Nat) : LaneDoesWhen .cwait 11 0x01 (fun s i => i.act ≠ 0 ∧
      (Caller.warp i i.act).reaches s (Caller.warp i i.act).cwaitRef pa ∧ (Caller.warp i i.act).acquired s = .ok s ∧
      (Caller.warp i i.act).clear s pa 4 ∧
      ∀ p ∈ s.pending, ∀ l ∈ lanesOf i.act, p.agent = .lane i.core i.slot l → p.pa / 64 ≠ pa l / 64)
    (fun s t i => OnlyWarp s t i.core i.slot ∧ ∃ w', t.warp? i.core i.slot = some w' ∧
      ∀ l, l < i.w.lanes.length → bitOf i.grp l = true →
        if bitOf i.act l ∧ natOf (s.mem.readN (pa l) 4) ≠ 0 then
          (w'.lane l).pc = (i.w.lane l).pc ∧ (w'.lane l).wait = .cwait (pa l)
        else (w'.lane l).pc = (i.w.lane l).pc + BitVec.ofNat 32 i.f.len) := by
  refine .of_lane (fun _ _ => rfl) fun s i h ⟨hact, hreach, hacquired, hclear, hstores⟩ => ?_
  rw [Iss.acting_of_ne hact]
  obtain ⟨loc, hloc, heq⟩ := Caller.settle_clear hreach rfl 1 (fun _ => .read 4) hacquired hclear
    (fun loc s => (Caller.warp i i.act).waitLines s loc) (fun loc s =>
      if s.pending.any fun p => (Caller.warp i i.act).lanes.any fun l => (Caller.warp i i.act).agent l == p.agent &&
        (match loc l with | .dev pa => p.pa / 64 == pa / 64 | _ => false) then (Caller.warp i i.act).retry s
      else i.watch s (.warp i i.act) loc)
  have hnone : (s.pending.any fun p => (Caller.warp i i.act).lanes.any fun l => (Caller.warp i i.act).agent l == p.agent &&
      (match loc l with | .dev pa => p.pa / 64 == pa / 64 | _ => false)) = false := by
    simp only [List.any_eq_false, List.any_eq_true, not_exists, not_and, Bool.and_eq_true, beq_iff_eq]
    intro p hp l hl hagent
    rw [hloc l hl]
    simpa using hstores p hp l hl hagent.symm
  refine heq.symm ▸ ?_
  rw [hnone]
  exact Iss.watch_lanes (State.laneIss_warp h) hloc

/-! ### MEASURE (R398) -/

theorem lanesOf_single : ∀ l : Fin 32, lanesOf ((1 : Word) <<< l.val) = [l.val] := by decide

theorem lowest_lt (m : Word) : lowest m < 32 := by
  unfold lowest firstBelow
  cases h : (List.range 32).find? (bitOf m) with
  | none => decide
  | some l => exact List.mem_range.mp (List.mem_of_find?_eq_some h)

theorem Iss.elected_of_ne {i : Iss} (h : i.act ≠ 0) (s : State) (k : Caller → State) : i.elected s k = k i.elect := if_neg h

/-- The elected lane is the only one that acts. -/
theorem Iss.elect_lanes (i : Iss) : i.elect.lanes = [lowest i.act] := lanesOf_single ⟨lowest i.act, lowest_lt i.act⟩

section
variable {c : Caller} {s : State}

/-- The buffer that MEASURE names, its checks passed. -/
def Caller.measuredBuffer (c : Caller) (l : Nat) : Buffer :=
  { handle := c.handle l, off := c.off32 l, len := c.reg l c.f.c.toNat, pc := c.pc, qual := c.qual l }

/-- A buffer that passes its checks is noted in its task, unless that takes no more. -/
theorem Caller.measure_checked {l : Nat} (hl : c.lanes = [l])
    (hcheck : s.bufferCheck (c.who s l) (c.handle l) (c.off32 l) (c.reg l c.f.c.toNat) = none) {x : Task}
    (hx : s.task? c.task = some x) : c.measure s = if x.full then c.quota s else c.done (s.onTask c.task fun t => t.note (c.measuredBuffer l)) := by
  simp only [Caller.measure, hl, List.headD_cons, hcheck, hx, Option.all_some]
  rfl

end

theorem Task.full_false {x : Task} (hmeasured : x.measured = true) (hroom : x.buffers.length < 64) : x.full = false := by
  simp [Task.full, hmeasured, hroom]

theorem Task.full_true {x : Task} (h : x.measured = false ∨ 64 ≤ x.buffers.length) : x.full = true := by
  simpa [Task.full] using h

/-- Settles O46: the records of CONT, the waits of CWAIT, and the effects of YIELD and MEASURE. -/
theorem continuationInstructions : Obligations.ContinuationInstructions := by
  unfold Obligations.ContinuationInstructions
  refine ⟨cont_does, ?_, ?_, ?_, cwait_does, ?_, ?_, ?_, ?_, ?_, ?_, ?_, ?_, ?_⟩
  · intro s i l hjoin hoff hcheck
    simp [Iss.contOut, hcheck, hjoin, hoff]
  · intro s i l x hjoin hx
    refine ⟨fun hroom => ?_, fun hfull hroom => ?_, fun hfull hover => Iss.emit_drops hx hfull hover _⟩
    · rw [Iss.emit_gathered hx hroom, Iss.raised_noJoin hjoin]
      exact ⟨rfl, State.enterGather_mem _ _⟩
    · rw [Iss.emit_overflows hx hfull hroom, Iss.raised_noJoin hjoin]
      exact ⟨rfl, _, _, State.ctx?_onCtx_of_eq (s := { s with nextId := s.nextId + 1 }.onTask _ _) hx _, rfl, rfl, rfl, rfl,
        if_pos hjoin, rfl⟩
  · intro s i l pa x hjoin hx hok hroom
    have hmem : (i.emit (fun _ => .dev pa) s l).2.mem =
        s.mem.writeN pa (bytesOf 4 ((natOf (s.mem.readN pa 4) + 1) % 2 ^ 32)) := by
      rw [Iss.emit_mem hx hroom, Iss.raised]
      simp only [hjoin, Bool.false_eq_true, if_false]
      exact State.countJoin_mem _ _
    rw [hmem]
    refine ⟨?_, fun a ha => Memory.read_writeN_out _ _ _ (by simpa using ha)⟩
    have hread := Memory.readN_writeN hok pa (bytesOf 4 ((natOf (s.mem.readN pa 4) + 1) % 2 ^ 32))
    rw [bytesOf_length] at hread
    rw [hread, natOf_bytesOf]
    omega
  · refine .of_effect (fun _ _ => rfl) (fun _ _ _ => rfl) fun s i h ⟨hgrp, hgoes⟩ => ?_
    rw [Iss.perWarp, if_pos hgrp, if_neg (by simp [hgoes])]
    exact i.commitWarp_ended (State.laneIss_warp h) _
  · refine .of_effect (fun _ _ => rfl) (fun _ _ _ => rfl) fun s i h ⟨hgrp, hstops⟩ => ?_
    rw [Iss.perWarp, if_pos hgrp, if_pos hstops]
    refine ⟨State.onWarp_only s _ _ _, _, State.warp?_onWarp_of_eq (State.laneIss_warp h) _, fun l hl hin => ?_⟩
    rw [Warp.lane_onMask _ _ _ l hl, if_pos hin]
    exact ⟨rfl, rfl⟩
  · exact .of_effect (fun _ _ => rfl) (fun _ _ _ => rfl) fun s i h hgrp => if_neg hgrp
  · refine .of_issue (fun _ _ => rfl) fun s i h hgoes => ?_
    rw [if_neg (by simp [hgoes])]
    exact LIss.commit_became (s := { s with rot := put s.rot i.core _ }) (State.leadIss_crew h) id
  · refine .of_issue (fun _ _ => rfl) fun s i h hstops => ?_
    rw [if_pos hstops]
    exact LIss.onLead_became (State.leadIss_crew h) _
  · refine .of_effect (fun _ _ => rfl) (fun _ _ _ => rfl) fun s i h ⟨hact, hcheck, x, hx, hmeasured, hroom⟩ => ?_
    rw [Iss.elected_of_ne hact, Caller.measure_checked i.elect_lanes hcheck hx, Task.full_false hmeasured hroom]
    rfl
  · refine .of_issue (fun _ _ => rfl) fun s i h ⟨hcheck, x, hx, hmeasured, hroom⟩ => ?_
    rw [Caller.measure_checked rfl hcheck hx, Task.full_false hmeasured hroom]
    rfl
  · refine .of_effect (fun _ _ => rfl) (fun _ _ _ => rfl) fun s i h ⟨hact, hcheck, x, hx, hfull⟩ => ?_
    rw [Iss.elected_of_ne hact, Caller.measure_checked i.elect_lanes hcheck hx, Task.full_true hfull]
    rfl
  · refine .of_issue (fun _ _ => rfl) fun s i h ⟨hcheck, x, hx, hfull⟩ => ?_
    rw [Caller.measure_checked rfl hcheck hx, Task.full_true hfull]
    rfl

end Sys2Proof.Machine
end

section
/-! The instructions of the matrix unit (R317 to R332). -/

namespace Sys2Proof.Machine

/-- An instruction of the lead stream whose effect names its fields. -/
theorem LeadDoesWhen.of_fields {c : Fields → Instr} {eng op : Nat} {k : Fields → State → LIss → State}
    {pre : State → LIss → Prop} {post : State → State → LIss → Prop} (hexec : ∀ f s, exec (c f) s = leadInstr eng op f s (k f))
    (heffect : ∀ s i, s.leadIss eng op i.f = some i → pre s i → post s (k i.f s i) i) : LeadDoesWhen c eng op pre post := by
  intro s f i h hgoes hpre
  refine ⟨k f s i, by rw [hexec, leadInstr_goes h hgoes], ?_⟩
  obtain ⟨-, -, -, -, rfl, -⟩ := State.leadIss_spec h
  exact heffect s i h hpre

/-! ### The queue of a crew (R317) -/

theorem State.crewOf_onCrewKey {s : State} {k : Nat} {c : Crew} (h : look s.crews k = some c) (g : Crew → Crew) :
    look (s.onCrewKey k g).crews k = some (g c) := look_adjust_of_eq h g

theorem State.onCrewKey_only (s : State) (core slot : Nat) (g : Crew → Crew) :
    OnlyCrew s (s.onCrewKey (crewKey core slot) g) core slot := State.onCrew_only s core slot g

/-- A crew whose queue has a command more. -/
def Crew.queued (c : Crew) (x : MxCmd) (st : Nat) (written : List (Nat × Nat)) : Crew :=
  { c with mx := c.mx ++ [{ x with id := st }],
           veils := c.veils ++ written.map fun t =>
             { stamp := st, q := x.q.getD 0, done := false, first := t.1, count := t.2 } }

theorem State.enqueueMx_eq (s : State) (k : Nat) (x : MxCmd) (written : List (Nat × Nat)) : s.enqueueMx k x written =
    ({ s with stamp := s.stamp + 1 } : State).onCrewKey k fun c => c.queued x s.stamp written := rfl

/-- A command put at the end of the queue by a lead thread that then goes past. -/
theorem LIss.done_enqueueMx {i : LIss} {s : State} {c : Crew} (hcrew : s.crew? i.core i.slot = some c) (hmx : c.mx = i.c.mx)
    (hlead : c.lead = i.c.lead) (x : MxCmd) (written : List (Nat × Nat)) :
    i.Queued s (i.done (s.enqueueMx (crewKey i.core i.slot) x written)) x c := by
  rw [State.enqueueMx_eq]
  refine ⟨(State.onCrewKey_only { s with stamp := s.stamp + 1 } _ _ _).trans (State.onCrew_only _ _ _ _), _,
    State.crewOf_onCrewKey (State.crewOf_onCrewKey (s := { s with stamp := s.stamp + 1 }) hcrew _) _, ?_, ?_, rfl⟩
  · exact congrArg (· ++ [_]) hmx
  · exact congrArg (Lead.past · i.f) hlead

/-- A change of the crew before the command stands in it. -/
theorem LIss.Queued.of_onCrewKey {i : LIss} {s t : State} {x : MxCmd} {c : Crew} {g : Crew → Crew}
    (h : i.Queued (s.onCrewKey (crewKey i.core i.slot) g) t x c) : i.Queued s t x c :=
  ⟨(State.onCrewKey_only { s with stamp := s.stamp + 1 } _ _ g).trans h.1, h.2⟩

/-! ### Single-bit errors corrected (R238) -/

/-- Correcting the errors of a tile's words changes the count of errors and the tiles. -/
theorem State.correct_frame (s : State) (die crew tile off n : Nat) :
    { s.correct die crew tile off n with crews := s.crews, errcnt := s.errcnt } = s := by
  unfold State.correct
  dsimp only
  split <;> rfl

theorem State.correct_crew {s : State} {k : Nat} {c : Crew} (h : look s.crews k = some c) (die crew tile off n : Nat) :
    ∃ tiles, look (s.correct die crew tile off n).crews k = some { c with tiles } := by
  unfold State.correct
  dsimp only
  split
  · exact ⟨c.tiles, h⟩
  · exact ⟨c.tiles, h⟩
  · by_cases hk : k = crew
    · subst hk
      exact ⟨_, look_adjust_of_eq h _⟩
    · exact ⟨c.tiles, (look_adjust_ne _ _ hk).trans h⟩

theorem State.correctBlock_frame (s : State) (die crew : Nat) (tw : Word) (coord n : Nat) :
    { s.correctBlock die crew tw coord n with crews := s.crews, errcnt := s.errcnt } = s := by
  unfold State.correctBlock
  split
  · rfl
  · exact State.correct_frame _ _ _ _ _ _

theorem State.correctBlock_crew {s : State} {k : Nat} {c : Crew} (h : look s.crews k = some c) (die crew : Nat) (tw : Word)
    (coord n : Nat) : ∃ tiles, look (s.correctBlock die crew tw coord n).crews k = some { c with tiles } := by
  unfold State.correctBlock
  split
  · exact ⟨c.tiles, h⟩
  · exact State.correct_crew h _ _ _ _ _

/-- A command whose block is read goes on with its bytes. -/
theorem Caller.block_ok {c : Caller} {s : State} {k n align : Nat} {b : List Byte}
    (h : s.blockAt k (c.tileWord c.lane) (c.coord c.lane) n align = .ok b) (g : List Byte → State → State) :
    c.block s k n align g = g b (s.correctBlock (dieOf c.core) k (c.tileWord c.lane) (c.coord c.lane) n) := by
  simp only [Caller.block, h]

/-! ### MXISSUE (R322 to R324) -/

/-- The tiles that an MXISSUE names, and the fences that it takes. -/
def MxParams.tilesOf (p : MxParams) (u : State) (k : Nat) : List (Nat × Nat) :=
  ((u.tileRef (some k) (w32 p.acct)).tile?.toList ++
    if p.regs then [] else (u.tileRef (some k) (w32 p.asource)).tile?.toList).map fun r => (r.1, r.2.1)

def MxParams.fencesOf (p : MxParams) (u : State) (k : Nat) : List (Nat × Nat) :=
  p.parts.filterMap fun r => (u.rankWarp k r).map fun e => (r, e.2.named + 1)

theorem MxParams.mem_fencesOf (p : MxParams) (u : State) (k r n : Nat) :
    (r, n) ∈ p.fencesOf u k ↔ r ∈ p.parts ∧ ∃ e, u.rankWarp k r = some e ∧ n = e.2.named + 1 := by
  simp only [MxParams.fencesOf, List.mem_filterMap, Option.map_eq_some_iff, Prod.mk.injEq]
  constructor
  · rintro ⟨r', hr, e, he, rfl, rfl⟩
    exact ⟨hr, e, he, rfl⟩
  · rintro ⟨hr, e, he, rfl⟩
    exact ⟨r, hr, e, he, rfl, rfl⟩

/-- The command that an MXISSUE with a parameter block appends. -/
def MxParams.command (p : MxParams) (u : State) (k : Nat) (x : Crew) (b : List Byte) : MxCmd :=
  { MxCmd.make 4 (w32 p.acct :: if p.regs then [] else [w32 p.asource]) (p.tilesOf u k) p.frame b (some p.qc) 0 (p.fencesOf u k) with
    dirty := (x.takeFences (p.fencesOf u k) (p.tilesOf u k)).2 }

section
variable {c : Caller} {s u : State} {k : Nat} {x : Crew} {b : List Byte} (hcrew : c.crew? s = some (k, x))
  (hroom : x.mx.length < 8) (hblock : s.blockAt k (c.tileWord c.lane) (c.coord c.lane) 64 64 = .ok b)
  (hu : u = s.correctBlock (dieOf c.core) k (c.tileWord c.lane) (c.coord c.lane) 64)
  (hok : firstBad ((MxParams.of b).checks u k x b) = none)
include hcrew hroom hblock hu hok

/-- An MXISSUE that has passed its checks appends its command and is counted in the warps it names. -/
theorem Caller.mxissue_issues : c.mxissue s = c.done (((u.onCrewKey k fun c => { c with
    early := (x.takeFences ((MxParams.of b).fencesOf u k) ((MxParams.of b).tilesOf u k)).1.early }).enqueueMx k
      ((MxParams.of b).command u k x b) (((MxParams.of b).tilesOf u k).take 1)).nameWarps k (MxParams.of b) u.stamp) := by
  rw [Caller.mxissue, hcrew]
  refine (if_neg (by omega)).trans ((Caller.block_ok hblock _).trans ?_)
  simp only [← hu, hok]
  rfl

/-- The state in which the MXISSUE goes past: its command stands at the end of the queue, and the lead thread, the warps' ranks
and the bytes are as they were. -/
theorem Caller.mxissue_queued : ∃ v c', c.mxissue s = c.done v ∧ v.mem = s.mem ∧ look v.crews k = some c' ∧
    c'.mx = x.mx ++ [{ (MxParams.of b).command u k x b with id := s.stamp }] ∧ c'.lead = x.lead ∧
    ∀ r, u.rankWarp k r = s.rankWarp k r := by
  have hx : look s.crews k = some x := by
    obtain ⟨k', -, x', hx', hpair⟩ : ∃ k', c.crew = some k' ∧ ∃ x', look s.crews k' = some x' ∧ (k', x') = (k, x) := by
      simpa [Caller.crew?, Option.bind_eq_some_iff, Option.map_eq_some_iff] using hcrew
    obtain ⟨rfl, rfl⟩ := Prod.mk.inj hpair
    exact hx'
  have hframe := s.correctBlock_frame (dieOf c.core) k (c.tileWord c.lane) (c.coord c.lane) 64
  obtain ⟨ts, hcorrected⟩ := State.correctBlock_crew hx (dieOf c.core) k (c.tileWord c.lane) (c.coord c.lane) 64
  rw [← hu] at hframe hcorrected
  have hstamp : u.stamp = s.stamp := (congrArg State.stamp hframe :)
  have hwarps : u.warps = s.warps := (congrArg State.warps hframe :)
  refine ⟨_, _, Caller.mxissue_issues hcrew hroom hblock hu hok, (congrArg State.mem hframe :),
    State.crewOf_onCrewKey (State.crewOf_onCrewKey (s := { u with stamp := u.stamp + 1 }) hcorrected _) _, ?_, rfl,
    fun r => by rw [State.rankWarp, hwarps, State.rankWarp]⟩
  rw [← hstamp]
  rfl

end

/-! ### Accumulators (R329) -/

/-- An access to accumulators that passes its checks and its gate has its effect at the crews, tiles and offsets that the checks
gave. -/
theorem Iss.accTiles_at {i : Iss} {s : State} {store : Bool} {at_ : Nat → Nat × Nat × Nat}
    (h : i.reachesAcc s (i.tileAsk (4 * i.accCount) false (!store) store) at_) {gate : State → Except State State}
    (hg : gate s = .ok s) (k : (Nat → Nat × Nat × Nat) → State → State) :
    ∃ at', (∀ l ∈ lanesOf i.act, at' l = at_ l) ∧ i.accTiles s store gate k = k at' s := by
  refine ⟨fun l => match s.tileRef i.w.crew (i.tileAsk (4 * i.accCount) false (!store) store l).tw with
      | .at c t _ => (c, t, match (s.accAccess i.w.crew (i.tileAsk (4 * i.accCount) false (!store) store l) i.accCount).loc with
        | .dev off => off
        | _ => 0)
      | _ => (0, 0, 0), fun l hl => ?_, ?_⟩
  · obtain ⟨⟨t, ht⟩, sec, haccess⟩ := h l hl
    simp only [ht, haccess, AccOut.loc]
  · have hout : groupOut i.act (fun l => s.accAccess i.w.crew (i.tileAsk (4 * i.accCount) false (!store) store l) i.accCount) =
        .ok := groupOut_ok fun l hl => by
      obtain ⟨-, sec, haccess⟩ := h l hl
      exact ⟨_, sec, haccess⟩
    simp only [Iss.accTiles, Iss.tilesBy, hout, hg] <;> rfl

/-! ### The instructions -/

/-- A tile reference names its tile. -/
theorem TileRef.tile?_at {s : State} {crew : Option Nat} {tw : Word} {o n : Nat} {tl : Tile} (h : s.tileRef crew tw = .at o n tl) :
    (s.tileRef crew tw).tile? = some (o, n, tl) := by
  rw [h]
  rfl

theorem wload_does (o n : Nat) (tl : Tile) : LeadDoesWhen .wload 9 0x00 (fun s i => i.c.mx.length < 8 ∧
      s.tileRef (some (crewKey i.core i.slot)) (asTileWord i.a.toNat) = .at o n tl ∧
      offReach (crewKey i.core i.slot) (o, n, tl) = false ∧ (weightCols tl.fmt).isSome ∧ tl.cols % 32 = 0 ∧
      macrosOf tl.fmt tl.cols tl.rows ≤ 16 ∧
      i.c.macrosBut i.f.d.toNat + macrosOf tl.fmt tl.cols tl.rows ≤ i.c.macros)
    (fun s t i => i.Queued s t (.make 0 [asTileWord i.a.toNat] [(o, n)] i.f.d.toNat [] (some i.f.b.toNat) 0 [])
      { i.c with frames := put i.c.frames i.f.d.toNat { fmt := tl.fmt, k := tl.cols, n := tl.rows, lost := false } }) := by
  refine .of_fields (fun _ _ => rfl) fun s i h ⟨hroom, hat, hreach, hcols, hmod, hmacros, hquota⟩ => ?_
  rw [if_neg (by omega), TileRef.tile?_at hat]
  have hbounds : ¬ (tl.cols % 32 ≠ 0 ∨ macrosOf tl.fmt tl.cols tl.rows > 16) := by omega
  have hfits : ¬ i.c.macrosBut i.f.d.toNat + macrosOf tl.fmt tl.cols tl.rows > i.c.macros := by omega
  simp only [hreach, Option.isNone_eq_false_iff.mpr hcols, hbounds, hfits, Bool.false_eq_true, if_false]
  exact (LIss.done_enqueueMx (State.crewOf_onCrewKey (State.leadIss_crew h) _) rfl rfl _ _).of_onCrewKey

theorem acczero_does (n : Nat) (tl : Tile) : LeadDoesWhen .acczero 9 0x06 (fun s i => i.c.mx.length < 8 ∧
      s.tileRef (some (crewKey i.core i.slot)) (asTileWord i.a.toNat) = .at (crewKey i.core i.slot) n tl ∧ tl.level = 1)
    (fun s t i => i.Queued s t (.make 6 [asTileWord i.a.toNat] [(crewKey i.core i.slot, n)] 0 [] (some i.f.b.toNat) 0 [])
      i.c) := by
  refine .of_fields (fun _ _ => rfl) fun s i h ⟨hroom, hat, hlevel⟩ => ?_
  rw [if_neg (by omega), TileRef.tile?_at hat]
  have hacc : offAcc (crewKey i.core i.slot) (crewKey i.core i.slot, n, tl) = false := by simp [offAcc, hlevel]
  simp only [hacc, Bool.false_eq_true, if_false]
  exact LIss.done_enqueueMx (State.leadIss_crew h) rfl rfl _ _

theorem accdrain_does (b : List Byte) (u : State) (k : Crew) : LeadDoesWhen .accdrain 9 0x09 (fun s i => i.c.mx.length < 8 ∧
      s.blockAt (crewKey i.core i.slot) (asTileWord i.a.toNat) (lo32 i.b).toNat 32 32 = .ok b ∧
      u = s.correctBlock (dieOf i.core) (crewKey i.core i.slot) (asTileWord i.a.toNat) (lo32 i.b).toNat 32 ∧
      u.crew? i.core i.slot = some k ∧ firstBad ((Drain.of b).checks u (crewKey i.core i.slot) b) = none)
    (fun _ t i => ∃ x, i.Queued u t x k ∧ x.op = 9 ∧ x.block = b ∧ x.q = some (Drain.of b).qc ∧ x.started = false) := by
  refine .of_effect (fun _ _ => rfl) fun s i h ⟨hroom, hblock, hu, hk, hok⟩ => ?_
  rw [if_neg (by omega)]
  obtain ⟨ts, hcorrected⟩ := State.correctBlock_crew (State.leadIss_crew h) (dieOf i.core) (crewKey i.core i.slot)
    (asTileWord i.a.toNat) (lo32 i.b).toNat 32
  rw [← hu] at hcorrected
  obtain rfl : k = { i.c with tiles := ts } := Option.some.inj (hk.symm.trans hcorrected)
  have hread := Caller.block_ok (c := .lead i) hblock
  simp only [hread]
  rw [show s.correctBlock (dieOf (Caller.lead i).core) (crewKey i.core i.slot) ((Caller.lead i).tileWord (Caller.lead i).lane)
    ((Caller.lead i).coord (Caller.lead i).lane) 32 = u from hu.symm]
  simp only [hok]
  exact ⟨_, LIss.done_enqueueMx hcorrected rfl rfl _ _, rfl, rfl, rfl, rfl⟩

theorem wcheck_does : LeadDoesWhen .wcheck 9 0x02 (fun _ i => i.c.mx.length < 8) (fun s t i =>
    OnlyCrew { s with stamp := s.stamp + 1 } t i.core i.slot ∧ ∃ c', t.crew? i.core i.slot = some c' ∧
      c'.mx = i.c.mx ++ [{ MxCmd.make 2 [] [] i.f.a.toNat [] none i.f.d.toNat [] with id := s.stamp }] ∧
      c'.lead.pc = i.c.lead.pc ∧ c'.lead.wait = Wait.reply s.stamp ∧ c'.lead.adv = i.f.len ∧ c'.lead.k = i.c.lead.k) := by
  refine .of_effect (fun _ _ => rfl) fun s i h hroom => ?_
  rw [if_neg (by omega), State.enqueueMx_eq]
  have hcrew : look ({ s with stamp := s.stamp + 1 } : State).crews (crewKey i.core i.slot) = some i.c := State.leadIss_crew h
  exact ⟨(State.onCrew_only { s with stamp := s.stamp + 1 } _ _ _).trans (State.onCrewKey_only _ _ _ _), _,
    State.crewOf_onCrewKey (State.crewOf_onCrewKey hcrew _) _, rfl, rfl, rfl, rfl, rfl⟩

theorem mxfence_does (u : State) (w0 : Warp) : LaneDoesWhen .mxfence 9 0x03 (fun s i => (Caller.warp i i.act).performed s = .ok u ∧
      u.warp? i.core i.slot = some w0) (fun _ t i =>
    ∃ w : Warp, { w with lanes := w0.lanes } = w0 ∧ w.lanes.length = w0.lanes.length ∧ Ended u t i w ∧
      ∀ l, l < w0.lanes.length → w.lane l =
        if bitOf i.act l then { w0.lane l with fences := (w0.lane l).fences + 1 } else w0.lane l) := by
  refine .of_lane (fun _ _ => rfl) fun s i h ⟨hperformed, hw0⟩ => ?_
  simp only [hperformed]
  exact ⟨w0.onMask i.act fun _ x => { x with fences := x.fences + 1 }, rfl, Warp.length_onMask _ _ _,
    ⟨State.onWarp_only u _ _ _, _, State.warp?_onWarp_of_eq hw0 _, i.passed_advance _⟩, fun l hl => Warp.lane_onMask _ _ _ l hl⟩

theorem mxissue_lead_does (b : List Byte) (c : Nat) (u : State) : LeadDoesWhen .mxissue 9 0x04 (fun s i => i.c.mx.length < 8 ∧
      c = crewKey i.core i.slot ∧ s.blockAt c (asTileWord i.a.toNat) (lo32 i.b).toNat 64 64 = .ok b ∧
      u = s.correctBlock (dieOf i.core) c (asTileWord i.a.toNat) (lo32 i.b).toNat 64 ∧
      firstBad ((MxParams.of b).checks u c i.c b) = none)
    (fun s t i => ∃ c' x, t.crew? i.core i.slot = some c' ∧ c'.mx = i.c.mx ++ [x] ∧ x.id = s.stamp ∧ x.op = 4 ∧
      x.block = b ∧ x.frame = (MxParams.of b).frame ∧ x.q = some (MxParams.of b).qc ∧ x.started = false ∧ x.row = 0 ∧
      (∀ r n, (r, n) ∈ x.fences ↔ r ∈ (MxParams.of b).parts ∧ ∃ e, s.rankWarp c r = some e ∧ n = e.2.named + 1) ∧
      c'.lead = i.c.lead.past i.f ∧ t.mem = s.mem) := by
  refine .of_issue (fun _ _ => rfl) fun s i h ⟨hroom, hc, hblock, hu, hok⟩ => ?_
  subst hc
  have hcrew : (Caller.lead i).crew? s = some (crewKey i.core i.slot, i.c) := by
    show (look s.crews (crewKey i.core i.slot)).map _ = _
    rw [show look s.crews (crewKey i.core i.slot) = some i.c from State.leadIss_crew h]
    rfl
  obtain ⟨v, c', heq, hmem, hc', hmx, hlead, hranks⟩ := Caller.mxissue_queued (c := .lead i) hcrew hroom hblock hu hok
  rw [heq]
  refine ⟨_, _, State.crewOf_onCrewKey hc' _, hmx, rfl, rfl, rfl, rfl, rfl, rfl, rfl, fun r n => ?_,
    congrArg (Lead.past · i.f) hlead, hmem⟩
  rw [← hranks]
  exact MxParams.mem_fencesOf _ _ _ _ _

theorem mxissue_lane_does (b : List Byte) (k : Nat) (c : Crew) (u : State) : LaneDoesWhen .mxissue 9 0x04 (fun s i => i.act ≠ 0 ∧
      i.w.crew = some k ∧ look s.crews k = some c ∧
      c.mx.length < 8 ∧ s.blockAt k (i.elect.tileWord (lowest i.act)) (i.b32 (lowest i.act)).toNat 64 64 = .ok b ∧
      u = s.correctBlock (dieOf i.core) k (i.elect.tileWord (lowest i.act)) (i.b32 (lowest i.act)).toNat 64 ∧
      firstBad ((MxParams.of b).checks u k c b) = none)
    (fun s t _ => ∃ c' x, look t.crews k = some c' ∧ c'.mx = c.mx ++ [x] ∧ x.id = s.stamp ∧ x.op = 4 ∧ x.block = b ∧
      x.q = some (MxParams.of b).qc ∧ x.started = false ∧ t.mem = s.mem) := by
  refine .of_effect (fun _ _ => rfl) (fun _ _ _ => rfl) fun s i h ⟨hact, hk, hc, hroom, hblock, hu, hok⟩ => ?_
  have hcrew : i.elect.crew? s = some (k, c) := by
    show i.w.crew.bind _ = _
    rw [hk, Option.bind_some, hc]
    rfl
  have hlane : i.elect.lane = lowest i.act := congrArg (List.headD · 0) i.elect_lanes
  rw [← hlane] at hblock hu
  obtain ⟨v, c', heq, hmem, hc', hmx, -⟩ := Caller.mxissue_queued (c := i.elect) hcrew hroom hblock hu hok
  rw [Iss.elected_of_ne hact, heq]
  exact ⟨_, _, hc', hmx, rfl, rfl, rfl, rfl, rfl, hmem⟩

theorem accrd_does (at_ : Nat → Nat × Nat × Nat) : LaneDoesWhen .accrd 9 0x07 (fun s i =>
      i.act ≠ 0 ∧ i.reachesAcc s (i.tileAsk (4 * i.accCount) false true false) at_)
    (fun s t i => Produced (i.corrected s at_ (4 * i.accCount)) t i
      ((lanesOf i.act).flatMap fun l => mapIx (fun n x => (l, i.f.d.toNat + n, x.setWidth 64)) 0
      (wordsOf (s.tileBytes i.w l (at_ l).1 (at_ l).2.1 (at_ l).2.2 (4 * i.accCount)))) []) := by
  refine .of_lane (fun _ _ => rfl) fun s i h ⟨hact, hreach⟩ => ?_
  rw [Iss.acting_of_ne hact]
  obtain ⟨at', hat, heq⟩ := Iss.accTiles_at (store := false) (gate := open_) hreach rfl _
  refine heq.symm ▸ ?_
  have hvals : ((lanesOf i.act).flatMap fun l => mapIx (fun n x => (l, i.f.d.toNat + n, BitVec.setWidth 64 x)) 0
      (wordsOf (s.tileBytes i.w l (at_ l).1 (at_ l).2.1 (at_ l).2.2 (4 * i.accCount)))) =
      (lanesOf i.act).flatMap fun l => mapIx (fun n x => (l, i.f.d.toNat + n, BitVec.setWidth 64 x)) 0
        (wordsOf (s.tileBytes i.w l (at' l).1 (at' l).2.1 (at' l).2.2 (4 * i.accCount))) :=
    List.flatMap_congr fun l hl => by rw [hat l hl]
  rw [hvals, ← Iss.corrected_congr hat]
  exact i.produce_produced ((Iss.corrected_warp? _ _ _).trans (State.laneIss_warp h)) _ _

theorem accwr_does (at_ : Nat → Nat × Nat × Nat) : LaneDoesWhen .accwr 9 0x08 (fun s i =>
      i.act ≠ 0 ∧ i.reachesAcc s (i.tileAsk (4 * i.accCount) false false true) at_ ∧ (Caller.warp i i.act).unfenced s = true)
    (fun s t i => t = i.done ((lanesOf i.act).foldl (fun s l => s.laneTile i.core i.slot l (at_ l).1 (at_ l).2.1 (at_ l).2.2
      (i.dataBytes l (4 * i.accCount))) s)) := by
  refine .of_lane (fun _ _ => rfl) fun s i h ⟨hact, hreach, hunfenced⟩ => ?_
  rw [Iss.acting_of_ne hact]
  obtain ⟨at', hat, heq⟩ := Iss.accTiles_at (store := true) hreach
    (gate := fun s => if (Caller.warp i i.act).unfenced s then .ok s else .error ((Caller.warp i i.act).behindFence s))
    (if_pos hunfenced) fun at_ s => i.done (i.storeTiles s at_ (4 * i.accCount))
  exact heq.trans (congrArg i.done (Iss.storeTiles_congr hat s _))

theorem mxissue_full (s : State) (i : LIss) (h : s.leadIss 9 0x04 i.f = some i) (hfull : 8 ≤ i.c.mx.length) :
    (Caller.lead i).mxissue s = i.retry s := by
  have hcrew : (Caller.lead i).crew? s = some (crewKey i.core i.slot, i.c) := by
    show (look s.crews (crewKey i.core i.slot)).map _ = _
    rw [show look s.crews (crewKey i.core i.slot) = some i.c from State.leadIss_crew h]
    rfl
  rw [Caller.mxissue, hcrew]
  exact if_pos hfull

/-- With the queue full the six commands of the lead stream are attempted again. -/
theorem matrix_full (c : Fields → Instr) (op : Nat) (hc : (c, op) ∈ ([(.wload, 0x00), (.wdrop, 0x01), (.wcheck, 0x02),
      (.mxissue, 0x04), (.acczero, 0x06), (.accdrain, 0x09)] : List ((Fields → Instr) × Nat))) :
    LeadDoesWhen c 9 op (fun _ i => 8 ≤ i.c.mx.length) (fun s t i => t = i.retry s) := by
  simp only [List.mem_cons, Prod.mk.injEq, List.not_mem_nil, or_false] at hc
  rcases hc with ⟨rfl, rfl⟩ | ⟨rfl, rfl⟩ | ⟨rfl, rfl⟩ | ⟨rfl, rfl⟩ | ⟨rfl, rfl⟩ | ⟨rfl, rfl⟩
  · exact .of_fields (fun _ _ => rfl) fun s i h hfull => if_pos hfull
  · exact .of_effect (fun _ _ => rfl) fun s i h hfull => if_pos hfull
  · exact .of_effect (fun _ _ => rfl) fun s i h hfull => if_pos hfull
  · exact .of_issue (fun _ _ => rfl) fun s i h hfull => mxissue_full s i h hfull
  · exact .of_fields (fun _ _ => rfl) fun s i h hfull => if_pos hfull
  · exact .of_effect (fun _ _ => rfl) fun s i h hfull => if_pos hfull

/-- Settles O43: each instruction from its effect past the checks. -/
theorem matrixInstructions : Obligations.MatrixInstructions := by
  unfold Obligations.MatrixInstructions
  refine ⟨wload_does, ?_, wcheck_does, mxfence_does, mxissue_lead_does, mxissue_lane_does, fun k c => ?_, fun k c => ?_, ?_, ?_,
    acczero_does, accrd_does, accwr_does, accdrain_does, ?_, matrix_full⟩
  · refine .of_effect (fun _ _ => rfl) fun s i h hroom => ?_
    rw [if_neg (by omega)]
    exact (LIss.done_enqueueMx (State.crewOf_onCrewKey (State.leadIss_crew h) _) rfl rfl _ _).of_onCrewKey
  · refine .of_effect (fun _ _ => rfl) (fun _ _ _ => rfl) fun s i h ⟨hgrp, hk, hc, hreached⟩ => ?_
    rw [Iss.perWarp, if_pos hgrp, hk, Option.bind_some, hc]
    exact if_pos hreached
  · refine .of_effect (fun _ _ => rfl) (fun _ _ _ => rfl) fun s i h ⟨hgrp, hk, hc, hearly⟩ => ?_
    rw [Iss.perWarp, if_pos hgrp, hk, Option.bind_some, hc]
    show Waits s (if _ then _ else _) i
    rw [if_neg (by omega)]
    exact Iss.block_waits (State.laneIss_warp h)
  · exact .of_effect (fun _ _ => rfl) (fun _ _ _ => rfl) fun s i h hgrp => if_neg hgrp
  · exact .of_issue (fun _ _ => rfl) fun s i h hreached => if_pos hreached
  · exact .of_write (fun _ _ => rfl) fun _ _ _ => rfl

end Sys2Proof.Machine
end

section
/-! Matrix commands: their start, the ends of ACCZERO and WDROP, hangs and scrubs (R317, R318, R326, R328, R335). -/

namespace Sys2Proof.Machine

/-- The frames of a crew once its command has started: a WLOAD opens its own, a WDROP drops it (R326, R327). -/
def State.startWeights (s : State) (c : Crew) (x : MxCmd) : SMap Weights :=
  match x.op, (x.tiles.head?).bind fun t => s.tile? t.1 t.2 with
  | 0, some t => put c.weights x.frame { fmt := t.fmt, k := t.cols, n := t.rows, cols := [], crc := [], lost := false }
  | 0, none => drop c.weights x.frame
  | 1, _ => drop c.weights x.frame
  | _, _ => c.weights

section
variable {s : State} {core slot : Nat} {c : Crew} {x : MxCmd} {r : List MxCmd} (hc : s.crew? core slot = some c)
  (hmx : c.mx = x :: r) (hruns : s.runs c.ctx = true) (hdone : c.done = false)
include hc hmx hruns hdone

theorem State.mxHead_eq {b : Bool} (hstarted : x.started = b) : s.mxHead core slot b = some (c, x, r) := by
  simp only [State.mxHead, hc, hmx, hstarted, hruns, hdone, beq_self_eq_true, Bool.not_false, Bool.and_self, if_true]

/-- The first command starts: a WLOAD takes the place of its weights, a WDROP drops them. -/
theorem exec_matrixCommandStart (hstarted : x.started = false) (hfences : s.fencesMet (crewKey core slot) x = true)
    (hdue : s.operandsDue (crewKey core slot) x = false) (herror : s.mxError x = none) : ∃ weights : SMap Weights,
      (x.op = 1 → look weights x.frame = none) ∧ exec (.matrixCommandStart core slot) s =
        .next (s.onCrewKey (crewKey core slot) fun c =>
          { c with weights, mx := { x with started := true, regs := s.mxRegs (crewKey core slot) x } :: r }) := by
  refine ⟨s.startWeights c x, fun hop => by simp only [State.startWeights, hop, look_drop_self], ?_⟩
  rw [show exec (.matrixCommandStart core slot) s = execMatrixCommandStart core slot s from rfl, execMatrixCommandStart,
    State.mxHead_eq hc hmx hruns hdone hstarted]
  simp only [hfences, hdue, herror, Bool.not_true, Bool.or_self, Bool.false_eq_true, if_false, ite_self]
  rfl

theorem exec_matrixEngineHang (hstarted : x.started = true) : exec (.matrixEngineHang core slot) s =
    .next ((s.resetMatrix core c.ctx).stop c.ctx Cls.engineReset (s.taskNo c.task) (slot * 2 ^ 9) 0xFFFFFFFF#32 0
      (dieOf core)) := by
  simp only [exec, execMatrixEngineHang, State.mxHead_eq hc hmx hruns hdone hstarted]

end

/-! ### Zeros in a tile (R328) -/

/-- A tile to which the first bytes of a row of zeros were written reads 0 in each of them. -/
theorem Tile.writeZeros_reads (t : Tile) (n m : Nat) : ∀ a, a < m → m ≤ n →
    ((List.range m).foldl (fun t i => t.write (0 + i) ((List.replicate n (0 : Byte)).getD i 0)) t).read a = 0 := by
  induction m with
  | zero => exact fun a h => absurd h (Nat.not_lt_zero a)
  | succ m ih =>
    intro a ha hn
    have hz : (List.replicate n (0 : Byte)).getD m 0 = 0 := by
      rw [List.getD_eq_getElem?_getD, List.getElem?_replicate, if_pos (Nat.lt_of_succ_le hn), Option.getD_some]
    simp only [List.range_succ, List.foldl_append, List.foldl_cons, List.foldl_nil, hz, Nat.zero_add, Tile.write, Tile.read,
      if_true]
    rcases Nat.lt_succ_iff_lt_or_eq.mp ha with hlt | rfl
    · rw [look_drop_ne _ (Nat.ne_of_lt hlt)]
      simpa only [Nat.zero_add, Tile.write, Tile.read] using ih a hlt (by omega)
    · rw [look_drop_self]; rfl

theorem Tile.writeZeros_readN (t : Tile) (n a : Nat) (h : a < n) : (t.writeN 0 (List.replicate n 0)).readN a 1 = [0] := by
  have := t.writeZeros_reads n n a h le_rfl
  simpa only [Tile.readN, Tile.writeN, List.length_replicate, List.range_one, List.map_cons, List.map_nil, Nat.add_zero,
    Tile.read] using congrArg (fun b => [b]) this

theorem State.wakeWaita_crews (s : State) (crew tile : Nat) : (s.wakeWaita crew tile).crews = s.crews := by
  unfold State.wakeWaita
  split
  · rfl
  · split <;> rfl

theorem State.wakeWaita_mem (s : State) (crew tile : Nat) : (s.wakeWaita crew tile).mem = s.mem := by
  unfold State.wakeWaita
  split
  · rfl
  · split <;> rfl

theorem State.writeTile_crews (s : State) (k n off : Nat) (bs : List Byte) : (s.writeTile k n off bs).crews =
    adjust s.crews k fun c => { c with tiles := adjust c.tiles n fun t => t.writeN off bs } := State.wakeWaita_crews ..

theorem State.writeTile_mem (s : State) (k n off : Nat) (bs : List Byte) : (s.writeTile k n off bs).mem = s.mem :=
  State.wakeWaita_mem ..

/-- A write of a tile changes nothing of a crew but its tiles. -/
theorem State.writeTile_crew {s : State} {k : Nat} {c : Crew} (h : look s.crews k = some c) (k' n off : Nat) (bs : List Byte) :
    ∃ tiles, look (s.writeTile k' n off bs).crews k = some { c with tiles } := by
  rw [State.writeTile_crews]
  by_cases hk : k = k'
  · subst hk
    exact ⟨_, look_adjust_of_eq h _⟩
  · exact ⟨c.tiles, by rw [look_adjust_ne _ _ hk, h]⟩

/-! ### The end of a command (R317) -/

theorem getD_setNth {α : Type} (l : List α) (q : Nat) (x d : α) (h : q < l.length) : (setNth l q x).getD q d = x := by
  induction l generalizing q with
  | nil => exact absurd h (Nat.not_lt_zero q)
  | cons y l ih =>
    cases q with
    | zero => rfl
    | succ q => exact ih q (Nat.lt_of_succ_lt_succ h)

theorem State.countUp_crew {s : State} {k : Nat} {c : Crew} (h : look s.crews k = some c) (q : Option Nat) :
    ∃ qs, look (s.countUp k q).crews k = some { c with q := qs } ∧ ∀ n, q = some n → n < c.q.length →
      qs.getD n 0 = c.q.getD n 0 + 1 := by
  cases q with
  | none => exact ⟨c.q, h, fun n hn => nomatch hn⟩
  | some q =>
    refine ⟨_, State.crewOf_onCrewKey h _, fun n hn hlt => ?_⟩
    obtain rfl : q = n := Option.some.inj hn
    exact getD_setNth c.q q _ 0 hlt

theorem State.countUp_mem (s : State) (k : Nat) (q : Option Nat) : (s.countUp k q).mem = s.mem := by
  cases q <;> rfl

theorem State.checkCrew_of_running {s : State} {k : Nat} {c : Crew} (h : look s.crews k = some c) (hlead : c.lead.ended = false) :
    s.checkCrew k = s := by
  simp only [State.checkCrew, h, Crew.complete, hlead, Bool.and_false, Bool.false_and, Bool.false_eq_true, if_false]

/-- A command that leaves the queue of a crew whose lead thread runs: its counter goes up, and the tiles stay. -/
theorem State.commandEnds {s : State} {k : Nat} {c : Crew} (h : look s.crews k = some c) (hlead : c.lead.ended = false)
    (r : List MxCmd) (q : Option Nat) (stamp : Nat) : ∃ t c',
      (((s.onCrewKey k fun c => { c with mx := r }).countUp k q).unveil stamp).checkCrew k = t ∧ look t.crews k = some c' ∧
      c'.mx = r ∧ c'.tiles = c.tiles ∧ t.mem = s.mem ∧
      ∀ n, q = some n → n < c.q.length → c'.q.getD n 0 = c.q.getD n 0 + 1 := by
  obtain ⟨qs, hcounted, hq⟩ := State.countUp_crew (State.crewOf_onCrewKey h fun c => { c with mx := r }) q
  have hcrew : look (((s.onCrewKey k fun c => { c with mx := r }).countUp k q).unveil stamp).crews k = some
      { c with mx := r, q := qs, veils := c.veils.map fun v => if v.stamp = stamp then { v with done := true } else v } := by
    simp only [State.unveil, look_mapS', hcounted, Option.map_some]
  exact ⟨_, _, State.checkCrew_of_running hcrew hlead, hcrew, rfl, rfl, State.countUp_mem .., hq⟩

theorem State.mxCorrect_nil (s : State) (die : Nat) : s.mxCorrect die [] = s := rfl

/-- ACCZERO and WDROP read no tile. -/
theorem State.mxReads_none (s : State) {x : MxCmd} (hop : x.op = 6 ∨ x.op = 1) (lo hi : Nat) : s.mxReads x lo hi = [] := by
  rcases hop with hop | hop <;> simp only [State.mxReads, hop]

/-- WDROP writes nothing when it ends. -/
theorem State.mxEffect_wdrop (s : State) (k : Nat) (c : Crew) {x : MxCmd} (hop : x.op = 1) (lo hi : Nat) :
    s.mxEffect k c x lo hi = ([], []) := by
  simp only [State.mxEffect, hop]

theorem State.mxEffect_noTile {s : State} (k : Nat) (c : Crew) {x : MxCmd} (hop : x.op = 6) (lo hi : Nat)
    (h : s.tile? (x.tiles.getD 0 (0, 0)).1 (x.tiles.getD 0 (0, 0)).2 = none) : s.mxEffect k c x lo hi = ([], []) := by
  simp only [State.mxEffect, hop, h]

/-- ACCZERO writes zeros over its tile. -/
theorem State.mxEffect_acczero {s : State} (k : Nat) (c : Crew) {x : MxCmd} {tl : Tile} (hop : x.op = 6) (lo hi : Nat)
    (h : s.tile? (x.tiles.getD 0 (0, 0)).1 (x.tiles.getD 0 (0, 0)).2 = some tl) : s.mxEffect k c x lo hi =
    ([(x.tiles.getD 0 (0, 0), 0, List.replicate (tl.rows * tl.stride) 0)], []) := by
  simp only [State.mxEffect, hop, h]

theorem State.mxApply_nothing (s : State) (task : Nat) {x : MxCmd} (hev : x.ev = []) : s.mxApply task x ([], []) = s := by
  rw [State.mxApply, hev]; rfl

theorem State.mxApply_write (s : State) (task : Nat) {x : MxCmd} (hev : x.ev = []) (w : (Nat × Nat) × Nat × List Byte) :
    s.mxApply task x ([w], []) = s.writeTile w.1.1 w.1.2 w.2.1 w.2.2 := by
  rw [State.mxApply, hev]; rfl

/-- What ACCZERO and WDROP write as they end: nothing of the crew but its tiles, and zeros where ACCZERO names a tile. -/
theorem State.mxApply_ends {s : State} {k : Nat} {c : Crew} (h : look s.crews k = some c) {x : MxCmd}
    (hop : x.op = 6 ∨ x.op = 1) (hev : x.ev = []) (task lo hi : Nat) : ∃ u tiles,
      s.mxApply task x (s.mxEffect k c x lo hi) = u ∧ look u.crews k = some { c with tiles } ∧ u.mem = s.mem ∧
      ∀ n tl, x.op = 6 → x.tiles = [(k, n)] → look c.tiles n = some tl →
        look tiles n = some (tl.writeN 0 (List.replicate (tl.rows * tl.stride) 0)) := by
  rcases hop with hop | hop
  · generalize ht : s.tile? (x.tiles.getD 0 (0, 0)).1 (x.tiles.getD 0 (0, 0)).2 = tile
    cases tile with
    | none =>
      refine ⟨s, c.tiles, State.mxEffect_noTile k c hop lo hi ht ▸ State.mxApply_nothing s task hev, h, rfl, fun n tl _ htiles htl => ?_⟩
      rw [htiles] at ht
      simp [State.tile?, h, htl] at ht
    | some t0 =>
      obtain ⟨tiles, hw⟩ := State.writeTile_crew h (x.tiles.getD 0 (0, 0)).1 (x.tiles.getD 0 (0, 0)).2 0
        (List.replicate (t0.rows * t0.stride) 0)
      refine ⟨_, tiles, State.mxEffect_acczero k c hop lo hi ht ▸ State.mxApply_write s task hev _, hw, State.writeTile_mem .., fun n tl _ htiles htl => ?_⟩
      rw [htiles] at ht hw
      simp only [List.getD_cons_zero, State.tile?, h, htl, Option.some.injEq] at ht
      subst ht
      rw [List.getD_cons_zero, State.writeTile_crews, look_adjust_of_eq h] at hw
      have hset : adjust c.tiles n (fun t => t.writeN 0 (List.replicate (tl.rows * tl.stride) 0)) = tiles :=
        congrArg Crew.tiles (Option.some.inj hw)
      rw [← hset]
      exact look_adjust_of_eq htl _
  · rw [State.mxEffect_wdrop s k c hop]
    exact ⟨s, c.tiles, State.mxApply_nothing s task hev, h, rfl, fun n tl h6 => absurd (hop.symm.trans h6) (by decide)⟩

theorem exec_matrixCommandComplete_simple {s : State} {core slot : Nat} {c : Crew} {x : MxCmd} {r : List MxCmd}
    (hhead : s.mxHead core slot true = some (c, x, r)) (hop : x.op = 6 ∨ x.op = 1) :
    exec (.matrixCommandComplete core slot) s = .next (((((s.mxApply c.task x (s.mxEffect (crewKey core slot) c x x.row
      x.rows)).onCrewKey (crewKey core slot) fun c => { c with mx := r }).countUp (crewKey core slot) x.q).unveil
      x.id).checkCrew (crewKey core slot)) := by
  rw [show exec (.matrixCommandComplete core slot) s = execMatrixCommandComplete core slot s from rfl,
    execMatrixCommandComplete, hhead]
  simp only [State.mxReads_none s hop, State.mxCorrect_nil]
  rcases hop with hop | hop <;> simp only [hop]

/-- A frame whose check fails is lost, and no other. -/
theorem exec_macroCrcScrub {s : State} {core slot n : Nat} {c : Crew} {w : Weights} (hc : s.crew? core slot = some c)
    (hw : look c.weights n = some w) (hlost : w.lost = false) : exec (.macroCrcScrub core [(slot, n)]) s =
      .next ((s.errUp (dieOf core) 24 24 1).onCrewKey (crewKey core slot) fun c => c.loseFrame n) := by
  have hc' : look s.crews (crewKey core slot) = some c := hc
  rw [show exec (.macroCrcScrub core [(slot, n)]) s = execMacroCrcScrub core [(slot, n)] s from rfl, execMacroCrcScrub]
  simp only [List.foldl_cons, List.foldl_nil, hc', hw, hlost, Option.any_some, Bool.not_false, if_true]

/-- Settles O44: a command starts with its frames as WLOAD and WDROP leave them; ACCZERO and WDROP leave the queue by one
rule, with zeros in the tile of an ACCZERO; an engine that hangs is reset, and a failing check loses its frame. -/
theorem matrixEngine : Obligations.MatrixEngine := by
  unfold Obligations.MatrixEngine
  refine ⟨fun s core slot c x r hc hmx hstarted hruns hdone hfences hdue herror => ?_,
    fun s core slot c x r hc hmx hstarted hruns hdone hop hev hlead => ?_,
    fun s core slot c x r hc hmx hstarted hruns hdone => exec_matrixEngineHang hc hmx hruns hdone hstarted,
    fun s core slot n c w hc hw hlost _ => ?_⟩
  · obtain ⟨weights, hwdrop, hexec⟩ := exec_matrixCommandStart hc hmx hruns hdone hstarted hfences hdue herror
    exact ⟨_, _, hexec, State.onCrewKey_only .., State.crewOf_onCrewKey hc _, rfl, hwdrop, rfl⟩
  · obtain ⟨u, tiles, hu, hcrew, hmem, hzero⟩ := State.mxApply_ends hc hop hev c.task x.row x.rows
    obtain ⟨t, c', ht, htc, hr, htiles, htm, hq⟩ := State.commandEnds hcrew hlead r x.q x.id
    refine ⟨t, c', ?_, htc, hr, htm.trans hmem, hq, fun n tl h6 hone htl => ⟨_, ?_, fun a ha =>
      Tile.writeZeros_readN tl _ a ha⟩⟩
    · rw [exec_matrixCommandComplete_simple (State.mxHead_eq hc hmx hruns hdone hstarted) hop, hu, ht]
    · rw [htiles]
      exact hzero n tl h6 hone htl
  · exact ⟨_, _, exec_macroCrcScrub hc hw hlost, State.crewOf_onCrewKey (s := s.errUp (dieOf core) 24 24 1) hc _, rfl,
      look_adjust_of_eq hw _, fun m hm => look_adjust_ne _ _ hm⟩

end Sys2Proof.Machine
end

section
/-! Copies: their issue, their state words, their start and their end (R337, R338, R347 to R349, R352). -/

namespace Sys2Proof.Machine

/-! ### What a caller of either stream names -/

theorem Caller.crew?_lead {eng op : Nat} {f : Fields} {s : State} {i : LIss} (h : s.leadIss eng op f = some i) :
    (Caller.lead i).crew? s = some (crewKey i.core i.slot, i.c) := by
  show (look s.crews (crewKey i.core i.slot)).map _ = _
  rw [show look s.crews (crewKey i.core i.slot) = some i.c from State.leadIss_crew h]
  rfl

theorem Iss.elect_crew? {i : Iss} {s : State} {k : Nat} {x : Crew} (hk : i.w.crew = some k) (hx : look s.crews k = some x) :
    i.elect.crew? s = some (k, x) := by
  show i.w.crew.bind _ = _
  rw [hk, Option.bind_some, hx]
  rfl

theorem Iss.elect_lane (i : Iss) : i.elect.lane = lowest i.act := congrArg (List.headD · 0) i.elect_lanes

theorem Iss.elect_reg (i : Iss) (r : Nat) : i.elect.reg i.elect.lane r = (i.w.getV (lowest i.act) r).toNat := by
  rw [Iss.elect_lane]; rfl

/-! ### The issue of a copy (R337, R338, R347) -/

/-- The copy that an instruction enters. -/
def Caller.job (c : Caller) (s : State) (k : Nat) (b : List Byte) (ticket : Nat) : Copy :=
  { ticket, op := c.op, desc := b, value := w32 (c.reg c.lane c.f.c.toNat), issuer := c.agent c.lane,
    tiles := (CpDesc.of b).tiles c.op s k, started := false, done := 0, out := 0, ix := 0, shard := 0, buf := [],
    plane := [], taken := [], wait := .none, answers := [], extData := [], extErr := [], wrote := [], ev := [] }

/-- A crew with a copy more in its queue. -/
def Crew.entered (y : Crew) (job : Copy) : Crew := { y.nextTicket.2 with copies := y.copies ++ [job] }

/-- Every check of Table 14.5. -/
def CpDesc.checks (d : CpDesc) (op : Nat) (s : State) (who : Who) (k : Nat) : List (Bool × Nat × Nat) :=
  d.step3 op ++ d.step456 op s who k ++ d.step7 op ++ d.step8 op s who k

section
variable {c : Caller} {s v w : State} {k n : Nat} {x : Crew} {b : List Byte}

/-- A copy instruction that finds the queue of 16 full is attempted again. -/
theorem Caller.copy_full (hcrew : c.crew? s = some (k, x)) (hfull : 16 ≤ x.copies.length) : c.copy s = c.retry s := by
  rw [Caller.copy, hcrew]
  exact if_pos hfull

/-- One that has passed its checks enters its copy under the next ticket. -/
theorem Caller.copy_issues (hcrew : c.crew? s = some (k, x)) (hroom : x.copies.length < 16)
    (hn : n = if c.op ≥ 4 then 192 else 128) (hblock : s.blockAt k (c.tileWord c.lane) (c.coord c.lane) n 64 = .ok b)
    (hv : v = s.correctBlock (dieOf c.core) k (c.tileWord c.lane) (c.coord c.lane) n)
    (hok : firstBad ((CpDesc.of b).checks c.op v (c.who v c.lane) k) = none) (hunfenced : c.unfenced v = true)
    (hperformed : c.performed v = .ok w) : c.copy s = c.status (w.onCrewKey k fun y =>
      y.entered (c.job w k b x.nextTicket.1)) x.nextTicket.1 := by
  subst hn
  rw [Caller.copy, hcrew]
  refine (if_neg (by omega)).trans ((Caller.block_ok hblock _).trans ?_)
  rw [CpDesc.checks] at hok
  simp only [← hv, hok, hunfenced, hperformed, Bool.not_true, Bool.false_eq_true, if_false]
  rfl

end

/-- The copy instructions, each with its opcode and the bytes of its descriptor. -/
def copyForms : List ((Fields → Instr) × Nat × Nat) :=
  [(.cpy, 0, 128), (.cpyg, 1, 128), (.cpys, 2, 128), (.cpyf, 3, 128), (.ckpt, 4, 192), (.ckload, 5, 192)]

theorem exec_copyForm {c : Fields → Instr} {op n : Nat} (h : (c, op, n) ∈ copyForms) :
    (∀ f s, exec (c f) s = copyForm op f s Caller.copy) ∧ n = if op ≥ 4 then 192 else 128 := by
  simp only [copyForms, List.mem_cons, Prod.mk.injEq, List.not_mem_nil, or_false] at h
  rcases h with ⟨rfl, rfl, rfl⟩ | ⟨rfl, rfl, rfl⟩ | ⟨rfl, rfl, rfl⟩ | ⟨rfl, rfl, rfl⟩ | ⟨rfl, rfl, rfl⟩ | ⟨rfl, rfl, rfl⟩ <;>
    exact ⟨fun _ _ => rfl, rfl⟩

section
variable {c : Fields → Instr} {op n : Nat} (hform : (c, op, n) ∈ copyForms) (b : List Byte) (v w : State)
include hform

theorem copy_lead_does (x : Crew) : LeadDoesWhen c 10 op (fun s i => i.c.copies.length < 16 ∧
      s.blockAt (crewKey i.core i.slot) (asTileWord i.a.toNat) (lo32 i.b).toNat n 64 = .ok b ∧
      v = s.correctBlock (dieOf i.core) (crewKey i.core i.slot) (asTileWord i.a.toNat) (lo32 i.b).toNat n ∧
      firstBad ((CpDesc.of b).checks op v ((Caller.lead i).who v 0) (crewKey i.core i.slot)) = none ∧
      (Caller.lead i).unfenced v = true ∧ (Caller.lead i).performed v = .ok w ∧ w.crew? i.core i.slot = some x)
    (fun _ t i => ∃ u job, OnlyCrew w u i.core i.slot ∧
      u.crew? i.core i.slot = some { x.nextTicket.2 with copies := x.copies ++ [job] } ∧
      job.ticket = (if i.c.ticket = 2 ^ 32 - 1 then 1 else i.c.ticket + 1) ∧ job.op = op ∧ job.desc = b ∧
      job.issuer = .lead i.core i.slot ∧ job.started = false ∧ job.done = 0 ∧ job.out = 0 ∧ job.wait = Wait.none ∧
      t = i.write u (w64 job.ticket)) := by
  obtain ⟨hexec, hn⟩ := exec_copyForm hform
  refine .of_issue hexec fun s i h ⟨hroom, hblock, hv, hok, hunfenced, hperformed, hx⟩ => ?_
  obtain ⟨-, -, -, rfl, -, -⟩ := State.leadIss_spec h
  rw [Caller.copy_issues (c := .lead i) (Caller.crew?_lead h) hroom hn hblock hv hok hunfenced hperformed]
  exact ⟨w.onCrewKey (crewKey i.core i.slot) fun y => y.entered ((Caller.lead i).job w (crewKey i.core i.slot) b
      i.c.nextTicket.1), (Caller.lead i).job w (crewKey i.core i.slot) b i.c.nextTicket.1, State.onCrewKey_only ..,
    State.crewOf_onCrewKey hx _,
    rfl, rfl, rfl, rfl, rfl, rfl, rfl, rfl, rfl⟩

theorem copy_lead_full : LeadDoesWhen c 10 op (fun _ i => 16 ≤ i.c.copies.length) (fun s t i => t = i.retry s) :=
  .of_issue (exec_copyForm hform).1 fun _ _ h hfull => Caller.copy_full (Caller.crew?_lead h) hfull

theorem copy_lane_does (k : Nat) (x y : Crew) : LaneDoesWhen c 10 op (fun s i => i.act ≠ 0 ∧ i.w.crew = some k ∧
      look s.crews k = some x ∧ x.copies.length < 16 ∧
      s.blockAt k (i.elect.tileWord (lowest i.act)) (i.b32 (lowest i.act)).toNat n 64 = .ok b ∧
      v = s.correctBlock (dieOf i.core) k (i.elect.tileWord (lowest i.act)) (i.b32 (lowest i.act)).toNat n ∧
      firstBad ((CpDesc.of b).checks op v (i.elect.who v (lowest i.act)) k) = none ∧
      i.elect.unfenced v = true ∧ i.elect.performed v = .ok w ∧ look w.crews k = some y)
    (fun _ t i => ∃ u job, { u with crews := w.crews } = w ∧ (∀ j, j ≠ k → look u.crews j = look w.crews j) ∧
      look u.crews k = some { y.nextTicket.2 with copies := y.copies ++ [job] } ∧
      job.ticket = (if x.ticket = 2 ^ 32 - 1 then 1 else x.ticket + 1) ∧ job.op = op ∧ job.desc = b ∧
      job.issuer = .lane i.core i.slot (lowest i.act) ∧ job.started = false ∧ job.done = 0 ∧ job.out = 0 ∧
      job.wait = Wait.none ∧ t = i.elect.status u job.ticket) := by
  obtain ⟨hexec, hn⟩ := exec_copyForm hform
  refine .of_effect hexec (fun _ _ _ => rfl) fun s i h ⟨hact, hk, hx, hroom, hblock, hv, hok, hunfenced, hperformed, hy⟩ => ?_
  obtain ⟨-, -, -, rfl, -⟩ := State.laneIss_spec h
  rw [← Iss.elect_lane] at hblock hv hok ⊢
  rw [Iss.elected_of_ne hact,
    Caller.copy_issues (c := i.elect) (Iss.elect_crew? hk hx) hroom hn hblock hv hok hunfenced hperformed]
  exact ⟨w.onCrewKey k fun y => y.entered (i.elect.job w k b x.nextTicket.1), i.elect.job w k b x.nextTicket.1, rfl, fun j hj => look_adjust_ne _ _ hj, State.crewOf_onCrewKey hy _,
    rfl, rfl, rfl, rfl, rfl, rfl, rfl, rfl, rfl⟩

theorem copy_lane_full (k : Nat) (x : Crew) : LaneDoesWhen c 10 op (fun s i => i.act ≠ 0 ∧ i.w.crew = some k ∧
      look s.crews k = some x ∧ 16 ≤ x.copies.length) (fun s t i => t = i.retry s) :=
  .of_effect (exec_copyForm hform).1 (fun _ _ _ => rfl) fun s i _ ⟨hact, hk, hx, hfull⟩ => by
    rw [Iss.elected_of_ne hact, Caller.copy_full (Iss.elect_crew? hk hx) hfull]
    rfl

end

/-! ### The state words (R352) -/

/-- A lane's ticket fits its word. -/
theorem Iss.elect_ticket (i : Iss) (r : Nat) : i.elect.reg i.elect.lane r % 2 ^ 32 = (i.w.getV (lowest i.act) r).toNat := by
  rw [Iss.elect_reg]
  exact Nat.mod_eq_of_lt (BitVec.isLt _)

theorem cpyq_lead_does : LeadDoes .cpyq 10 6 (fun s t i => LeadWrote s t i (w64 (i.c.copyState (i.a.toNat % 2 ^ 32)))) := by
  refine .of_issue (fun _ _ => rfl) fun s i h _ => ?_
  simp only [Caller.crew?_lead h]
  exact LIss.write_wrote (State.leadIss_crew h) _

theorem cpyq_lane_does (k : Nat) (x : Crew) : LaneDoesWhen .cpyq 10 6 (fun s i => i.act ≠ 0 ∧ i.w.crew = some k ∧
      look s.crews k = some x) (fun s t i =>
    t = i.elect.status s (x.copyState (i.w.getV (lowest i.act) i.f.a.toNat).toNat)) := by
  refine .of_effect (fun _ _ => rfl) (fun _ _ _ => rfl) fun s i h ⟨hact, hk, hx⟩ => ?_
  simp only [Iss.elected_of_ne hact, Iss.elect_crew? hk hx, Iss.elect_ticket]
  rfl

/-- The copy of a ticket that CPYCAN ends. -/
def Crew.cancels (x : Crew) (t : Nat) : Option Copy := if x.recent t then x.copies.find? fun y => y.ticket == t else none

theorem Crew.cancels_none {x : Crew} {t : Nat} (h : x.recent t = false ∨ x.copies.find? (fun y => y.ticket == t) = none) :
    x.cancels t = none := by
  rcases h with h | h <;> simp only [Crew.cancels, h, Bool.false_eq_true, if_false, ite_self]

theorem Crew.cancels_some {x : Crew} {t : Nat} {y : Copy} (h : x.recent t = true)
    (hy : x.copies.find? (fun y => y.ticket == t) = some y) : x.cancels t = some y := (if_pos h).trans hy

/-- CPYCAN by what it ends. -/
def Caller.cancel (c : Caller) (s : State) : State :=
  match c.crew? s with
  | none => c.retry s
  | some (k, x) =>
    match x.cancels (c.reg c.lane c.f.a.toNat % 2 ^ 32) with
    | some y => c.status (s.copyEnd k y (2 ^ 8)) (x.copyState (c.reg c.lane c.f.a.toNat % 2 ^ 32))
    | none => c.status s (x.copyState (c.reg c.lane c.f.a.toNat % 2 ^ 32))

theorem exec_cpycan (f : Fields) (s : State) : exec (.cpycan f) s = copyForm 7 f s Caller.cancel := rfl

section
variable {c : Caller} {s : State} {k n : Nat} {x : Crew} (hcrew : c.crew? s = some (k, x))
  (hn : c.reg c.lane c.f.a.toNat % 2 ^ 32 = n)
include hcrew hn

theorem Caller.cancel_none (h : x.recent n = false ∨ x.copies.find? (fun y => y.ticket == n) = none) :
    c.cancel s = c.status s (x.copyState n) := by
  simp only [Caller.cancel, hcrew, hn, Crew.cancels_none h]

theorem Caller.cancel_some {y : Copy} (h : x.recent n = true) (hy : x.copies.find? (fun y => y.ticket == n) = some y) :
    c.cancel s = c.status (s.copyEnd k y (2 ^ 8)) (x.copyState n) := by
  simp only [Caller.cancel, hcrew, hn, Crew.cancels_some h hy]

end

/-! ### The start and the end of a copy (R337, R349) -/

theorem exec_copyStart {s : State} {core slot : Nat} {c : Crew} {x : Copy} (hc : s.crew? core slot = some c)
    (hx : c.copies.find? (fun y => !y.started) = some x) (hruns : s.runs c.ctx = true) :
    exec (.copyStart core slot) s =
      .next (s.onCopy (crewKey core slot) x.ticket fun x => { x with started := true }) := by
  rw [show exec (.copyStart core slot) s = execCopyStart core slot s from rfl, execCopyStart]
  simp only [hc, hx, hruns, if_true]

theorem CpRun.bound_pos (r : CpRun) : ∃ n, r.bound = n + 1 := by
  refine Nat.exists_eq_add_one.mpr ?_
  unfold CpRun.bound
  split
  · exact Nat.succ_pos _
  · exact Nat.mul_pos (Nat.succ_pos _) (Nat.add_pos_right _ (by norm_num))
  · exact Nat.succ_pos _

/-- A copy with nothing left to do ends. -/
theorem exec_copyComplete {s : State} {core slot ticket : Nat} {r : CpRun} (hr : s.cpRun core slot ticket = some r)
    (hstarted : r.x.started = true) (hwait : r.x.wait = Wait.none) (hruns : s.runs r.c.ctx = true) (hover : r.over = true) :
    exec (.copyComplete core slot ticket) s = .next (s.copyEnd r.k r.x (if r.x.op = 5 ∧ r.partly then 2 ^ 16 else 0)) := by
  obtain ⟨n, hn⟩ := r.bound_pos
  rw [show exec (.copyComplete core slot ticket) s = execCopyComplete core slot ticket s from rfl, execCopyComplete, hr]
  simp only [hstarted, hwait, hruns, beq_self_eq_true, Bool.and_self, if_true, hn, State.copyOn, hr, hover]

/-- A crew as its tiles and the tiles that its commands have dirtied change. -/
def SameButTiles (c c' : Crew) : Prop := { c' with tiles := c.tiles, mx := c.mx } = c

theorem State.storeTile_crew {s : State} {k : Nat} {c : Crew} (h : look s.crews k = some c) (k' n off : Nat) (bs : List Byte) :
    ∃ c', look (s.storeTile k' n off bs).crews k = some c' ∧ SameButTiles c c' := by
  obtain ⟨tiles, hw⟩ := State.writeTile_crew h k' n off bs
  refine ⟨{ c with tiles, mx := c.mx.map (s.soil k (k', n) off bs.length) }, ?_, rfl⟩
  simp only [State.storeTile, look_mapS', hw, Option.map_some]

theorem State.storeTile_mem (s : State) (k n off : Nat) (bs : List Byte) : (s.storeTile k n off bs).mem = s.mem :=
  State.writeTile_mem ..

theorem SameButTiles.trans {a b c : Crew} (hab : SameButTiles a b) (hbc : SameButTiles b c) : SameButTiles a c := by
  unfold SameButTiles at *
  rw [← hbc] at hab
  exact hab

/-- The completion word of a copy: status and value at its coordinate (R349). -/
def State.copyWord (s : State) (k : Nat) (x : Copy) (status : Nat) : State :=
  match s.named k (CpDesc.of x.desc).ctile with
  | some (o, n, t) =>
    let off := (CpDesc.of x.desc).ccoord / 2 ^ 16 * t.stride + (CpDesc.of x.desc).ccoord % 2 ^ 16
    (s.storeTile o n (off + 4) (bytesOf 4 status)).storeTile o n off (bytesOf 4 x.value.toNat)
  | none => s

theorem State.copyWord_crew {s : State} {k : Nat} {c : Crew} (h : look s.crews k = some c) (x : Copy) (status : Nat) :
    ∃ c', look (s.copyWord k x status).crews k = some c' ∧ SameButTiles c c' := by
  unfold State.copyWord
  split
  · obtain ⟨c1, h1, hs1⟩ := State.storeTile_crew h _ _ _ _
    obtain ⟨c2, h2, hs2⟩ := State.storeTile_crew h1 _ _ _ _
    exact ⟨c2, h2, hs1.trans hs2⟩
  · exact ⟨c, h, rfl⟩

theorem State.copyWord_mem (s : State) (k : Nat) (x : Copy) (status : Nat) : (s.copyWord k x status).mem = s.mem := by
  unfold State.copyWord
  split
  · exact (State.storeTile_mem ..).trans (State.storeTile_mem ..)
  · rfl

/-- A crew from whose queue a copy has gone with its status. -/
def Crew.without (c : Crew) (x : Copy) (status : Nat) : Crew :=
  { c with copies := c.copies.filter fun y => y.ticket != x.ticket,
           tickets := if c.recent x.ticket then put c.tickets x.ticket status else c.tickets }

/-- The state in which a copy's completion is written: nothing waits for its pages. -/
def State.copyLeft (s : State) (k : Nat) (x : Copy) : State :=
  { s.onVd (s.vdOf ((look s.crews k).elim 0 (·.ctx))) fun v => { v with
      waiting := v.waiting.filter fun e => e.1 != .copy (k / 4) (k % 4) x.ticket } with
    exts := keep s.exts fun _ e => e.agent != .copy (k / 4) (k % 4) x.ticket }

/-- The counter that a copy raises. -/
def Copy.counter (x : Copy) : Option Nat := if (CpDesc.of x.desc).qen then some (CpDesc.of x.desc).qc else none

theorem State.copyEnd_eq (s : State) (k : Nat) {x : Copy} (status : Nat) (hev : x.ev = []) : s.copyEnd k x status =
    ((((s.copyLeft k x).copyWord k x status).onCrewKey k fun c => c.without x status).countUp k
      x.counter).checkCrew k := by
  unfold State.copyEnd
  rw [hev]
  rfl

/-- A copy that ends while the lead thread of its crew runs leaves the crew without it, its counter raised. -/
theorem State.copyEnd_crew {s : State} {k : Nat} {c : Crew} (h : look s.crews k = some c) (hlead : c.lead.ended = false)
    {x : Copy} (hev : x.ev = []) (status : Nat) : ∃ c0 qs, SameButTiles c c0 ∧
      look (s.copyEnd k x status).crews k = some { c0.without x status with q := qs } ∧
      (∀ n, x.counter = some n → n < c.q.length → qs.getD n 0 = c.q.getD n 0 + 1) ∧
      (x.counter = none → qs = c.q) ∧ (s.copyEnd k x status).mem = s.mem := by
  obtain ⟨c0, h0, hsame⟩ := State.copyWord_crew (s := s.copyLeft k x) h x status
  have hq0 : c0.q = c.q := (congrArg Crew.q hsame :)
  have hlead0 : c0.lead = c.lead := (congrArg Crew.lead hsame :)
  obtain ⟨qs, hqs, hcount⟩ := State.countUp_crew (State.crewOf_onCrewKey h0 fun c => c.without x status) x.counter
  have hend := State.checkCrew_of_running hqs ((congrArg Lead.ended hlead0).trans hlead)
  rw [State.copyEnd_eq s k status hev, hend]
  refine ⟨c0, qs, hsame, hqs, fun n hn hlt => ?_, fun hnone => ?_, ?_⟩
  · rw [← hq0] at hlt ⊢
    exact hcount n hn hlt
  · rw [hnone] at hqs
    have := hqs.symm.trans (State.crewOf_onCrewKey h0 fun c => c.without x status)
    exact (congrArg Crew.q (Option.some.inj this) :).trans hq0
  · exact (State.countUp_mem ..).trans (State.copyWord_mem (s.copyLeft k x) ..)

/-- Settles O45: the issue of a copy by one lemma for either stream, its end by the crew that it leaves. -/
theorem copies : Obligations.Copies := by
  unfold Obligations.Copies
  refine ⟨fun c op n hform b v w => ⟨fun x => copy_lead_does hform b v w x, copy_lead_full hform,
      fun k x y => copy_lane_does hform b v w k x y, fun k x => copy_lane_full hform k x⟩, cpyq_lead_does, cpyq_lane_does,
    ?_, fun y => ?_, fun k x n => ?_, fun k x y n => ?_, fun s core slot c x hc hx hruns => ?_,
    fun s core slot ticket r hr hstarted hwait hruns hover => exec_copyComplete hr hstarted hwait hruns hover,
    fun s k st c x hc hlead hev => ?_⟩
  · refine .of_issue exec_cpycan fun s i h hnone => ?_
    rw [Caller.cancel_none (c := .lead i) (Caller.crew?_lead h) rfl hnone]
    exact LIss.write_wrote (State.leadIss_crew h) _
  · refine .of_issue exec_cpycan fun s i h ⟨hrecent, hy⟩ => ?_
    rw [Caller.cancel_some (c := .lead i) (Caller.crew?_lead h) rfl hrecent hy]
    rfl
  · refine .of_effect exec_cpycan (fun _ _ _ => rfl) fun s i h ⟨hact, hk, hx, hn, hnone⟩ => ?_
    subst hn
    rw [Iss.elected_of_ne hact]
    exact Caller.cancel_none (Iss.elect_crew? hk hx) (i.elect_ticket _) hnone
  · refine .of_effect exec_cpycan (fun _ _ _ => rfl) fun s i h ⟨hact, hk, hx, hn, hrecent, hy⟩ => ?_
    subst hn
    rw [Iss.elected_of_ne hact]
    exact Caller.cancel_some (Iss.elect_crew? hk hx) (i.elect_ticket _) hrecent hy
  · exact ⟨_, exec_copyStart hc hx hruns, State.onCrewKey_only .., State.crewOf_onCrewKey hc _⟩
  · obtain ⟨c0, qs, hsame, hcrew, hcount, hstays, hmem⟩ := State.copyEnd_crew hc hlead hev st
    have hcopies : c0.copies = c.copies := (congrArg Crew.copies hsame :)
    have hticket : c0.ticket = c.ticket := (congrArg Crew.ticket hsame :)
    refine ⟨_, hcrew, congrArg (List.filter _) hcopies, fun hrecent => ?_, fun hqen hlt => ?_, fun hqen => ?_, hmem⟩
    · have hrecent0 : c0.recent x.ticket = true := by rw [← hrecent, Crew.recent, hticket, Crew.recent]
      simp only [Crew.without, hrecent0, if_true, look_put_self]
    · exact hcount _ (by rw [Copy.counter, hqen]; rfl) hlt
    · exact hstays (by rw [Copy.counter, hqen]; rfl)

end Sys2Proof.Machine
end

section
/-! Events of the home engine: guards, releases, forced and pending stores, leases (R271 to R277, R280, R283, R285, R288). -/

namespace Sys2Proof.Machine

/-! ### One request at a guard word (R271, R273) -/

section
variable {s : State} {pa id : Nat} {r : GuardReq}

theorem State.serveList_reserved (h : bits (s.guardWord pa) 62 32 ≠ 0) :
    State.serveList pa [(id, r)] false s = s.replyGuard id 2 := by
  simp only [State.serveList, h, ne_eq, not_false_eq_true, if_true]

variable (hbits : bits (s.guardWord pa) 62 32 = 0)
include hbits

/-- A request that may have the word gets it. -/
theorem State.serveList_grants (hfree : grantable r.shared (s.guardWord pa) = true) (hstuck : (s.syncRec pa).stuck = false)
    (hpublish : s.mustPublish pa r.thread = false) :
    State.serveList pa [(id, r)] false s = s.grantGuard id pa r.shared := by
  simp only [State.serveList, hbits, hfree, hstuck, hpublish, ne_eq, not_true_eq_false, Bool.not_false, Bool.and_self,
    Bool.false_eq_true, if_false, if_true]

/-- One that may not is answered 1 if it asks once, and waits if it does not. -/
theorem State.serveList_refuses (hfree : grantable r.shared (s.guardWord pa) = false ∨ (s.syncRec pa).stuck = true) :
    State.serveList pa [(id, r)] false s = if r.once then s.replyGuard id 1 else s := by
  have hno : (grantable r.shared (s.guardWord pa) && !false && !(s.syncRec pa).stuck) = false := by
    rcases hfree with h | h <;> simp [h]
  simp only [State.serveList, hbits, hno, ne_eq, not_true_eq_false, Bool.false_eq_true, if_false]

theorem State.serveList_exclusive (hshared : r.shared = false) (hword : s.guardWord pa = 0) (hstuck : (s.syncRec pa).stuck = false)
    (hpublish : s.mustPublish pa r.thread = false) : State.serveList pa [(id, r)] false s =
      (s.homeWrite pa (bytesOf 8 (2 ^ 63))).replyGuard id 0 := by
  rw [State.serveList_grants hbits (by rw [hshared, hword]; rfl) hstuck hpublish, State.grantGuard, hshared, hword]
  rfl

theorem State.serveList_shared (hshared : r.shared = true) (hword : s.guardWord pa < 2 ^ 32 - 1)
    (hstuck : (s.syncRec pa).stuck = false) (hpublish : s.mustPublish pa r.thread = false) :
    State.serveList pa [(id, r)] false s = (s.homeWrite pa (bytesOf 8 (s.guardWord pa + 1))).replyGuard id 0 := by
  have hheld : bits (s.guardWord pa) 63 63 = 0 := by unfold bits; omega
  have hcount : bits (s.guardWord pa) 31 0 < 2 ^ 32 - 1 := by unfold bits; omega
  have hfree : grantable r.shared (s.guardWord pa) = true := by
    simp only [grantable, hshared, hheld, hcount, decide_true, if_true, Bool.and_self]
  rw [State.serveList_grants hbits hfree hstuck hpublish, State.grantGuard, hshared]
  rfl

end

/-- What the home writes to a guard word is read there, and no other byte changes. -/
theorem State.homeWrite_guardWord {s : State} (h : s.memOk) (pa : Nat) {n : Nat} (hn : n < 2 ^ 64) :
    (s.homeWrite pa (bytesOf 8 n)).guardWord pa = n := by
  have hread := Memory.readN_writeN h pa (bytesOf 8 n)
  rw [bytesOf_length] at hread
  show natOf ((s.mem.writeN pa (bytesOf 8 n)).readN pa 8) = n
  rw [hread, natOf_bytesOf, Nat.mod_eq_of_lt hn]

theorem State.homeWrite_other (s : State) (pa n : Nat) {a : Nat} (ha : a < pa ∨ pa + 8 ≤ a) :
    (s.homeWrite pa (bytesOf 8 n)).mem.read a = s.mem.read a :=
  Memory.read_writeN_out s.mem pa (bytesOf 8 n) (by rwa [bytesOf_length])

theorem exec_guardRequestRetry {s : State} {id : Nat} {g : GuardReq} (hg : look s.guards id = some g) (hun : g.unqueued = true)
    (hroom : s.guardsAt (homeHub g.pa) < 8192) : exec (.guardRequestRetry id) s =
      .next (({ s with guards := put s.guards id { g with unqueued := false } } : State).serveGuard g.pa) := by
  rw [show exec (.guardRequestRetry id) s = execGuardRequestRetry id s from rfl, execGuardRequestRetry, hg]
  simp only [hun, hroom, decide_true, Bool.and_self, if_true]

theorem exec_replyArrival_guard {s : State} {id v : Nat} {g : GuardReq} (hatom : look s.atoms id = none)
    (hg : look s.guards id = some g) (hreply : g.reply = some v) :
    exec (.replyArrival id) s = .next (s.deliverGuard id g v) := by
  rw [show exec (.replyArrival id) s = execReplyArrival id s from rfl, execReplyArrival, hatom]
  simp only [hg, hreply]

/-! ### Releases (R272, R277, R280) -/

section
variable {s : State} {id : Nat} {r : Release}

theorem exec_releaseWritebackComplete (hr : look s.releases id = some r) (hwait : r.wait = .none) (hfailed : r.failed = none) :
    exec (.releaseWritebackComplete id) s = .next (if s.runs r.ctx then
      State.writeBack id r (s.wbuf.filter fun e => r.entries.contains e.id) s else { s with releases := drop s.releases id }) := by
  rw [show exec (.releaseWritebackComplete id) s = execReleaseWritebackComplete id s from rfl, execReleaseWritebackComplete, hr]
  simp only [hwait, hfailed, ne_eq, not_true_eq_false, or_self, if_false]

/-- The last entry of a release at DEVICE is published where its address is, and the release takes effect. -/
theorem State.writeBack_one {e : WEntry} {x pa : Nat} (hscope : 4 ≤ r.scope) (hcut : s.cutOff e.core = false) (hloc : e.loc = .dev x)
    (htranslate : s.translate (r.who s id e.ctx e.core) e.va 2 = .ok (.dev pa) (s.worldOf e.core)) (hlost : pa / 64 ∉ s.lost) :
    State.writeBack id r [e] s = (s.publishAt e pa).takeEffect id r := by
  have h1 : ¬ r.scope ≤ 1 := by omega
  have h3 : ¬ r.scope ≤ 3 := by omega
  simp only [State.writeBack, h1, h3, hcut, hloc, htranslate, hlost, ne_eq, not_true_eq_false, Bool.false_eq_true, if_false]

/-- A GREL of lanes whose guard is held takes effect there. -/
theorem State.takeEffect_grel {pa core slot l : Nat} {shared : Bool} (hkind : r.kind = .grel pa shared)
    (hagent : r.agent = .lane core slot l) (hleased : s.leased (pa / 64) = false) (hheld : s.heldIn pa shared = true) :
    s.takeEffect id r =
      ({ s with releases := drop s.releases id } : State).dropGuard pa shared r.scope (.warp core slot) := by
  simp only [State.takeEffect, hkind, hagent, hleased, hheld, Bool.false_eq_true, if_false, if_true]

end

/-- The release that forces out the held writes of an object. -/
def WEntry.forcing (e : WEntry) (es : List WEntry) (obj : Nat) : Release :=
  { kind := .forced obj, agent := e.heldBy.1, group := match e.heldBy.1 with | .lane _ _ l => (1 : Word) <<< l | _ => 0,
    ctx := e.ctx, task := 0, core := e.core, scope := 4, entries := (e :: es).map (·.id), pc := e.heldBy.2, handle := 0,
    off := 0, wait := .none, answers := [], extData := [], extErr := [], failed := none }

theorem exec_forcedPublish {s : State} {obj : Nat} {e : WEntry} {es : List WEntry}
    (hheld : s.wbuf.filter (fun e => e.held == some obj) = e :: es)
    (hwanted : ∃ g ∈ s.guards, g.2.pa = obj ∧ g.2.reply = none ∧ g.2.unqueued = false ∧ s.mustPublish obj g.2.thread = true)
    (hnone : ∀ r ∈ s.releases, r.2.kind ≠ .forced obj) : exec (.forcedPublish obj) s =
      .next { s with nextId := s.nextId + 1, releases := put s.releases s.nextId (e.forcing es obj) } := by
  have hany : (s.guards.any fun e => e.2.pa == obj && e.2.reply.isNone && !e.2.unqueued && s.mustPublish obj e.2.thread) =
      true := by
    obtain ⟨g, hg, hpa, hreply, hun, hmust⟩ := hwanted
    exact List.any_eq_true.mpr ⟨g, hg, by simp [hpa, hreply, hun, hmust]⟩
  have hrel : (s.releases.any fun r => r.2.kind == RelKind.forced obj) = false := by
    simp only [List.any_eq_false, beq_iff_eq]
    exact hnone
  have hfor : s.heldFor obj = e :: es := hheld
  rw [show exec (.forcedPublish obj) s = execForcedPublish obj s from rfl, execForcedPublish]
  simp only [hany, State.publishHeld, hfor, hrel, Bool.false_eq_true, if_false, if_true]
  rfl

/-! ### Pending stores (R283) -/

theorem exec_homeDirectoryRequest {s : State} {core line : Nat} {p : Pending} (hp : p ∈ s.pending) (hcore : p.core = core)
    (hline : p.pa / 64 = line) (hfenced : s.fenced p.agent = false) (hcut : s.cutOff core = false) (hlost : line ∉ s.lost) :
    exec (.homeDirectoryRequest core line) s = .next (s.performWhere fun p =>
      p.core == core && p.pa / 64 == line && !s.fenced p.agent) := by
  rw [show exec (.homeDirectoryRequest core line) s = execHomeDirectoryRequest core line s from rfl, execHomeDirectoryRequest]
  simp only [hcut, Bool.not_false, Bool.and_true]
  have hfound : (s.pending.find? fun p => p.core == core && p.pa / 64 == line && !s.fenced p.agent).isSome :=
    List.find?_isSome.mpr ⟨p, hp, by simp [hcore, hline, hfenced]⟩
  obtain ⟨q, hq⟩ := Option.isSome_iff_exists.mp hfound
  simp only [hq, if_neg hlost]

theorem State.performWhere_one {s : State} {p : Pending} (hp : s.pending = [p]) (hleased : s.leased (p.pa / 64) = false) :
    (s.performWhere fun _ => true) = ({ s with pending := [] } : State).coreStore p.core p.pa p.bytes := by
  simp only [State.performWhere, hp, List.filter_cons, List.filter_nil, hleased, Bool.not_false, Bool.and_self, if_true,
    Bool.not_true, Bool.false_eq_true, if_false, List.foldl_cons, List.foldl_nil, State.performPending]

theorem State.coreStore_pending (s : State) (core pa : Nat) (bs : List Byte) : (s.coreStore core pa bs).pending = s.pending := by
  obtain ⟨-, -, -, -, -, -, hown⟩ := (s.coreOwn_sameButHome (pa / 64) core).rest
  obtain ⟨-, -, -, -, -, -, hpatch⟩ := ((s.coreOwn (pa / 64) core).patchLine_sameButHome core pa bs.length).rest
  have hstore : (s.coreStore core pa bs).pending = ((s.coreOwn (pa / 64) core).patchLine core pa bs.length).pending :=
    (congrArg State.pending (State.store_frame _ pa bs) :)
  exact hstore.trans (hpatch.trans hown)

/-! ### Leases (R285, R288) -/

theorem State.coreOwn_dirs (s : State) (line core : Nat) : ∃ dir dieDir, s.coreOwn line core = { s with dir, dieDir } := by
  have hdir : ∃ dir, s.dirWrite line (dieOf core) = { s with dir } := by
    unfold State.dirWrite
    split
    · split
      · exact ⟨s.dir, rfl⟩
      · exact ⟨_, rfl⟩
    · exact ⟨_, rfl⟩
  obtain ⟨dir, hdir⟩ := hdir
  rw [State.coreOwn, hdir]
  exact ⟨_, _, rfl⟩

/-- A warp to which a lease is granted: those that wait for it go on. -/
def Warp.grants (w : Warp) (x : Lease) (start : Nat) : Warp :=
  { w.onLanes fun _ l => if l.wait = .reply x.id then l.pass else l with
    leases := w.leases.map fun y => if y.id = x.id then { y with granted := true, start } else y }

/-- The requests for lines once a lease is granted: the next line of its LEASE stands among them (R285). -/
def State.grantedQ (s : State) (w : Warp) (x : Lease) : List Lease :=
  (s.leaseQ.filter fun (y : Lease) => y.id != x.id) ++
    w.leases.filter fun y => y.id == x.id + 1 && !y.granted && !(s.leaseQ.any fun q => q.id == y.id)

theorem State.grantLease_eq {s : State} (hpending : s.pending = []) (core slot : Nat) (w : Warp) (x : Lease) :
    s.grantLease core slot w x = (({ s with leaseQ := s.grantedQ w x } : State).coreOwn x.line core).onWarp core slot fun w =>
      w.grants x (s.cycleOf core) := by
  rw [State.grantLease, State.performFree_nil hpending]
  rfl

theorem State.grantLease_warp {s : State} {core slot : Nat} {w : Warp} (hw : s.warp? core slot = some w) (x : Lease)
    (hpending : s.pending = []) :
    (s.grantLease core slot w x).warp? core slot = some (w.grants x (s.cycleOf core)) ∧
      (s.grantLease core slot w x).mem = s.mem := by
  obtain ⟨dir, dieDir, hown⟩ := ({ s with leaseQ := s.grantedQ w x } : State).coreOwn_dirs x.line core
  rw [State.grantLease_eq hpending, hown]
  exact ⟨State.warp?_onWarp_of_eq hw _, rfl⟩

theorem exec_leaseGrant {s : State} {core slot : Nat} {w : Warp} {x : Lease} (hw : s.warp? core slot = some w)
    (hx : w.leases.find? (fun x => !x.granted && s.firstLease x) = some x) (hruns : s.runs w.ctx = true)
    (hleased : s.leased x.line = false) (haside : s.asideOn x.line = false) (hcut : s.cutOff core = false)
    (hroom : s.leasesOn core < 16) (hlost : x.line ∉ s.lost) :
    exec (.leaseGrant core slot) s = .next (s.grantLease core slot w x) := by
  have hfull : decide (s.leasesOn core ≥ 16) = false := decide_eq_false (by omega)
  rw [show exec (.leaseGrant core slot) s = execLeaseGrant core slot s from rfl, execLeaseGrant, hw]
  simp only [Option.bind_some, hx, Option.map_some, hruns, hleased, haside, hcut, hfull, Bool.not_true, Bool.or_self,
    Bool.false_eq_true, if_false, if_neg hlost]

/-- A lease as its cycles at a core have run. -/
def Lease.expire (core line now : Nat) (x : Lease) : Lease :=
  if x.core = core ∧ x.line = line ∧ x.granted = true ∧ x.ended = none ∧ x.start + x.hold ≤ now then { x with ended := some 1 }
  else x

/-- A warp whose leases have run so. -/
def Warp.expire (core line now : Nat) (w : Warp) : Warp := { w with leases := w.leases.map (Lease.expire core line now) }

theorem exec_leaseExpiry (s : State) (core line : Nat) : exec (.leaseExpiry core line) s =
    .next ({ s with warps := mapS s.warps fun _ w => w.expire core line (s.cycleOf core) } : State).tidyLeases := by
  have hdue : ∀ x : Lease, (if (x.core == core && x.line == line && x.granted && x.ended.isNone &&
      decide (s.cycleOf core ≥ x.start + x.hold)) = true then { x with ended := some 1 } else x) =
        x.expire core line (s.cycleOf core) := fun x => by
    simp only [Lease.expire, Bool.and_eq_true, beq_iff_eq, Option.isNone_iff_eq_none, decide_eq_true_eq, ge_iff_le, and_assoc]
  rw [show exec (.leaseExpiry core line) s = execLeaseExpiry core line s from rfl, execLeaseExpiry]
  simp only [hdue]
  rfl

/-- Settles O40: each event by the lemma of what it does. -/
theorem homeEvents : Obligations.HomeEvents := by
  unfold Obligations.HomeEvents
  refine ⟨fun s pa id r hbits hpublish hstuck => ⟨fun hshared hword => State.serveList_exclusive hbits hshared hword hstuck hpublish,
      fun hshared hword => State.serveList_shared hbits hshared hword hstuck hpublish, fun hno honce => ?_, fun hno honce => ?_⟩,
    fun s pa id r hbits => State.serveList_reserved hbits,
    fun s pa id r hbits hstuck => State.serveList_refuses hbits (.inr hstuck),
    fun s pa n h hn => ⟨State.homeWrite_guardWord h pa hn, fun a ha => s.homeWrite_other pa n ha⟩,
    fun s id g hg hun hroom => exec_guardRequestRetry hg hun hroom,
    fun s id v g hatom hg hreply => exec_replyArrival_guard hatom hg hreply,
    fun s id r hr hwait hfailed => ⟨fun hruns hes => ?_, fun e x pa hruns hes hscope hcut hloc htr hlost => ?_, fun hruns => ?_⟩,
    fun s id pa shared r core slot l hkind hagent hleased hheld => State.takeEffect_grel hkind hagent hleased hheld,
    fun s obj e es hheld hwanted hnone => ⟨_, _, exec_forcedPublish hheld hwanted hnone, look_put_self _ _ _, rfl, rfl, rfl, rfl,
      rfl, rfl⟩,
    fun s core line p hp hcore hline hfenced hcut hlost => exec_homeDirectoryRequest hp hcore hline hfenced hcut hlost,
    fun s p hp hleased h => ?_,
    fun s core slot w x hw hx hruns hleased haside hcut hroom hlost hpending => ?_,
    fun s core line => ⟨_, exec_leaseExpiry s core line, rfl, fun k w hw =>
      ⟨w.expire core line (s.cycleOf core), (look_mapS' s.warps (fun _ w => w.expire core line (s.cycleOf core)) k).trans
        (congrArg (Option.map _) hw), rfl, rfl⟩⟩⟩
  · rw [State.serveList_refuses hbits (.inl hno), honce]
    rfl
  · rw [State.serveList_refuses hbits (.inl hno), honce]
    rfl
  · rw [exec_releaseWritebackComplete hr hwait hfailed, if_pos hruns, hes]
    rfl
  · rw [exec_releaseWritebackComplete hr hwait hfailed, if_pos hruns, hes, State.writeBack_one hscope hcut hloc htr hlost]
  · rw [exec_releaseWritebackComplete hr hwait hfailed, hruns]
    rfl
  · rw [State.performWhere_one hp hleased]
    refine ⟨State.coreStore_pending _ _ _ _, fun k hk => ?_, fun a ha => ?_⟩
    · rw [State.coreStore_mem, Memory.read_writeN_in h _ _ hk, List.getD_eq_getElem _ _ hk]
    · rw [State.coreStore_mem, Memory.read_writeN_out _ _ _ ha]
  · obtain ⟨hwarp, hmem⟩ := State.grantLease_warp hw x hpending
    exact ⟨_, _, exec_leaseGrant hw hx hruns hleased haside hcut hroom hlost, hwarp, hmem, rfl,
      fun l hl => Warp.lane_onLanes w (fun _ l => if l.wait = .reply x.id then l.pass else l) l hl⟩

end Sys2Proof.Machine
end

section
/-! Guards: GACQ, GTRY and GREL (R270 to R273). -/

namespace Sys2Proof.Machine

/-! ### A thread in a state that its instruction has changed -/

section
variable {i : Iss} {u : State} {w : Warp}

/-- The warp that ends an instruction, as the instruction has left it so far. -/
theorem Iss.done_ended_of (h : u.warp? i.core i.slot = some w) : Ended u (i.done u) i w :=
  ⟨State.onWarp_only u _ _ _, _, State.warp?_onWarp_of_eq h _, i.passed_advance w⟩

theorem Iss.await_stands_of (h : u.warp? i.core i.slot = some w) (m : Word) (wait : Wait) :
    OnlyWarp u (i.await u m fun _ => wait) i.core i.slot ∧
      ∃ w', (i.await u m fun _ => wait).warp? i.core i.slot = some w' ∧ i.Stands w w' m wait := by
  obtain ⟨honly, w', hw', hstands⟩ := Iss.await_stands (i := { i with w }) h m wait
  exact ⟨honly, w', hw', hstands.same, hstands.instr, hstands.count, hstands.stand, hstands.gone, hstands.stay⟩

end

/-- The lead thread that ends one. -/
theorem LIss.done_became_of {i : LIss} {u : State} {k : Crew} (h : u.crew? i.core i.slot = some k) :
    OnlyCrew u (i.done u) i.core i.slot ∧ (i.done u).crew? i.core i.slot = some { k with lead := k.lead.past i.f } :=
  ⟨State.onCrew_only u _ _ _, look_adjust_of_eq h _⟩

/-! ### GACQ and GTRY (R271, R273) -/

/-- The request that a thread makes. -/
def Caller.guardReq (c : Caller) (u : State) (pa : Nat) (once : Bool) : GuardReq :=
  { thread := c.thread, lane := c.lanes.headD 0, group := match c with | .warp i _ => i.act | .lead _ => 0,
    ctx := c.ctx, pa, shared := c.mo == 1, once, dest := c.f.d.toNat,
    unqueued := !once && decide (8192 ≤ u.guardsAt (homeHub pa)), reply := none }

/-- The request stands at its home, and the thread waits for its answer. -/
def Caller.requested (c : Caller) (u : State) (pa : Nat) (once : Bool) : State :=
  c.await { u with nextId := u.nextId + 1, guards := put u.guards u.nextId (c.guardReq u pa once) } (.reply u.nextId)

theorem Caller.requestGuard_eq (c : Caller) (u : State) (pa : Nat) (once : Bool) :
    c.requestGuard u pa once = (c.requested u pa once).serveGuard pa := by
  cases c <;> rfl

/-- The thread's earlier stores to the guard's line are performed, and its request is made. -/
theorem Caller.acquireGuard_requests {c : Caller} {s : State} {pa : Nat} (hreach : c.reaches s c.guardRef fun _ => pa)
    (hm : lanesOf c.mask = c.lanes) (hlane : c.lanes.headD 0 ∈ c.lanes) (hacquired : c.acquired s = .ok s)
    (hleased : c.leasedOut s pa = false) (hcut : s.cutOff c.core = false) (hfenced : s.fenced (c.agent (c.lanes.headD 0)) = false)
    (once : Bool) : c.acquireGuard s once =
      (c.requested (s.performWhere fun p => p.agent == c.agent (c.lanes.headD 0) && p.pa / 64 == pa / 64) pa once).serveGuard
        pa := by
  rw [Caller.acquireGuard, Caller.settle_ok hreach hm _ _ hacquired]
  simp only [Caller.reaches_loc hreach hlane, hleased, hcut, hfenced, Bool.or_self, Bool.false_and, Bool.false_eq_true, if_false]
  exact c.requestGuard_eq _ pa once

/-- The two forms, each with its opcode and whether it asks once. -/
def acquireForms : List ((Fields → Instr) × Nat × Bool) := [(.gacq, 0x02, false), (.gtry, 0x03, true)]

theorem exec_acquireForm {c : Fields → Instr} {op : Nat} {once : Bool} (h : (c, op, once) ∈ acquireForms) (f : Fields) (s : State) :
    exec (c f) s = issue 7 op f s anyway (fun s i => i.elected s fun c => c.acquireGuard s once) fun s i =>
      (Caller.lead i).acquireGuard s once := by
  simp only [acquireForms, List.mem_cons, Prod.mk.injEq, List.not_mem_nil, or_false] at h
  rcases h with ⟨rfl, rfl, rfl⟩ | ⟨rfl, rfl, rfl⟩ <;> rfl

section
variable {c : Fields → Instr} {op : Nat} {once : Bool} (hform : (c, op, once) ∈ acquireForms) (pa : Nat) (u : State)
include hform

theorem acquire_lane_does (w : Warp) : LaneDoesWhen c 7 op (fun s i => i.act ≠ 0 ∧
      i.elect.reaches s i.elect.guardRef (fun _ => pa) ∧ i.elect.acquired s = .ok s ∧ i.elect.leasedOut s pa = false ∧
      s.cutOff i.core = false ∧ s.fenced (.lane i.core i.slot (lowest i.act)) = false ∧
      u = (s.performWhere fun p => p.agent == .lane i.core i.slot (lowest i.act) && p.pa / 64 == pa / 64) ∧
      u.warp? i.core i.slot = some w)
    (fun _ t i => ∃ (v : State) (w' : Warp), t = v.serveGuard pa ∧ v.nextId = u.nextId + 1 ∧
      v.guards = put u.guards u.nextId { thread := .warp i.core i.slot, lane := lowest i.act, group := i.act,
                                         ctx := i.w.ctx, pa, shared := i.mo == 1, once, dest := i.f.d.toNat,
                                         unqueued := !once && decide (8192 ≤ u.guardsAt (homeHub pa)), reply := none } ∧
      v.warp? i.core i.slot = some w' ∧ i.Stands w w' i.act (.reply u.nextId) ∧
      (∀ k, k ≠ warpKey i.core i.slot → look v.warps k = look u.warps k) ∧
      { v with guards := u.guards, warps := u.warps, nextId := u.nextId } = u) := by
  refine .of_effect (exec_acquireForm hform) (fun _ _ _ => rfl)
    fun s i h ⟨hact, hreach, hacquired, hleased, hcut, hfenced, hu, hw⟩ => ?_
  have hlane : i.elect.lanes.headD 0 = lowest i.act := i.elect_lane
  have hmem : i.elect.lanes.headD 0 ∈ i.elect.lanes := by rw [i.elect_lanes]; exact List.mem_singleton_self _
  rw [Iss.elected_of_ne hact, Caller.acquireGuard_requests hreach rfl hmem hacquired hleased hcut (by rw [hlane]; exact hfenced),
    hlane, show i.elect.agent (lowest i.act) = .lane i.core i.slot (lowest i.act) from rfl, ← hu]
  obtain ⟨honly, w', hw', hstands⟩ := Iss.await_stands_of (i := i)
    (u := { u with nextId := u.nextId + 1, guards := put u.guards u.nextId (i.elect.guardReq u pa once) }) hw i.act
    (.reply u.nextId)
  refine ⟨_, w', rfl, rfl, ?_, hw', hstands, honly.others, rfl⟩
  rw [← hlane]
  rfl

theorem acquire_lead_does (k : Crew) : LeadDoesWhen c 7 op (fun s i =>
      (Caller.lead i).reaches s (Caller.lead i).guardRef (fun _ => pa) ∧
      (Caller.lead i).acquired s = .ok s ∧ (Caller.lead i).leasedOut s pa = false ∧ s.cutOff i.core = false ∧
      s.fenced (.lead i.core i.slot) = false ∧
      u = (s.performWhere fun p => p.agent == .lead i.core i.slot && p.pa / 64 == pa / 64) ∧
      u.crew? i.core i.slot = some k)
    (fun _ t i => ∃ v : State, t = v.serveGuard pa ∧ v.nextId = u.nextId + 1 ∧
      v.guards = put u.guards u.nextId { thread := .lead i.core i.slot, lane := 0, group := 0, ctx := i.c.ctx, pa,
                                         shared := i.mo == 1, once, dest := i.f.d.toNat,
                                         unqueued := !once && decide (8192 ≤ u.guardsAt (homeHub pa)), reply := none } ∧
      v.crew? i.core i.slot = some { k with lead := i.stands k.lead (.reply u.nextId) } ∧
      (∀ n, n ≠ crewKey i.core i.slot → look v.crews n = look u.crews n) ∧
      { v with guards := u.guards, crews := u.crews, nextId := u.nextId } = u) := by
  refine .of_issue (exec_acquireForm hform) fun s i h ⟨hreach, hacquired, hleased, hcut, hfenced, hu, hk⟩ => ?_
  rw [Caller.acquireGuard_requests hreach lanesOf_one (List.mem_singleton_self _) hacquired hleased hcut hfenced]
  subst hu
  exact ⟨_, rfl, rfl, rfl, look_adjust_of_eq hk _, fun n hn => look_adjust_ne _ _ hn, rfl⟩

end

/-! ### GREL (R272) -/

/-- The state in which a release of a guard stands. -/
def Caller.grelState (c : Caller) (u : State) (r : Release) : State :=
  { u with nextId := u.nextId + 1, wbuf := (u.passWrites c.core).wbuf, releases := put u.releases u.nextId r }

/-- The release that a GREL makes. -/
def Caller.ownGrel (c : Caller) (u : State) (pa : Nat) : Release :=
  c.grelOf u pa (c.agent (c.actors.headD 0)) (match c with | .warp i _ => i.act | .lead _ => 0) (c.lanes.headD 0)

theorem Caller.ownGrel_eq (c : Caller) (u : State) (pa : Nat) : c.ownGrel u pa =
    c.grelOf u pa (c.agent (c.actors.headD 0)) (match c with | .warp i _ => i.act | .lead _ => 0) (c.lanes.headD 0) := rfl

/-- The lowest lane of a mask is the first of its lanes. -/
theorem lanesOf_headD (m : Word) : (lanesOf m).headD 0 = lowest m := by
  rw [List.headD_eq_head?_getD, lanesOf, List.head?_filter]
  rfl

/-- A GREL whose earlier accesses are performed leaves a release of its writes and ends. -/
theorem Caller.releaseGuard_releases {c : Caller} {s u : State} {pa : Nat} (hreach : c.reaches s c.guardRef fun _ => pa)
    (hm : lanesOf c.mask = c.lanes) (hlane : c.lanes.headD 0 ∈ c.lanes)
    (hpeer : c.atPeer s (c.handle (c.lanes.headD 0)) = false) (hdone : c.outstanding s = []) (hperformed : c.performed s = .ok u) :
    c.releaseGuard s = c.done (c.grelState u (c.ownGrel u pa)) := by
  have hgate : (if c.atPeer s (c.handle (c.lanes.headD 0)) then c.released s else do c.performed (← c.completion s)) = .ok u := by
    rw [hpeer, Caller.completion, hdone]
    exact hperformed
  rw [Caller.releaseGuard, Caller.settle_ok hreach hm _ _ (by exact hgate)]
  simp only [Caller.reaches_loc hreach hlane]
  rfl

theorem grel_lane_does (pa : Nat) (u : State) (w : Warp) : LaneDoesWhen .grel 7 0x04 (fun s i => i.act ≠ 0 ∧
      i.elect.reaches s i.elect.guardRef (fun _ => pa) ∧ i.elect.atPeer s (i.elect.handle (lowest i.act)) = false ∧
      i.elect.outstanding s = [] ∧ i.elect.performed s = .ok u ∧ u.warp? i.core i.slot = some w)
    (fun _ t i => Ended { u with
      nextId := u.nextId + 1, wbuf := (u.passWrites i.core).wbuf,
      releases := put u.releases u.nextId
        (i.elect.grelOf u pa (.lane i.core i.slot (lowest i.act)) i.act (lowest i.act)) } t i w) := by
  refine .of_effect (fun _ _ => rfl) (fun _ _ _ => rfl) fun s i h ⟨hact, hreach, hpeer, hdone, hperformed, hw⟩ => ?_
  have hlane : i.elect.lanes.headD 0 = lowest i.act := i.elect_lane
  have hmem : i.elect.lanes.headD 0 ∈ i.elect.lanes := by rw [i.elect_lanes]; exact List.mem_singleton_self _
  have hactor : i.elect.actors.headD 0 = lowest i.act := lanesOf_headD i.act
  rw [Iss.elected_of_ne hact,
    Caller.releaseGuard_releases hreach rfl hmem (by rw [hlane]; exact hpeer) hdone hperformed, i.elect.ownGrel_eq, hlane, hactor]
  exact Iss.done_ended_of hw

theorem grel_lead_does (pa : Nat) (u : State) (k : Crew) : LeadDoesWhen .grel 7 0x04 (fun s i =>
      (Caller.lead i).reaches s (Caller.lead i).guardRef (fun _ => pa) ∧
      (Caller.lead i).atPeer s ((Caller.lead i).handle 0) = false ∧
      (Caller.lead i).outstanding s = [] ∧ (Caller.lead i).performed s = .ok u ∧ u.crew? i.core i.slot = some k)
    (fun _ t i => OnlyCrew { u with
        nextId := u.nextId + 1, wbuf := (u.passWrites i.core).wbuf,
        releases := put u.releases u.nextId ((Caller.lead i).grelOf u pa (.lead i.core i.slot) 0 0) } t i.core i.slot ∧
      t.crew? i.core i.slot = some { k with lead := k.lead.past i.f }) := by
  refine .of_issue (fun _ _ => rfl) fun s i h ⟨hreach, hpeer, hdone, hperformed, hk⟩ => ?_
  rw [Caller.releaseGuard_releases hreach lanesOf_one (List.mem_singleton_self _) hpeer hdone hperformed]
  exact LIss.done_became_of hk

end Sys2Proof.Machine
end

section
/-! PUBLISH and DISCARD (R278, R279). -/

namespace Sys2Proof.Machine

/-! ### PUBLISH (R278) -/

section
variable {c : Caller} {s : State} {l pa : Nat} {sec : Bool} (hlane : c.lanes.headD 0 = l)
  (hrange : c.rangeOut s l (c.homeOff l) 1 publishOk = .ok (.dev pa) sec)
include hlane hrange

/-- A range of a region that is not GUARDED has nothing to publish. -/
theorem Caller.publish_unguarded (hkind : Entry.kind (s.entry (c.who s l) (c.handle l)) ≠ 2) : c.publish s = c.done s := by
  subst hlane
  rw [Caller.publish, Caller.follow_ok (gate := open_) (fun _ _ => ⟨_, _, hrange⟩) rfl]
  exact if_pos hkind

/-- A range of device memory is published by its bounds. -/
theorem Caller.publish_range {lo : Nat} (hkind : Entry.kind (s.entry (c.who s l) (c.handle l)) = 2)
    (hspace : Entry.space (s.entry (c.who s l) (c.handle l)) ≠ 1)
    (hlo : lo = Entry.base (s.entry (c.who s l) (c.handle l)) + (c.homeOff l).toNat) :
    c.publish s = c.publishRange s l lo (lo + c.len l) := by
  subst hlane hlo
  rw [Caller.publish, Caller.follow_ok (gate := open_) (fun _ _ => ⟨_, _, hrange⟩) rfl]
  exact (if_neg (not_not.mpr hkind)).trans (if_neg hspace)

end

section
variable {c : Caller} {s : State} {l lo hi : Nat}

/-- At a scope that the core has, or with nothing unpublished, the write-back ends at once. -/
theorem Caller.publishRange_none (h : c.scope 4 ≤ 1 ∨ s.unpublishedIn c.core c.ctx lo hi = []) :
    c.publishRange s l lo hi = c.done s := by
  unfold Caller.publishRange
  rcases h with hscope | hnone
  · exact if_pos hscope
  · simp only [hnone, List.find?_nil, List.foldl_nil, ite_self]

/-- Where every entry's page is found the entries go home, or as far as the scope asks. -/
theorem Caller.publishRange_performs (hscope : 2 ≤ c.scope 4) {at_ : WEntry → Nat}
    (hpages : ∀ e ∈ s.unpublishedIn c.core c.ctx lo hi, s.translate (c.who s l) e.va 2 = .ok (.dev (at_ e)) (c.who s l).secure) :
    c.publishRange s l lo hi = c.done ((s.unpublishedIn c.core c.ctx lo hi).foldl (fun s e =>
      if c.scope 4 ≤ 3 then s.keepBelow e none true (.dev (at_ e)) else s.publishAt e (at_ e)) s) := by
  unfold Caller.publishRange
  extract_lets es who scope out bad
  have hout : ∀ e ∈ es, out e = .ok (.dev (at_ e)) who.secure := fun e he => by
    simp only [out, who, hpages e he, ne_eq, not_true_eq_false, if_false]
  have hbad : bad = none := List.find?_eq_none.mpr fun e he => by simp only [hout e he, Bool.false_eq_true, not_false_eq_true]
  rw [if_neg (by omega)]
  simp only [hbad]
  exact congrArg c.done (foldl_congr_mem _ _ _ (fun t e he => by simp only [hout e he, scope]) s)

end

section
variable {c : Caller} {s : State} {l pa lo hi : Nat} {sec : Bool} (hlane : c.lanes.headD 0 = l)
  (hrange : c.rangeOut s l (c.homeOff l) 1 publishOk = .ok (.dev pa) sec)
  (hlo : lo = Entry.base (s.entry (c.who s l) (c.handle l)) + (c.homeOff l).toNat) (hhi : hi = lo + c.len l)
include hlane hrange hlo hhi

theorem Caller.publish_ends (h : Entry.kind (s.entry (c.who s l) (c.handle l)) ≠ 2 ∨
    Entry.space (s.entry (c.who s l) (c.handle l)) ≠ 1 ∧ (c.scope 4 ≤ 1 ∨ s.unpublishedIn c.core c.ctx lo hi = [])) :
    c.publish s = c.done s := by
  by_cases hkind : Entry.kind (s.entry (c.who s l) (c.handle l)) = 2
  · obtain ⟨hspace, hnone⟩ := h.resolve_left (not_not.mpr hkind)
    rw [Caller.publish_range hlane hrange hkind hspace hlo, ← hhi, Caller.publishRange_none hnone]
  · exact Caller.publish_unguarded hlane hrange hkind

theorem Caller.publish_performs (hkind : Entry.kind (s.entry (c.who s l) (c.handle l)) = 2)
    (hspace : Entry.space (s.entry (c.who s l) (c.handle l)) ≠ 1) (hscope : 2 ≤ c.scope 4) {at_ : WEntry → Nat}
    (hpages : ∀ e ∈ s.unpublishedIn c.core c.ctx lo hi, s.translate (c.who s l) e.va 2 = .ok (.dev (at_ e)) (c.who s l).secure) :
    c.publish s = c.done ((s.unpublishedIn c.core c.ctx lo hi).foldl (fun s e =>
      if c.scope 4 ≤ 3 then s.keepBelow e none true (.dev (at_ e)) else s.publishAt e (at_ e)) s) := by
  rw [Caller.publish_range hlane hrange hkind hspace hlo, ← hhi, Caller.publishRange_performs hscope hpages]

end

theorem State.patchLine_wbuf (s : State) (core pa n : Nat) : (s.patchLine core pa n).wbuf = s.wbuf := by
  unfold State.patchLine
  split
  · rfl
  · unfold State.notePatch
    split <;> rfl

/-- An entry published is gone from the buffers. -/
theorem State.publishAt_wbuf (s : State) (e : WEntry) (pa : Nat) : ∀ x ∈ (s.publishAt e pa).wbuf, x.id ≠ e.id := by
  have hwbuf : (s.publishAt e pa).wbuf = (s.wbuf.filter fun x => x.id != e.id).map fun x =>
      if x.id < e.id then x.under pa e.bytes else x := by
    obtain ⟨dir, dieDir, hown⟩ := ((({ s with wbuf := s.wbuf.filter fun x => x.id != e.id } : State).overtake pa e.bytes
      fun x => decide (x.id < e.id)).unstick pa e.bytes.length).coreOwn_dirs (pa / 64) e.core
    rw [State.publishAt, hown]
    refine (State.patchLine_wbuf _ _ _ _).trans (List.map_congr_left fun x _ => ?_)
    simp only [decide_eq_true_eq]
  have hid : ∀ x : WEntry, (x.under pa e.bytes).id = x.id := fun x => by
    unfold WEntry.under
    split
    · split <;> rfl
    · rfl
  rw [hwbuf]
  intro x hx
  obtain ⟨y, hy, rfl⟩ := List.mem_map.mp hx
  have hne : y.id ≠ e.id := by simpa using (List.mem_filter.mp hy).2
  split
  · rw [hid]; exact hne
  · exact hne

/-! ### DISCARD (R279) -/

/-- The buffered writes that a DISCARD of a range cancels. -/
def State.cancelled (s : State) (es : List WEntry) : State :=
  { s with wbuf := s.wbuf.filter fun e => !(((es.filter fun e => !s.outOfReach e).map (·.id)).contains e.id) }

/-- The buffered writes to the lines of a range that a region's space puts at home or at a peer. -/
def State.unpublishedAt (s : State) (b : BitVec 256) (core ctx lo hi : Nat) : List WEntry :=
  if Entry.space b = 1 then s.unpublishedFor core ctx (Entry.endpt b) lo hi else s.unpublishedIn core ctx lo hi

section
variable {c : Caller} {s : State} {l pa : Nat} {sec : Bool} {b : BitVec 256} {o n : Nat} (hlane : c.lanes.headD 0 = l)
  (hrange : (c.rangeOut s l (c.homeOff l) 1 publishOk).unparked = .ok (.dev pa) sec)
  (hb : b = s.entry (c.who s l) (c.handle l)) (ho : o = Entry.base b + (c.homeOff l).toNat) (hn : n = c.len l)
include hlane hrange hb ho hn

theorem Caller.discard_clean (hkind : Entry.kind b ≠ 2) : c.discard s = c.done (s.dropCopies c.core c.ctx o (o + n)) := by
  subst hlane hb ho hn
  rw [Caller.discard, Caller.follow_ok (gate := open_) (fun _ _ => ⟨_, _, hrange⟩) rfl]
  exact if_neg hkind

theorem Caller.discard_guarded (hkind : Entry.kind b = 2) : c.discard s =
    c.done ((s.cancelled (s.unpublishedAt b c.core c.ctx (o / 64 * 64) ((o + n + 63) / 64 * 64))).dropCopies c.core c.ctx
      (o / 64 * 64) ((o + n + 63) / 64 * 64)) := by
  subst hlane hb ho hn
  rw [Caller.discard, Caller.follow_ok (gate := open_) (fun _ _ => ⟨_, _, hrange⟩) rfl]
  exact if_pos hkind

end

theorem discard_lane_does (pa : Nat) (sec : Bool) (b : BitVec 256) (o n : Nat) (es : List WEntry) :
    LaneDoesWhen .discard 7 0x08 (fun s i => i.act ≠ 0 ∧
      (i.elect.rangeOut s (lowest i.act) (i.elect.homeOff (lowest i.act)) 1 publishOk).unparked = .ok (.dev pa) sec ∧
      b = s.entry (i.elect.who s (lowest i.act)) (i.elect.handle (lowest i.act)) ∧
      o = Entry.base b + (i.elect.homeOff (lowest i.act)).toNat ∧ n = i.elect.len (lowest i.act) ∧
      es = s.unpublishedAt b i.core i.w.ctx (o / 64 * 64) ((o + n + 63) / 64 * 64))
    (fun s t i =>
      (Entry.kind b ≠ 2 → Ended (s.dropCopies i.core i.w.ctx o (o + n)) t i i.w) ∧
      (Entry.kind b = 2 → Ended ((s.cancelled es).dropCopies i.core i.w.ctx
        (o / 64 * 64) ((o + n + 63) / 64 * 64)) t i i.w)) := by
  refine .of_effect (fun _ _ => rfl) (fun _ _ _ => rfl) fun s i h ⟨hact, hrange, hb, ho, hn, hes⟩ => ?_
  rw [Iss.elected_of_ne hact]
  refine ⟨fun hkind => ?_, fun hkind => ?_⟩
  · rw [Caller.discard_clean i.elect_lane hrange hb ho hn hkind]
    exact Iss.done_ended_of (State.laneIss_warp h)
  · rw [Caller.discard_guarded i.elect_lane hrange hb ho hn hkind, hes]
    exact Iss.done_ended_of (State.laneIss_warp h)

theorem discard_lead_does (pa : Nat) (sec : Bool) (b : BitVec 256) (o n : Nat) (es : List WEntry) :
    LeadDoesWhen .discard 7 0x08 (fun s i =>
      ((Caller.lead i).rangeOut s 0 ((Caller.lead i).homeOff 0) 1 publishOk).unparked = .ok (.dev pa) sec ∧
      b = s.entry ((Caller.lead i).who s 0) ((Caller.lead i).handle 0) ∧
      o = Entry.base b + ((Caller.lead i).homeOff 0).toNat ∧ n = (Caller.lead i).len 0 ∧
      es = s.unpublishedAt b i.core i.c.ctx (o / 64 * 64) ((o + n + 63) / 64 * 64))
    (fun s t i =>
      (Entry.kind b ≠ 2 → LeadBecame (s.dropCopies i.core i.c.ctx o (o + n)) t i (i.c.lead.past i.f)) ∧
      (Entry.kind b = 2 → LeadBecame ((s.cancelled es).dropCopies i.core i.c.ctx
        (o / 64 * 64) ((o + n + 63) / 64 * 64)) t i (i.c.lead.past i.f))) := by
  refine .of_issue (fun _ _ => rfl) fun s i h ⟨hrange, hb, ho, hn, hes⟩ => ⟨fun hkind => ?_, fun hkind => ?_⟩
  · rw [Caller.discard_clean rfl hrange hb ho hn hkind]
    exact LIss.done_became_of (State.leadIss_crew h)
  · rw [Caller.discard_guarded rfl hrange hb ho hn hkind, hes]
    exact LIss.done_became_of (State.leadIss_crew h)

end Sys2Proof.Machine
end

section
/-! Owned grains: OWNQ and MOVE (R266 to R269). -/

namespace Sys2Proof.Machine

/-! ### Owner entries and the pair of OWNQ -/

theorem getLsbD_w64 (n k : Nat) (h : k < 64) : (w64 n).getLsbD k = decide (n / 2 ^ k % 2 = 1) := by
  rw [w64, BitVec.getLsbD_ofNat, Nat.testBit_eq_decide_div_mod_eq, decide_eq_true h, Bool.true_and]

theorem toNat_w64_of_lt {n : Nat} (h : n < 2 ^ 64) : (w64 n).toNat = n := by
  rw [w64, BitVec.toNat_ofNat, Nat.mod_eq_of_lt h]

theorem Bool.flag_eq (b : Bool) (n : Nat) : (if b = true then n else 0) = b.toNat * n := by cases b <;> simp

theorem Bool.decide_toNat : ∀ b : Bool, decide (b.toNat = 1) = b := by decide

theorem Owner.core_lt (e : DWord) : Owner.core e < 2 ^ 12 := Nat.mod_lt _ (by norm_num)
theorem Owner.slot_lt (e : DWord) : Owner.slot e < 4 := Nat.mod_lt _ (by norm_num)
theorem Owner.moves_lt (e : DWord) : Owner.moves e < 2 ^ 24 := Nat.mod_lt _ (by norm_num)

theorem Owner.ctx_lt (e : DWord) : Owner.ctx e / 64 < 2 ^ 10 := by
  unfold Owner.ctx ctxKey bits
  omega

/-- The fields of an entry that fit are read back. -/
theorem Owner.make_fields {claimed parked loose : Bool} {core slot vd ctx moves : Nat} (hcore : core < 2 ^ 12) (hslot : slot < 4)
    (hvd : vd < 2 ^ 10) (hctx : ctx < 64) :
    Owner.claimed (Owner.make claimed parked loose core slot vd ctx moves) = claimed ∧
      Owner.core (Owner.make claimed parked loose core slot vd ctx moves) = core ∧
      Owner.slot (Owner.make claimed parked loose core slot vd ctx moves) = slot := by
  have hc : claimed.toNat < 2 := Bool.toNat_lt _
  have hp : parked.toNat < 2 := Bool.toNat_lt _
  have hl : loose.toNat < 2 := Bool.toNat_lt _
  have hm : moves % 2 ^ 24 < 2 ^ 24 := Nat.mod_lt _ (by norm_num)
  simp only [Owner.make, Owner.claimed, Owner.core, Owner.slot, Bool.flag_eq]
  generalize moves % 2 ^ 24 = mv at hm
  refine ⟨?_, ?_, ?_⟩
  · rw [getLsbD_w64 _ _ (by norm_num)]
    rw [show (claimed.toNat * 2 ^ 63 + parked.toNat * 2 ^ 62 + loose.toNat * 2 ^ 61 + core * 2 ^ 48 + slot * 2 ^ 46 + vd * 2 ^ 36 +
      ctx * 2 ^ 30 + mv) / 2 ^ 63 % 2 = claimed.toNat by omega, Bool.decide_toNat]
  · rw [toNat_w64_of_lt (by omega), bits]
    omega
  · rw [toNat_w64_of_lt (by omega), bits]
    omega

/-- The pair of OWNQ holds what it reports (R269). -/
theorem ownqPair_fields (e : DWord) (core ctx : Nat) : (ownqPair e core ctx).getLsbD 31 = Owner.claimed e ∧
    (ownqPair e core ctx).getLsbD 30 = Owner.names e core ctx ∧ (ownqPair e core ctx).getLsbD 29 = Owner.parked e ∧
    bits (ownqPair e core ctx).toNat 11 0 = Owner.core e ∧ bits (ownqPair e core ctx).toNat 13 12 = Owner.slot e ∧
    bits (ownqPair e core ctx).toNat 63 32 = Owner.moves e := by
  have hc : (Owner.claimed e).toNat < 2 := Bool.toNat_lt _
  have hn : (Owner.names e core ctx).toNat < 2 := Bool.toNat_lt _
  have hp : (Owner.parked e).toNat < 2 := Bool.toNat_lt _
  have hcore := Owner.core_lt e
  have hslot := Owner.slot_lt e
  have hmoves := Owner.moves_lt e
  simp only [ownqPair, Bool.flag_eq]
  generalize hsum : (Owner.claimed e).toNat * 2 ^ 31 + (Owner.names e core ctx).toNat * 2 ^ 30 + (Owner.parked e).toNat * 2 ^ 29 +
    Owner.slot e * 2 ^ 12 + Owner.core e + Owner.moves e * 2 ^ 32 = n
  rw [getLsbD_w64 _ _ (by norm_num), getLsbD_w64 _ _ (by norm_num), getLsbD_w64 _ _ (by norm_num),
    toNat_w64_of_lt (by omega)]
  refine ⟨?_, ?_, ?_, ?_, ?_, ?_⟩
  · rw [show n / 2 ^ 31 % 2 = (Owner.claimed e).toNat by omega, Bool.decide_toNat]
  · rw [show n / 2 ^ 30 % 2 = (Owner.names e core ctx).toNat by omega, Bool.decide_toNat]
  · rw [show n / 2 ^ 29 % 2 = (Owner.parked e).toNat by omega, Bool.decide_toNat]
  all_goals
    unfold bits
    omega

theorem ownq_does (pa : Nat → Nat) : LaneDoesWhen .ownq 7 0x01 (fun s i => i.act ≠ 0 ∧ (Caller.warp i i.act).reaches s
      (fun l => { h := (Caller.warp i i.act).handle l, o := (Caller.warp i i.act).homeOff l,
                  q := { w := 1, align := 1, acc := 1, ok4 := ownqOk, own := false } }) pa)
    (fun s t i => Wrote s t i true fun l => ownqPair (s.ownerOf (pa l / 512)) i.core i.w.ctx) := by
  refine .of_lane (fun _ _ => rfl) fun s i h ⟨hact, hreach⟩ => ?_
  rw [Iss.acting_of_ne hact, Caller.settle_ok (gate := open_) hreach rfl _ _ rfl]
  refine (Iss.write_wrote (State.laneIss_warp h) _ _).congr fun l hl => ?_
  simp only [Caller.reaches_loc hreach hl]

/-! ### MOVE (R268) -/

/-- An instruction of the lane stream whose effect names its fields. -/
theorem LaneDoesWhen.of_fields {c : Fields → Instr} {eng op : Nat} {k : Fields → State → Iss → State}
    {pre : State → Iss → Prop} {post : State → State → Iss → Prop} (hexec : ∀ f s, exec (c f) s = laneInstr eng op f s (k f))
    (heffect : ∀ s i, s.laneIss eng op i.f = some i → pre s i → post s (k i.f s i) i) : LaneDoesWhen c eng op pre post := by
  intro s f i h hgoes hpre
  refine ⟨k f s i, by rw [hexec, laneInstr_goes h hgoes], ?_⟩
  obtain rfl := State.laneIss_fields h
  exact heffect s i h hpre

/-- An entry of a grain that MOVE has passed on: to a crew, or to nobody. -/
def Owner.isMoved (target : Option Nat) (e : DWord) : Prop :=
  Owner.claimed e = target.isSome ∧ ∀ k, target = some k → Owner.core e = k / 4 ∧ Owner.slot e = k % 4

/-- Grains pass on, and no other grain changes. -/
structure MovesGrains (target : Option Nat) (s x : State) (moved : Nat → Prop) : Prop where
  rest : { x with owners := s.owners } = s
  passed : ∀ g, moved g → Owner.isMoved target (x.ownerOf g)
  others : ∀ g, ¬ moved g → x.ownerOf g = s.ownerOf g

theorem State.ownerOf_put (s : State) (g n : Nat) (e : DWord) :
    ({ s with owners := put s.owners g e } : State).ownerOf n = if n = g then e else s.ownerOf n := by
  unfold State.ownerOf
  split
  · next h => rw [h, look_put_self]; rfl
  · next h => rw [look_put_ne _ _ h]

theorem State.claim_owners (s : State) (who : Who) (g : Nat) : ∃ owners, s.claim who g = { s with owners } ∧
    ∀ n, n ≠ g → (s.claim who g).ownerOf n = s.ownerOf n := by
  unfold State.claim
  dsimp only
  split
  · exact ⟨s.owners, rfl, fun _ _ => rfl⟩
  · exact ⟨_, rfl, fun n hn => (s.ownerOf_put g n _).trans (if_neg hn)⟩

/-- The entry of a grain that passes on. -/
def Owner.passTo (target : Option Nat) (e : DWord) : DWord :=
  match target with
  | none => Owner.make false false (Owner.loose e) (Owner.core e) (Owner.slot e) (Owner.ctx e / 64) (Owner.ctx e % 64)
      (Owner.moves e + 1)
  | some k => Owner.make true false false (k / 4) (k % 4) (Owner.ctx e / 64) (Owner.ctx e % 64) (Owner.moves e + 1)

theorem Owner.passTo_isMoved {target : Option Nat} (htarget : ∀ k, target = some k → k < 2 ^ 14) (e : DWord) :
    Owner.isMoved target (Owner.passTo target e) := by
  have hctx : Owner.ctx e % 64 < 64 := Nat.mod_lt _ (by norm_num)
  cases target with
  | none =>
    obtain ⟨hclaimed, -, -⟩ := Owner.make_fields (claimed := false) (parked := false) (loose := Owner.loose e)
      (moves := Owner.moves e + 1) (Owner.core_lt e) (Owner.slot_lt e) (Owner.ctx_lt e) hctx
    exact ⟨hclaimed, fun k hk => nomatch hk⟩
  | some k =>
    have hk := htarget k rfl
    obtain ⟨hclaimed, hcore, hslot⟩ := Owner.make_fields (claimed := true) (parked := false) (loose := false)
      (moves := Owner.moves e + 1) (show k / 4 < 2 ^ 12 by omega) (show k % 4 < 4 by omega) (Owner.ctx_lt e) hctx
    refine ⟨hclaimed, fun n hn => ?_⟩
    obtain rfl : k = n := Option.some.inj hn
    exact ⟨hcore, hslot⟩

theorem State.moveGrain_eq (s : State) (who : Who) (target : Option Nat) (g : Nat) : s.moveGrain who target g =
    { s.claim who g with owners := put (s.claim who g).owners g (Owner.passTo target ((s.claim who g).ownerOf g)) } := by
  cases target <;> rfl

/-- One grain that MOVE passes on. -/
theorem State.moveGrain_moves {target : Option Nat} (htarget : ∀ k, target = some k → k < 2 ^ 14) (s : State) (who : Who) (g : Nat) :
    MovesGrains target s (s.moveGrain who target g) (· = g) := by
  obtain ⟨owners, hclaim, hothers⟩ := s.claim_owners who g
  rw [State.moveGrain_eq]
  refine ⟨?_, ?_, fun n hn => ?_⟩
  · rw [hclaim]
  · rintro n rfl
    rw [State.ownerOf_put, if_pos rfl]
    exact Owner.passTo_isMoved htarget _
  · rw [State.ownerOf_put, if_neg hn, hothers n hn]

theorem MovesGrains.refl (target : Option Nat) (s : State) : MovesGrains target s s fun _ => False :=
  ⟨rfl, fun _ h => h.elim, fun _ _ => rfl⟩

theorem MovesGrains.trans {target : Option Nat} {s x y : State} {p q : Nat → Prop} (h : MovesGrains target s x p)
    (k : MovesGrains target x y q) : MovesGrains target s y fun g => p g ∨ q g where
  rest := by
    have hy : { y with owners := s.owners } = ({ ({ y with owners := x.owners } : State) with owners := s.owners } : State) := rfl
    rw [hy, k.rest, h.rest]
  passed g hg := by
    by_cases hq : q g
    · exact k.passed g hq
    · rw [k.others g hq]
      exact h.passed g (hg.resolve_right hq)
  others g hg := by
    rw [not_or] at hg
    exact (k.others g hg.2).trans (h.others g hg.1)

theorem MovesGrains.congr {target : Option Nat} {s x : State} {p q : Nat → Prop} (h : MovesGrains target s x p)
    (hpq : ∀ g, p g ↔ q g) : MovesGrains target s x q :=
  ⟨h.rest, fun g hg => h.passed g ((hpq g).mpr hg), fun g hg => h.others g (mt (hpq g).mp hg)⟩

theorem MovesGrains.foldl {α : Type} {target : Option Nat} {f : State → α → State} {p : α → Nat → Prop} (l : List α)
    (h : ∀ s, ∀ a ∈ l, MovesGrains target s (f s a) (p a)) (s : State) :
    MovesGrains target s (l.foldl f s) fun g => ∃ a ∈ l, p a g := by
  induction l generalizing s with
  | nil => exact (MovesGrains.refl target s).congr fun g => by simp
  | cons a l ih =>
    exact ((h s a (List.mem_cons_self ..)).trans (ih (fun s b hb => h s b (List.mem_cons_of_mem _ hb)) _)).congr fun g => by simp

/-- The state in which a MOVE has passed its grains on. -/
def Caller.moveState (c : Caller) (u : State) (target : Option Nat) : State :=
  c.lanes.foldl (fun s l => (c.moveGrains u l).foldl (fun s g => s.moveGrain (c.who s l) target g.1) s) (u.passWrites c.core)

theorem Caller.moveState_moves {target : Option Nat} (htarget : ∀ k, target = some k → k < 2 ^ 14) (c : Caller) (u : State) :
    MovesGrains target (u.passWrites c.core) (c.moveState u target) fun g => ∃ l ∈ c.lanes, ∃ e ∈ c.moveGrains u l, g = e.1 := by
  unfold Caller.moveState
  refine MovesGrains.foldl (p := fun l g => ∃ e ∈ c.moveGrains u l, g = e.1) c.lanes (fun s l _ => ?_) _
  exact MovesGrains.foldl (p := fun (e : Nat × Nat) g => g = e.1) (c.moveGrains u l)
    (fun s e _ => State.moveGrain_moves htarget s (c.who s l) e.1) s

/-- What MOVE does once its ranges are checked. -/
def Iss.moveTo (i : Iss) (f : Fields) (u : State) : State :=
  let c := Caller.warp i i.act
  let ref (l : Nat) : Ref := { h := c.handle l, o := c.off32 l, q := writeAsk 1 }
  let data (l : Nat) : DWord := w64 (c.handle l % 2 ^ 16)
  let shared := i.act &&& maskOf fun l => (c.moveGrains u l).any fun g =>
    (lanesOf i.act).any fun l' => l' != l && (c.moveGrains u l').any fun g' => g'.1 == g.1
  let foreign (l : Nat) : Option Nat :=
    ((c.moveGrains u l).find? fun g => Owner.claimed (u.ownerOf g.1) && !Owner.mine (u.ownerOf g.1) i.core i.w.ctx).map (·.2)
  let cls (l : Nat) : Nat :=
    if (c.moveGrains u l).any fun g => Owner.mine (u.ownerOf g.1) i.core i.w.ctx then Cls.grain else Cls.owner
  let bad := i.act &&& maskOf fun l => (foreign l).isSome
  if shared ≠ 0 then c.fault u Cls.bounds shared 2 0 ref
  else if f.simm ≥ 0 ∧ u.crewRank i.w.crew f.simm.toNat = none then c.fault u Cls.bounds i.act 2 0 ref
  else if bad ≠ 0 then
    i.raise u (cls (lowest bad)) (bad &&& maskOf fun l => cls l == cls (lowest bad)) (fun l => w64 ((foreign l).getD 0)) data
  else i.done (c.moveState u (if f.simm < 0 then none else u.crewRank i.w.crew f.simm.toNat))

theorem exec_move (f : Fields) (s : State) : exec (.move f) s = laneInstr 7 0x00 f s fun s i => i.acting s fun c =>
    c.follow s 2 (fun l => { h := c.handle l, o := c.off32 l, q := writeAsk 1 }) (c.moveOut s) (fun _ => .read 0) c.performed
      (i.moveTo f) := by
  rw [show exec (.move f) s = execMove f s from rfl, execMove]
  refine congrArg (laneInstr 7 0x00 f s) (funext fun s => funext fun i => ?_)
  rw [Iss.acting, Iss.acting]
  refine congrArg (ite _ _) ?_
  rfl

/-- A MOVE whose grains no other lane names, and of which no claimed one is another's. -/
theorem Iss.moveTo_passes {i : Iss} {f : Fields} {u : State} {target : Option Nat}
    (htarget : f.simm < 0 ∧ target = none ∨
      0 ≤ f.simm ∧ ∃ k, target = some k ∧ k < 2 ^ 14 ∧ u.crewRank i.w.crew f.simm.toNat = target)
    (hgrains : ∀ l ∈ lanesOf i.act, ∀ g ∈ (Caller.warp i i.act).moveGrains u l,
      (Owner.claimed (u.ownerOf g.1) = true → Owner.mine (u.ownerOf g.1) i.core i.w.ctx = true) ∧
      ∀ l' ∈ lanesOf i.act, l' ≠ l → ∀ g' ∈ (Caller.warp i i.act).moveGrains u l', g'.1 ≠ g.1) :
    i.moveTo f u = i.done ((Caller.warp i i.act).moveState u target) := by
  unfold Iss.moveTo
  extract_lets c ref data shared foreign cls bad
  have hshared : shared = 0 := and_maskOf_eq_zero fun l hl => by
    simp only [List.any_eq_false, Bool.and_eq_true, bne_iff_ne, ne_eq, beq_iff_eq, not_and, List.any_eq_true, not_exists]
    exact fun g hg l' hl' hne g' hg' => (hgrains l hl g hg).2 l' hl' hne g' hg'
  have hbad : bad = 0 := and_maskOf_eq_zero fun l hl => by
    have hnone : foreign l = none := by
      simp only [foreign, Option.map_eq_none_iff, List.find?_eq_none, Bool.and_eq_true, Bool.not_eq_true', not_and,
        Bool.not_eq_false]
      exact fun g hg => (hgrains l hl g hg).1
    rw [hnone]
    rfl
  rw [if_neg (not_not.mpr hshared), if_neg ?rank, if_neg (not_not.mpr hbad)]
  · rcases htarget with ⟨hneg, rfl⟩ | ⟨hpos, k, -, -, hrank⟩
    · rw [if_pos hneg]
    · rw [if_neg (by omega), hrank]
  · rcases htarget with ⟨hneg, -⟩ | ⟨-, k, rfl, -, hrank⟩
    · exact fun h => absurd h.1 (by omega)
    · exact fun h => nomatch hrank.symm.trans h.2

theorem move_does (u : State) (w : Warp) (target : Option Nat) : LaneDoesWhen .move 7 0x00 (fun s i => i.act ≠ 0 ∧
      (∀ l ∈ lanesOf i.act, ∃ pa sec, (Caller.warp i i.act).moveOut s l = .ok (.dev pa) sec) ∧
      (Caller.warp i i.act).performed s = .ok u ∧ u.warp? i.core i.slot = some w ∧
      (i.f.simm < 0 ∧ target = none ∨
        0 ≤ i.f.simm ∧ ∃ k, target = some k ∧ k < 2 ^ 14 ∧ u.crewRank i.w.crew i.f.simm.toNat = target) ∧
      (∀ l ∈ lanesOf i.act, ∀ g ∈ (Caller.warp i i.act).moveGrains u l,
        (Owner.claimed (u.ownerOf g.1) = true → Owner.mine (u.ownerOf g.1) i.core i.w.ctx = true) ∧
        ∀ l' ∈ lanesOf i.act, l' ≠ l → ∀ g' ∈ (Caller.warp i i.act).moveGrains u l', g'.1 ≠ g.1))
    (fun _ t i => ∃ x : State, Ended x t i w ∧ { x with owners := u.owners, wbuf := u.wbuf } = u ∧
      x.wbuf = (u.passWrites i.core).wbuf ∧
      (∀ l ∈ lanesOf i.act, ∀ g ∈ (Caller.warp i i.act).moveGrains u l,
        Owner.claimed (x.ownerOf g.1) = target.isSome ∧
        ∀ k, target = some k → Owner.core (x.ownerOf g.1) = k / 4 ∧ Owner.slot (x.ownerOf g.1) = k % 4) ∧
      ∀ g, (∀ l ∈ lanesOf i.act, ∀ e ∈ (Caller.warp i i.act).moveGrains u l, e.1 ≠ g) → x.ownerOf g = u.ownerOf g) := by
  refine .of_fields exec_move fun s i h ⟨hact, hrange, hperformed, hw, htarget, hgrains⟩ => ?_
  have hbound : ∀ k, target = some k → k < 2 ^ 14 := fun k hk => by
    rcases htarget with ⟨-, hnone⟩ | ⟨-, n, hn, hlt, -⟩
    · exact nomatch hnone.symm.trans hk
    · exact Option.some.inj (hn.symm.trans hk) ▸ hlt
  have hmoves := (Caller.warp i i.act).moveState_moves hbound u
  rw [Iss.acting_of_ne hact, Caller.follow_ok (fun l hl => ?ranges) hperformed, Iss.moveTo_passes htarget hgrains]
  case ranges =>
    obtain ⟨pa, sec, hok⟩ := hrange l hl
    exact ⟨_, _, hok⟩
  generalize (Caller.warp i i.act).moveState u target = x at hmoves
  have hwbuf : x.wbuf = (u.passWrites i.core).wbuf := (congrArg State.wbuf hmoves.rest :)
  have hwarps : x.warps = u.warps := (congrArg State.warps hmoves.rest :)
  refine ⟨x, Iss.done_ended_of ?_, ?_, hwbuf, fun l hl g hg => hmoves.passed g.1 ⟨l, hl, g, hg, rfl⟩, fun g hg =>
    hmoves.others g ?_⟩
  · rw [State.warp?, hwarps]
    exact hw
  · have h1 := congrArg (fun y : State => { y with wbuf := u.wbuf }) hmoves.rest
    exact h1
  · rintro ⟨l, hl, e, he, rfl⟩
    exact hg l hl e he rfl

end Sys2Proof.Machine
end

section
/-! Leases: LEASE and UNLEASE (R285, R287). -/

namespace Sys2Proof.Machine

/-! ### LEASE (R285) -/

/-- The lines that the lanes of a LEASE name. -/
def Caller.namedLines (c : Caller) (s : State) (loc : Nat → Loc) : List (Nat × Nat) :=
  c.lanes.map fun l => (Entry.base (s.entry (c.who s l) (c.handle l)) + c.off32 l, match loc l with | .dev pa => pa | _ => 0)

theorem Caller.namedLines_at {c : Caller} {loc : Nat → Loc} {pa : Nat → Nat} (h : ∀ l ∈ c.lanes, loc l = .dev (pa l)) (s : State) :
    c.namedLines s loc = c.lanes.map fun l => (Entry.base (s.entry (c.who s l) (c.handle l)) + c.off32 l, pa l) :=
  List.map_congr_left fun l hl => by rw [h l hl]

/-- The leases that a LEASE asks for. -/
def Iss.leasesFor (i : Iss) (f : Fields) (s : State) (ls : List (Nat × Nat)) : List Lease :=
  mapIx (fun n (x : Nat × Nat) =>
    { id := s.nextId + n, line := x.2 / 64, loc := .dev x.2, va := x.1, core := i.core, slot := i.slot,
      hold := f.imm.toNat, granted := false, ended := none, start := 0 }) 0 ls

/-- The state in which the leases of a warp are asked for, the first line's at its home. -/
def Iss.leaseAsked (i : Iss) (s : State) (ls : List (Nat × Nat)) (xs : List Lease) : State :=
  ({ s with nextId := s.nextId + ls.length, leaseQ := s.leaseQ ++ xs.take 1 } : State).onWarp i.core i.slot fun w =>
    { w with leases := w.leases ++ xs }

/-- What LEASE does once its lines are known. -/
def Iss.leaseAll (i : Iss) (f : Fields) (s : State) (ls : List (Nat × Nat)) : State :=
  let fault (why : Nat) : State :=
    i.raise s Cls.lease i.act (fun l => w64 ((Caller.warp i i.act).off32 l)) fun _ => w64 why
  if i.w.leases.length + ls.length > 2 then fault 0
  else if ls.any fun x => decide (x.1 < i.w.leases.foldl (fun n x => max n (x.va + 1)) 0) then fault 1
  else i.await (i.leaseAsked s ls (i.leasesFor f s ls)) i.act fun _ => .reply (s.nextId + ls.length - 1)

theorem exec_lease (f : Fields) (s : State) : exec (.lease f) s = laneInstr 7 0x05 f s fun s i => i.acting s fun c =>
    c.settle s 3 (fun l => { h := c.handle l, o := c.off32 l,
                             q := { w := 64, align := 64, acc := 3, ok4 := leaseOk, own := false } })
      (fun _ => .read 0) c.acquired fun loc s => i.leaseAll f s (leaseLines (c.namedLines s loc)) := by
  rw [show exec (.lease f) s = execLease f s from rfl, execLease]
  refine congrArg (laneInstr 7 0x05 f s) (funext fun s => funext fun i => ?_)
  rw [Iss.acting, Iss.acting]
  refine congrArg (ite _ _) ?_
  refine congrArg (Caller.settle _ s 3 _ _ _) (funext fun loc => funext fun s => ?_)
  extract_lets named lines fault top first xs s'
  have hlines : lines = leaseLines ((Caller.warp i i.act).namedLines s loc) := rfl
  rw [← hlines]
  clear_value lines
  rfl

theorem leaseTop_le (xs : List Lease) (n bound : Nat) (hn : n ≤ bound) (h : ∀ x ∈ xs, x.va < bound) :
    xs.foldl (fun n x => max n (x.va + 1)) n ≤ bound := by
  induction xs generalizing n with
  | nil => exact hn
  | cons x xs ih =>
    exact ih _ (max_le hn (h x (List.mem_cons_self ..))) fun y hy => h y (List.mem_cons_of_mem _ hy)

/-- With room for its lines, above those that the warp has, a LEASE asks for them and waits for the last. -/
theorem Iss.leaseAll_asks {i : Iss} {s : State} {ls : List (Nat × Nat)} (hroom : i.w.leases.length + ls.length ≤ 2)
    (hrising : ∀ x ∈ i.w.leases, ∀ y ∈ ls, x.va < y.1) (f : Fields) : i.leaseAll f s ls =
      i.await (i.leaseAsked s ls (i.leasesFor f s ls)) i.act fun _ => .reply (s.nextId + ls.length - 1) := by
  have htop : (ls.any fun x => decide (x.1 < i.w.leases.foldl (fun n x => max n (x.va + 1)) 0)) = false := by
    simp only [List.any_eq_false, decide_eq_true_eq, not_lt]
    exact fun y hy => leaseTop_le _ _ _ (Nat.zero_le _) fun x hx => hrising x hx y hy
  rw [Iss.leaseAll, if_neg (by omega), htop]
  rfl

theorem lease_does (pa : Nat → Nat) (ls : List (Nat × Nat)) : LaneDoesWhen .lease 7 0x05 (fun s i => i.act ≠ 0 ∧
      (Caller.warp i i.act).acquired s = .ok s ∧ (Caller.warp i i.act).reaches s
        (fun l => { h := (Caller.warp i i.act).handle l, o := (Caller.warp i i.act).off32 l,
                    q := { w := 64, align := 64, acc := 3, ok4 := leaseOk, own := false } }) pa ∧
      ls = leaseLines ((lanesOf i.act).map fun l => (Entry.base (s.entry ((Caller.warp i i.act).who s l)
        ((Caller.warp i i.act).handle l)) + (Caller.warp i i.act).off32 l, pa l)) ∧
      i.w.leases.length + ls.length ≤ 2 ∧ ∀ x ∈ i.w.leases, ∀ y ∈ ls, x.va < y.1)
    (fun s t i => ∀ xs : List Lease, xs = mapIx (fun n (x : Nat × Nat) =>
        { id := s.nextId + n, line := x.2 / 64, loc := .dev x.2, va := x.1, core := i.core, slot := i.slot,
          hold := i.f.imm.toNat, granted := false, ended := none, start := 0 }) 0 ls →
      OnlyWarp { s with nextId := s.nextId + ls.length, leaseQ := s.leaseQ ++ xs.take 1 } t i.core i.slot ∧
      ∃ w', t.warp? i.core i.slot = some w' ∧
        i.Stands { i.w with leases := i.w.leases ++ xs } w' i.act (.reply (s.nextId + ls.length - 1))) := by
  refine .of_fields exec_lease fun s i h ⟨hact, hacquired, hreach, hls, hroom, hrising⟩ xs hxs => ?_
  rw [Iss.acting_of_ne hact, Caller.settle_ok hreach rfl _ _ hacquired,
    Caller.namedLines_at (fun l hl => Caller.reaches_loc hreach hl), show (Caller.warp i i.act).lanes = lanesOf i.act from rfl,
    ← hls, Iss.leaseAll_asks hroom hrising]
  subst hxs
  have hwarp : (i.leaseAsked s ls (i.leasesFor i.f s ls)).warp? i.core i.slot =
      some { i.w with leases := i.w.leases ++ i.leasesFor i.f s ls } :=
    State.warp?_onWarp_of_eq (s := { s with nextId := s.nextId + ls.length, leaseQ := s.leaseQ ++ (i.leasesFor i.f s ls).take 1 })
      (State.laneIss_warp h) _
  obtain ⟨honly, w', hw', hstands⟩ := Iss.await_stands_of hwarp i.act (.reply (s.nextId + ls.length - 1))
  exact ⟨(State.onWarp_only _ _ _ _).trans honly, w', hw', hstands⟩

theorem leaseLines_one (va pa : Nat) : leaseLines [(va, pa)] = [(va / 64 * 64, pa / 64 * 64)] := rfl

/-! ### UNLEASE (R287) -/

theorem unlease_does : LaneDoesWhen .unlease 7 0x06 (fun s i => i.act ≠ 0 ∧
      (s.unleaseStatus i.w = 0 → s.warpFence i.core i.slot = none)) (fun s t i => ∀ u : State,
    u = (if s.unleaseStatus i.w = 0 then s.commitLeases i.core i.slot i.w.granted else s) →
    t = i.commit ((u.onWarp i.core i.slot fun w => { w with leases := w.leases.filter fun x => !x.granted }).tidyLeases)
      (fun _ x => x.setV i.f.d.toNat (w32 (s.unleaseStatus i.w)))) := by
  refine .of_lane (fun _ _ => rfl) fun s i h ⟨hact, hfence⟩ u hu => ?_
  have hnone : (if s.unleaseStatus i.w = 0 then s.warpFence i.core i.slot else none) = none := by
    split
    · next hzero => exact hfence hzero
    · rfl
  rw [Iss.acting_of_ne hact]
  simp only [hnone]
  rw [hu]
  rfl

/-- One buffered store of a lease is written, and nothing else. -/
theorem State.commitLeases_one {s : State} {id pa : Nat} {bs : List Byte} {ls : List Lease} (hpending : s.pending = [])
    (hbuf : s.leaseBuf = [(id, pa, bs)]) (hin : ∃ x ∈ ls, x.id = id) (core slot : Nat) :
    (s.commitLeases core slot ls).mem = s.mem.writeN pa bs := by
  have hmine : (ls.any fun x => x.id == id) = true := by
    obtain ⟨x, hx, hid⟩ := hin
    exact List.any_eq_true.mpr ⟨x, hx, beq_iff_eq.mpr hid⟩
  simp only [State.commitLeases, hpending, hbuf, List.filter_nil, List.foldl_nil, List.filter_cons, hmine, if_true,
    List.foldl_cons, State.store_mem, State.patchLine_mem]

section
variable {s : State} {w : Warp}

theorem State.unleaseStatus_held (hsome : w.granted ≠ []) (hall : ∀ x ∈ w.granted, s.holds x = true) : s.unleaseStatus w = 0 := by
  rw [State.unleaseStatus, if_neg hsome, if_pos (List.all_eq_true.mpr hall)]

theorem State.unleaseStatus_broken (hsome : ∃ x ∈ w.granted, s.holds x = false) :
    s.unleaseStatus w = if w.granted.any fun x => x.ended == some 2 then 2 else 1 := by
  obtain ⟨x, hx, hheld⟩ := hsome
  have hall : ¬ w.granted.all s.holds = true := fun h => by
    rw [List.all_eq_true.mp h x hx] at hheld
    cases hheld
  rw [State.unleaseStatus, if_neg (List.ne_nil_of_mem hx), if_neg hall]

end

/-- Settles O39: the guards, ranges, grains and leases by the lemmas of their instructions. -/
theorem homeInstructions : Obligations.HomeInstructions := by
  unfold Obligations.HomeInstructions
  refine ⟨fun pa u c op once hform => ⟨acquire_lane_does hform pa u, acquire_lead_does hform pa u⟩, grel_lane_does, grel_lead_does,
    fun pa sec lo hi => ?_, fun pa sec lo hi at_ => ?_, fun pa sec lo hi => ?_, fun pa sec lo hi at_ => ?_, fun s e pa h => ?_,
    discard_lane_does, discard_lead_does, fun _ _ _ _ _ => rfl, ownq_does, ownqPair_fields, move_does, lease_does, leaseLines_one,
    unlease_does, fun s core slot id pa bs ls h hpending hbuf hin => ?_, fun s w => ⟨fun hnone => if_pos hnone,
      fun hsome hall => State.unleaseStatus_held hsome hall, fun hbroken hcancelled => ?_, fun hbroken hnone => ?_⟩⟩
  · refine .of_effect (fun _ _ => rfl) (fun _ _ _ => rfl) fun s i h ⟨hact, hrange, hlo, hhi, hnone⟩ => ?_
    rw [Iss.elected_of_ne hact, Caller.publish_ends i.elect_lane hrange hlo hhi hnone]
    exact Iss.done_ended_of (State.laneIss_warp h)
  · refine .of_effect (fun _ _ => rfl) (fun _ _ _ => rfl) fun s i h ⟨hact, hrange, hlo, hhi, hkind, hspace, hscope, hpages⟩ => ?_
    rw [Iss.elected_of_ne hact, Caller.publish_performs i.elect_lane hrange hlo hhi hkind hspace hscope hpages]
    rfl
  · refine .of_issue (fun _ _ => rfl) fun s i h ⟨hrange, hlo, hhi, hnone⟩ => ?_
    rw [Caller.publish_ends rfl hrange hlo hhi hnone]
    exact LIss.done_became_of (State.leadIss_crew h)
  · refine .of_issue (fun _ _ => rfl) fun s i h ⟨hrange, hlo, hhi, hkind, hspace, hscope, hpages⟩ => ?_
    rw [Caller.publish_performs rfl hrange hlo hhi hkind hspace hscope hpages]
    rfl
  · refine ⟨s.publishAt_wbuf e pa, fun n hn => ?_, fun a ha => ?_⟩
    · rw [State.publishAt_mem, Memory.read_writeN_in h _ _ hn, List.getD_eq_getElem _ _ hn]
    · rw [State.publishAt_mem, Memory.read_writeN_out _ _ _ ha]
  · rw [State.commitLeases_one hpending hbuf hin]
    exact ⟨fun n hn => by rw [Memory.read_writeN_in h _ _ hn, List.getD_eq_getElem _ _ hn],
      fun a ha => Memory.read_writeN_out _ _ _ ha⟩
  · obtain ⟨x, hx, hended⟩ := hcancelled
    rw [State.unleaseStatus_broken hbroken, if_pos (List.any_eq_true.mpr ⟨x, hx, by rw [hended]; rfl⟩)]
  · rw [State.unleaseStatus_broken hbroken, if_neg]
    simp only [List.any_eq_true, beq_iff_eq, not_exists, not_and]
    exact hnone

end Sys2Proof.Machine
end

section
/-! Tasks and gangs: their release, placement and reservation, the hashing of buffers and the completion of a task (R357, R358,
R360, R390, R397, R398). -/

namespace Sys2Proof.Machine

/-! ### A task is released (R390) -/

theorem exec_taskDependenceRelease {s : State} {n : Nat} {t : Task} (ht : s.task? n = some t) (hreleased : t.released = false)
    (hdeps : t.deps = []) (hruns : s.runs t.ctx = true) (hweight : s.outweighed t = false) :
    exec (.taskDependenceRelease n) s =
      .next (s.onTask n fun t => { t with released := true, order := s.stamp, waiting := s.dies.map (·.cycle) }) := by
  have hreleasable : s.releasable t = true := by simp [State.releasable, hreleased, hdeps, hruns]
  rw [show exec (.taskDependenceRelease n) s = execTaskDependenceRelease n s from rfl, execTaskDependenceRelease, ht]
  simp only [hreleasable, hweight, Bool.not_false, and_self, if_true]

/-! ### A gang is placed (R357, R358, R360) -/

/-- Crews and warps are placed, and nothing else changes. -/
def State.SameButUnits (s t : State) : Prop := { t with crews := s.crews, warps := s.warps, stamp := s.stamp } = s

theorem State.SameButUnits.trans {s t u : State} (h : s.SameButUnits t) (k : t.SameButUnits u) : s.SameButUnits u := by
  unfold State.SameButUnits at *
  rw [← h, ← k]

theorem freeGroups_frame (n : Nat) (s : State) : s.SameButUnits (freeGroups n s).2 := by
  induction n generalizing s with
  | zero => rfl
  | succ n ih => exact State.SameButUnits.trans (t := s.draw.2) rfl (ih _)

theorem State.placeWarps_frame (s : State) (core crew task code lo hi : Nat) (t : Task) (entry : Word) (ks : List Nat) (rank : Nat) :
    s.SameButUnits (s.placeWarps core crew task code lo hi t entry ks rank) := by
  induction ks generalizing s rank with
  | nil => rfl
  | cons k ks ih =>
    have hwarp : ∀ (u : State) (w : Warp), u.SameButUnits (u.setWarp core k w) := fun _ _ => rfl
    exact ((freeGroups_frame (t.regs / 64) s).trans (hwarp _ _)).trans (ih _ _)

theorem State.placeCrews_frame (s : State) (gang task code lo hi : Nat) (t : Task) (tiles : List (Nat × Tile)) (cores : List Nat)
    (rank : Nat) : s.SameButUnits (s.placeCrews gang task code lo hi t tiles cores rank).2 ∧
      (s.placeCrews gang task code lo hi t tiles cores rank).1.length = cores.length := by
  induction cores generalizing s rank with
  | nil => exact ⟨rfl, rfl⟩
  | cons core cores ih =>
    have hcrew : ∀ (u : State) (key : Nat) (c : Crew), u.SameButUnits { u with crews := put u.crews key c } := fun _ _ _ => rfl
    exact ⟨((hcrew _ _ _).trans (State.placeWarps_frame ..)).trans (ih _ _).1, congrArg Nat.succ (ih _ _).2⟩

theorem State.gangCores_length {s : State} {cluster : Nat} {gangOf : Option Nat} {ctx crews : Nat} {n : Need} {cores : List Nat}
    (h : s.gangCores cluster gangOf ctx n crews = some cores) : cores.length = crews := by
  unfold State.gangCores at h
  dsimp only at h
  split at h
  · cases h
  · obtain rfl := Option.some.inj h
    rw [List.length_take]
    omega

/-- A gang placed stands with its place in the grid and its crews, and its task reserves no cores any more. -/
theorem State.placeGang_gang (s : State) (task cluster ix lo hi : Nat) (t : Task) (tiles : List (Nat × Tile)) (cores : List Nat) :
    ∃ g, look (s.placeGang task cluster ix lo hi t tiles cores).gangs s.nextId = some g ∧ g.ctx = t.ctx ∧ g.task = task ∧
      g.cluster = cluster ∧ g.x = ix % t.gx ∧ g.y = ix / t.gx % t.gy ∧ g.z = ix / (t.gx * t.gy) ∧
      g.crews.length = cores.length ∧ (s.placeGang task cluster ix lo hi t tiles cores).mem = s.mem ∧
      (s.placeGang task cluster ix lo hi t tiles cores).clusters =
        mapS s.clusters fun _ k => { k with reserve := k.reserve.filter fun r => r.1 != task } := by
  obtain ⟨hframe, hlength⟩ := State.placeCrews_frame { s with nextId := s.nextId + 1 } s.nextId task t.code lo hi t tiles cores 0
  have hmem : (State.placeCrews { s with nextId := s.nextId + 1 } s.nextId task t.code lo hi t tiles cores 0).2.mem = s.mem :=
    (congrArg State.mem hframe :)
  have hclusters : (State.placeCrews { s with nextId := s.nextId + 1 } s.nextId task t.code lo hi t tiles cores 0).2.clusters =
    s.clusters := (congrArg State.clusters hframe :)
  refine ⟨_, look_put_self _ _ _, rfl, rfl, rfl, rfl, rfl, rfl, hlength, hmem, ?_⟩
  rw [← hclusters]
  rfl

/-- A virtual device below its floor goes before one that is not. -/
theorem State.offered_below_floor {s : State} {cluster : Nat} {t : Task} {a : Nat} {v : Vd} (hv : (a, v) ∈ s.vds) (hbelow : 0 < s.shortfall cluster a)
    (habove : s.shortfall cluster (s.vdOf t.ctx) ≤ 0) (hwants : s.wants cluster a = true) (n : Nat) :
    s.offered cluster n t.ctx = false := by
  have hahead : s.ahead cluster a (s.vdOf t.ctx) = true := by
    rw [State.ahead, if_pos hbelow]
    exact decide_eq_true (by omega)
  have hturn : s.vdTurn cluster t.ctx = false := by
    rw [State.vdTurn, Bool.not_eq_false', List.any_eq_true]
    exact ⟨(a, v), hv, by rw [hahead, hwants]; rfl⟩
  rw [State.offered, hturn]
  rfl

section
variable {s : State} {n cluster ix : Nat} {t : Task} (ht : s.task? n = some t)
include ht

theorem exec_gangPlacement {cores : List Nat} {h : Header} {ds : List (Nat × Tile)} (hix : t.nextIx = some ix)
    (hdue : s.gangDue cluster n t = true) (hcores : s.gangCores cluster (some n) t.ctx t.need t.crewCount = some cores)
    (hoffered : s.offered cluster n t.ctx = true)
    (hcode : s.readCode (s.dispatchWho (.hash n) t.ctx (cluster * 16) (some t.args) t.answers) t.code = .ok h ds) :
    exec (.gangPlacement n cluster) s = .next ((s.onTask n fun t => { t with answers := [] }).placeGang n cluster ix h.codeOff
      (h.codeOff + h.codeBytes) t ds cores) := by
  rw [show exec (.gangPlacement n cluster) s = execGangPlacement n cluster s from rfl, execGangPlacement, ht]
  simp only [hix, hdue, hoffered, hcores, Bool.and_self, if_true, State.tryGang, hcode]

theorem exec_gangPlacement_behind (hoffered : s.offered cluster n t.ctx = false) :
    exec (.gangPlacement n cluster) s = .next s := by
  rw [show exec (.gangPlacement n cluster) s = execGangPlacement n cluster s from rfl, execGangPlacement, ht]
  cases hix : t.nextIx with
  | none => simp only [hix]
  | some ix => simp only [hix, hoffered, Bool.and_false, Bool.false_eq_true, if_false]

/-! ### Reservation (R357) -/

theorem exec_gangReservation {cores : List Nat} (hix : t.nextIx = some ix) (hdue : s.gangDue cluster n t = true)
    (hwaited : t.waiting.getD (cluster / 64) 0 + 65536 ≤ s.clusterCycle cluster)
    (hfree : ∀ e ∈ s.clusters, e.2.reserve.all (fun r => r.1 != n) = true)
    (hcores : cores = (coresIn cluster).filter fun c => t.need.onEmpty c && s.open? c (some n) t.ctx)
    (hroom : t.crewCount ≤ cores.length) : exec (.gangReservation n cluster) s = .next { s with
      clusters := adjust s.clusters cluster fun k => { k with reserve := k.reserve ++ [(n, cores.take t.crewCount)] } } := by
  have hall : (s.clusters.all fun e => e.2.reserve.all fun r => r.1 != n) = true := List.all_eq_true.mpr hfree
  subst hcores
  rw [show exec (.gangReservation n cluster) s = execGangReservation n cluster s from rfl, execGangReservation, ht]
  exact congrArg _ (if_pos ⟨by rw [hix]; rfl, hdue, hwaited, hall, hroom⟩)

/-! ### Result buffers are hashed (R397, R398) -/

theorem exec_measureHashing {b : Buffer} {bs : List Byte} (hb : firstBuffer t.buffers = some b) (hworked : t.worked = true)
    (hwait : t.wait = Wait.none) (hruns : s.runs t.ctx = true)
    (hread : s.hubRead (s.hashWho n t) b.handle b.off b.len 1 Entry.pr = .ok bs) :
    exec (.measureHashing n) s = .next ((s.extend t.ctx tagRslt bs).onTask n fun t => t.hashed b none) := by
  rw [show exec (.measureHashing n) s = execMeasureHashing n s from rfl, execMeasureHashing, ht]
  simp only [hb, hworked, hwait, hruns, and_self, if_true, hread]

end

theorem Task.hashed_failed (t : Task) (b : Buffer) : (t.hashed b none).failed = t.failed := by
  rw [Task.hashed]
  cases t.failed <;> rfl

/-! ### A task completes (R32, R390, R394) -/

/-- The tasks of the part stay. -/
def State.SameTasks (s t : State) : Prop := t.tasks = s.tasks

theorem State.SameTasks.trans {s t u : State} (h : s.SameTasks t) (k : t.SameTasks u) : s.SameTasks u := Eq.trans k h

theorem State.store_tasks (s : State) (pa : Nat) (bs : List Byte) : s.SameTasks (s.store pa bs) :=
  (congrArg State.tasks (s.store_frame pa bs) :)

theorem State.storeHub_tasks (s : State) (pa : Nat) (bs : List Byte) : s.SameTasks (s.storeHub pa bs) := by
  have unheld : ∀ (u : State) (n : Nat), (u.unhold pa n).tasks = u.tasks := fun _ _ => rfl
  exact (unheld _ _).trans (s.store_tasks pa bs)

theorem State.requestWalk_tasks (s : State) (c page acc hub : Nat) (host : Bool) :
    s.SameTasks (s.requestWalk c page acc hub host).2 := by
  unfold State.requestWalk
  split <;> rfl

theorem State.requestService_tasks (s : State) (c : Nat) (page : Nat × Bool) (acc hub : Nat) :
    s.SameTasks (s.requestService c page acc hub).2 := by
  unfold State.requestService
  dsimp only
  split <;> exact s.requestWalk_tasks c page.1 acc hub page.2

theorem State.openFid_tasks {s t : State} {vd id : Nat} {f : Fid} (h : s.openFid vd f = some (id, t)) : s.SameTasks t := by
  unfold State.openFid at h
  split at h
  · cases h
  · split at h
    · cases h
    · simp only [Option.some.injEq, Prod.mk.injEq] at h
      obtain ⟨-, rfl⟩ := h
      have kept : ∀ (u : State) k g, (u.onVd k g).tasks = u.tasks := fun _ _ _ => rfl
      exact (kept _ _ _).trans (s.draw.2.store_tasks _ _)

theorem State.postFault_tasks (s : State) (a : Agent) (c va acc cause eng core : Nat) :
    s.SameTasks (s.postFault a c va acc cause eng core).2 := by
  unfold State.postFault
  dsimp only
  split
  · rfl
  · split
    · dsimp only
      split
      · refine Eq.trans (State.store_tasks _ _ _) ?_
        rfl
      · rfl
    · split
      case h_1 h => exact State.openFid_tasks h
      case h_2 => rfl

theorem State.postFaults_tasks (s : State) (a : Agent) (c acc eng core : Nat) (pages : List (Nat × Nat)) :
    s.SameTasks (s.postFaults a c acc eng core pages).2 := by
  induction pages generalizing s with
  | nil => rfl
  | cons page pages ih => exact (s.postFault_tasks a c page.1 acc page.2 eng core).trans (ih _)

theorem State.signalled_tasks (s : State) (q : Nat) (now : Bool) : s.SameTasks (s.signalled q now) := by
  have interrupt : ∀ u : State, u.SameTasks (u.interrupt q) := fun u => by
    unfold State.interrupt
    split
    · rfl
    · dsimp only
      split <;> rfl
  unfold State.signalled
  dsimp only
  split
  · rfl
  · split
    · exact interrupt (s.onQi q _)
    · rfl

/-- Records that go out, or wait, change no task. -/
theorem State.flushN_tasks (n : Nat) (s : State) (q : Nat) : s.SameTasks (State.flushN n s q) := by
  induction n generalizing s with
  | zero => rfl
  | succ n ih =>
    have written {t : State} (h : s.SameTasks t) (g : Qi → Qi) (now : Bool) :
        s.SameTasks (State.flushN n ((t.onQi q g).signalled q now) q) :=
      (h.trans (State.signalled_tasks (t.onQi q g) q now)).trans (ih _)
    have dropped (g : Qi → Qi) : s.SameTasks (State.flushN n (s.onQi q g) q) := ih (s.onQi q g)
    simp only [State.flushN]
    split
    · rfl
    · split
      · rfl
      · split
        · exact dropped _
        · split
          · split
            · rfl
            · exact written (s.storeHub_tasks _ _) _ _
          · exact written (t := s.emit _) rfl _ _
          · exact s.postFaults_tasks _ _ _ _ _ _
          · exact s.requestService_tasks _ _ _ _
          · exact s.requestWalk_tasks _ _ _ _ _
          · exact dropped _

theorem State.post_tasks (s : State) (q : Nat) (r : Rec) : s.SameTasks (s.post q r) := by
  have flush : ∀ u : State, u.SameTasks (u.flush q) := fun u => by
    unfold State.flush
    split
    · rfl
    · split
      · exact u.flushN_tasks _ q
      · rfl
  unfold State.post
  split
  · rfl
  · split
    · exact flush (s.onQi q _)
    · rfl

theorem State.taskRecord_tasks (s : State) (n : Nat) (t : Task) : s.SameTasks (s.taskRecord n t) := by
  have recorded : ∀ (u : State) (q : Nat) (r : Rec), u.SameTasks ((u.post q r).letGo q) := fun u q r => u.post_tasks q r
  unfold State.taskRecord
  dsimp only
  split
  · split
    · rfl
    · unfold State.launchStep
      dsimp only
      split
      · rfl
      · exact recorded (State.onQi { s with launches := drop s.launches _ } _ _) _ _
  · exact recorded (s.onQi t.qi _) _ _

theorem exec_taskCompletionPoint {s : State} {n : Nat} {t : Task} (ht : s.task? n = some t) (hworked : t.worked = true)
    (hbuffers : t.buffers = []) (hwait : t.wait = Wait.none) (hruns : s.runs t.ctx = true) (hfailed : t.failed = none) :
    exec (.taskCompletionPoint n) s = .next (((s.addFp t).retire n t).taskRecord n t) := by
  rw [show exec (.taskCompletionPoint n) s = execTaskCompletionPoint n s from rfl, execTaskCompletionPoint, ht]
  simp only [hworked, hbuffers, hwait, hruns, and_self, if_true, State.stopMeasured, hfailed]

/-- A task retired is gone, and none waits for it. -/
theorem State.retire_tasks (s : State) (n : Nat) (t : Task) : (s.retire n t).task? n = none ∧
    ∀ m t', (s.retire n t).task? m = some t' → n ∉ t'.deps := by
  have hlook : ∀ m, (s.retire n t).task? m = (look (drop s.tasks n) m).map fun u => { u with deps := u.deps.filter (· != n) } :=
    fun m => look_mapS' (drop s.tasks n) (fun _ u => { u with deps := u.deps.filter (· != n) }) m
  refine ⟨by rw [hlook, look_drop_self]; rfl, fun m t' h => ?_⟩
  rw [hlook] at h
  obtain ⟨u, -, rfl⟩ := Option.map_eq_some_iff.mp h
  simp

end Sys2Proof.Machine
end

section
/-! Continuations gathered and placed, and the events of dispatch (R367 to R369). -/

namespace Sys2Proof.Machine

/-! ### Groups (R367, R369) -/

/-- The warp that a group of records launches. -/
def State.groupWarp (s : State) (cluster : Nat) (key : GroupKey) : ContWarp :=
  { key, cluster, recs := (s.groupOf cluster key).take 32, since := s.clusterCycle cluster, wait := .none, answers := [] }

theorem State.launchGroup_launches (s : State) (cluster : Nat) (key : GroupKey) :
    look (s.launchGroup cluster key).contWarps s.nextId = some (s.groupWarp cluster key) ∧
      (s.launchGroup cluster key).mem = s.mem ∧ (s.launchGroup cluster key).gather = s.gather.filter fun r =>
        !(((s.groupWarp cluster key).recs.map fun r => r.id).contains r.id) :=
  ⟨look_put_self _ _ _, rfl, rfl⟩

theorem exec_continuationGatherTimeout {s : State} {cluster t : Nat} {key : GroupKey}
    (ht : minOf ((s.groupOf cluster key).map (·.since)) = some t) (hruns : s.runs key.ctx = true)
    (hdue : t + 2048 ≤ s.clusterCycle cluster) :
    exec (.continuationGatherTimeout cluster key) s = .next (s.launchGroup cluster key) := by
  rw [show exec (.continuationGatherTimeout cluster key) s = execContinuationGatherTimeout cluster key s from rfl,
    execContinuationGatherTimeout, ht]
  simp only [hruns, hdue, decide_true, Bool.and_self, if_true]

theorem State.enterGather_ctx? (s : State) (r : ContRec) (n : Nat) : (s.enterGather r).ctx? n = s.ctx? n := by
  unfold State.enterGather
  dsimp only
  split <;> rfl

theorem exec_overflowRecordReturn {s : State} {n : Nat} {x : Ctx} {r : ContRec} (hx : s.ctx? n = some x)
    (hr : x.overflow.find? (fun r => decide (s.gathered n r.cluster < x.quota)) = some r) (hruns : s.runs n = true) :
    exec (.overflowRecordReturn n) s = .next
      ((s.onCtx n fun x => { x with overflow := x.overflow.filter fun y => y.id != r.id }).enterGather r) := by
  rw [show exec (.overflowRecordReturn n) s = execOverflowRecordReturn n s from rfl, execOverflowRecordReturn, hx]
  simp only [hr, hruns, if_true]

/-! ### Placement of a launched warp (R367, R368) -/

section
variable {s : State} {id core k : Nat} {ks : List Nat} {c : ContWarp} {h : Header}

/-- The state in which a launched warp stands in its slot. -/
def State.contPlaced (s : State) (id core k : Nat) (w : Warp) : State :=
  ({ s with contWarps := drop s.contWarps id } : State).setWarp core k w

theorem State.contPlaced_stands (s : State) (id core k : Nat) (w : Warp) : look (s.contPlaced id core k w).contWarps id = none ∧
    (s.contPlaced id core k w).warp? core k = some w ∧ (s.contPlaced id core k w).mem = s.mem :=
  ⟨look_drop_self _ _, look_put_self _ _ _, rfl⟩

variable (hheader : s.contHeader core c = .ok h) (hentry : h.entryOk c.key.entry.toNat = true)
  (hslots : s.freeSlots core = k :: ks) (hfits : s.fits core (c.need h) = true)
include hheader hentry hslots hfits

theorem State.placeCont_places (id : Nat) : s.placeCont id core c = s.contPlaced id core k (c.warp h (s.cycleOf core)) := by
  simp only [State.placeCont, hheader, hentry, hslots, hfits, Bool.not_true, Bool.false_eq_true, if_false, if_true,
    State.contPlaced]

variable (hc : look s.contWarps id = some c) (hwait : c.wait = Wait.none) (hruns : s.runs c.key.ctx = true)
  (hopen : s.open? core none c.key.ctx = true) (hturn : s.contTurn (clusterOf core) c = true)
include hc hwait hruns hopen hturn

theorem exec_continuationPlacement (hhome : clusterOf core = c.cluster) : exec (.continuationPlacement id core) s =
    .next (s.contPlaced id core k (c.warp h (s.cycleOf core))) := by
  rw [show exec (.continuationPlacement id core) s = execContinuationPlacement id core s from rfl, execContinuationPlacement, hc,
    ← State.placeCont_places hheader hentry hslots hfits id]
  exact congrArg _ (if_pos ⟨hhome, hwait, hruns, hopen, hturn⟩)

theorem exec_continuationRemotePlacement (hlate : c.since + 2048 ≤ s.clusterCycle c.cluster)
    (hnofit : s.contFits c.cluster c = false) : exec (.continuationRemotePlacement id core) s =
    .next (s.contPlaced id core k (c.warp h (s.cycleOf core))) := by
  rw [show exec (.continuationRemotePlacement id core) s = execContinuationRemotePlacement id core s from rfl,
    execContinuationRemotePlacement, hc, ← State.placeCont_places hheader hentry hslots hfits id]
  exact congrArg _ (if_pos ⟨hlate, hwait, hruns, hnofit, hopen, hturn⟩)

end

/-! ### The warp of a group (R368) -/

theorem look_mapIx {α : Type} (l : List α) (i n : Nat) (h : i ≤ n) : look (mapIx (fun k v => (k, v)) i l) n = l[n - i]? := by
  induction l generalizing i with
  | nil => rfl
  | cons x l ih =>
    rw [mapIx, look]
    by_cases hi : i = n
    · rw [if_pos hi, hi, Nat.sub_self]
      rfl
    · rw [if_neg hi, ih (i + 1) (by omega), show n - i = (n - (i + 1)) + 1 by omega]
      rfl

/-- A lane of the warp as its record gives it. -/
def ContRec.lane (r : ContRec) (entry : Word) : Lane :=
  { Lane.fresh entry with v := mapIx (fun k v => (k, v)) 0 r.payload, joinCtr := r.joinH }

theorem Warp.placed_lane (ctx task : Nat) (crew : Option Nat) (code lo hi regs rank : Nat) (entry live : Word) (cycle : Nat)
    {l : Nat} (hl : l < 32) : (Warp.placed ctx task crew code lo hi regs rank entry live cycle).lane l = Lane.fresh entry := by
  show (List.replicate 32 (Lane.fresh entry)).getD l _ = _
  rw [List.getD_eq_getElem _ _ (by rwa [List.length_replicate]), List.getElem_replicate]

theorem ContWarp.warp_lane (c : ContWarp) (h : Header) (cycle : Nat) {l : Nat} {r : ContRec} (hl : l < 32) (hr : c.recs[l]? = some r) :
    (c.warp h cycle).lane l = r.lane c.key.entry := by
  refine (Warp.lane_onLanes _ _ l (by rwa [Warp.placed, List.length_replicate])).trans ?_
  simp only [hr, Warp.placed_lane _ _ _ _ _ _ _ _ _ _ _ hl]
  rfl

theorem ContWarp.warp_live (c : ContWarp) (h : Header) (cycle : Nat) {l : Nat} (hl : l < 32) :
    bitOf (c.warp h cycle).live l = decide (l < c.recs.length) := by
  refine (bitOf_maskOf _ l).trans ?_
  rw [decide_eq_true hl, Bool.true_and]

/-- A register of a lane holds its word of the record's payload. -/
theorem ContRec.lane_payload (r : ContRec) (entry : Word) {n : Nat} (h : n < r.payload.length) :
    look (r.lane entry).v n = some (r.payload.getD n 0) := by
  rw [ContRec.lane, look_mapIx _ _ _ (Nat.zero_le n), Nat.sub_zero, List.getElem?_eq_getElem h, List.getD_eq_getElem _ _ h]

/-- Settles O47: each event by the lemma of the state it leaves. -/
theorem dispatchEvents : Obligations.DispatchEvents := by
  unfold Obligations.DispatchEvents
  refine ⟨fun s n t ht hreleased hdeps hruns hweight => ?_, fun s n cluster ix t cores h ds ht hix hdue hcores hoffered hcode => ?_,
    fun s n cluster a t v ht hv hbelow habove hwants =>
      exec_gangPlacement_behind ht (State.offered_below_floor hv hbelow habove hwants n),
    fun s n cluster ix t cores ht hix hdue hwaited hfree hcores hroom =>
      exec_gangReservation ht hix hdue hwaited hfree hcores hroom,
    fun s n t b bs ht hb hworked hwait hruns hread => ?_, fun s n t ht hworked hbuffers hwait hruns hfailed => ?_,
    fun s cluster t key ht hruns hdue => ?_,
    fun s id core k ks c h hc hwait hruns hopen hslots hheader hentry hfits hturn => ⟨fun hhome => ?_, fun hlate hnofit => ?_⟩,
    fun c h cycle l _ hl => ⟨c.warp_live h cycle hl, fun r hr => ?_⟩, fun s n x r hx hr hruns => ?_⟩
  · exact ⟨_, exec_taskDependenceRelease ht hreleased hdeps hruns hweight, State.task?_onTask_of_eq ht _, rfl⟩
  · obtain ⟨g, hg, hctx, htask, hcluster, hx, hy, hz, hcrews, hmem, hclusters⟩ :=
      (s.onTask n fun t => { t with answers := [] }).placeGang_gang n cluster ix h.codeOff (h.codeOff + h.codeBytes) t ds cores
    refine ⟨_, g, exec_gangPlacement ht hix hdue hcores hoffered hcode, hg, hctx, htask, hcluster, hx, hy, hz,
      hcrews.trans (State.gangCores_length hcores), hmem, fun k c hc => ⟨{ c with reserve := c.reserve.filter fun r => r.1 != n },
        ?_, ?_⟩⟩
    · rw [hclusters, look_mapS']
      exact congrArg (Option.map _) hc
    · exact List.all_eq_true.mpr fun r hr => (List.mem_filter.mp hr).2
  · exact ⟨_, _, exec_measureHashing ht hb hworked hwait hruns hread,
      State.task?_onTask_of_eq (s := s.extend t.ctx tagRslt bs) ht _, rfl, t.hashed_failed b, rfl,
      fun x hx => State.ctx?_onCtx_of_eq hx _⟩
  · have htasks := ((s.addFp t).retire n t).taskRecord_tasks n t
    obtain ⟨hgone, hdeps⟩ := (s.addFp t).retire_tasks n t
    refine ⟨_, exec_taskCompletionPoint ht hworked hbuffers hwait hruns hfailed, ?_, fun m t' hm => hdeps m t' ?_⟩
    · rw [State.task?, htasks]
      exact hgone
    · rw [State.task?, htasks] at hm
      exact hm
  · obtain ⟨hwarp, hmem, hgather⟩ := s.launchGroup_launches cluster key
    exact ⟨_, _, exec_continuationGatherTimeout ht hruns hdue, hwarp, rfl, rfl, rfl, hmem, hgather⟩
  · exact ⟨_, exec_continuationPlacement hheader hentry hslots hfits hc hwait hruns hopen hturn hhome,
      s.contPlaced_stands id core k _⟩
  · exact ⟨_, exec_continuationRemotePlacement hheader hentry hslots hfits hc hwait hruns hopen hturn hlate hnofit,
      s.contPlaced_stands id core k _⟩
  · rw [c.warp_lane h cycle hl hr]
    exact ⟨rfl, rfl, fun n hn => r.lane_payload _ hn⟩
  · exact ⟨_, _, exec_overflowRecordReturn hx hr hruns, (State.enterGather_ctx? _ _ _).trans (State.ctx?_onCtx_of_eq hx _), rfl,
      State.enterGather_mem _ _⟩

end Sys2Proof.Machine
end
